-- ==== Sys2Proof/Word.lean ====
section
/-! DEFINITION. Words, bytes and their plainest arithmetic. Internal addresses and register offsets are natural numbers once
they have been computed; a value the manual treats as bits is a bit vector of its width. -/

namespace Sys2Proof

/-- A Velkor register (R144). -/
abbrev Word := BitVec 64

/-- A register of the map (R580). -/
abbrev W32 := BitVec 32

/-- One byte. -/
abbrev Byte := BitVec 8

/-- Bits `hi` down to `lo` of a natural number. -/
def bits (n hi lo : Nat) : Nat := n / 2 ^ lo % 2 ^ (hi + 1 - lo)

/-- The least number of `d`-sized pieces that hold `n` (ceil(n / d)). -/
def ceilDiv (n d : Nat) : Nat := (n + d - 1) / d

/-- 1 for true, 0 for false. -/
def b2n (b : Bool) : Nat := if b then 1 else 0

/-- The bytes of a value, the lowest byte first. -/
def bytesLE : Nat → Nat → List Byte
  | 0, _ => []
  | n + 1, v => BitVec.ofNat 8 v :: bytesLE n (v / 256)

/-- The value of bytes, the lowest byte first. -/
def valLE : List Byte → Nat
  | [] => 0
  | b :: bs => b.toNat + 256 * valLE bs

/-- The bytes of a value in network order, the highest byte first. -/
def bytesBE (n v : Nat) : List Byte := (bytesLE n v).reverse

/-- The value of bytes in network order. -/
def valBE (bs : List Byte) : Nat := valLE bs.reverse

/-- A signed reading of the low `w` bits. -/
def sint (w n : Nat) : Int := if n % 2 ^ w < 2 ^ (w - 1) then (n % 2 ^ w : Nat) else (n % 2 ^ w : Nat) - (2 ^ w : Nat)

/-- The low `w` bits of an integer, two's complement. -/
def uint (w : Nat) (i : Int) : Nat := (i % (2 ^ w : Nat)).toNat

end Sys2Proof
end

