-- ==== Sys2Proof/Syntax.lean ====
section
/-! DEFINITION. The commands of the block: one constructor per row of the table of operations and events. A command that is an
access to a register carries the requester; a command that is an instruction of a thread carries the thread's agent ID and the
decoded operands; a command that is an event carries what the outside world supplies with it (the bytes of a frame, an edge,
the physical outcome of a training or a test). -/

namespace Sys2Proof

/-- A thread or context that executes instructions, by agent ID (R7): engine threads 0x000–0x7FF, control contexts
0x800–0x80F, the Fumarole core 0x810. -/
abbrev Agent := Fin 0x811

/-- An engine thread by global thread number (R5). -/
abbrev EngThr := Fin 2048

/-- The agent ID of a register access (R586). -/
abbrev Req := BitVec 12

/-- Front port (R8). -/
abbrev PortN := Fin 64
/-- Any port (R8). -/
abbrev AnyPort := Fin 72
/-- Traffic class (R9). -/
abbrev ClassN := Fin 8
/-- Pipeline (R3). -/
abbrev PipeN := Fin 16
/-- Engine (R3). -/
abbrev EngN := Fin 256
/-- Cluster (R3). -/
abbrev CluN := Fin 64
/-- Half: 0 is A, 1 is B (R3). -/
abbrev HalfN := Fin 2
/-- Geyser task (R391). -/
abbrev TaskN := Fin 4096
/-- Instance (R445). -/
abbrev InstN := Fin 256
/-- Ring pair (R452). -/
abbrev RingN := Fin 4096
/-- HBM pseudo-channel (R467). -/
abbrev PcN := Fin 64

/-- A register number of an instruction field (R144). -/
abbrev Reg := Fin 32
/-- A condition code (R164). -/
abbrev Cond := BitVec 4
/-- A segment number of an instruction field (R158). -/
abbrev SegN := Fin 16

/-- MOV in its register forms and its short immediate form (R167). -/
inductive MovForm where
  | regShort (rs : Reg)
  | regLong (rs : Reg)
  | imm7 (imm : BitVec 7)
  deriving DecidableEq, Repr

/-- The address forms of the loads and stores that also have a short form (R157, R168): the long form names a segment and a
displacement; the short LDD and STD name s2 or s3 and a word offset; the short LDNH and LDNW take s1 and the register alone. -/
inductive MemForm where
  | long (seg : SegN) (disp : BitVec 11)
  | word (s3 : Bool) (off : BitVec 6)
  | s1
  deriving DecidableEq, Repr

/-- What a mispredicted branch found issued down the wrong path (R162, R200): nothing, an issue without a fused-unit
instruction, or an issue whose fused-unit instruction had been accepted. -/
inductive WrongPath where
  | nothing | plain | fused
  deriving DecidableEq, Repr

/-- A register access: a read, or a write of a value. -/
inductive RegAcc where
  | read
  | write (v : BitVec 32)
  deriving DecidableEq, Repr

/-- The lane registers of an SDS page (R42). -/
inductive LaneReg where
  | mapTx | mapRx | pol
  deriving DecidableEq, Repr

/-- What the protection of a lookup memory found while a lookup read it (R219, R244, R538). -/
inductive LkEcc where
  | clean
  | corrected
  | uncorrected (bad : BitVec 5)
  | bothReplicas (bad : BitVec 5)
  deriving DecidableEq, Repr

/-- A frame as it comes off the lanes: its bytes, and how many codewords of it the FEC corrected and could not correct (R12, R61). -/
structure LineFrame where
  bytes : List Byte
  corr  : Nat
  unc   : Nat
  deriving DecidableEq, Repr

/-- A pseudo-channel, and which of its banks can take a command now (R471). -/
structure BankTurn where
  pc    : PcN
  ready : BitVec 32
  deriving DecidableEq, Repr

/-- What the ECC of an HBM access found (R477). -/
inductive HbmEcc where
  | clean | correctable | uncorrectable
  deriving DecidableEq, Repr

/-- A keep-alive service that sends on its own (R505). -/
inductive KaSvc where
  | lacp | lldp | ptp | bfd
  deriving DecidableEq, Repr

/-- The strap inputs (R609, R611, R616). -/
inductive StrapN where
  | filtRst | filtTime | slewIo18 | slewIo33 | sscSel | sscFm
  deriving DecidableEq, Repr

/-- A command of the block. -/
inductive Instr where

  /-- FRAME_RECEIVE (R12): A frame arrives on a front port and is decoded by the MAC, PCS and FEC, with its bytes written into Sinter buffers as
    they arrive. -/
  | frameReceive (port : PortN) (frame : LineFrame)
  /-- FCS_FAILURE (R25): An FCS failure is detected and the frame is removed, dropped at egress or stomped, according to when it was detected. -/
  | fcsFailure (pkt : Nat)
  /-- MAC_CONTROL_FRAME_RECEIVE (R52): A received MAC control frame is consumed, counted and acted on as pause or PFC according to PORT_FC.MODE. -/
  | macControlFrameReceive (port : PortN) (bytes : List Byte)
  /-- PAUSE_QUANTA_EXPIRE (R53): The pause time of a paused class runs out and the class becomes eligible again. -/
  | pauseQuantaExpire (port : PortN) (cls : ClassN)
  /-- SINT_XOFF_EVAL (R315): Sinter evaluates the XOFF state of every account at least once every 1 µs. -/
  | sintXoffEval
  /-- PFC_FRAME_SEND (R54): The MAC sends a PFC or pause frame for the classes in XOFF, ahead of any frame not yet started, or a zero-quanta frame
    at XON. -/
  | pfcFrameSend (port : PortN)
  /-- PFC_REPEAT_EXPIRE (R54): While XOFF holds, the PFC frame is repeated every QUANTA ÷ 2 quanta. -/
  | pfcRepeatExpire (port : PortN)
  /-- LINK_DOWN (R56): A link fault condition persists for DOWN_US and the link goes down, with its reason stored. -/
  | linkDown (port : PortN) (reason : BitVec 4)
  /-- LINK_UP (R56): Every link fault condition has been absent for UP_US and the link comes up. -/
  | linkUp (port : PortN)
  /-- LT_RESTART (R47): Link training does not complete within its clause's limit, negotiation restarts and LT_RESTART counts. -/
  | ltRestart (port : PortN)
  /-- PORT_MODE_WRITE (R46): A PORT_MODE write is accepted only with the port disabled and lane use valid; otherwise it is ignored and captured. -/
  | portModeWrite (who : Req) (port : PortN) (v : W32)
  /-- PORT_DISABLE (R57): Clearing PORT_CTL.EN takes the link down with reason 0x6, without debounce, and stops negotiation. -/
  | portDisable (who : Req) (port : PortN) (v : W32)
  /-- SDS_LANE_MAP_WRITE (R42): A lane map or polarity write takes effect only if it is a permutation and every port of the macro is disabled. -/
  | sdsLaneMapWrite (who : Req) (mac : Fin 8) (which : LaneReg) (v : W32)
  /-- PORT_TS_TAG_READ (R61): A read of PORT_TS_TAG latches the oldest entry of the stamp FIFO. -/
  | portTsTagRead (who : Req) (port : PortN)
  /-- PORT_TS_SEC_HI_READ (R61): A read of PORT_TS_SEC_HI removes the latched entry from the stamp FIFO. -/
  | portTsSecHiRead (who : Req) (port : PortN)
  /-- LINK_DOWN_REPORT (R353): Caldera acts on a link-down report: it masks requests, removes markers, discards crossed frames and starts the hold
    timer, or flushes the port. -/
  | linkDownReport (port : PortN) (reason : BitVec 4)
  /-- LINK_UP_REPORT (R354): A link-up report during the hold stops the timer and unmasks requests. -/
  | linkUpReport (port : PortN)
  /-- HOLD_TIMER_EXPIRE (R355): The hold expires with the link still down, and every entry for the port is flushed. -/
  | holdTimerExpire (port : PortN)
  /-- XB_PORT_FLUSH (R355): A write of XB_PORT_n.FLUSH orders a flush of the port without any link report. -/
  | xbPortFlush (who : Req) (port : AnyPort)
  /-- PARSE_START (R107): The parser starts a frame whose header window is complete, in rotation, when its rate and header store allow. -/
  | parseStart (pipe : PipeN)
  /-- PACKET_DELIVERY (R121): The head packet of a channel input queue is delivered to an idle packet thread once its results have landed. -/
  | packetDelivery (eng : EngN)
  /-- SEND_COMMIT (R123): The send of OLDEST commits when the receiving side has room, and its context moves to the channel. -/
  | sendCommit (eng : EngN)
  /-- DISCARD_COMMIT (R123): A packet marked for discard that waits at the head of the queue commits when it becomes OLDEST. -/
  | discardCommit (eng : EngN)
  /-- VOQ_ENQUEUE (R336): A context from I11 is enqueued in its VOQ, multicast marker or copy store, or dropped as ACTION requires. -/
  | voqEnqueue (pipe : PipeN)
  /-- SPILL_WRITE (R326): A marked frame that is complete in the near buffer is written to the VOQ's deep part and its near buffers are freed. -/
  | spillWrite (pipe : PipeN) (port : AnyPort) (cls : ClassN)
  /-- DEEP_REFILL (R327): The oldest deep frame of a VOQ is read back into new near buffers while NB is below half of SPILL_TH. -/
  | deepRefill (pipe : PipeN) (port : AnyPort) (cls : ClassN)
  /-- XBAR_MATCHING_ROUND (R339): A crossbar matching round runs grants and accepts over the requesting inputs and outputs. -/
  | xbarMatchingRound
  /-- CELL_TRANSFER (R341): A matched connection carries one cell in a cell time, and frees the unicast buffers at the last cell. -/
  | cellTransfer (input : Fin 18)
  /-- ELIGIBILITY_VECTOR_PUBLISH (R377): Each cell time the scheduler of a port publishes its class eligibility vector to Caldera. -/
  | eligibilityVectorPublish (port : PortN)
  /-- TX_SELECT (R365): Transmit selection picks the head of the first-ranked startable class and grants it to the rewrite helper. -/
  | txSelect (out : AnyPort)
  /-- FRAME_TX_END (R370): A frame ends transmission; the entity virtual times advance and the view's in-flight count falls. -/
  | frameTxEnd (out : AnyPort)
  /-- WHEEL_SLOT_RELEASE (R371): At each slot boundary the timing wheel releases its entities and moves overflow entries. -/
  | wheelSlotRelease
  /-- GATE_CHANGE (R373): An entry of the operative gate control list takes effect at its time. -/
  | gateChange (port : PortN)
  /-- GCL_SWITCH_REQUEST (R374): A write of TM_GCL_CTL.PEND orders a switch to the admin bank and fixes the change time. -/
  | gclSwitchRequest (who : Req) (port : PortN) (v : W32)
  /-- GCL_SWITCH (R374): At the change time the admin bank becomes operative and MAXWIN is recomputed. -/
  | gclSwitch (port : PortN)
  /-- MTR_NOP (R390): Meter command NOP completes with OK. -/
  | mtrNop (who : Req) (half : HalfN) (idx : Fin 131072)
  /-- MTR_WRITE (R390): Meter command WRITE sets a meter's configuration and fills its buckets. -/
  | mtrWrite (who : Req) (half : HalfN) (idx : Fin 131072)
  /-- MTR_READ (R390): Meter command READ returns a meter's configuration and tokens. -/
  | mtrRead (who : Req) (half : HalfN) (idx : Fin 131072)
  /-- MTR_FILL (R390): Meter command FILL sets both buckets of a meter full. -/
  | mtrFill (who : Req) (half : HalfN) (idx : Fin 131072)
  /-- PPS_EDGE (R65): An active PPS_IN edge is timed, and its phase error is taken as a sample or rejected. -/
  | ppsEdge
  /-- TOD_MESSAGE (R67): A time-of-day message is checked and compared with domain time, and may order a forced step. -/
  | todMessage (first : Byte) (rest : List Byte)
  /-- HOLDOVER_TIMEOUT (R68): No sample arrives within the timeout and the servo enters HOLDOVER with averaged TIME_FREQ. -/
  | holdoverTimeout
  /-- TIME_ADJ_NS_WRITE (R75): A write of TIME_ADJ_NS adds a phase correction to the remaining slew. -/
  | timeAdjNsWrite (who : Req) (v : W32)
  /-- TIME_STEP_GO (R76): A write of TIME_STEP.GO orders a forced step to TIME_SET, or is ignored while BUSY. -/
  | timeStepGo (who : Req)
  /-- FORCED_STEP (R76): At the next tick domain time is set to TIME_SET, the slew is discarded and the watermark is loaded for a backward step. -/
  | forcedStep
  /-- SKIPPED_EVENT_RELEASE (R78): After a forward step the blocks release the events of the skipped interval, oldest first. -/
  | skippedEventRelease
  /-- WATERMARK_REACHED (R77): Domain time reaches the watermark after a backward step and the watermark is cleared. -/
  | watermarkReached
  /-- TIME_TRIGGER_FIRE (R81): A time trigger fires when S reaches its time, performs its action and re-arms if periodic. -/
  | timeTriggerFire (t : Fin 8)
  /-- TIME_NOW_FRAC_READ (R88): A read of TIME_NOW_FRAC latches all four TIME_NOW registers. -/
  | timeNowFracRead (who : Req)
  /-- TIME_CTL_WRITE (R88): A write of TIME_CTL sets source and options, and a change of REF makes the PLL relock. -/
  | timeCtlWrite (who : Req) (v : W32)
  /-- TIME_PLL_LOCK (R63): The TIME PLL locks on its selected reference and REF_OK rises. -/
  | timePllLock
  /-- TIME_DIST_BROADCAST (R74): At each microsecond the full time value is broadcast and a block that disagrees reloads. -/
  | timeDistBroadcast (disagrees : Bool)
  /-- PPS_OUT_EDGE (R82): PPS_OUT rises at each whole second of domain time. -/
  | ppsOutEdge
  /-- TOD_OUT_SEND (R82): The time-of-day message for a PPS edge is sent 100 ms after it. -/
  | todOutSend
  /-- WFE_WAKE (R118): A waiting thread's masked event, or event 14 or 15, becomes pending and WFE returns. -/
  | wfeWake (a : Agent)
  /-- THREAD_TIMER_EXPIRE (R119): The thread timer reaches zero and raises event 3. -/
  | threadTimerExpire (a : Agent)
  /-- STAGE_WATCHDOG_EXPIRE (R128): OLDEST has not committed for LIMIT × 64 cycles, and the watchdog action applies. -/
  | stageWatchdogExpire (eng : EngN)
  /-- EVENT_DEADLOCK (R130): All threads wait only on sibling signals for 64 cycles, and event 15 is raised on the lowest waiting thread. -/
  | eventDeadlock (eng : EngN)
  /-- THREAD_RESET (R132): A thread reset stops the thread, discards its send, abandons its locks, marks its packet and restarts it after 16
    cycles. -/
  | threadReset (who : Req) (a : EngThr)
  /-- ENGINE_RESET (R133): PAGE_CTL soft reset of an ENG page resets every thread, keeps the queued packets and restarts after 32 cycles. -/
  | engineReset (who : Req) (eng : EngN)
  /-- ENG_CTL_WRITE (R134): A write of ENG_CTL sets RUN and, only while RUN = 0, the express thread fields. -/
  | engCtlWrite (who : Req) (eng : EngN) (v : W32)
  /-- ENG_THR_CFG_WRITE (R134): A write of ENG_THR_CFG while RUN = 0 sets thread roles and resets each thread whose role changes. -/
  | engThrCfgWrite (who : Req) (eng : EngN) (v : W32)
  /-- CLU_IRAM_DATA_ACCESS (R141): An access to CLU_IRAM_DATA reads or writes the instruction RAM word at ADDR and advances ADDR. -/
  | cluIramDataAccess (who : Req) (clu : CluN) (acc : RegAcc)
  /-- CLU_SHR_DATA_ACCESS (R141): An access to CLU_SHR_DATA reads or writes the cluster shared RAM word at ADDR and advances ADDR. -/
  | cluShrDataAccess (who : Req) (clu : CluN) (acc : RegAcc)
  /-- CLU_IRAM_FIX_DATA_WRITE (R142): A write of CLU_IRAM_FIX_DATA repairs one instruction RAM word in one write while the engines run. -/
  | cluIramFixDataWrite (who : Req) (clu : CluN) (v : W32)
  /-- ENG_HKEY_LO_READ (R207): A read of ENG_HKEY_LO returns the low half of key word IDX and latches its high half. -/
  | engHkeyLoRead (who : Req) (eng : EngN)
  /-- ENG_HKEY_HI_ACCESS (R207): An access to ENG_HKEY_HI reads the high half or stores the whole key word, and advances IDX. -/
  | engHkeyHiAccess (who : Req) (eng : EngN) (acc : RegAcc)
  /-- FU_WRITEBACK (R188): A fused-unit instruction writes its result, or its key word, at the end of its latency. -/
  | fuWriteback (a : EngThr)
  /-- INTERRUPT_TAKE (R178): An asserted interrupt input is taken between two issues while IE = 1 and EXL = 0. -/
  | interruptTake (a : Agent)
  /-- ADD (R166): Instruction ADD: rd := rs1 + rs2. -/
  | add (a : Agent) (lg : Bool) (rd : Reg) (rs1 : Reg) (rs2 : Reg)
  /-- SUB (R166): Instruction SUB: rd := rs1 − rs2. -/
  | sub (a : Agent) (lg : Bool) (rd : Reg) (rs1 : Reg) (rs2 : Reg)
  /-- ADDF (R166): Instruction ADDF: addition that sets the flags. -/
  | addf (a : Agent) (rd : Reg) (rs1 : Reg) (rs2 : Reg)
  /-- SUBF (R166): Instruction SUBF: subtraction that sets the flags. -/
  | subf (a : Agent) (rd : Reg) (rs1 : Reg) (rs2 : Reg)
  /-- AND (R166): Instruction AND: bitwise AND. -/
  | and (a : Agent) (lg : Bool) (rd : Reg) (rs1 : Reg) (rs2 : Reg)
  /-- OR (R166): Instruction OR: bitwise OR. -/
  | or (a : Agent) (lg : Bool) (rd : Reg) (rs1 : Reg) (rs2 : Reg)
  /-- XOR (R166): Instruction XOR: bitwise XOR. -/
  | xor (a : Agent) (lg : Bool) (rd : Reg) (rs1 : Reg) (rs2 : Reg)
  /-- ANDNOT (R166): Instruction ANDNOT: rs1 AND NOT rs2. -/
  | andnot (a : Agent) (rd : Reg) (rs1 : Reg) (rs2 : Reg)
  /-- ORNOT (R166): Instruction ORNOT: rs1 OR NOT rs2. -/
  | ornot (a : Agent) (rd : Reg) (rs1 : Reg) (rs2 : Reg)
  /-- SLL (R166): Instruction SLL: shift left by a register amount. -/
  | sll (a : Agent) (lg : Bool) (rd : Reg) (rs1 : Reg) (rs2 : Reg)
  /-- SRL (R166): Instruction SRL: logical shift right by a register amount. -/
  | srl (a : Agent) (lg : Bool) (rd : Reg) (rs1 : Reg) (rs2 : Reg)
  /-- SRA (R166): Instruction SRA: arithmetic shift right by a register amount. -/
  | sra (a : Agent) (lg : Bool) (rd : Reg) (rs1 : Reg) (rs2 : Reg)
  /-- ROR (R166): Instruction ROR: rotate right. -/
  | ror (a : Agent) (rd : Reg) (rs1 : Reg) (rs2 : Reg)
  /-- MUL (R166): Instruction MUL: low 64 bits of the product. -/
  | mul (a : Agent) (lg : Bool) (rd : Reg) (rs1 : Reg) (rs2 : Reg)
  /-- MULHI (R166): Instruction MULHI: high 64 bits of the unsigned product. -/
  | mulhi (a : Agent) (rd : Reg) (rs1 : Reg) (rs2 : Reg)
  /-- QUO (R166): Instruction QUO: unsigned quotient. -/
  | quo (a : Agent) (rd : Reg) (rs1 : Reg) (rs2 : Reg)
  /-- REM (R166): Instruction REM: unsigned remainder. -/
  | rem (a : Agent) (rd : Reg) (rs1 : Reg) (rs2 : Reg)
  /-- MIN (R166): Instruction MIN: signed minimum. -/
  | min (a : Agent) (lg : Bool) (rd : Reg) (rs1 : Reg) (rs2 : Reg)
  /-- MAX (R166): Instruction MAX: signed maximum. -/
  | max (a : Agent) (lg : Bool) (rd : Reg) (rs1 : Reg) (rs2 : Reg)
  /-- MINU (R166): Instruction MINU: unsigned minimum. -/
  | minu (a : Agent) (rd : Reg) (rs1 : Reg) (rs2 : Reg)
  /-- MAXU (R166): Instruction MAXU: unsigned maximum. -/
  | maxu (a : Agent) (rd : Reg) (rs1 : Reg) (rs2 : Reg)
  /-- CMP (R166): Instruction CMP: sets the flags of rs1 − rs2. -/
  | cmp (a : Agent) (lg : Bool) (rs1 : Reg) (rs2 : Reg)
  /-- TST (R166): Instruction TST: sets the flags of rs1 AND rs2. -/
  | tst (a : Agent) (lg : Bool) (rs1 : Reg) (rs2 : Reg)
  /-- PICK (R166): Instruction PICK: selects rs1 or rs2 by a condition. -/
  | pick (a : Agent) (rd : Reg) (rs1 : Reg) (rs2 : Reg) (cond : Cond)
  /-- BOOL (R166): Instruction BOOL: rd := 1 when the condition holds, otherwise 0. -/
  | bool (a : Agent) (rd : Reg) (cond : Cond)
  /-- MOV (R167): Instruction MOV: copies a register or an immediate. -/
  | mov (a : Agent) (form : MovForm) (rd : Reg)
  /-- NEG (R167): Instruction NEG: rd := 0 − rs. -/
  | neg (a : Agent) (lg : Bool) (rd : Reg) (rs : Reg)
  /-- NOT (R167): Instruction NOT: bitwise complement. -/
  | not (a : Agent) (lg : Bool) (rd : Reg) (rs : Reg)
  /-- CLZ (R167): Instruction CLZ: counts leading zero bits. -/
  | clz (a : Agent) (rd : Reg) (rs : Reg)
  /-- CTZ (R167): Instruction CTZ: counts trailing zero bits. -/
  | ctz (a : Agent) (rd : Reg) (rs : Reg)
  /-- POPC (R167): Instruction POPC: counts the bits set. -/
  | popc (a : Agent) (rd : Reg) (rs : Reg)
  /-- BSWAP (R167): Instruction BSWAP: reverses the low 2, 4 or 8 bytes. -/
  | bswap (a : Agent) (rd : Reg) (rs : Reg) (sz : BitVec 2)
  /-- ZEXT (R167): Instruction ZEXT: zero-extends a byte, halfword or word. -/
  | zext (a : Agent) (rd : Reg) (rs : Reg) (sz : BitVec 2)
  /-- SEXT (R167): Instruction SEXT: sign-extends a byte, halfword or word. -/
  | sext (a : Agent) (rd : Reg) (rs : Reg) (sz : BitVec 2)
  /-- ADDI (R167): Instruction ADDI: adds an immediate. -/
  | addi (a : Agent) (lg : Bool) (rd : Reg) (rs1 : Reg) (imm : BitVec 15)
  /-- ANDI (R167): Instruction ANDI: AND with a zero-extended immediate. -/
  | andi (a : Agent) (rd : Reg) (rs1 : Reg) (imm : BitVec 15)
  /-- ORI (R167): Instruction ORI: OR with a zero-extended immediate. -/
  | ori (a : Agent) (rd : Reg) (rs1 : Reg) (imm : BitVec 15)
  /-- XORI (R167): Instruction XORI: XOR with a zero-extended immediate. -/
  | xori (a : Agent) (rd : Reg) (rs1 : Reg) (imm : BitVec 15)
  /-- SLLI (R167): Instruction SLLI: shift left by an immediate. -/
  | slli (a : Agent) (lg : Bool) (rd : Reg) (rs1 : Reg) (n : BitVec 6)
  /-- SRLI (R167): Instruction SRLI: logical shift right by an immediate. -/
  | srli (a : Agent) (lg : Bool) (rd : Reg) (rs1 : Reg) (n : BitVec 6)
  /-- SRAI (R167): Instruction SRAI: arithmetic shift right by an immediate. -/
  | srai (a : Agent) (rd : Reg) (rs1 : Reg) (n : BitVec 6)
  /-- CMPI (R167): Instruction CMPI: sets the flags of rs1 − imm. -/
  | cmpi (a : Agent) (lg : Bool) (rs1 : Reg) (imm : BitVec 15)
  /-- LDIZ (R167): Instruction LDIZ: loads a 16-bit immediate into one lane and zeroes the rest. -/
  | ldiz (a : Agent) (rd : Reg) (lane : Fin 4) (imm : BitVec 16)
  /-- LDIK (R167): Instruction LDIK: loads a 16-bit immediate into one lane and keeps the rest. -/
  | ldik (a : Agent) (rd : Reg) (lane : Fin 4) (imm : BitVec 16)
  /-- LDIS (R167): Instruction LDIS: loads a sign-extended 16-bit immediate shifted to a lane. -/
  | ldis (a : Agent) (rd : Reg) (lane : Fin 4) (imm : BitVec 16)
  /-- LDB (R168): Instruction LDB: loads one byte, zero-extended. -/
  | ldb (a : Agent) (rd : Reg) (seg : SegN) (rb : Reg) (disp : BitVec 11)
  /-- LDH (R168): Instruction LDH: loads two bytes, zero-extended. -/
  | ldh (a : Agent) (rd : Reg) (seg : SegN) (rb : Reg) (disp : BitVec 11)
  /-- LDW (R168): Instruction LDW: loads four bytes, zero-extended. -/
  | ldw (a : Agent) (rd : Reg) (seg : SegN) (rb : Reg) (disp : BitVec 11)
  /-- LDD (R168): Instruction LDD: loads eight bytes. -/
  | ldd (a : Agent) (form : MemForm) (rd : Reg) (rb : Reg)
  /-- LDSB (R168): Instruction LDSB: loads one byte, sign-extended. -/
  | ldsb (a : Agent) (rd : Reg) (seg : SegN) (rb : Reg) (disp : BitVec 11)
  /-- LDSH (R168): Instruction LDSH: loads two bytes, sign-extended. -/
  | ldsh (a : Agent) (rd : Reg) (seg : SegN) (rb : Reg) (disp : BitVec 11)
  /-- LDSW (R168): Instruction LDSW: loads four bytes, sign-extended. -/
  | ldsw (a : Agent) (rd : Reg) (seg : SegN) (rb : Reg) (disp : BitVec 11)
  /-- LDNH (R168): Instruction LDNH: loads two bytes in network order. -/
  | ldnh (a : Agent) (form : MemForm) (rd : Reg) (rb : Reg)
  /-- LDNW (R168): Instruction LDNW: loads four bytes in network order. -/
  | ldnw (a : Agent) (form : MemForm) (rd : Reg) (rb : Reg)
  /-- LDND (R168): Instruction LDND: loads eight bytes in network order. -/
  | ldnd (a : Agent) (rd : Reg) (seg : SegN) (rb : Reg) (disp : BitVec 11)
  /-- STB (R168): Instruction STB: stores the low byte. -/
  | stb (a : Agent) (rd : Reg) (seg : SegN) (rb : Reg) (disp : BitVec 11)
  /-- STH (R168): Instruction STH: stores the low two bytes. -/
  | sth (a : Agent) (rd : Reg) (seg : SegN) (rb : Reg) (disp : BitVec 11)
  /-- STW (R168): Instruction STW: stores the low four bytes. -/
  | stw (a : Agent) (rd : Reg) (seg : SegN) (rb : Reg) (disp : BitVec 11)
  /-- STD (R168): Instruction STD: stores eight bytes. -/
  | std (a : Agent) (form : MemForm) (rd : Reg) (rb : Reg)
  /-- STNH (R168): Instruction STNH: stores two bytes in network order. -/
  | stnh (a : Agent) (rd : Reg) (seg : SegN) (rb : Reg) (disp : BitVec 11)
  /-- STNW (R168): Instruction STNW: stores four bytes in network order. -/
  | stnw (a : Agent) (rd : Reg) (seg : SegN) (rb : Reg) (disp : BitVec 11)
  /-- STND (R168): Instruction STND: stores eight bytes in network order. -/
  | stnd (a : Agent) (rd : Reg) (seg : SegN) (rb : Reg) (disp : BitVec 11)
  /-- AADD (R169): Instruction AADD: atomic fetch and add at the memory port. -/
  | aadd (a : Agent) (rd : Reg) (seg : SegN) (rb : Reg) (rs : Reg) (sz : Bool)
  /-- ASADD (R169): Instruction ASADD: atomic fetch and saturating add. -/
  | asadd (a : Agent) (rd : Reg) (seg : SegN) (rb : Reg) (rs : Reg) (sz : Bool)
  /-- ACAS (R169): Instruction ACAS: atomic compare and swap. -/
  | acas (a : Agent) (rd : Reg) (seg : SegN) (rb : Reg) (rs : Reg) (sz : Bool)
  /-- LKUP (R170): Instruction LKUP: issues a forward-delivered lookup, or refuses it, and writes the status to rd and the slot. -/
  | lkup (a : Agent) (rd : Reg) (rs1 : Reg) (rs2 : Reg)
  /-- LKA (R409): Instruction LKA: reads a lock word, acquiring the lock if it is free. -/
  | lka (a : Agent) (rd : Reg) (rs1 : Reg)
  /-- LKQ (R410): Instruction LKQ: queues a request for a lock, granted at once if free. -/
  | lkq (a : Agent) (rs1 : Reg)
  /-- LKR (R410): Instruction LKR: releases a lock held by the agent and task, after earlier stores are visible. -/
  | lkr (a : Agent) (rs1 : Reg)
  /-- BC (R171): Instruction BC: branches if the condition holds. -/
  | bc (a : Agent) (lg : Bool) (cond : Cond) (h : Bool) (off : BitVec 20) (wrong : WrongPath)
  /-- BRZ (R171): Instruction BRZ: branches if rs is zero. -/
  | brz (a : Agent) (lg : Bool) (rs : Reg) (h : Bool) (off : BitVec 18) (wrong : WrongPath)
  /-- BRNZ (R171): Instruction BRNZ: branches if rs is not zero. -/
  | brnz (a : Agent) (lg : Bool) (rs : Reg) (h : Bool) (off : BitVec 18) (wrong : WrongPath)
  /-- J (R171): Instruction J: jumps. -/
  | j (a : Agent) (lg : Bool) (off : BitVec 25)
  /-- CALL (R146): Instruction CALL: slides the window up and jumps, writing the return address to w15. -/
  | call (a : Agent) (off : BitVec 25)
  /-- JR (R171): Instruction JR: jumps to the address in rs1. -/
  | jr (a : Agent) (lg : Bool) (rs1 : Reg)
  /-- CALLR (R146): Instruction CALLR: calls the address in rs1. -/
  | callr (a : Agent) (lg : Bool) (rs1 : Reg)
  /-- RET (R146): Instruction RET: jumps to w15 and slides the window down. -/
  | ret (a : Agent) (lg : Bool)
  /-- ERET (R176): Instruction ERET: restores FLG, IE and UM, clears EXL and continues at EPC. -/
  | eret (a : Agent)
  /-- NOP (R171): Instruction NOP: no operation. -/
  | nop (a : Agent) (lg : Bool)
  /-- SEND (R123): Instruction SEND: makes the send slot final; the commit follows under the ordered-send rule. -/
  | send (a : Agent) (lg : Bool)
  /-- WFE (R118): Instruction WFE: returns pending masked events at once, or waits for one. -/
  | wfe (a : Agent) (lg : Bool) (rd : Reg) (rs1 : Reg)
  /-- SIG (R171): Instruction SIG: raises a sibling signal event on each named thread. -/
  | sig (a : Agent) (lg : Bool) (rs1 : Reg)
  /-- TMR (R119): Instruction TMR: arms or disarms the thread timer. -/
  | tmr (a : Agent) (lg : Bool) (rs1 : Reg)
  /-- SLEEP (R489): Instruction SLEEP: stops the context until a core wake, or continues if a wake is pending at its commit point. -/
  | sleep (a : Agent)
  /-- FENCE (R173): Instruction FENCE: waits until every earlier store and atomic of the thread is visible. -/
  | fence (a : Agent)
  /-- BRK (R564): Instruction BRK: halts the thread under an attached debugger, or raises exception BRK. -/
  | brk (a : Agent) (lg : Bool)
  /-- RGET (R171): Instruction RGET: reads a register named at run time. -/
  | rget (a : Agent) (rd : Reg) (rs1 : Reg)
  /-- RPUT (R171): Instruction RPUT: writes a register named at run time. -/
  | rput (a : Agent) (rs1 : Reg) (rs2 : Reg)
  /-- TRAP (R174): Instruction TRAP: raises exception TRAP with a code. -/
  | trap (a : Agent) (code : BitVec 15)
  /-- MFS (R149): Instruction MFS: reads a special register. -/
  | mfs (a : Agent) (rd : Reg) (sreg : BitVec 12)
  /-- MTS (R149): Instruction MTS: writes a special register, subject to type and privilege. -/
  | mts (a : Agent) (sreg : BitVec 12) (rs : Reg)
  /-- XCHS (R149): Instruction XCHS: exchanges rd with a special register. -/
  | xchs (a : Agent) (rd : Reg) (sreg : BitVec 12)
  /-- FEXT (R191): Instruction FEXT: extracts a bit field, or is refused. -/
  | fext (a : Agent) (rd : Reg) (rs1 : Reg) (param : BitVec 13)
  /-- FINS (R191): Instruction FINS: inserts a bit field, or is refused. -/
  | fins (a : Agent) (rd : Reg) (rs1 : Reg) (param : BitVec 13)
  /-- FSCN (R191): Instruction FSCN: scans for a set or clear bit. -/
  | fscn (a : Agent) (rd : Reg) (rs1 : Reg) (param : BitVec 13)
  /-- HCRC (R192): Instruction HCRC: continues a CRC-32 or CRC-32C over up to 8 bytes. -/
  | hcrc (a : Agent) (rd : Reg) (rs1 : Reg) (param : BitVec 13)
  /-- HTOE (R194): Instruction HTOE: continues a Toeplitz hash with a stored key. -/
  | htoe (a : Agent) (rd : Reg) (rs1 : Reg) (param : BitVec 13)
  /-- HVND_HASH (R195): Instruction HVND with FUNC 0b00: computes the vendor hash. -/
  | hvndHash (a : Agent) (rd : Reg) (rs1 : Reg) (param : BitVec 13)
  /-- HVND_KEY_WRITE (R195): Instruction HVND with FUNC 0b01: returns and replaces one key word. -/
  | hvndKeyWrite (a : Agent) (rd : Reg) (rs1 : Reg) (param : BitVec 13)
  /-- HVND_KEY_READ (R195): Instruction HVND with FUNC 0b10: reads one key word. -/
  | hvndKeyRead (a : Agent) (rd : Reg) (rs1 : Reg) (param : BitVec 13)
  /-- CKSA (R196): Instruction CKSA: accumulates a ones'-complement sum. -/
  | cksa (a : Agent) (rd : Reg) (rs1 : Reg) (param : BitVec 13)
  /-- CKSU (R196): Instruction CKSU: incrementally updates a checksum. -/
  | cksu (a : Agent) (rd : Reg) (rs1 : Reg) (param : BitVec 13)
  /-- CKSF (R196): Instruction CKSF: folds and finalises a checksum. -/
  | cksf (a : Agent) (rd : Reg) (rs1 : Reg) (param : BitVec 13)
  /-- LOOKUP_LAND (R222): A lookup result lands in its result slot and raises event 1 on the holding thread. -/
  | lookupLand (id : Nat) (ecc : LkEcc)
  /-- DEEP_FILL_ARRIVE (R221): A bucket fill from HBM arrives at the bucket cache, or is discarded as stale. -/
  | deepFillArrive (half : HalfN) (id : Nat) (bucket : BitVec 25)
  /-- EM_NOP (R227): Exact-match command NOP completes with OK. -/
  | emNop (who : Req) (half : HalfN)
  /-- EM_INSERT (R227): Exact-match command INSERT places a new entry with the given view bits, or reports EXISTS or FULL. -/
  | emInsert (who : Req) (half : HalfN) (v : W32)
  /-- EM_DELETE (R227): Exact-match command DELETE clears the given view bits of an entry and frees it when both are clear. -/
  | emDelete (who : Req) (half : HalfN) (v : W32)
  /-- EM_SEARCH (R227): Exact-match command SEARCH returns the entry found in one view. -/
  | emSearch (who : Req) (half : HalfN) (v : W32)
  /-- EM_MODIFY (R227): Exact-match command MODIFY rewrites the data and header fields of an entry. -/
  | emModify (who : Req) (half : HalfN) (v : W32)
  /-- EM_VIEW_ADD (R227): Exact-match command VIEW_ADD sets view bits on the one entry with the key. -/
  | emViewAdd (who : Req) (half : HalfN) (v : W32)
  /-- EM_READ_AT (R227): Exact-match command READ_AT reads the entry starting at a location. -/
  | emReadAt (who : Req) (half : HalfN) (v : W32)
  /-- EM_CTR_READ (R227): Exact-match command CTR_READ returns a counter pair and may clear it. -/
  | emCtrRead (who : Req) (half : HalfN) (v : W32)
  /-- EM_WRITE_PAGE (R227): Exact-match command WRITE_PAGE rewrites 32 deep buckets from an image. -/
  | emWritePage (who : Req) (half : HalfN) (v : W32)
  /-- EM_CMD_COMPLETE (R229): An exact-match command completes in both replicas or in HBM and the caches, and reports its status. -/
  | emCmdComplete
  /-- EM_BULK_START (R230): A write of EM_BULK_CTL.START starts a bulk load of records. -/
  | emBulkStart (who : Req) (half : HalfN)
  /-- EM_BULK_RECORD (R230): One bulk-load record is run as its command, with failures counted. -/
  | emBulkRecord
  /-- EM_BULK_ABORT (R231): A write of EM_BULK_CTL.ABORT stops the load before its completion point, or reads TOO_LATE. -/
  | emBulkAbort (who : Req) (half : HalfN)
  /-- EM_SEED_WRITE (R237): A write of EM_SEED, accepted only with every table empty, empties both bucket caches. -/
  | emSeedWrite (who : Req) (half : HalfN) (v : W32)
  /-- EM_TBL_CFG_WRITE (R209): A write of EM_TBL_CFG_n configures an empty table and derives its width, or is ignored. -/
  | emTblCfgWrite (who : Req) (half : HalfN) (n : Fin 256) (v : W32)
  /-- TC_NOP (R248): Ternary command NOP completes with OK. -/
  | tcNop (who : Req) (half : HalfN)
  /-- TC_INSERT (R245): Ternary command INSERT makes room by moves and places the entry with its priority. -/
  | tcInsert (who : Req) (half : HalfN) (v : W32)
  /-- TC_DELETE (R248): Ternary command DELETE clears view bits of an entry and frees its row when both are clear. -/
  | tcDelete (who : Req) (half : HalfN) (v : W32)
  /-- TC_SEARCH (R248): Ternary command SEARCH returns the entry of an identity in one view. -/
  | tcSearch (who : Req) (half : HalfN) (v : W32)
  /-- TC_MODIFY (R248): Ternary command MODIFY rewrites the data, INST and CTR_IDX of an entry. -/
  | tcModify (who : Req) (half : HalfN) (v : W32)
  /-- TC_VIEW_ADD (R248): Ternary command VIEW_ADD sets view bits on the one entry of an identity. -/
  | tcViewAdd (who : Req) (half : HalfN) (v : W32)
  /-- TC_READ_AT (R248): Ternary command READ_AT returns the row in TC_CMD_LOC. -/
  | tcReadAt (who : Req) (half : HalfN) (v : W32)
  /-- TC_MATCH (R248): Ternary command MATCH searches with a key as a packet of one view would. -/
  | tcMatch (who : Req) (half : HalfN) (v : W32)
  /-- MAKE_ROOM_MOVE (R246): The make-room engine moves one entry to a free row, at most one move every GAP LKP cycles. -/
  | makeRoomMove
  /-- TC_CMD_COMPLETE (R249): A ternary command completes and reports its status. -/
  | tcCmdComplete
  /-- TC_SWEEP_VISIT (R244): The background sweep visits a row and repairs a parity error from the other array. -/
  | tcSweepVisit (half : HalfN) (row : Fin 524288) (err : Bool)
  /-- VIEW_COMMIT (R254): A write of VIEW_CTL.COMMIT starts a commit, or is refused with a reason. -/
  | viewCommit (who : Req) (v : W32)
  /-- VIEW_FLIP (R254): When commands in progress complete, cycle F flips the active view and applies staged resizes. -/
  | viewFlip
  /-- VIEW_ABORT (R255): A write of VIEW_CTL.ABORT aborts a pending commit or running SYNC, or reads TOO_LATE. -/
  | viewAbort (who : Req)
  /-- VIEW_DRAIN_LIMIT_EXPIRE (R257): The drain is still open after DRAIN_LIMIT, DRAIN_TO is set and old-view packets may be forced out. -/
  | viewDrainLimitExpire
  /-- VIEW_SYNC (R258): A write of VIEW_CTL.SYNC starts a SYNC of the dirty locations, or is refused. -/
  | viewSync (who : Req)
  /-- VIEW_SYNC_LOCATION (R258): SYNC processes one dirty location, copying active to inactive view bits and clearing its dirty bit. -/
  | viewSyncLocation
  /-- SOURCE_CHECK (R273): A source check is searched in the learn table and yields no event, a new learn event or a move learn event. -/
  | sourceCheck (half : HalfN)
  /-- LEARN_APPLY (R279): The home learn engine applies a queued learn under the arbitration rule. -/
  | learnApply (half : HalfN)
  /-- FREEZE_EXPIRE (R282): After HOLD_S seconds FROZEN is cleared and the tracked moves reset. -/
  | freezeExpire (half : HalfN)
  /-- LEARN_FRAME_SEND (R285): An open learn frame with 20 records is injected at port 68. -/
  | learnFrameSend
  /-- LEARN_FLUSH_TIMER_EXPIRE (R285): FLUSH_US after its first record the open learn frame is sent. -/
  | learnFlushTimerExpire
  /-- LEARN_HELLO_EXPIRE (R285): No frame has been sent for HELLO_MS and an empty learn frame is sent. -/
  | learnHelloExpire
  /-- LEARN_FRAME_RECEIVE (R286): A learn frame sent to port 68 is checked, sequenced against its peer and split into records. -/
  | learnFrameReceive
  /-- LEARN_RECORD_LEARN (R286): A LEARN record is discarded as stale or applied at its home half. -/
  | learnRecordLearn
  /-- LEARN_RECORD_WITHDRAW (R286): A WITHDRAW record deletes the matching older entry of the sender. -/
  | learnRecordWithdraw
  /-- LEARN_RECORD_REPLAY (R286): A REPLAY record inserts an entry only if none exists. -/
  | learnRecordReplay
  /-- PEER_LOST (R288): A known peer sends nothing for PEER_TMO_MS and its entries are deleted. -/
  | peerLost (dev : Fin 16384)
  /-- STAMP_SWEEP_VISIT (R280): The stamp sweep visits a home bucket and rewrites old LTS values. -/
  | stampSweepVisit (half : HalfN) (bucket : Nat)
  /-- LRN_FLUSH (R289): A write of LRN_FLUSH.START starts deleting learn-table entries that match SEL. -/
  | lrnFlush (who : Req) (v : W32)
  /-- LRN_DUMP (R289): A write of LRN_DUMP.START starts sending REPLAY records for own entries. -/
  | lrnDump (who : Req)
  /-- LRN_BULK_ABORT (R289): A write of ABORT to LRN_FLUSH or LRN_DUMP stops it before its completion point, or reads TOO_LATE. -/
  | lrnBulkAbort (who : Req) (dump : Bool)
  /-- LRN_BULK_BUCKET (R289): A flush or dump processes one bucket. -/
  | lrnBulkBucket
  /-- AGER_VISIT (R292): The ager visits a home bucket and deletes entries whose age reached MAXAGE. -/
  | agerVisit (half : HalfN) (bucket : Nat)
  /-- SINT_NOP (R320): Sinter command NOP does nothing. -/
  | sintNop (who : Req) (v : W32)
  /-- SINT_ALLOC (R320): Sinter command ALLOC pops a buffer of a pool for the requester's account. -/
  | sintAlloc (who : Req) (v : W32)
  /-- SINT_HANDOVER (R320): Sinter command HANDOVER sets a new owner on a chain, if the requester is its owner. -/
  | sintHandover (who : Req) (v : W32)
  /-- SINT_FREE (R320): Sinter command FREE pushes a chain and uncharges its account, if the requester is its owner. -/
  | sintFree (who : Req) (v : W32)
  /-- SINT_INJECT (R320): Sinter command INJECT queues a frame of LEN bytes to a pipeline's parser. -/
  | sintInject (who : Req) (v : W32)
  /-- SINT_READ (R320): Sinter command READ returns a buffer descriptor. -/
  | sintRead (who : Req) (v : W32)
  /-- SINT_POOL_APPLY (R306): A write of SINT_POOL_CTL.APPLY rebuilds the pools with new counts, or reports why not. -/
  | sintPoolApply (who : Req)
  /-- SINT_WIN_ACCESS (R321): An access to SINT_WIN_n reads or writes bytes of the window buffer without an ownership test. -/
  | sintWinAccess (who : Req) (n : Fin 64) (acc : RegAcc)
  /-- SINT_AUDIT_START (R323): A write of SINT_AUDIT.START starts an audit walk of a pool. -/
  | sintAuditStart (who : Req) (v : W32)
  /-- SINT_AUDIT_ABORT (R323): A write of SINT_AUDIT.ABORT stops the walk before its completion point, or reads TOO_LATE. -/
  | sintAuditAbort (who : Req)
  /-- SINT_AUDIT_COMPLETE (R323): The audit walk visits its last buffer and reports LEAK, SW and DUP. -/
  | sintAuditComplete
  /-- XB_MCG_SEL_WRITE (R363): A write of XB_MCG_SEL loads a group's bitmap into the MAP registers. -/
  | xbMcgSelWrite (who : Req) (v : W32)
  /-- XB_MCG_MAP_2_WRITE (R363): A write of XB_MCG_MAP_2 stores all three maps into the group in one step. -/
  | xbMcgMap2Write (who : Req) (v : W32)
  /-- TSK_START (R407): Task command START makes an OFF task READY. -/
  | tskStart (who : Req) (task : TaskN)
  /-- TSK_RELEASE (R407): Task command RELEASE releases a task, or raises its PEND count. -/
  | tskRelease (who : Req) (task : TaskN)
  /-- TSK_STOP (R407): Task command STOP makes a task OFF and abandons its locks. -/
  | tskStop (who : Req) (task : TaskN)
  /-- TASK_YIELD (R401): Port command YIELD puts the running task at the tail of its ready list. -/
  | taskYield (a : Agent)
  /-- TASK_WAIT (R401): Port command WAIT consumes a pending release or makes the task IDLE with an optional timeout. -/
  | taskWait (a : Agent) (arg : W32)
  /-- TASK_DELAY (R401): Port command DELAY makes the task DELAYED for ARG. -/
  | taskDelay (a : Agent) (arg : W32)
  /-- TASK_RELEASE (R401): Port command RELEASE releases another task while the issuing task continues. -/
  | taskRelease (a : Agent) (task : TaskN)
  /-- TASK_EXIT (R401): Port command EXIT makes the task OFF and abandons its locks. -/
  | taskExit (a : Agent)
  /-- TASK_DISPATCH (R398): Geyser dispatches the highest ready task to an agent waiting at its idle point. -/
  | taskDispatch (a : Agent)
  /-- TASK_PREEMPT (R399): A switch request is taken and a higher-priority task replaces the running one. -/
  | taskPreempt (a : Agent)
  /-- GROUP_TICK (R403): A tick of a tick group releases the delays that reach zero. -/
  | groupTick (g : Fin 16)
  /-- TIMEOUT_EXPIRE (R402): S reaches the deadline of a timeout group's wait or delay and the task becomes READY. -/
  | timeoutExpire (task : TaskN)
  /-- LCK_ACQ_READ (R409): A read of LCK_ACQ_j returns the lock word and acquires a free lock. -/
  | lckAcqRead (who : Req) (n : Fin 1024)
  /-- LCK_REL_WRITE (R410): A write of LCK_REL_j releases a lock held by the register agent. -/
  | lckRelWrite (who : Req) (n : Fin 1024)
  /-- IRQ_SOURCE_ASSERT (R426): A page source asserts and becomes pending, and its target's request line rises if above the bar. -/
  | irqSourceAssert (src : Fin 1024)
  /-- IRQ_CLAIM (R427): A read of IRQ_CLAIM_t claims the highest pending source above the bar, or returns the null ID. -/
  | irqClaim (who : Req) (t : Fin 5)
  /-- IRQ_EOI (R428): A write of IRQ_EOI_t ends service of a source and recomputes the service level. -/
  | irqEoi (who : Req) (t : Fin 5) (src : Fin 1024)
  /-- IRQ_HEOI (R430): A host write of IRQ_HEOI ends service of a host-routed source. -/
  | irqHeoi (who : Req) (src : Fin 1024)
  /-- IRQ_SOFT_SET (R424): A write of IRQ_SOFT with SET = 1 sets a soft source latch. -/
  | irqSoftSet (who : Req) (n : Fin 64)
  /-- IRQ_SOFT_CLEAR (R424): A write of IRQ_SOFT with SET = 0 clears a soft source latch not in service. -/
  | irqSoftClear (who : Req) (n : Fin 64)
  /-- MSIX_SEND (R429): A pending host-routed source with an unmasked vector sends one MSI-X message. -/
  | msixSend (src : Fin 1024)
  /-- MSIX_VECTOR_UNMASK (R429): A vector is unmasked and a still-pending source sends its held message. -/
  | msixVectorUnmask (vec : Fin 2048)
  /-- CORE_WAKE (R489): A routed source, dispatch or lock grant wakes every sleeping context of a core. -/
  | coreWake (core : Fin 5)
  /-- WAKE_WATCHER_TRIGGER (R432): A watched source asserts in SIMMER or DORMANT and the wake watcher starts the exit. -/
  | wakeWatcherTrigger (k : Fin 32)
  /-- INST_CREATE (R446): Instance command CREATE fixes an instance's resources, or fails with NO_RESOURCE. -/
  | instCreate (who : Req)
  /-- INST_DESTROY (R448): Instance command DESTROY returns an unused instance's ranges, or fails with IN_USE. -/
  | instDestroy (who : Req)
  /-- INST_RESET (R457): An instance reset advances GEN, disables rings, abandons locks and waits for the old generation to drain. -/
  | instReset (who : Req) (inst : InstN)
  /-- INST_STAGE (R459): Instance command STAGE copies the parameters of an instance into its staged set in COMPAT. -/
  | instStage (who : Req)
  /-- INST_RESET_DRAIN_END (R457): The old generation's requests have completed or the drain limit has passed, and the reset completes. -/
  | instResetDrainEnd (inst : InstN)
  /-- FLR (R445): A function level reset resets the function's instance, and for a PF every VF instance. -/
  | flr (inst : InstN)
  /-- VF_ENABLE_CLEAR (R445): Clearing VF Enable resets every VF instance of the PF and keeps them INACTIVE. -/
  | vfEnableClear (host : Fin 4)
  /-- PCIE_LINK_DOWN (R445): A PCIe link goes down and the PF's instances are reset. -/
  | pcieLinkDown (host : Fin 4)
  /-- PERST (R606): PERST_N_h resets PCIe link h. -/
  | perst (host : Fin 4) (low : Bool)
  /-- MBX_SEND (R450): An instance writes HIF_MBX_CTL.SEND, posting its request and raising its interrupt. -/
  | mbxSend (inst : InstN)
  /-- MBX_DONE (R450): The manager sets DONE; the response is shown and an MSI-X message sent, or a late DONE is counted. -/
  | mbxDone (who : Req) (inst : InstN)
  /-- MBX_TIMEOUT (R450): DONE is not set within MBX_TMO_MS and RES reads TIMEOUT. -/
  | mbxTimeout (inst : InstN)
  /-- TX_DOORBELL (R452): A write to a transmit doorbell advances the ring's producer index, or is ignored. -/
  | txDoorbell (inst : InstN) (n : Fin 512) (pi : BitVec 16)
  /-- RX_DOORBELL (R452): A write to a receive doorbell advances the ring's producer index, or is ignored. -/
  | rxDoorbell (inst : InstN) (n : Fin 512) (pi : BitVec 16)
  /-- TX_DESCRIPTOR_PROCESS (R453): The HIF reads a transmit descriptor and its frame into buffers and queues it to a parser. -/
  | txDescriptorProcess (ring : RingN)
  /-- DMA_COMPLETION (R456): A DMA completion returns and is checked against GEN, or discarded as stale. -/
  | dmaCompletion (id : Nat) (data : List Byte)
  /-- CPL_TIMEOUT (R442): A read's completion does not arrive within CPL_TMO_MS and the read ends with an error. -/
  | cplTimeout (id : Nat)
  /-- RX_DELIVERY (R454): A frame for a host port is written to a receive ring buffer with its write-back, or dropped. -/
  | rxDelivery (host : Fin 4)
  /-- RX_STAGING_TIMEOUT (R454): A staged frame waits longer than HIF_RX_HOLD_US for a descriptor and is dropped. -/
  | rxStagingTimeout (host : Fin 4)
  /-- RING_MOD_EXPIRE (R455): A ring's moderation time ends and one message covers the write-backs made within it. -/
  | ringModExpire (ring : RingN)
  /-- HBM_BANK_ISSUE (R471): The controller issues a queued request to a bank in rotation, correcting or poisoning on ECC error. -/
  | hbmBankIssue (turn : BankTurn) (ecc : HbmEcc)
  /-- HBM_PROMOTE (R472): A request that has waited 10 µs without entering a queue is promoted to priority 7. -/
  | hbmPromote (pc : PcN)
  /-- HBM_RETRAIN_DUE (R474): A pseudo-channel's rotation retrain falls due and its pause begins. -/
  | hbmRetrainDue (pc : PcN)
  /-- HBM_RETRAIN_END (R474): A retrain pause ends with new settings, or with the old ones and a failure count. -/
  | hbmRetrainEnd (pc : PcN) (ok : Bool)
  /-- HBM_TRAIN_GO (R475): A write of HBM_TRAIN.GO retrains a pseudo-channel at once. -/
  | hbmTrainGo (who : Req) (pc : PcN)
  /-- HBM_TRAIN_ABORT (R475): A write of HBM_TRAIN.ABORT ends the pause with old settings, or reads TOO_LATE. -/
  | hbmTrainAbort (who : Req)
  /-- HBM_SR_ENTRY (R476): A channel with no request for SR_US enters self-refresh. -/
  | hbmSrEntry (ch : Fin 32)
  /-- HBM_SR_EXIT (R476): A request to a channel in self-refresh makes it exit, followed by any overdue retrain. -/
  | hbmSrExit (ch : Fin 32)
  /-- HBM_SCRUB_READ (R478): The scrub client reads a word and handles its errors. -/
  | hbmScrubRead (addr : BitVec 40) (ecc : HbmEcc)
  /-- HBM_FENCE (R480): A pseudo-channel is fenced and its deep and control pages remapped to the window. -/
  | hbmFence (pc : PcN) (cause : BitVec 4)
  /-- HBM_PC_FENCE_WRITE (R479): A write of HBM_PC_STAT_q.FENCE orders a fence of the pseudo-channel. -/
  | hbmPcFenceWrite (who : Req) (pc : PcN)
  /-- HBM_REMAP_FILL_DONE (R480): The remapped pages have been filled with poison words and waiting accesses proceed. -/
  | hbmRemapFillDone
  /-- HBM_SPILL_WITHDRAW (R480): Sinter withdraws the spill blocks of the fenced pseudo-channel. -/
  | hbmSpillWithdraw
  /-- HBM_RUN (R481): Setting HBM_CTL.RUN trains every pseudo-channel and zeroes the memory. -/
  | hbmRun (who : Req)
  /-- HBM_TRAINED (R481): Initial training and zeroing finish and TRAINED is set. -/
  | hbmTrained
  /-- DEV_MODE_REQ (R494): A write of DEV_MODE_REQ.GO orders a mode transition, which is checked and run. -/
  | devModeReq (who : Req) (target : BitVec 4)
  /-- MAINTAIN_ENTRY (R495): A transition to MAINTAIN drains the selected ports and completes when they are empty. -/
  | maintainEntry
  /-- MAINTAIN_DRAIN_TIMEOUT (R495): The MAINTAIN drain does not finish within DRAIN_MS and the ports are flushed. -/
  | maintainDrainTimeout
  /-- SIMMER_ENTRY (R500): A transition to SIMMER stops ingress and waits for the drain. -/
  | simmerEntry
  /-- SLEEP_DRAIN_TIMEOUT (R500): The SIMMER drain does not finish within DRAIN_MS and the transition ends with DRAIN_TIMEOUT. -/
  | sleepDrainTimeout
  /-- SIMMER_COMMIT (R499): At the SIMMER commit point the entry is cancelled by a pending wake, or completes. -/
  | simmerCommit
  /-- DORMANT_ENTRY (R501): A transition to DORMANT stops keep-alive slots 1–3 and removes the main rails after its commit point. -/
  | dormantEntry
  /-- DORMANT_AUTO_EXPIRE (R501): SIMMER has lasted AUTO_S seconds and orders DORMANT itself. -/
  | dormantAutoExpire
  /-- SIMMER_WAKE (R502): A wake in SIMMER restores clocks, HBM and links and returns to the mode in AON_WAKE.RET. -/
  | simmerWake
  /-- DORMANT_WAKE (R503): A wake in DORMANT raises the rails, resets every domain but AON and enters BOOT. -/
  | dormantWake
  /-- DEV_WAKE_WRITE (R504): A write of DEV_WAKE.WAKE is a wake source in SIMMER. -/
  | devWakeWrite (who : Req)
  /-- WAKE_TIMER_EXPIRE (R504): AON_WAKE_TMR reaches 0 and wakes the device. -/
  | wakeTimerExpire
  /-- GPIO_INPUT_CHANGE (R504): A GPIO input is detected by its mode, asserting its source and waking if enabled. -/
  | gpioInputChange (n : Fin 32) (level : Bool)
  /-- KEEPALIVE_FRAME_RECEIVE (R505): A frame on a keep-alive port is consumed by a service, treated as a wake frame, held or dropped. -/
  | keepaliveFrameReceive (slot : Fin 4) (bytes : List Byte)
  /-- KEEPALIVE_SERVICE_SEND (R505): Fumarole sends a periodic LACP, LLDP, PTP or BFD packet at its interval. -/
  | keepaliveServiceSend (slot : Fin 4) (svc : KaSvc) (bytes : List Byte)
  /-- CONTROL_CORE_RESET (R491): A control-core reset stops four contexts, abandons locks, ends tasks and restarts them after 64 cycles. -/
  | controlCoreReset (who : Req) (core : Fin 4)
  /-- FUMAROLE_RESET (R492): A write of DEV_CORE_RST.FUM resets the Fumarole core alone. -/
  | fumaroleReset (who : Req)
  /-- DEV_PWR_WRITE (R497): A write of DEV_PWR switches power domains on or off where allowed. -/
  | devPwrWrite (who : Req) (v : W32)
  /-- LKP_HALF_COPY_DONE (R497): A lookup half switched back on has copied every entry from the other half. -/
  | lkpHalfCopyDone (half : HalfN)
  /-- DEV_FENCE_WRITE (R544): Setting a pipeline or half in DEV_FENCE fences it in one step. -/
  | devFenceWrite (who : Req) (v : W32)
  /-- RAILS_VALID (R603): PG_MAIN and PG_HBM are both high and the device leaves OFF for RESET. -/
  | railsValid
  /-- VDD_AON_UP (R603): VDD_AON and VDD_IO18 have been valid for 1 ms and the sequencer drives PWR_EN_MAIN. -/
  | vddAonUp
  /-- PG_MAIN_UP (R603): PG_MAIN has been high for 1 ms and the sequencer drives PWR_EN_HBM. -/
  | pgMainUp
  /-- PG_TIMEOUT (R603): A power-good is not high 50 ms after its enable and the sequencer drops both enables to retry. -/
  | pgTimeout
  /-- PWR_SEQ_RETRY (R603): After 1 s the sequencer starts again with PWR_EN_MAIN. -/
  | pwrSeqRetry
  /-- POR_RESET (R494): POR_N low for 10 µs resets every block, Fumarole and the time unit included. -/
  | porReset
  /-- SYS_RESET (R494): SYS_RST_N low for 10 µs resets every block except Fumarole and the time unit. -/
  | sysReset
  /-- RESET_RELEASE (R494): POR_N and SYS_RST_N are high and the device enters BOOT. -/
  | resetRelease
  /-- THERMTRIP (R619): An on-die sensor reaches its threshold; THERMTRIP_N is asserted and the rail enables dropped. -/
  | thermtrip
  /-- BOOT_SEQUENCE (R518): The boot ROM reads, verifies and installs the stage-1 image and releases the cores into CONFIGURE. -/
  | bootSequence
  /-- BOOT_RETRY (R518): After both slots failed and 10 s have passed, the boot ROM starts again. -/
  | bootRetry
  /-- IDENTITY_DERIVE (R521): SEC derives the identity keys from UDS and sets ID_READY. -/
  | identityDerive
  /-- SEC_VERIFY (R530): SEC command VERIFY checks an image. -/
  | secVerify (who : Req)
  /-- SEC_PLOAD (R526): SEC command PLOAD verifies a pipeline program and writes it into instruction RAM. -/
  | secPload (who : Req)
  /-- SEC_EXTEND (R530): SEC command EXTEND extends MR7. -/
  | secExtend (who : Req)
  /-- SEC_ATTEST (R524): SEC command ATTEST writes a signed attestation report. -/
  | secAttest (who : Req)
  /-- SEC_SVN_ADVANCE (R520): SEC command SVN_ADVANCE burns SVN fuses up to a target. -/
  | secSvnAdvance (who : Req)
  /-- SEC_OWN_ENROL (R525): SEC command OWN_ENROL burns the owner key hashes. -/
  | secOwnEnrol (who : Req)
  /-- SEC_DBG_UNLOCK (R527): SEC command DBG_UNLOCK checks a debug token and grants its level. -/
  | secDbgUnlock (who : Req)
  /-- SEC_FLASH_WRITE (R531): SEC command FLASH_WRITE writes an image to flash, header sector last. -/
  | secFlashWrite (who : Req)
  /-- SEC_SHA384 (R530): SEC command SHA384 hashes memory. -/
  | secSha384 (who : Req)
  /-- SEC_MODEXP (R530): SEC command MODEXP computes a modular exponentiation. -/
  | secModexp (who : Req)
  /-- SEC_IREPAIR (R530): SEC command IREPAIR repairs one instruction RAM word from the verified program. -/
  | secIrepair (who : Req)
  /-- SEC_ABORT (R530): A write of SEC_CMD_CTL.ABORT stops a command before its completion point, or reads TOO_LATE. -/
  | secAbort (who : Req)
  /-- SEC_CMD_COMPLETE (R530): A SEC command reaches its end and reports its status. -/
  | secCmdComplete
  /-- SEC_REQ_SIGNED_WRITE (R526): A write of SEC_CTL.REQ_SIGNED requires signed pipeline programs until reset. -/
  | secReqSignedWrite (who : Req)
  /-- RAS_TEST_EM_SLICE (R547): Test 0x01 checks an exact-match replica slice. -/
  | rasTestEmSlice (who : Req) (target : BitVec 16)
  /-- RAS_TEST_TC_SLICE (R547): Test 0x02 checks a ternary array slice. -/
  | rasTestTcSlice (who : Req) (target : BitVec 16)
  /-- RAS_TEST_BUCKET_CACHE (R547): Test 0x03 checks a bucket cache. -/
  | rasTestBucketCache (who : Req) (target : BitVec 16)
  /-- RAS_TEST_METER_CTR (R547): Test 0x04 checks the meter and counter memories of a half. -/
  | rasTestMeterCtr (who : Req) (target : BitVec 16)
  /-- RAS_TEST_ENGINE_MEM (R547): Test 0x05 checks the engine, cluster and pipeline memories of a pipeline. -/
  | rasTestEngineMem (who : Req) (target : BitVec 16)
  /-- RAS_TEST_SINTER_MEM (R547): Test 0x06 checks the Sinter, VOQ and crossbar memories. -/
  | rasTestSinterMem (who : Req) (target : BitVec 16)
  /-- RAS_TEST_SERDES_RECAL (R547): Test 0x07 recalibrates the SerDes of a port. -/
  | rasTestSerdesRecal (who : Req) (target : BitVec 16)
  /-- RAS_TEST_EYE_SCAN (R547): Test 0x08 scans the eye of a port. -/
  | rasTestEyeScan (who : Req) (target : BitVec 16)
  /-- RAS_TEST_FULL (R547): Test 0x09 runs the full self-test. -/
  | rasTestFull (who : Req) (target : BitVec 16)
  /-- RAS_TEST_ABORT (R549): A write of RAS_TEST_CTL.ABORT stops the test before its completion point, or reads TOO_LATE. -/
  | rasTestAbort (who : Req)
  /-- RAS_TEST_COMPLETE (R548): A test ends, with its slice copied back and checked. -/
  | rasTestComplete (pass : Bool) (res : W32)
  /-- RAS_LOG_CLR (R540): A write of RAS_LOG_CLR empties the error log. -/
  | rasLogClr (who : Req)
  /-- DBG_HALT (R560): Debug command HALT stops every thread or context of the target before its next issue. -/
  | dbgHalt (who : Req) (v : W32)
  /-- DBG_RESUME (R562): Debug command RESUME lets the target issue again. -/
  | dbgResume (who : Req) (v : W32)
  /-- DBG_STEP (R562): Debug command STEP lets each halted thread make one issue. -/
  | dbgStep (who : Req) (v : W32)
  /-- DBG_RST (R563): Debug command RST orders a thread reset. -/
  | dbgRst (who : Req) (v : W32)
  /-- DBG_EV14 (R564): Debug command EV14 raises event 14 on a thread. -/
  | dbgEv14 (who : Req) (v : W32)
  /-- DBG_ACC_READ (R557): A DBG_ACC command with WRITE = 0 reads memory as agent 0x811. -/
  | dbgAccRead (who : Req) (sz : Bool)
  /-- DBG_ACC_WRITE (R557): A DBG_ACC command with WRITE = 1 writes memory as agent 0x811. -/
  | dbgAccWrite (who : Req) (sz : Bool)
  /-- DBG_TREG_ACCESS (R573): An access to DBG_TREG reads or writes a register of the halted target. -/
  | dbgTregAccess (who : Req) (hi : Bool) (acc : RegAcc)
  /-- DBG_MBX_DATA_WRITE (R558): A write of DBG_MBX_DATA stores a token word and advances the address. -/
  | dbgMbxDataWrite (who : Req) (v : W32)
  /-- DBG_MBX_SUBMIT (R558): A write of DBG_MBX_CTL.SUBMIT runs DBG_UNLOCK on the mailbox token. -/
  | dbgMbxSubmit (who : Req)
  /-- DBG_TR_LO_READ (R568): A read of DBG_TR_LO returns a Tephra ring record and latches its high half. -/
  | dbgTrLoRead (who : Req)
  /-- BREAKPOINT_HIT (R565): A breakpoint triggers on a fetch or access and halts its thread, engine or pipeline. -/
  | breakpointHit (n : Fin 16) (a : EngThr) (addr : BitVec 32)
  /-- JTAG_IDCODE (R555): JTAG instruction IDCODE reads the device identification. -/
  | jtagIdcode
  /-- JTAG_BYPASS (R555): JTAG instruction BYPASS. -/
  | jtagBypass (tdi : Bool)
  /-- JTAG_SAMPLE_PRELOAD (R555): JTAG instruction SAMPLE/PRELOAD on the single-ended balls. -/
  | jtagSamplePreload (pins : List Bool)
  /-- JTAG_EXTEST (R555): JTAG instruction EXTEST on the single-ended balls. -/
  | jtagExtest
  /-- JTAG_DBGREG (R555): JTAG instruction DBGREG gives 32-bit access to the DBG page. -/
  | jtagDbgreg (off : BitVec 12) (acc : RegAcc)
  /-- VIOL_CAP_READ (R584): A read of VIOL_CAP returns the last capture and clears it with VOVF. -/
  | violCapRead (who : Req) (page : Nat)
  /-- LOW_WORD_LATCH_READ (R582): A read of the low word of a 64-bit value, or of a group latch register, latches the rest for the reader. -/
  | lowWordLatchRead (who : Req) (addr : BitVec 26)
  /-- REGISTER_WRITE (R579): A write to a register with no row of its own acts by its field types. -/
  | registerWrite (who : Req) (addr : BitVec 26) (v : W32)
  /-- UNDEFINED_INSTRUCTION (R159): A fetched halfword or instruction with an unassigned encoding, a non-zero zero field, 0x0000, an instruction
    absent from the profile or a refused fused-unit form raises UNDEF before any effect. -/
  | undefinedInstruction (a : Agent)
  /-- TIME_PLL_LOCK_LOST (R63): The TIME PLL loses lock on its selected reference and TIME_STAT.REF_OK falls to 0. -/
  | timePllLockLost
  /-- SLEW_END (R75): The remaining slew reaches zero and TIME_STAT.SLEWING clears. -/
  | slewEnd
  /-- SHAPER_CREDIT_RECOVERY (R367): The negative credit of a class shaper recovers to 0, so the class again allows a start and transmit selection
    can pick its head. -/
  | shaperCreditRecovery (port : PortN) (cls : ClassN)
  /-- DEV_PWR_CHANGE_COMPLETE (R497): A DEV_PWR change other than a lookup-half copy completes within 50 µs, BUSY clears and DEV INT_RAW bit 3 is
    raised. -/
  | devPwrChangeComplete
  /-- POWER_LOSS (R604): The board removes the rails, VDD_AON falls and the device goes to OFF, losing all state. -/
  | powerLoss
  /-- VF_ENABLE_SET (R445): Setting VF Enable lets the PF's created VF instances leave INACTIVE and become ACTIVE. -/
  | vfEnableSet (host : Fin 4)
  /-- PCIE_LINK_UP (R440): A PCIe link completes training, HIF_LINK_h.UP rises and its functions can again be enabled. -/
  | pcieLinkUp (host : Fin 4) (rate : BitVec 3) (width : BitVec 5)
  /-- CONFIGURATION_REQUEST (R606): A PCIe configuration request to a link's function completes with Configuration Request Retry Status until
    DEV_MODE first reaches CONFIGURE. -/
  | configurationRequest (host : Fin 4)
  /-- STRAP_CHANGE (R611): A filter or slew strap input changes and the new glitch-filter or output-edge setting takes effect within 1 µs. -/
  | strapChange (which : StrapN) (v : BitVec 3)
  /-- RC_REGISTER_READ (R579): A read of a 32-bit RC field returns its value and clears it, except through an ACC 0b01 read. -/
  | rcRegisterRead (who : Req) (addr : BitVec 26)
  deriving DecidableEq, Repr

end Sys2Proof
end

