-- ==== Sys2Proof/Decode.lean ====
section
/-! DEFINITION. The commands of this block have no encoding in the table of operations: no row gives bits. -/

namespace Sys2Proof

/-- The command that a word spells by the bits of the table: no row of the table gives bits, so no word spells one.
[DESIGN CHOICE, log 115] -/
def decodeTableWord (_nbits _w : Nat) : Option Instr := none

end Sys2Proof
end

