-- ==== Sys2Proof/Machine/RegMap.lean ====
section
/-! DEFINITION. The register map: where every register of the part lies (R574, R575), which fields it has, how each field is
accessed (R579) and what it holds after reset. One list of descriptors per kind of page, one address function `R.<register>`
per register and one field constant `F.<register>_<field>` per field, each under the name the spec gives it. The rows follow the register tables of the
spec's chapters (R61, R88, R109, R141, R142, R186, R207, R237, R269, R304, R333, R363, R390, R422, R439, R466, R487, R512,
R537, R554, R559, R573, R576). -/

namespace Sys2Proof.Machine

/-- A field of a 32-bit register: bits `hi` down to `lo`. -/
structure Fld where
  hi : Nat
  lo : Nat
  deriving DecidableEq, Repr

/-- Access types of R579. RSVD bits belong to no field. -/
inductive FTy where
  | rw | ro | wo | w1c | w1s | rc
  deriving DecidableEq, Repr

/-- One field with its access type and its reset value. -/
structure FieldD where
  fld : Fld
  ty  : FTy
  rst : Nat
  deriving DecidableEq, Repr

/-- One register, or an array of registers: its offset in the page, the dimensions of the array (count and stride, the
widest stride first), whether it is a counter of 64 bits in two registers, whether a read latches following registers for the
reading agent (their distances, R582), and its fields. -/
structure RegD where
  off   : Nat
  dims  : List (Nat × Nat)
  wide  : Bool
  latch : List Nat
  flds  : List FieldD
  deriving DecidableEq, Repr

/-- The kinds of register page (R575). `inst` is the instance page of Hosts and Instances, `db` the doorbell page. -/
inductive PageKind where
  | dev | time | irqMain | irqSrc | tsk | lckMain | lckPage | port | sds | parse | eng | clu | em | emDesc | tc | view | lrnDev | lrnHalf | lrnAge | lrnLim | sintMain | sintAcc | xbar | tmMain | tmPort | mtr | hifMain | inst | hbmMain | hbmCh | sec | ras | dbg | aon | db
  deriving DecidableEq, Repr

namespace F

/-- The whole 32-bit register. -/
def all : Fld := ⟨31, 0⟩
def DEV_MODE_PREV : Fld := ⟨7, 4⟩
def DEV_MODE_MODE : Fld := ⟨3, 0⟩
def DEV_MODE_REQ_GO : Fld := ⟨31, 31⟩
def DEV_MODE_REQ_TARGET : Fld := ⟨27, 24⟩
def DEV_MODE_REQ_STATUS : Fld := ⟨19, 16⟩
def DEV_MAINT_PORTS_LO : Fld := ⟨31, 0⟩
def DEV_MAINT_PORTS_HI : Fld := ⟨31, 0⟩
def DEV_MAINT_DRAIN_MS : Fld := ⟨15, 0⟩
def DEV_FENCE_HALF_B : Fld := ⟨17, 17⟩
def DEV_FENCE_HALF_A : Fld := ⟨16, 16⟩
def DEV_FENCE_PIPE : Fld := ⟨15, 0⟩
def DEV_PWR_PCIE : Fld := ⟨21, 18⟩
def DEV_PWR_LKP : Fld := ⟨17, 16⟩
def DEV_PWR_PIPE : Fld := ⟨15, 0⟩
def DEV_PWR_STAT_BUSY : Fld := ⟨31, 31⟩
def DEV_PWR_STAT : Fld := ⟨21, 0⟩
def DEV_CORE_RST_FUM : Fld := ⟨4, 4⟩
def DEV_CORE_RST_CORE : Fld := ⟨3, 0⟩
def DEV_CORE_ENTRY_LO : Fld := ⟨31, 0⟩
def DEV_CORE_ENTRY_HI : Fld := ⟨6, 0⟩
def DEV_CORE_STAT_SLP : Fld := ⟨31, 28⟩
def DEV_CORE_STAT_HALT : Fld := ⟨27, 24⟩
def DEV_CORE_STAT_CSLEEP : Fld := ⟨23, 23⟩
def DEV_CORE_STAT_RST : Fld := ⟨22, 22⟩
def DEV_CORE_STAT_SLP_RES : Fld := ⟨7, 0⟩
def DEV_SLEEP_DRAIN_MS : Fld := ⟨15, 0⟩
def DEV_WAKE_WAKE : Fld := ⟨31, 31⟩
def AON_WAKE_RET : Fld := ⟨31, 28⟩
def AON_WAKE_EN : Fld := ⟨6, 0⟩
def AON_WAKE_STAT_WOKE : Fld := ⟨31, 31⟩
def AON_WAKE_STAT_CAUSE : Fld := ⟨6, 0⟩
def AON_WAKE_TMR : Fld := ⟨31, 0⟩
def AON_DORMANT_AUTO_S : Fld := ⟨15, 0⟩
def AON_KA_SVC : Fld := ⟨4, 0⟩
def AON_WAKE_DA_LO : Fld := ⟨31, 0⟩
def AON_WAKE_DA_HI_ETYPE : Fld := ⟨31, 16⟩
def AON_WAKE_DA_HI_DA : Fld := ⟨15, 0⟩
def AON_HOLD_MODE : Fld := ⟨31, 30⟩
def AON_HOLD_MAX_AGE : Fld := ⟨25, 16⟩
def AON_HOLD_WM_KB : Fld := ⟨10, 0⟩
def AON_HOLD_STAT : Fld := ⟨20, 0⟩
def AON_GPIO_CFG_WAKE : Fld := ⟨31, 31⟩
def AON_GPIO_CFG_MODE : Fld := ⟨30, 28⟩
def AON_GPIO_CFG_FILTER_NS : Fld := ⟨8, 0⟩
def AON_GPIO_LATCH : Fld := ⟨31, 0⟩
def AON_GPIO_IN : Fld := ⟨31, 0⟩
def TIME_CTL_AUTOSET : Fld := ⟨7, 7⟩
def TIME_CTL_HOLD : Fld := ⟨6, 6⟩
def TIME_CTL_REF : Fld := ⟨5, 4⟩
def TIME_CTL_SRC : Fld := ⟨1, 0⟩
def TIME_STAT_VALID : Fld := ⟨31, 31⟩
def TIME_STAT_SLEWING : Fld := ⟨30, 30⟩
def TIME_STAT_LAGGING : Fld := ⟨29, 29⟩
def TIME_STAT_REF_OK : Fld := ⟨28, 28⟩
def TIME_STAT_PPS_OK : Fld := ⟨27, 27⟩
def TIME_STAT_TOD_OK : Fld := ⟨26, 26⟩
def TIME_STAT_STATE : Fld := ⟨2, 0⟩
def TIME_NOW_FRAC : Fld := ⟨15, 0⟩
def TIME_NOW_NS : Fld := ⟨29, 0⟩
def TIME_NOW_SEC_LO : Fld := ⟨31, 0⟩
def TIME_NOW_SEC_HI : Fld := ⟨15, 0⟩
def TIME_FREQ : Fld := ⟨31, 0⟩
def TIME_ADJ_NS : Fld := ⟨31, 0⟩
def TIME_ADJ_REM : Fld := ⟨31, 0⟩
def TIME_SLEW_RATE : Fld := ⟨9, 0⟩
def TIME_SET_NS : Fld := ⟨29, 0⟩
def TIME_SET_SEC_LO : Fld := ⟨31, 0⟩
def TIME_SET_SEC_HI : Fld := ⟨15, 0⟩
def TIME_STEP_GO : Fld := ⟨31, 31⟩
def TIME_STEP_BUSY : Fld := ⟨30, 30⟩
def TIME_SERVO_LOCK_NS : Fld := ⟨31, 16⟩
def TIME_SERVO_LOCK_CNT : Fld := ⟨15, 8⟩
def TIME_SERVO_KI : Fld := ⟨7, 4⟩
def TIME_SERVO_HOLD_AVG : Fld := ⟨3, 0⟩
def TIME_PPS_ERR : Fld := ⟨31, 0⟩
def TIME_LAG : Fld := ⟨31, 0⟩
def TIME_IO_PPS_W : Fld := ⟨31, 24⟩
def TIME_IO_PPS_REJ : Fld := ⟨23, 16⟩
def TIME_IO_PPS_POL : Fld := ⟨15, 15⟩
def TIME_IO_TOD_OUT_EN : Fld := ⟨14, 14⟩
def TIME_IO_PPS_OUT_EN : Fld := ⟨13, 13⟩
def TIME_IO_BAUD : Fld := ⟨2, 0⟩
def TIME_UTC : Fld := ⟨15, 0⟩
def TIME_TRIG_NS : Fld := ⟨29, 0⟩
def TIME_TRIG_SEC_LO : Fld := ⟨31, 0⟩
def TIME_TRIG_SEC_HI : Fld := ⟨15, 0⟩
def TIME_TRIG_CTL_ARM : Fld := ⟨31, 31⟩
def TIME_TRIG_CTL_LATE : Fld := ⟨30, 30⟩
def TIME_TRIG_CTL_ACT : Fld := ⟨29, 28⟩
def TIME_TRIG_CTL_ARG : Fld := ⟨27, 16⟩
def TIME_TRIG_CTL_PERIOD_US : Fld := ⟨15, 0⟩
def IRQ_CTL_EN : Fld := ⟨31, 31⟩
def IRQ_CLAIM : Fld := ⟨9, 0⟩
def IRQ_EOI : Fld := ⟨9, 0⟩
def IRQ_TCFG_CTX : Fld := ⟨9, 8⟩
def IRQ_TCFG_FLOOR : Fld := ⟨3, 0⟩
def IRQ_TSTAT_REQ : Fld := ⟨31, 31⟩
def IRQ_TSTAT_SL : Fld := ⟨19, 16⟩
def IRQ_TSTAT_TOP : Fld := ⟨9, 0⟩
def IRQ_HEOI : Fld := ⟨9, 0⟩
def IRQ_SOFT_SET : Fld := ⟨31, 31⟩
def IRQ_SOFT_S : Fld := ⟨5, 0⟩
def IRQ_SOFT_STAT_LO : Fld := ⟨31, 0⟩
def IRQ_SOFT_STAT_HI : Fld := ⟨31, 0⟩
def IRQ_WAKE_EN : Fld := ⟨31, 31⟩
def IRQ_WAKE_SRC : Fld := ⟨9, 0⟩
def IRQ_WAKE_STAT_WOKE : Fld := ⟨31, 31⟩
def IRQ_WAKE_STAT_SRC : Fld := ⟨9, 0⟩
def IRQ_SRC_EN : Fld := ⟨31, 31⟩
def IRQ_SRC_TGT : Fld := ⟨29, 27⟩
def IRQ_SRC_VEC : Fld := ⟨26, 16⟩
def IRQ_SRC_PRIO : Fld := ⟨3, 0⟩
def IRQ_ASSERT : Fld := ⟨31, 0⟩
def IRQ_INSV : Fld := ⟨31, 0⟩
def TSK_CTL_RUN : Fld := ⟨31, 31⟩
def TSK_CTL_PORT_EN : Fld := ⟨30, 30⟩
def TSK_SEL : Fld := ⟨11, 0⟩
def TSK_TCE_CFG_GROUP : Fld := ⟨29, 26⟩
def TSK_TCE_CFG_BPRIO : Fld := ⟨25, 20⟩
def TSK_TCE_CFG_AGENT : Fld := ⟨11, 0⟩
def TSK_TCE_TCB_LO : Fld := ⟨31, 10⟩
def TSK_TCE_TCB_HI : Fld := ⟨7, 0⟩
def TSK_TCE_STAT_STATE : Fld := ⟨31, 29⟩
def TSK_TCE_STAT_EPRIO : Fld := ⟨25, 20⟩
def TSK_TCE_STAT_PEND : Fld := ⟨15, 8⟩
def TSK_TCE_STAT_GRANT : Fld := ⟨7, 7⟩
def TSK_TCE_STAT_TMO : Fld := ⟨6, 6⟩
def TSK_TCE_ENTRY_LO : Fld := ⟨31, 0⟩
def TSK_TCE_ENTRY_HI : Fld := ⟨6, 0⟩
def TSK_CMD_GO : Fld := ⟨31, 31⟩
def TSK_CMD_OP : Fld := ⟨27, 24⟩
def TSK_CMD_TASK : Fld := ⟨11, 0⟩
def TSK_CMD_STAT_BUSY : Fld := ⟨31, 31⟩
def TSK_CMD_STAT_STATUS : Fld := ⟨3, 0⟩
def TSK_TR_CTL_EN : Fld := ⟨31, 31⟩
def TSK_TR_CTL_DEST : Fld := ⟨30, 30⟩
def TSK_TR_CTL_STOP_FULL : Fld := ⟨29, 29⟩
def TSK_TR_CTL_FULL : Fld := ⟨28, 28⟩
def TSK_TR_BASE_LO : Fld := ⟨31, 16⟩
def TSK_TR_BASE_HI : Fld := ⟨7, 0⟩
def TSK_TR_SIZE : Fld := ⟨15, 0⟩
def TSK_TR_WP : Fld := ⟨31, 0⟩
def TSK_GRP_CFG_EN : Fld := ⟨31, 31⟩
def TSK_GRP_CFG_SUSP : Fld := ⟨30, 30⟩
def TSK_GRP_CFG_MODE : Fld := ⟨29, 29⟩
def TSK_GRP_CFG_TR_EN : Fld := ⟨28, 28⟩
def TSK_GRP_CFG_TICK_US : Fld := ⟨9, 0⟩
def TSK_GRP_TICK : Fld := ⟨31, 0⟩
def TSK_CTX_CMD : Fld := ⟨31, 0⟩
def TSK_CTX_OPH : Fld := ⟨31, 0⟩
def TSK_CTX_STAT : Fld := ⟨31, 0⟩
def TSK_CTX_CFG_EN : Fld := ⟨31, 31⟩
def TSK_CTX_CFG_IDLE_PC : Fld := ⟨30, 4⟩
def TSK_CTX_CFG_STATUS : Fld := ⟨3, 0⟩
def LCK_CFG_DEF_PRIO : Fld := ⟨5, 0⟩
def LCK_ACQ : Fld := ⟨31, 0⟩
def LCK_REL : Fld := ⟨31, 0⟩
def LCK_STAT_HELD : Fld := ⟨31, 31⟩
def LCK_STAT_ABAND : Fld := ⟨30, 30⟩
def LCK_STAT_WAITERS : Fld := ⟨29, 29⟩
def LCK_STAT_OTASK : Fld := ⟨23, 12⟩
def LCK_STAT_OWNER : Fld := ⟨11, 0⟩
def PORT_MODE_LT : Fld := ⟨5, 5⟩
def PORT_MODE_AN : Fld := ⟨4, 4⟩
def PORT_MODE_MODE : Fld := ⟨3, 0⟩
def PORT_CTL_EN : Fld := ⟨31, 31⟩
def PORT_CTL_LPBK : Fld := ⟨30, 29⟩
def PORT_CTL_MAXFRM : Fld := ⟨13, 0⟩
def PORT_LINK_UP : Fld := ⟨31, 31⟩
def PORT_LINK_AN_DONE : Fld := ⟨30, 30⟩
def PORT_LINK_LT_DONE : Fld := ⟨29, 29⟩
def PORT_LINK_REASON : Fld := ⟨3, 0⟩
def PORT_DEB_UP_US : Fld := ⟨31, 16⟩
def PORT_DEB_DOWN_US : Fld := ⟨15, 0⟩
def PORT_FC_QUANTA : Fld := ⟨31, 16⟩
def PORT_FC_PFC_EN : Fld := ⟨15, 8⟩
def PORT_FC_MODE : Fld := ⟨1, 0⟩
def PORT_TS_ADJ_TX_ADJ : Fld := ⟨31, 16⟩
def PORT_TS_ADJ_RX_ADJ : Fld := ⟨15, 0⟩
def PORT_TS_STAT_VALID : Fld := ⟨31, 31⟩
def PORT_TS_STAT_COUNT : Fld := ⟨5, 0⟩
def PORT_TS_TAG_FRAC : Fld := ⟨31, 16⟩
def PORT_TS_TAG_TAG : Fld := ⟨15, 0⟩
def PORT_TS_NS : Fld := ⟨31, 0⟩
def PORT_TS_SEC_LO : Fld := ⟨31, 0⟩
def PORT_TS_SEC_HI : Fld := ⟨15, 0⟩
def PORT_KA_KA_EN : Fld := ⟨31, 31⟩
def PORT_KA_KA_SLOT : Fld := ⟨3, 2⟩
def PORT_KA_KA_MODE : Fld := ⟨1, 0⟩
def SDS_LANE_MAP_TX_MAP : Fld := ⟨23, 0⟩
def SDS_LANE_MAP_RX_MAP : Fld := ⟨23, 0⟩
def SDS_LANE_POL_RX_INV : Fld := ⟨15, 8⟩
def SDS_LANE_POL_TX_INV : Fld := ⟨7, 0⟩
def PARSE_CFG_HASH_INNER : Fld := ⟨7, 7⟩
def PARSE_CFG_HASH_L4 : Fld := ⟨6, 6⟩
def PARSE_CFG_MPLS_PEEK : Fld := ⟨5, 5⟩
def PARSE_CFG_TPID_X_EN : Fld := ⟨4, 4⟩
def PARSE_NUM_A_VXLAN_PORT : Fld := ⟨31, 16⟩
def PARSE_NUM_A_GENEVE_PORT : Fld := ⟨15, 0⟩
def PARSE_NUM_B_GTPU_PORT : Fld := ⟨31, 16⟩
def PARSE_NUM_B_TPID_X : Fld := ⟨15, 0⟩
def PARSE_PORT_INST : Fld := ⟨31, 0⟩
def PARSE_STAT_VIEW : Fld := ⟨0, 0⟩
def PARSE_PORT_CFG_CLS_SRC : Fld := ⟨31, 30⟩
def PARSE_PORT_CFG_CLS_DEF : Fld := ⟨29, 27⟩
def PARSE_PORT_CFG_BD_MODE : Fld := ⟨26, 26⟩
def PARSE_PORT_CFG_PROF_DEF : Fld := ⟨25, 22⟩
def PARSE_PORT_CFG_BD : Fld := ⟨21, 6⟩
def PARSE_PCP_MAP : Fld := ⟨23, 0⟩
def PARSE_DSCP_MAP : Fld := ⟨23, 0⟩
def PSEL_CTL_EN : Fld := ⟨31, 31⟩
def PSEL_CTL_PMASK : Fld := ⟨30, 26⟩
def PSEL_CTL_PROF : Fld := ⟨3, 0⟩
def PSEL_MASK : Fld := ⟨31, 0⟩
def PSEL_VAL : Fld := ⟨31, 0⟩
def PKEY_CTL_EN : Fld := ⟨31, 31⟩
def PKEY_CTL_KIND : Fld := ⟨30, 29⟩
def PKEY_CTL_TABLE_ID : Fld := ⟨28, 21⟩
def PKEY_CTL_SLOT : Fld := ⟨20, 18⟩
def PKEY_CTL_DSTG : Fld := ⟨17, 14⟩
def PKEY_CTL_NEXT : Fld := ⟨13, 11⟩
def PKEY_EXT : Fld := ⟨31, 0⟩
def ENG_CTL_RUN : Fld := ⟨31, 31⟩
def ENG_CTL_EXP_EN : Fld := ⟨30, 30⟩
def ENG_CTL_EXP_TID : Fld := ⟨29, 27⟩
def ENG_CTL_EXP_CLASS : Fld := ⟨26, 24⟩
def ENG_THR_CFG_ROLE : Fld := ⟨15, 0⟩
def ENG_ENTRY_PKT_ENTRY : Fld := ⟨31, 16⟩
def ENG_ENTRY_SVC_ENTRY : Fld := ⟨15, 0⟩
def ENG_WDOG_ACT : Fld := ⟨31, 30⟩
def ENG_WDOG_LIMIT : Fld := ⟨15, 0⟩
def ENG_THR_RST_RST : Fld := ⟨7, 0⟩
def ENG_STAT_HOLD : Fld := ⟨31, 24⟩
def ENG_STAT_WAIT : Fld := ⟨23, 16⟩
def ENG_STAT_WDOG_SUSP : Fld := ⟨15, 15⟩
def ENG_STAT_BOOST : Fld := ⟨14, 14⟩
def ENG_STAT_OLDEST_THR : Fld := ⟨13, 11⟩
def ENG_STAT_OLDEST_HELD : Fld := ⟨10, 10⟩
def ENG_STAT_CHAN_DEPTH : Fld := ⟨9, 5⟩
def ENG_DL_DET : Fld := ⟨31, 31⟩
def ENG_DL_THR : Fld := ⟨2, 0⟩
def ENG_HKEY_SEL_IDX : Fld := ⟨4, 0⟩
def ENG_HKEY_LO : Fld := ⟨31, 0⟩
def ENG_HKEY_HI : Fld := ⟨31, 0⟩
def EV_MASK : Fld := ⟨15, 0⟩
def EV_PEND : Fld := ⟨15, 0⟩
def ENG_TMR_ARMED : Fld := ⟨31, 31⟩
def ENG_TMR_REM : Fld := ⟨30, 0⟩
def ENG_THR_STAT_STATE : Fld := ⟨31, 29⟩
def ENG_THR_STAT_PC : Fld := ⟨15, 0⟩
def CLU_IRAM_ADDR_ADDR : Fld := ⟨16, 2⟩
def CLU_IRAM_DATA : Fld := ⟨31, 0⟩
def CLU_SHR_ADDR_ADDR : Fld := ⟨17, 2⟩
def CLU_SHR_DATA : Fld := ⟨31, 0⟩
def CLU_IRAM_FIX_ADDR_ADDR : Fld := ⟨16, 2⟩
def CLU_IRAM_FIX_DATA : Fld := ⟨31, 0⟩
def CLU_SEG_LO : Fld := ⟨31, 0⟩
def CLU_SEG_HI : Fld := ⟨31, 0⟩
def CLU_SEG_CTL_S7_SLICE : Fld := ⟨1, 1⟩
def CLU_SEG_CTL_S3_SLICE : Fld := ⟨0, 0⟩
def CLU_TVEC_TVEC : Fld := ⟨15, 0⟩
def EM_SEED : Fld := ⟨31, 0⟩
def EM_CMD_CTL_GO : Fld := ⟨31, 31⟩
def EM_CMD_CTL_OP : Fld := ⟨27, 24⟩
def EM_CMD_CTL_VIEWS : Fld := ⟨23, 22⟩
def EM_CMD_CTL_CLR : Fld := ⟨21, 21⟩
def EM_CMD_CTL_TABLE_ID : Fld := ⟨15, 8⟩
def EM_CMD_STAT_BUSY : Fld := ⟨31, 31⟩
def EM_CMD_STAT_STATUS : Fld := ⟨3, 0⟩
def EM_CMD_LOC_STORE : Fld := ⟨31, 30⟩
def EM_CMD_LOC_INDEX : Fld := ⟨26, 2⟩
def EM_CMD_LOC_SLOT : Fld := ⟨1, 0⟩
def EM_CMD_HDR_LO : Fld := ⟨31, 0⟩
def EM_CMD_HDR_HI : Fld := ⟨31, 0⟩
def EM_CMD_DATA_LO : Fld := ⟨31, 0⟩
def EM_CMD_DATA_HI : Fld := ⟨15, 0⟩
def EM_CMD_CTR_PKT_LO : Fld := ⟨31, 0⟩
def EM_CMD_CTR_PKT_HI : Fld := ⟨31, 0⟩
def EM_CMD_CTR_BYTE_LO : Fld := ⟨31, 0⟩
def EM_CMD_CTR_BYTE_HI : Fld := ⟨31, 0⟩
def EM_CMD_KEY : Fld := ⟨31, 0⟩
def EM_BULK_ADDR_LO : Fld := ⟨31, 5⟩
def EM_BULK_ADDR_HI : Fld := ⟨7, 0⟩
def EM_BULK_CNT_CNT : Fld := ⟨15, 0⟩
def EM_BULK_CTL_START : Fld := ⟨31, 31⟩
def EM_BULK_CTL_ABORT : Fld := ⟨30, 30⟩
def EM_BULK_CTL_ABORT_ST : Fld := ⟨29, 28⟩
def EM_BULK_CTL_STATE : Fld := ⟨27, 24⟩
def EM_BULK_CTL_DONE : Fld := ⟨15, 0⟩
def EM_BULK_FAIL_FAIL_CNT : Fld := ⟨31, 16⟩
def EM_BULK_FAIL_FIRST : Fld := ⟨15, 0⟩
def EM_ODIE_USED : Fld := ⟨21, 0⟩
def EM_OVF_USED : Fld := ⟨15, 0⟩
def EM_DEEP_USED : Fld := ⟨27, 0⟩
def EM_TBL_CFG_EN : Fld := ⟨31, 31⟩
def EM_TBL_CFG_STORE : Fld := ⟨30, 30⟩
def EM_TBL_CFG_WIDTH : Fld := ⟨29, 28⟩
def EM_TBL_CFG_KEY_B : Fld := ⟨27, 21⟩
def EM_TBL_CFG_DATA_B : Fld := ⟨20, 18⟩
def EM_TBL_CNT : Fld := ⟨26, 0⟩
def TC_CMD_CTL_GO : Fld := ⟨31, 31⟩
def TC_CMD_CTL_AUTO_P : Fld := ⟨30, 30⟩
def TC_CMD_CTL_OP : Fld := ⟨27, 24⟩
def TC_CMD_CTL_VIEWS : Fld := ⟨23, 22⟩
def TC_CMD_CTL_TABLE_ID : Fld := ⟨15, 8⟩
def TC_CMD_CTL_P : Fld := ⟨7, 0⟩
def TC_CMD_STAT_BUSY : Fld := ⟨31, 31⟩
def TC_CMD_STAT_MOVES : Fld := ⟨15, 8⟩
def TC_CMD_STAT_STATUS : Fld := ⟨3, 0⟩
def TC_CMD_LOC_ROW : Fld := ⟨18, 0⟩
def TC_CMD_HDR_LO : Fld := ⟨31, 0⟩
def TC_CMD_HDR_HI : Fld := ⟨31, 0⟩
def TC_CMD_DATA_LO : Fld := ⟨31, 0⟩
def TC_CMD_DATA_HI : Fld := ⟨15, 0⟩
def TC_CMD_VAL : Fld := ⟨31, 0⟩
def TC_CMD_MASK : Fld := ⟨31, 0⟩
def TC_MR_GAP : Fld := ⟨7, 0⟩
def TC_TBL_EN : Fld := ⟨31, 31⟩
def TC_TBL_CNT : Fld := ⟨19, 0⟩
def TC_USED : Fld := ⟨19, 0⟩
def VIEW_CTL_COMMIT : Fld := ⟨31, 31⟩
def VIEW_CTL_ABORT : Fld := ⟨30, 30⟩
def VIEW_CTL_SYNC : Fld := ⟨29, 29⟩
def VIEW_CTL_FORCE : Fld := ⟨28, 28⟩
def VIEW_CTL_DRAIN_LIMIT : Fld := ⟨15, 0⟩
def VIEW_STAT_ACTIVE : Fld := ⟨31, 31⟩
def VIEW_STAT_DRAINED : Fld := ⟨30, 30⟩
def VIEW_STAT_SYNC_NEEDED : Fld := ⟨29, 29⟩
def VIEW_STAT_EARLY : Fld := ⟨28, 28⟩
def VIEW_STAT_DRAIN_TO : Fld := ⟨27, 27⟩
def VIEW_STAT_C_STATE : Fld := ⟨23, 20⟩
def VIEW_STAT_C_ABORT : Fld := ⟨19, 18⟩
def VIEW_STAT_S_STATE : Fld := ⟨17, 14⟩
def VIEW_STAT_S_ABORT : Fld := ⟨13, 12⟩
def VIEW_STAT_REASON : Fld := ⟨11, 8⟩
def VIEW_CNT : Fld := ⟨31, 0⟩
def VIEW_INFL_0 : Fld := ⟨31, 0⟩
def VIEW_INFL_1 : Fld := ⟨31, 0⟩
def VIEW_FLIP_NS : Fld := ⟨29, 0⟩
def VIEW_FLIP_SEC_LO : Fld := ⟨31, 0⟩
def VIEW_FLIP_SEC_HI : Fld := ⟨15, 0⟩
def VIEW_SYNC_REM : Fld := ⟨31, 0⟩
def VIEW_REFUSED : Fld := ⟨31, 0⟩
def VIEW_FORCE_DROP : Fld := ⟨31, 0⟩
def LRN_CFG_EN : Fld := ⟨31, 31⟩
def LRN_CFG_RX_EN : Fld := ⟨30, 30⟩
def LRN_CFG_TX_EN : Fld := ⟨29, 29⟩
def LRN_CFG_TABLE_ID : Fld := ⟨28, 21⟩
def LRN_CFG_REMOTE_INST : Fld := ⟨7, 0⟩
def LRN_DOM_DOMAIN_ID : Fld := ⟨31, 16⟩
def LRN_DOM_DEVICE_ID : Fld := ⟨13, 0⟩
def LRN_TX_PIPE : Fld := ⟨31, 28⟩
def LRN_TX_CLASS : Fld := ⟨27, 25⟩
def LRN_TX_FLUSH_US : Fld := ⟨15, 0⟩
def LRN_PEER_HELLO_MS : Fld := ⟨31, 16⟩
def LRN_PEER_PEER_TMO_MS : Fld := ⟨15, 0⟩
def LRN_DA_LO : Fld := ⟨31, 0⟩
def LRN_DA_HI : Fld := ⟨15, 0⟩
def LRN_SA_LO : Fld := ⟨31, 0⟩
def LRN_SA_HI : Fld := ⟨15, 0⟩
def LRN_STALE_STALE_US : Fld := ⟨23, 0⟩
def LRN_DAMP_MOVES : Fld := ⟨31, 24⟩
def LRN_DAMP_WIN_MS : Fld := ⟨23, 12⟩
def LRN_DAMP_HOLD_S : Fld := ⟨11, 0⟩
def LRN_SEQ : Fld := ⟨31, 0⟩
def LRN_FLUSH_START : Fld := ⟨31, 31⟩
def LRN_FLUSH_ABORT : Fld := ⟨30, 30⟩
def LRN_FLUSH_ABORT_ST : Fld := ⟨29, 28⟩
def LRN_FLUSH_STATE : Fld := ⟨27, 24⟩
def LRN_FLUSH_SEL : Fld := ⟨23, 22⟩
def LRN_FLUSH_ARG : Fld := ⟨21, 8⟩
def LRN_DUMP_START : Fld := ⟨31, 31⟩
def LRN_DUMP_ABORT : Fld := ⟨30, 30⟩
def LRN_DUMP_ABORT_ST : Fld := ⟨29, 28⟩
def LRN_DUMP_STATE : Fld := ⟨27, 24⟩
def LRN_PEER_SEL : Fld := ⟨13, 0⟩
def LRN_PEER_SEQ : Fld := ⟨31, 0⟩
def LRN_PEER_STAT_KNOWN : Fld := ⟨31, 31⟩
def LRN_PEER_STAT_NEED_SYNC : Fld := ⟨30, 30⟩
def LRN_PEER_STAT_AGO_MS : Fld := ⟨29, 0⟩
def LRN_RING_LO : Fld := ⟨31, 4⟩
def LRN_RING_HI : Fld := ⟨7, 0⟩
def LRN_RING_SZ : Fld := ⟨15, 0⟩
def LRN_RING_PI : Fld := ⟨15, 0⟩
def LRN_RING_CI : Fld := ⟨15, 0⟩
def LRN_RING_MASK : Fld := ⟨8, 1⟩
def LRN_AGE_STAT : Fld := ⟨31, 0⟩
def LRN_AGE_EN : Fld := ⟨31, 31⟩
def LRN_AGE_RF_SRC : Fld := ⟨30, 30⟩
def LRN_AGE_RF_LKP : Fld := ⟨29, 29⟩
def LRN_AGE_UNIT : Fld := ⟨28, 25⟩
def LRN_AGE_MAXAGE : Fld := ⟨14, 0⟩
def LRN_PORT_ACT : Fld := ⟨31, 31⟩
def LRN_PORT_LIMIT : Fld := ⟨15, 0⟩
def LRN_PCNT_CNT : Fld := ⟨19, 0⟩
def LRN_INST_LIMIT : Fld := ⟨23, 0⟩
def LRN_ICNT_CNT : Fld := ⟨24, 0⟩
def SINT_CFG_XON_GAP : Fld := ⟨15, 8⟩
def SINT_POOL_CTL_APPLY : Fld := ⟨31, 31⟩
def SINT_POOL_CTL_RES : Fld := ⟨1, 0⟩
def SINT_POOL_CNT : Fld := ⟨21, 0⟩
def SINT_POOL_FREE : Fld := ⟨21, 0⟩
def SINT_SH : Fld := ⟨18, 0⟩
def SINT_SU : Fld := ⟨18, 0⟩
def SINT_UNK : Fld := ⟨31, 0⟩
def SINT_SPILL_EN : Fld := ⟨31, 31⟩
def SINT_SPILL_DEEP_MAX : Fld := ⟨29, 16⟩
def SINT_SPILL_SPILL_TH : Fld := ⟨15, 0⟩
def SINT_DEEP_FREE : Fld := ⟨23, 0⟩
def SINT_CMD_CTL_GO : Fld := ⟨31, 31⟩
def SINT_CMD_CTL_OP : Fld := ⟨27, 24⟩
def SINT_CMD_CTL_PIPE : Fld := ⟨23, 20⟩
def SINT_CMD_CTL_POOL : Fld := ⟨19, 18⟩
def SINT_CMD_CTL_AGENT : Fld := ⟨11, 0⟩
def SINT_CMD_PTR : Fld := ⟨23, 0⟩
def SINT_CMD_STAT_BUSY : Fld := ⟨31, 31⟩
def SINT_CMD_STAT_STATUS : Fld := ⟨3, 0⟩
def SINT_CMD_DESC_LO : Fld := ⟨31, 0⟩
def SINT_CMD_DESC_HI : Fld := ⟨31, 0⟩
def SINT_CMD_LEN : Fld := ⟨13, 0⟩
def SINT_WIN_PTR : Fld := ⟨23, 0⟩
def SINT_WIN_OFF : Fld := ⟨5, 0⟩
def SINT_AUDIT_START : Fld := ⟨31, 31⟩
def SINT_AUDIT_ABORT : Fld := ⟨30, 30⟩
def SINT_AUDIT_ABORT_ST : Fld := ⟨29, 28⟩
def SINT_AUDIT_STATE : Fld := ⟨27, 24⟩
def SINT_AUDIT_RECLAIM : Fld := ⟨23, 23⟩
def SINT_AUDIT_AG_EN : Fld := ⟨22, 22⟩
def SINT_AUDIT_POOL : Fld := ⟨21, 20⟩
def SINT_AUDIT_AGENT : Fld := ⟨11, 0⟩
def SINT_AUD_LEAK : Fld := ⟨21, 0⟩
def SINT_AUD_SW : Fld := ⟨21, 0⟩
def SINT_AUD_DUP : Fld := ⟨21, 0⟩
def SINT_AUD_FIRST : Fld := ⟨23, 0⟩
def SINT_WIN : Fld := ⟨31, 0⟩
def A_CFG_ALPHA : Fld := ⟨31, 28⟩
def A_CFG_HDRM : Fld := ⟨27, 20⟩
def A_CFG_MIN : Fld := ⟨16, 0⟩
def A_USE_XOFF : Fld := ⟨31, 31⟩
def A_USE_H : Fld := ⟨30, 19⟩
def A_USE_USE : Fld := ⟨18, 0⟩
def XB_CTL_RUN : Fld := ⟨31, 31⟩
def XB_CTL_EXP_HOLD : Fld := ⟨30, 30⟩
def XB_STAT_MC_MODE : Fld := ⟨31, 31⟩
def XB_STAT_OUT_BUSY : Fld := ⟨17, 0⟩
def XB_FLAP_HOLD_MS : Fld := ⟨15, 0⟩
def XB_MIR_FLOOR_FLOOR : Fld := ⟨18, 0⟩
def XB_MCG_SEL_GROUP : Fld := ⟨15, 0⟩
def XB_MCG_MAP_0 : Fld := ⟨31, 0⟩
def XB_MCG_MAP_1 : Fld := ⟨31, 0⟩
def XB_MCG_MAP_2 : Fld := ⟨7, 0⟩
def XB_VOQ_SEL_INPUT : Fld := ⟨20, 16⟩
def XB_VOQ_SEL_QUEUE : Fld := ⟨14, 8⟩
def XB_VOQ_SEL_CLASS : Fld := ⟨2, 0⟩
def XB_VOQ_FRM : Fld := ⟨19, 0⟩
def XB_VOQ_BYTES : Fld := ⟨27, 0⟩
def XB_STORE_USE : Fld := ⟨16, 0⟩
def XB_AGE_LIMIT_US : Fld := ⟨19, 0⟩
def XB_MIR_CFG_EN : Fld := ⟨31, 31⟩
def XB_MIR_CFG_DEST_PORT : Fld := ⟨30, 24⟩
def XB_MIR_CFG_TRUNC : Fld := ⟨23, 16⟩
def XB_MIR_CFG_CLASS : Fld := ⟨15, 13⟩
def XB_MIR_SRC_ING : Fld := ⟨31, 31⟩
def XB_MIR_SRC_EGR : Fld := ⟨30, 30⟩
def XB_MIR_SRC_PORT : Fld := ⟨29, 23⟩
def XB_MIR_LIM_LIMIT : Fld := ⟨19, 0⟩
def XB_MIR_USE_USE : Fld := ⟨19, 0⟩
def XB_PORT_DOWN : Fld := ⟨31, 31⟩
def XB_PORT_HOLD : Fld := ⟨30, 30⟩
def XB_PORT_FLUSH : Fld := ⟨29, 29⟩
def XB_PORT_HOLD_REM_MS : Fld := ⟨15, 0⟩
def TM_CTL_RUN : Fld := ⟨31, 31⟩
def TM_CTL_LEAD_NS : Fld := ⟨15, 0⟩
def TM_WHL_STAT_ENTRIES : Fld := ⟨28, 16⟩
def TM_WHL_STAT_SLOT : Fld := ⟨11, 0⟩
def TM_OVF_STAT : Fld := ⟨6, 0⟩
def TM_GRP_RATE : Fld := ⟨31, 0⟩
def TM_GRP_STAT_ALLOW : Fld := ⟨31, 31⟩
def TM_GRP_STAT_WHEEL : Fld := ⟨30, 30⟩
def TM_GRP_STAT_OVF : Fld := ⟨29, 29⟩
def TM_PORT_CTL_GUARD_FIX : Fld := ⟨31, 31⟩
def TM_PORT_CTL_GRP_EN : Fld := ⟨30, 30⟩
def TM_PORT_CTL_GRP : Fld := ⟨29, 26⟩
def TM_PORT_CTL_OVHD : Fld := ⟨7, 0⟩
def TM_PORT_RATE : Fld := ⟨31, 0⟩
def TM_PORT_STAT_VEC : Fld := ⟨31, 24⟩
def TM_PORT_STAT_OPEN : Fld := ⟨23, 16⟩
def TM_PORT_STAT_ALLOW : Fld := ⟨15, 15⟩
def TM_PORT_STAT_WHEEL : Fld := ⟨14, 14⟩
def TM_PORT_STAT_OVF : Fld := ⟨13, 13⟩
def TM_PORT_STAT_PAUSED : Fld := ⟨7, 0⟩
def TM_SHP_SLOPE : Fld := ⟨31, 0⟩
def TM_SHP_LIM_HI : Fld := ⟨31, 16⟩
def TM_SHP_LIM_LO : Fld := ⟨15, 0⟩
def TM_SHP_CRED : Fld := ⟨31, 0⟩
def TM_TXQ_FRM : Fld := ⟨15, 0⟩
def TM_GCL_CTL_EN : Fld := ⟨31, 31⟩
def TM_GCL_CTL_PEND : Fld := ⟨30, 30⟩
def TM_GCL_CTL_OPER_BANK : Fld := ⟨29, 29⟩
def TM_GCL_CTL_INSTALLED : Fld := ⟨28, 28⟩
def TM_GCL_CTL_ADMIN_LEN : Fld := ⟨8, 0⟩
def TM_GCL_ADM_BASE_NS : Fld := ⟨29, 0⟩
def TM_GCL_ADM_BASE_SEC_LO : Fld := ⟨31, 0⟩
def TM_GCL_ADM_BASE_SEC_HI : Fld := ⟨15, 0⟩
def TM_GCL_ADM_CYCLE : Fld := ⟨29, 0⟩
def TM_GCL_OPER_BASE_NS : Fld := ⟨29, 0⟩
def TM_GCL_OPER_BASE_SEC_LO : Fld := ⟨31, 0⟩
def TM_GCL_OPER_BASE_SEC_HI : Fld := ⟨15, 0⟩
def TM_GCL_OPER_CYCLE : Fld := ⟨29, 0⟩
def TM_GCL_OPER_LEN : Fld := ⟨8, 0⟩
def TM_GCL_CHG_NS : Fld := ⟨29, 0⟩
def TM_GCL_CHG_SEC_LO : Fld := ⟨31, 0⟩
def TM_GCL_CHG_SEC_HI : Fld := ⟨15, 0⟩
def TM_GCL_MAXWIN : Fld := ⟨31, 0⟩
def TM_GCL_A_GATES : Fld := ⟨31, 24⟩
def TM_GCL_A_INTERVAL : Fld := ⟨23, 0⟩
def TM_GCL_B_GATES : Fld := ⟨31, 24⟩
def TM_GCL_B_INTERVAL : Fld := ⟨23, 0⟩
def MTR_PIPE_EN_EGR_EN : Fld := ⟨15, 8⟩
def MTR_PIPE_EN_ING_EN : Fld := ⟨7, 0⟩
def MTR_UNK_LEN_LEN : Fld := ⟨13, 0⟩
def MTR_CMD_CTL_GO : Fld := ⟨31, 31⟩
def MTR_CMD_CTL_OP : Fld := ⟨27, 24⟩
def MTR_CMD_CTL_INDEX : Fld := ⟨16, 0⟩
def MTR_CMD_STAT_BUSY : Fld := ⟨31, 31⟩
def MTR_CMD_STAT_STATUS : Fld := ⟨3, 0⟩
def MTR_CMD_CFG_MODE : Fld := ⟨31, 31⟩
def MTR_CMD_CFG_AWARE : Fld := ⟨30, 30⟩
def MTR_CMD_CFG_RED_DROP : Fld := ⟨29, 29⟩
def MTR_CMD_CIR : Fld := ⟨31, 0⟩
def MTR_CMD_PIR : Fld := ⟨31, 0⟩
def MTR_CMD_CBS : Fld := ⟨23, 0⟩
def MTR_CMD_XBS : Fld := ⟨23, 0⟩
def MTR_CMD_TOK1 : Fld := ⟨23, 0⟩
def MTR_CMD_TOK2 : Fld := ⟨23, 0⟩
def HIF_CTL_PRIMARY : Fld := ⟨3, 2⟩
def HIF_CTL_BIF : Fld := ⟨1, 0⟩
def HIF_PF_CFG_ACC : Fld := ⟨31, 30⟩
def HIF_PF_CFG_FIRST : Fld := ⟨23, 16⟩
def HIF_PF_CFG_NUM : Fld := ⟨7, 0⟩
def HIF_LINK_UP : Fld := ⟨31, 31⟩
def HIF_LINK_RATE : Fld := ⟨30, 28⟩
def HIF_LINK_WIDTH : Fld := ⟨27, 23⟩
def HIF_LINK_CPL_TMO_MS : Fld := ⟨15, 0⟩
def HIF_DRAIN_LIMIT_MS : Fld := ⟨15, 0⟩
def HIF_INST_SEL : Fld := ⟨7, 0⟩
def HIF_INST_CMD_GO : Fld := ⟨31, 31⟩
def HIF_INST_CMD_OP : Fld := ⟨27, 24⟩
def HIF_INST_CMD_STAT_BUSY : Fld := ⟨31, 31⟩
def HIF_INST_CMD_STAT_STATUS : Fld := ⟨3, 0⟩
def HIF_RX_HOLD_US : Fld := ⟨15, 0⟩
def HIF_RING_SEL : Fld := ⟨11, 0⟩
def HIF_RING_CTL_TX_EN : Fld := ⟨31, 31⟩
def HIF_RING_CTL_RX_EN : Fld := ⟨30, 30⟩
def HIF_RING_CTL_PIPE : Fld := ⟨27, 24⟩
def HIF_RING_CTL_RX_CLASS : Fld := ⟨23, 21⟩
def HIF_RING_CTL_LOG2 : Fld := ⟨20, 16⟩
def HIF_RING_CTL_INST : Fld := ⟨7, 0⟩
def HIF_RING_TXBASE_LO : Fld := ⟨31, 12⟩
def HIF_RING_TXBASE_HI : Fld := ⟨31, 0⟩
def HIF_RING_RXBASE_LO : Fld := ⟨31, 12⟩
def HIF_RING_RXBASE_HI : Fld := ⟨31, 0⟩
def HIF_RING_VEC_TX_INT : Fld := ⟨31, 31⟩
def HIF_RING_VEC_RX_INT : Fld := ⟨30, 30⟩
def HIF_RING_VEC_VEC : Fld := ⟨26, 16⟩
def HIF_RING_VEC_MOD_US : Fld := ⟨15, 0⟩
def HIF_RING_BUF_BUF_SZ : Fld := ⟨13, 0⟩
def HIF_RING_CI_TX_CI : Fld := ⟨31, 16⟩
def HIF_RING_CI_RX_CI : Fld := ⟨15, 0⟩
def HIF_INST_STAT_STATE : Fld := ⟨31, 30⟩
def HIF_INST_STAT_RST_BUSY : Fld := ⟨29, 29⟩
def HIF_INST_STAT_DRAIN_TO : Fld := ⟨28, 28⟩
def HIF_INST_STAT_STAGED : Fld := ⟨27, 27⟩
def HIF_INST_STAT_GEN : Fld := ⟨7, 0⟩
def HIF_INST_RST_GO : Fld := ⟨31, 31⟩
def HIF_MBX_CTL_SEND : Fld := ⟨31, 31⟩
def HIF_MBX_CTL_BUSY : Fld := ⟨30, 30⟩
def HIF_MBX_CTL_DONE : Fld := ⟨29, 29⟩
def HIF_MBX_CTL_RES : Fld := ⟨28, 27⟩
def HIF_MBX_CTL_MBX_VEC : Fld := ⟨26, 16⟩
def HIF_MBX_CTL_MBX_TMO_MS : Fld := ⟨15, 0⟩
def HIF_INST_QP_FIRST : Fld := ⟨27, 16⟩
def HIF_INST_QP_NUM : Fld := ⟨8, 0⟩
def HIF_INST_VEC_FIRST : Fld := ⟨26, 16⟩
def HIF_INST_VEC_NUM : Fld := ⟨11, 0⟩
def HIF_INST_TQ : Fld := ⟨23, 0⟩
def HIF_INST_TCNT : Fld := ⟨23, 0⟩
def HIF_INST_CTR_FIRST : Fld := ⟨23, 0⟩
def HIF_INST_CTR_NUM : Fld := ⟨23, 0⟩
def HIF_INST_MTR_FIRST : Fld := ⟨23, 16⟩
def HIF_INST_MTR_NUM : Fld := ⟨7, 0⟩
def HIF_INST_BUF_MIN : Fld := ⟨16, 0⟩
def HIF_INST_LRN : Fld := ⟨23, 0⟩
def HIF_INST_PVIS_0 : Fld := ⟨31, 0⟩
def HIF_INST_PVIS_1 : Fld := ⟨31, 0⟩
def HIF_INST_PVIS_2 : Fld := ⟨7, 0⟩
def HIF_INST_CLS : Fld := ⟨7, 0⟩
def HIF_MBX_REQ : Fld := ⟨31, 0⟩
def HIF_MBX_RSP : Fld := ⟨31, 0⟩
def HBM_CTL_RUN : Fld := ⟨31, 31⟩
def HBM_CTL_SR_EN : Fld := ⟨30, 30⟩
def HBM_CTL_SCRUB_EN : Fld := ⟨29, 29⟩
def HBM_CTL_RT_EN : Fld := ⟨28, 28⟩
def HBM_CTL_TRAINED : Fld := ⟨27, 27⟩
def HBM_CTL_SR_US : Fld := ⟨15, 0⟩
def HBM_PRIO_SCRUB : Fld := ⟨17, 15⟩
def HBM_PRIO_HOST_TRACE : Fld := ⟨14, 12⟩
def HBM_PRIO_CTL : Fld := ⟨11, 9⟩
def HBM_PRIO_SPILL_WR : Fld := ⟨8, 6⟩
def HBM_PRIO_SPILL_RD : Fld := ⟨5, 3⟩
def HBM_PRIO_DEEP : Fld := ⟨2, 0⟩
def HBM_RT_RT_MS : Fld := ⟨15, 0⟩
def HBM_SCRUB_SCRUB_MIN : Fld := ⟨15, 0⟩
def HBM_FENCE_CFG_AUTO : Fld := ⟨31, 31⟩
def HBM_FENCE_CFG_UE_LIM : Fld := ⟨15, 0⟩
def HBM_FENCE_FENCED : Fld := ⟨31, 31⟩
def HBM_FENCE_CAUSE : Fld := ⟨27, 24⟩
def HBM_FENCE_PC : Fld := ⟨5, 0⟩
def HBM_TRAIN_GO : Fld := ⟨31, 31⟩
def HBM_TRAIN_ABORT : Fld := ⟨30, 30⟩
def HBM_TRAIN_ABORT_ST : Fld := ⟨29, 28⟩
def HBM_TRAIN_STATE : Fld := ⟨27, 24⟩
def HBM_TRAIN_PC : Fld := ⟨5, 0⟩
def HBM_PC_STAT_FENCE : Fld := ⟨31, 31⟩
def HBM_PC_STAT_SR : Fld := ⟨30, 30⟩
def HBM_PC_STAT_PAUSE : Fld := ⟨29, 29⟩
def HBM_PC_STAT_QDEPTH : Fld := ⟨9, 0⟩
def SEC_STAT_BOOT_RES : Fld := ⟨31, 30⟩
def SEC_STAT_ID_READY : Fld := ⟨29, 29⟩
def SEC_STAT_OWNED : Fld := ⟨28, 28⟩
def SEC_STAT_REQ : Fld := ⟨27, 27⟩
def SEC_STAT_DBG_DIS : Fld := ⟨26, 26⟩
def SEC_STAT_DBG_LVL : Fld := ⟨25, 23⟩
def SEC_STAT_N : Fld := ⟨6, 0⟩
def SEC_CMD_CTL_GO : Fld := ⟨31, 31⟩
def SEC_CMD_CTL_ABORT : Fld := ⟨30, 30⟩
def SEC_CMD_CTL_ABORT_ST : Fld := ⟨29, 28⟩
def SEC_CMD_CTL_STATE : Fld := ⟨27, 24⟩
def SEC_CMD_CTL_OP : Fld := ⟨3, 0⟩
def SEC_CMD_STAT_BUSY : Fld := ⟨31, 31⟩
def SEC_CMD_STAT_STATUS : Fld := ⟨3, 0⟩
def SEC_CMD_ADDR_LO : Fld := ⟨31, 0⟩
def SEC_CMD_ADDR_HI : Fld := ⟨7, 0⟩
def SEC_CMD_OUT_LO : Fld := ⟨31, 0⟩
def SEC_CMD_OUT_HI : Fld := ⟨7, 0⟩
def SEC_CMD_ARG : Fld := ⟨31, 0⟩
def SEC_CMD_LEN : Fld := ⟨31, 0⟩
def SEC_CTL_REQ_SIGNED : Fld := ⟨31, 31⟩
def SEC_BOOT_ERR_B : Fld := ⟨7, 4⟩
def SEC_BOOT_ERR_A : Fld := ⟨3, 0⟩
def SEC_SERIAL_LO : Fld := ⟨31, 0⟩
def SEC_SERIAL_HI : Fld := ⟨31, 0⟩
def SEC_DBG_NONCE : Fld := ⟨31, 0⟩
def SEC_MR_SEL : Fld := ⟨2, 0⟩
def SEC_MR : Fld := ⟨31, 0⟩
def SEC_KEYH : Fld := ⟨31, 0⟩
def SEC_VERIFY_FAIL : Fld := ⟨31, 0⟩
def SEC_DBG_FAIL : Fld := ⟨31, 0⟩
def RAS_CFG_AF_WDOG : Fld := ⟨31, 31⟩
def RAS_CFG_AR_HBM : Fld := ⟨30, 30⟩
def RAS_CFG_LOG_CE : Fld := ⟨29, 29⟩
def RAS_CFG_WDOG_LIM : Fld := ⟨7, 0⟩
def RAS_LOG_STAT_FULL : Fld := ⟨31, 31⟩
def RAS_LOG_STAT_CNT : Fld := ⟨9, 0⟩
def RAS_LOG_SEL : Fld := ⟨8, 0⟩
def RAS_LOG_W : Fld := ⟨31, 0⟩
def RAS_LOG_CLR_CLR : Fld := ⟨31, 31⟩
def RAS_TEST_CTL_GO : Fld := ⟨31, 31⟩
def RAS_TEST_CTL_ABORT : Fld := ⟨30, 30⟩
def RAS_TEST_CTL_ABORT_ST : Fld := ⟨29, 28⟩
def RAS_TEST_CTL_STATE : Fld := ⟨27, 24⟩
def RAS_TEST_CTL_TEST : Fld := ⟨23, 16⟩
def RAS_TEST_CTL_TARGET : Fld := ⟨15, 0⟩
def RAS_TEST_STAT_BUSY : Fld := ⟨31, 31⟩
def RAS_TEST_STAT_STATUS : Fld := ⟨3, 0⟩
def RAS_TEST_RES : Fld := ⟨31, 0⟩
def RAS_CE : Fld := ⟨31, 0⟩
def RAS_REPAIR : Fld := ⟨31, 0⟩
def RAS_UE : Fld := ⟨31, 0⟩
def RAS_LOG_OVF : Fld := ⟨31, 0⟩
def RAS_TEST_REFUSED : Fld := ⟨31, 0⟩
def DBG_CTL_ATTACH : Fld := ⟨31, 31⟩
def DBG_HALT_HALT : Fld := ⟨31, 31⟩
def DBG_HALT_RESUME : Fld := ⟨30, 30⟩
def DBG_HALT_STEP : Fld := ⟨29, 29⟩
def DBG_HALT_RST : Fld := ⟨28, 28⟩
def DBG_HALT_EV14 : Fld := ⟨27, 27⟩
def DBG_HALT_SCOPE : Fld := ⟨26, 25⟩
def DBG_HALT_ID : Fld := ⟨10, 0⟩
def DBG_HSTAT_HOLD : Fld := ⟨31, 16⟩
def DBG_HSTAT_HALTED : Fld := ⟨15, 15⟩
def DBG_HSTAT_STATUS : Fld := ⟨3, 0⟩
def DBG_TREG_SEL_SPECIAL : Fld := ⟨12, 12⟩
def DBG_TREG_SEL_NUM : Fld := ⟨11, 0⟩
def DBG_TREG_LO : Fld := ⟨31, 0⟩
def DBG_TREG_HI : Fld := ⟨31, 0⟩
def DBG_ACC_ADDR_LO : Fld := ⟨31, 0⟩
def DBG_ACC_ADDR_HI : Fld := ⟨7, 0⟩
def DBG_ACC_DATA_LO : Fld := ⟨31, 0⟩
def DBG_ACC_DATA_HI : Fld := ⟨31, 0⟩
def DBG_ACC_CTL_GO : Fld := ⟨31, 31⟩
def DBG_ACC_CTL_WRITE : Fld := ⟨30, 30⟩
def DBG_ACC_CTL_SZ : Fld := ⟨29, 29⟩
def DBG_ACC_CTL_BUSY : Fld := ⟨28, 28⟩
def DBG_ACC_CTL_STATUS : Fld := ⟨3, 0⟩
def DBG_MBX_ADDR : Fld := ⟨14, 2⟩
def DBG_MBX_DATA : Fld := ⟨31, 0⟩
def DBG_MBX_CTL_SUBMIT : Fld := ⟨31, 31⟩
def DBG_MBX_CTL_BUSY : Fld := ⟨30, 30⟩
def DBG_MBX_CTL_STATUS : Fld := ⟨3, 0⟩
def DBG_TR_IDX : Fld := ⟨12, 0⟩
def DBG_TR_LO : Fld := ⟨31, 0⟩
def DBG_TR_HI : Fld := ⟨31, 0⟩
def DBG_BP_CTL_EN : Fld := ⟨31, 31⟩
def DBG_BP_CTL_KIND : Fld := ⟨30, 29⟩
def DBG_BP_CTL_ACT : Fld := ⟨28, 27⟩
def DBG_BP_CTL_SEG : Fld := ⟨26, 24⟩
def DBG_BP_CTL_THR : Fld := ⟨23, 16⟩
def DBG_BP_CTL_ENGINE : Fld := ⟨7, 0⟩
def DBG_BP_ADDR : Fld := ⟨31, 0⟩
def DBG_BP_LIM : Fld := ⟨31, 0⟩
def DBG_DROP : Fld := ⟨31, 0⟩
def DBG_SEC_STAT : Fld := ⟨31, 0⟩
def DBG_SERIAL_LO : Fld := ⟨31, 0⟩
def DBG_SERIAL_HI : Fld := ⟨31, 0⟩
def DBG_NONCE : Fld := ⟨31, 0⟩

end F

/-- A counter of 32 bits (RC, reset 0). -/
def c32 : List FieldD := [⟨F.all, .rc, 0⟩]

/-- Registers of the dev page. -/
def regs_dev : List RegD := [
  ⟨0x40, [], false, [], [⟨F.DEV_MODE_PREV, .ro, 1⟩, ⟨F.DEV_MODE_MODE, .ro, 1⟩]⟩,
  ⟨0x44, [], false, [], [⟨F.DEV_MODE_REQ_GO, .w1s, 0⟩, ⟨F.DEV_MODE_REQ_TARGET, .rw, 0⟩, ⟨F.DEV_MODE_REQ_STATUS, .ro, 0⟩]⟩,
  ⟨0x48, [], false, [4], [⟨F.DEV_MAINT_PORTS_LO, .rw, 0⟩]⟩,
  ⟨0x4C, [], false, [], [⟨F.DEV_MAINT_PORTS_HI, .rw, 0⟩]⟩,
  ⟨0x50, [], false, [], [⟨F.DEV_MAINT_DRAIN_MS, .rw, 100⟩]⟩,
  ⟨0x54, [], false, [], [⟨F.DEV_FENCE_HALF_B, .rw, 0⟩, ⟨F.DEV_FENCE_HALF_A, .rw, 0⟩, ⟨F.DEV_FENCE_PIPE, .rw, 0⟩]⟩,
  ⟨0x58, [], false, [], [⟨F.DEV_PWR_PCIE, .rw, 0xF⟩, ⟨F.DEV_PWR_LKP, .rw, 3⟩, ⟨F.DEV_PWR_PIPE, .rw, 0xFFFF⟩]⟩,
  ⟨0x5C, [], false, [], [⟨F.DEV_PWR_STAT_BUSY, .ro, 0⟩, ⟨F.DEV_PWR_STAT, .ro, 0x3FFFFF⟩]⟩,
  ⟨0x60, [], false, [], [⟨F.DEV_CORE_RST_FUM, .w1s, 0⟩, ⟨F.DEV_CORE_RST_CORE, .w1s, 0⟩]⟩,
  ⟨0x64, [], false, [4], [⟨F.DEV_CORE_ENTRY_LO, .rw, 0⟩]⟩,
  ⟨0x68, [], false, [], [⟨F.DEV_CORE_ENTRY_HI, .rw, 0⟩]⟩,
  ⟨0x70, [(4, 0x4)], false, [], [⟨F.DEV_CORE_STAT_SLP, .ro, 0⟩, ⟨F.DEV_CORE_STAT_HALT, .ro, 0⟩, ⟨F.DEV_CORE_STAT_CSLEEP, .ro, 0⟩,
    ⟨F.DEV_CORE_STAT_RST, .ro, 0⟩, ⟨F.DEV_CORE_STAT_SLP_RES, .ro, 0⟩]⟩,
  ⟨0x80, [], false, [], [⟨F.DEV_SLEEP_DRAIN_MS, .rw, 200⟩]⟩,
  ⟨0x84, [], false, [], [⟨F.DEV_WAKE_WAKE, .w1s, 0⟩]⟩,
  ⟨0x100, [], false, [], c32⟩,
  ⟨0x104, [], false, [], c32⟩,
  ⟨0x108, [], false, [], c32⟩,
  ⟨0x10C, [], false, [], c32⟩]

/-- Registers of the time page. -/
def regs_time : List RegD := [
  ⟨0x40, [], false, [], [⟨F.TIME_CTL_AUTOSET, .rw, 1⟩, ⟨F.TIME_CTL_HOLD, .rw, 0⟩, ⟨F.TIME_CTL_REF, .rw, 0⟩, ⟨F.TIME_CTL_SRC, .rw, 0⟩]⟩,
  ⟨0x44, [], false, [], [⟨F.TIME_STAT_VALID, .ro, 0⟩, ⟨F.TIME_STAT_SLEWING, .ro, 0⟩, ⟨F.TIME_STAT_LAGGING, .ro, 0⟩, ⟨F.TIME_STAT_REF_OK,
    .ro, 0⟩, ⟨F.TIME_STAT_PPS_OK, .ro, 0⟩, ⟨F.TIME_STAT_TOD_OK, .ro, 0⟩, ⟨F.TIME_STAT_STATE, .ro, 0⟩]⟩,
  ⟨0x48, [], false, [4, 8, 12], [⟨F.TIME_NOW_FRAC, .ro, 0⟩]⟩,
  ⟨0x4C, [], false, [], [⟨F.TIME_NOW_NS, .ro, 0⟩]⟩,
  ⟨0x50, [], false, [], [⟨F.TIME_NOW_SEC_LO, .ro, 0⟩]⟩,
  ⟨0x54, [], false, [], [⟨F.TIME_NOW_SEC_HI, .ro, 0⟩]⟩,
  ⟨0x58, [], false, [], [⟨F.TIME_FREQ, .rw, 0⟩]⟩,
  ⟨0x5C, [], false, [], [⟨F.TIME_ADJ_NS, .wo, 0⟩]⟩,
  ⟨0x60, [], false, [], [⟨F.TIME_ADJ_REM, .ro, 0⟩]⟩,
  ⟨0x64, [], false, [], [⟨F.TIME_SLEW_RATE, .rw, 100⟩]⟩,
  ⟨0x68, [], false, [], [⟨F.TIME_SET_NS, .rw, 0⟩]⟩,
  ⟨0x6C, [], false, [4], [⟨F.TIME_SET_SEC_LO, .rw, 0⟩]⟩,
  ⟨0x70, [], false, [], [⟨F.TIME_SET_SEC_HI, .rw, 0⟩]⟩,
  ⟨0x74, [], false, [], [⟨F.TIME_STEP_GO, .w1s, 0⟩, ⟨F.TIME_STEP_BUSY, .ro, 0⟩]⟩,
  ⟨0x78, [], false, [], [⟨F.TIME_SERVO_LOCK_NS, .rw, 100⟩, ⟨F.TIME_SERVO_LOCK_CNT, .rw, 16⟩, ⟨F.TIME_SERVO_KI, .rw, 3⟩,
    ⟨F.TIME_SERVO_HOLD_AVG, .rw, 6⟩]⟩,
  ⟨0x7C, [], false, [], [⟨F.TIME_PPS_ERR, .ro, 0⟩]⟩,
  ⟨0x80, [], false, [], [⟨F.TIME_LAG, .ro, 0⟩]⟩,
  ⟨0x84, [], false, [], [⟨F.TIME_IO_PPS_W, .rw, 100⟩, ⟨F.TIME_IO_PPS_REJ, .rw, 10⟩, ⟨F.TIME_IO_PPS_POL, .rw, 0⟩, ⟨F.TIME_IO_TOD_OUT_EN,
    .rw, 0⟩, ⟨F.TIME_IO_PPS_OUT_EN, .rw, 0⟩, ⟨F.TIME_IO_BAUD, .rw, 4⟩]⟩,
  ⟨0x88, [], false, [], [⟨F.TIME_UTC, .rw, 37⟩]⟩,
  ⟨0x100, [(8, 0x10)], false, [], [⟨F.TIME_TRIG_NS, .rw, 0⟩]⟩,
  ⟨0x104, [(8, 0x10)], false, [4], [⟨F.TIME_TRIG_SEC_LO, .rw, 0⟩]⟩,
  ⟨0x108, [(8, 0x10)], false, [], [⟨F.TIME_TRIG_SEC_HI, .rw, 0⟩]⟩,
  ⟨0x10C, [(8, 0x10)], false, [], [⟨F.TIME_TRIG_CTL_ARM, .rw, 0⟩, ⟨F.TIME_TRIG_CTL_LATE, .w1c, 0⟩, ⟨F.TIME_TRIG_CTL_ACT, .rw, 0⟩,
    ⟨F.TIME_TRIG_CTL_ARG, .rw, 0⟩, ⟨F.TIME_TRIG_CTL_PERIOD_US, .rw, 0⟩]⟩,
  ⟨0x180, [], false, [], c32⟩,
  ⟨0x184, [], false, [], c32⟩,
  ⟨0x188, [], false, [], c32⟩,
  ⟨0x18C, [], false, [], c32⟩,
  ⟨0x190, [], false, [], c32⟩]

/-- Registers of the irqMain page. -/
def regs_irqMain : List RegD := [
  ⟨0x40, [], false, [], [⟨F.IRQ_CTL_EN, .rw, 0⟩]⟩,
  ⟨0x80, [(5, 0x10)], false, [], [⟨F.IRQ_CLAIM, .ro, 1023⟩]⟩,
  ⟨0x84, [(5, 0x10)], false, [], [⟨F.IRQ_EOI, .wo, 0⟩]⟩,
  ⟨0x88, [(4, 0x10)], false, [], [⟨F.IRQ_TCFG_CTX, .rw, 0⟩, ⟨F.IRQ_TCFG_FLOOR, .rw, 0⟩]⟩,
  ⟨0xC8, [], false, [], [⟨F.IRQ_TCFG_FLOOR, .rw, 0⟩]⟩,
  ⟨0x8C, [(5, 0x10)], false, [], [⟨F.IRQ_TSTAT_REQ, .ro, 0⟩, ⟨F.IRQ_TSTAT_SL, .ro, 0⟩, ⟨F.IRQ_TSTAT_TOP, .ro, 0⟩]⟩,
  ⟨0xE0, [], false, [], [⟨F.IRQ_HEOI, .wo, 0⟩]⟩,
  ⟨0xE4, [], false, [], [⟨F.IRQ_SOFT_SET, .wo, 0⟩, ⟨F.IRQ_SOFT_S, .wo, 0⟩]⟩,
  ⟨0xE8, [], false, [4], [⟨F.IRQ_SOFT_STAT_LO, .ro, 0⟩]⟩,
  ⟨0xEC, [], false, [], [⟨F.IRQ_SOFT_STAT_HI, .ro, 0⟩]⟩,
  ⟨0x100, [(32, 0x4)], false, [], [⟨F.IRQ_WAKE_EN, .rw, 0⟩, ⟨F.IRQ_WAKE_SRC, .rw, 0⟩]⟩,
  ⟨0x180, [], false, [], [⟨F.IRQ_WAKE_STAT_WOKE, .w1c, 0⟩, ⟨F.IRQ_WAKE_STAT_SRC, .ro, 0⟩]⟩,
  ⟨0x200, [(5, 0x4)], false, [], c32⟩,
  ⟨0x220, [], true, [4], c32⟩,
  ⟨0x228, [], false, [], c32⟩]

/-- Registers of the irqSrc page. -/
def regs_irqSrc : List RegD := [
  ⟨0x400, [(256, 0x4)], false, [], [⟨F.IRQ_SRC_EN, .rw, 0⟩, ⟨F.IRQ_SRC_TGT, .rw, 0⟩, ⟨F.IRQ_SRC_VEC, .rw, 0⟩, ⟨F.IRQ_SRC_PRIO, .rw, 0⟩]⟩,
  ⟨0x800, [(8, 0x4)], false, [], [⟨F.IRQ_ASSERT, .ro, 0⟩]⟩,
  ⟨0x840, [(8, 0x4)], false, [], [⟨F.IRQ_INSV, .ro, 0⟩]⟩]

/-- Registers of the tsk page. -/
def regs_tsk : List RegD := [
  ⟨0x40, [], false, [], [⟨F.TSK_CTL_RUN, .rw, 0⟩, ⟨F.TSK_CTL_PORT_EN, .rw, 0⟩]⟩,
  ⟨0x44, [], false, [], [⟨F.TSK_SEL, .rw, 0⟩]⟩,
  ⟨0x48, [], false, [], [⟨F.TSK_TCE_CFG_GROUP, .rw, 0⟩, ⟨F.TSK_TCE_CFG_BPRIO, .rw, 0⟩, ⟨F.TSK_TCE_CFG_AGENT, .rw, 0⟩]⟩,
  ⟨0x4C, [], false, [4], [⟨F.TSK_TCE_TCB_LO, .rw, 0⟩]⟩,
  ⟨0x50, [], false, [], [⟨F.TSK_TCE_TCB_HI, .rw, 0⟩]⟩,
  ⟨0x54, [], false, [], [⟨F.TSK_TCE_STAT_STATE, .ro, 0⟩, ⟨F.TSK_TCE_STAT_EPRIO, .ro, 0⟩, ⟨F.TSK_TCE_STAT_PEND, .ro, 0⟩,
    ⟨F.TSK_TCE_STAT_GRANT, .ro, 0⟩, ⟨F.TSK_TCE_STAT_TMO, .ro, 0⟩]⟩,
  ⟨0x58, [], false, [4], [⟨F.TSK_TCE_ENTRY_LO, .rw, 0⟩]⟩,
  ⟨0x5C, [], false, [], [⟨F.TSK_TCE_ENTRY_HI, .rw, 0⟩]⟩,
  ⟨0x60, [], false, [], [⟨F.TSK_CMD_GO, .w1s, 0⟩, ⟨F.TSK_CMD_OP, .rw, 0⟩, ⟨F.TSK_CMD_TASK, .rw, 0⟩]⟩,
  ⟨0x64, [], false, [], [⟨F.TSK_CMD_STAT_BUSY, .ro, 0⟩, ⟨F.TSK_CMD_STAT_STATUS, .ro, 0⟩]⟩,
  ⟨0x80, [], false, [], [⟨F.TSK_TR_CTL_EN, .rw, 0⟩, ⟨F.TSK_TR_CTL_DEST, .rw, 0⟩, ⟨F.TSK_TR_CTL_STOP_FULL, .rw, 0⟩, ⟨F.TSK_TR_CTL_FULL,
    .ro, 0⟩]⟩,
  ⟨0x84, [], false, [4], [⟨F.TSK_TR_BASE_LO, .rw, 0⟩]⟩,
  ⟨0x88, [], false, [], [⟨F.TSK_TR_BASE_HI, .rw, 0⟩]⟩,
  ⟨0x8C, [], false, [], [⟨F.TSK_TR_SIZE, .rw, 1⟩]⟩,
  ⟨0x90, [], false, [], [⟨F.TSK_TR_WP, .ro, 0⟩]⟩,
  ⟨0x100, [(16, 0x8)], false, [], [⟨F.TSK_GRP_CFG_EN, .rw, 0⟩, ⟨F.TSK_GRP_CFG_SUSP, .rw, 0⟩, ⟨F.TSK_GRP_CFG_MODE, .rw, 0⟩,
    ⟨F.TSK_GRP_CFG_TR_EN, .rw, 0⟩, ⟨F.TSK_GRP_CFG_TICK_US, .rw, 1⟩]⟩,
  ⟨0x104, [(16, 0x8)], false, [], [⟨F.TSK_GRP_TICK, .ro, 0⟩]⟩,
  ⟨0x200, [(16, 0x10)], false, [], [⟨F.TSK_CTX_CMD, .wo, 0⟩]⟩,
  ⟨0x204, [(16, 0x10)], false, [], [⟨F.TSK_CTX_OPH, .rw, 0⟩]⟩,
  ⟨0x208, [(16, 0x10)], false, [], [⟨F.TSK_CTX_STAT, .ro, 0⟩]⟩,
  ⟨0x20C, [(16, 0x10)], false, [], [⟨F.TSK_CTX_CFG_EN, .rw, 0⟩, ⟨F.TSK_CTX_CFG_IDLE_PC, .rw, 0⟩, ⟨F.TSK_CTX_CFG_STATUS, .ro, 0⟩]⟩,
  ⟨0x300, [], true, [4], c32⟩,
  ⟨0x308, [], true, [4], c32⟩,
  ⟨0x310, [], false, [], c32⟩,
  ⟨0x314, [], false, [], c32⟩,
  ⟨0x318, [], false, [], c32⟩]

/-- Registers of the lckMain page. -/
def regs_lckMain : List RegD := [
  ⟨0x40, [], false, [], [⟨F.LCK_CFG_DEF_PRIO, .rw, 0⟩]⟩,
  ⟨0x100, [], true, [4], c32⟩,
  ⟨0x108, [], true, [4], c32⟩,
  ⟨0x110, [], false, [], c32⟩,
  ⟨0x114, [], false, [], c32⟩]

/-- Registers of the lckPage page. -/
def regs_lckPage : List RegD := [
  ⟨0x400, [(256, 0x4)], false, [], [⟨F.LCK_ACQ, .ro, 0⟩]⟩,
  ⟨0x800, [(256, 0x4)], false, [], [⟨F.LCK_REL, .wo, 0⟩]⟩,
  ⟨0xC00, [(256, 0x4)], false, [], [⟨F.LCK_STAT_HELD, .ro, 0⟩, ⟨F.LCK_STAT_ABAND, .ro, 0⟩, ⟨F.LCK_STAT_WAITERS, .ro, 0⟩,
    ⟨F.LCK_STAT_OTASK, .ro, 0⟩, ⟨F.LCK_STAT_OWNER, .ro, 0⟩]⟩]

/-- Registers of the port page. -/
def regs_port : List RegD := [
  ⟨0x40, [], false, [], [⟨F.PORT_MODE_LT, .rw, 0⟩, ⟨F.PORT_MODE_AN, .rw, 0⟩, ⟨F.PORT_MODE_MODE, .rw, 0⟩]⟩,
  ⟨0x44, [], false, [], [⟨F.PORT_CTL_EN, .rw, 0⟩, ⟨F.PORT_CTL_LPBK, .rw, 0⟩, ⟨F.PORT_CTL_MAXFRM, .rw, 9216⟩]⟩,
  ⟨0x48, [], false, [], [⟨F.PORT_LINK_UP, .ro, 0⟩, ⟨F.PORT_LINK_AN_DONE, .ro, 0⟩, ⟨F.PORT_LINK_LT_DONE, .ro, 0⟩, ⟨F.PORT_LINK_REASON,
    .ro, 0⟩]⟩,
  ⟨0x4C, [], false, [], [⟨F.PORT_DEB_UP_US, .rw, 100⟩, ⟨F.PORT_DEB_DOWN_US, .rw, 0⟩]⟩,
  ⟨0x50, [], false, [], [⟨F.PORT_FC_QUANTA, .rw, 65535⟩, ⟨F.PORT_FC_PFC_EN, .rw, 0⟩, ⟨F.PORT_FC_MODE, .rw, 0⟩]⟩,
  ⟨0x54, [], false, [], [⟨F.PORT_TS_ADJ_TX_ADJ, .rw, 0⟩, ⟨F.PORT_TS_ADJ_RX_ADJ, .rw, 0⟩]⟩,
  ⟨0x58, [], false, [], [⟨F.PORT_TS_STAT_VALID, .ro, 0⟩, ⟨F.PORT_TS_STAT_COUNT, .ro, 0⟩]⟩,
  ⟨0x5C, [], false, [4, 8, 12], [⟨F.PORT_TS_TAG_FRAC, .ro, 0⟩, ⟨F.PORT_TS_TAG_TAG, .ro, 0⟩]⟩,
  ⟨0x60, [], false, [], [⟨F.PORT_TS_NS, .ro, 0⟩]⟩,
  ⟨0x64, [], false, [], [⟨F.PORT_TS_SEC_LO, .ro, 0⟩]⟩,
  ⟨0x68, [], false, [], [⟨F.PORT_TS_SEC_HI, .ro, 0⟩]⟩,
  ⟨0x6C, [], false, [], [⟨F.PORT_KA_KA_EN, .rw, 0⟩, ⟨F.PORT_KA_KA_SLOT, .rw, 0⟩, ⟨F.PORT_KA_KA_MODE, .rw, 0⟩]⟩,
  ⟨0x100, [], true, [4], c32⟩,
  ⟨0x108, [], true, [4], c32⟩,
  ⟨0x110, [], true, [4], c32⟩,
  ⟨0x118, [], true, [4], c32⟩,
  ⟨0x120, [], false, [], c32⟩,
  ⟨0x124, [], false, [], c32⟩,
  ⟨0x128, [], false, [], c32⟩,
  ⟨0x12C, [], false, [], c32⟩,
  ⟨0x130, [], false, [], c32⟩,
  ⟨0x134, [], false, [], c32⟩,
  ⟨0x138, [], false, [], c32⟩,
  ⟨0x13C, [], false, [], c32⟩,
  ⟨0x140, [], false, [], c32⟩,
  ⟨0x144, [], false, [], c32⟩,
  ⟨0x148, [], false, [], c32⟩,
  ⟨0x14C, [], false, [], c32⟩]

/-- Registers of the sds page. -/
def regs_sds : List RegD := [
  ⟨0x40, [], false, [], [⟨F.SDS_LANE_MAP_TX_MAP, .rw, 0xFAC688⟩]⟩,
  ⟨0x44, [], false, [], [⟨F.SDS_LANE_MAP_RX_MAP, .rw, 0xFAC688⟩]⟩,
  ⟨0x48, [], false, [], [⟨F.SDS_LANE_POL_RX_INV, .rw, 0⟩, ⟨F.SDS_LANE_POL_TX_INV, .rw, 0⟩]⟩]

/-- Registers of the parse page. -/
def regs_parse : List RegD := [
  ⟨0x40, [], false, [], [⟨F.PARSE_CFG_HASH_INNER, .rw, 1⟩, ⟨F.PARSE_CFG_HASH_L4, .rw, 1⟩, ⟨F.PARSE_CFG_MPLS_PEEK, .rw, 1⟩,
    ⟨F.PARSE_CFG_TPID_X_EN, .rw, 0⟩]⟩,
  ⟨0x44, [], false, [], [⟨F.PARSE_NUM_A_VXLAN_PORT, .rw, 4789⟩, ⟨F.PARSE_NUM_A_GENEVE_PORT, .rw, 6081⟩]⟩,
  ⟨0x48, [], false, [], [⟨F.PARSE_NUM_B_GTPU_PORT, .rw, 2152⟩, ⟨F.PARSE_NUM_B_TPID_X, .rw, 37120⟩]⟩,
  ⟨0x4C, [], false, [], [⟨F.PARSE_PORT_INST, .rw, 0⟩]⟩,
  ⟨0x50, [], false, [], [⟨F.PARSE_STAT_VIEW, .ro, 0⟩]⟩,
  ⟨0x54, [(5, 0x4)], false, [], [⟨F.PARSE_PORT_CFG_CLS_SRC, .rw, 0⟩, ⟨F.PARSE_PORT_CFG_CLS_DEF, .rw, 0⟩, ⟨F.PARSE_PORT_CFG_BD_MODE, .rw,
    0⟩, ⟨F.PARSE_PORT_CFG_PROF_DEF, .rw, 0⟩, ⟨F.PARSE_PORT_CFG_BD, .rw, 0⟩]⟩,
  ⟨0x68, [], false, [], [⟨F.PARSE_PCP_MAP, .rw, 0xFAC688⟩]⟩,
  ⟨0x6C, [(8, 0x4)], false, [], [⟨F.PARSE_DSCP_MAP, .rw, 0⟩]⟩,
  ⟨0x100, [(16, 0x10)], false, [], [⟨F.PSEL_CTL_EN, .rw, 0⟩, ⟨F.PSEL_CTL_PMASK, .rw, 0⟩, ⟨F.PSEL_CTL_PROF, .rw, 0⟩]⟩,
  ⟨0x104, [(16, 0x10)], false, [], [⟨F.PSEL_MASK, .rw, 0⟩]⟩,
  ⟨0x108, [(16, 0x10)], false, [], [⟨F.PSEL_VAL, .rw, 0⟩]⟩,
  ⟨0x400, [(16, 0x80), (4, 0x20)], false, [], [⟨F.PKEY_CTL_EN, .rw, 0⟩, ⟨F.PKEY_CTL_KIND, .rw, 0⟩, ⟨F.PKEY_CTL_TABLE_ID, .rw, 0⟩,
    ⟨F.PKEY_CTL_SLOT, .rw, 0⟩, ⟨F.PKEY_CTL_DSTG, .rw, 0⟩, ⟨F.PKEY_CTL_NEXT, .rw, 0⟩]⟩,
  ⟨0x404, [(16, 0x80), (4, 0x20), (4, 0x4)], false, [], [⟨F.PKEY_EXT, .rw, 0⟩]⟩,
  ⟨0xC00, [], true, [4], c32⟩,
  ⟨0xC08, [(7, 0x4)], false, [], c32⟩,
  ⟨0xC24, [], false, [], c32⟩,
  ⟨0xC28, [], false, [], c32⟩,
  ⟨0xC2C, [], false, [], c32⟩,
  ⟨0xC30, [], false, [], c32⟩,
  ⟨0xC34, [], false, [], c32⟩,
  ⟨0xC38, [], false, [], c32⟩,
  ⟨0xD00, [(64, 0x4)], false, [], c32⟩]

/-- Registers of the eng page. -/
def regs_eng : List RegD := [
  ⟨0x40, [], false, [], [⟨F.ENG_CTL_RUN, .rw, 0⟩, ⟨F.ENG_CTL_EXP_EN, .rw, 0⟩, ⟨F.ENG_CTL_EXP_TID, .rw, 7⟩, ⟨F.ENG_CTL_EXP_CLASS, .rw, 7⟩]⟩,
  ⟨0x44, [], false, [], [⟨F.ENG_THR_CFG_ROLE, .rw, 21845⟩]⟩,
  ⟨0x48, [], false, [], [⟨F.ENG_ENTRY_PKT_ENTRY, .rw, 0⟩, ⟨F.ENG_ENTRY_SVC_ENTRY, .rw, 0⟩]⟩,
  ⟨0x4C, [], false, [], [⟨F.ENG_WDOG_ACT, .rw, 2⟩, ⟨F.ENG_WDOG_LIMIT, .rw, 1024⟩]⟩,
  ⟨0x50, [], false, [], [⟨F.ENG_THR_RST_RST, .w1s, 0⟩]⟩,
  ⟨0x54, [], false, [], [⟨F.ENG_STAT_HOLD, .ro, 0⟩, ⟨F.ENG_STAT_WAIT, .ro, 0⟩, ⟨F.ENG_STAT_WDOG_SUSP, .ro, 0⟩, ⟨F.ENG_STAT_BOOST, .ro,
    0⟩, ⟨F.ENG_STAT_OLDEST_THR, .ro, 0⟩, ⟨F.ENG_STAT_OLDEST_HELD, .ro, 0⟩, ⟨F.ENG_STAT_CHAN_DEPTH, .ro, 0⟩]⟩,
  ⟨0x58, [], false, [], [⟨F.ENG_DL_DET, .w1c, 0⟩, ⟨F.ENG_DL_THR, .ro, 0⟩]⟩,
  ⟨0x60, [], false, [], [⟨F.ENG_HKEY_SEL_IDX, .rw, 0⟩]⟩,
  ⟨0x64, [], false, [4], [⟨F.ENG_HKEY_LO, .rw, 0⟩]⟩,
  ⟨0x68, [], false, [], [⟨F.ENG_HKEY_HI, .rw, 0⟩]⟩,
  ⟨0x80, [(8, 0x10)], false, [], [⟨F.EV_MASK, .ro, 0⟩]⟩,
  ⟨0x84, [(8, 0x10)], false, [], [⟨F.EV_PEND, .ro, 0⟩]⟩,
  ⟨0x88, [(8, 0x10)], false, [], [⟨F.ENG_TMR_ARMED, .ro, 0⟩, ⟨F.ENG_TMR_REM, .ro, 0⟩]⟩,
  ⟨0x8C, [(8, 0x10)], false, [], [⟨F.ENG_THR_STAT_STATE, .ro, 0⟩, ⟨F.ENG_THR_STAT_PC, .ro, 0⟩]⟩,
  ⟨0x100, [], true, [4], c32⟩,
  ⟨0x108, [], true, [4], c32⟩,
  ⟨0x110, [], true, [4], c32⟩,
  ⟨0x118, [], true, [4], c32⟩,
  ⟨0x120, [], false, [], c32⟩,
  ⟨0x124, [], false, [], c32⟩,
  ⟨0x128, [], false, [], c32⟩,
  ⟨0x12C, [], false, [], c32⟩,
  ⟨0x130, [], true, [4], c32⟩,
  ⟨0x138, [], false, [], c32⟩,
  ⟨0x13C, [], false, [], c32⟩]

/-- Registers of the clu page. -/
def regs_clu : List RegD := [
  ⟨0x40, [], false, [], [⟨F.CLU_IRAM_ADDR_ADDR, .rw, 0⟩]⟩,
  ⟨0x44, [], false, [], [⟨F.CLU_IRAM_DATA, .rw, 0⟩]⟩,
  ⟨0x48, [], false, [], [⟨F.CLU_SHR_ADDR_ADDR, .rw, 0⟩]⟩,
  ⟨0x4C, [], false, [], [⟨F.CLU_SHR_DATA, .rw, 0⟩]⟩,
  ⟨0x50, [], false, [], [⟨F.CLU_IRAM_FIX_ADDR_ADDR, .rw, 0⟩]⟩,
  ⟨0x54, [], false, [], [⟨F.CLU_IRAM_FIX_DATA, .rw, 0⟩]⟩,
  ⟨0x80, [], false, [4], [⟨F.CLU_SEG_LO, .rw, 0⟩]⟩,
  ⟨0x84, [], false, [], [⟨F.CLU_SEG_HI, .rw, 0⟩]⟩,
  ⟨0x98, [(5, 0x8)], false, [4], [⟨F.CLU_SEG_LO, .rw, 0⟩]⟩,
  ⟨0x9C, [(5, 0x8)], false, [], [⟨F.CLU_SEG_HI, .rw, 0⟩]⟩,
  ⟨0xC0, [], false, [], [⟨F.CLU_SEG_CTL_S7_SLICE, .rw, 0⟩, ⟨F.CLU_SEG_CTL_S3_SLICE, .rw, 0⟩]⟩,
  ⟨0xC4, [], false, [], [⟨F.CLU_TVEC_TVEC, .rw, 0⟩]⟩]

/-- Registers of the em page. -/
def regs_em : List RegD := [
  ⟨0x40, [], false, [], [⟨F.EM_SEED, .rw, 0xFFFFFFFF⟩]⟩,
  ⟨0x44, [], false, [], [⟨F.EM_CMD_CTL_GO, .w1s, 0⟩, ⟨F.EM_CMD_CTL_OP, .rw, 0⟩, ⟨F.EM_CMD_CTL_VIEWS, .rw, 0⟩, ⟨F.EM_CMD_CTL_CLR, .rw, 0⟩,
    ⟨F.EM_CMD_CTL_TABLE_ID, .rw, 0⟩]⟩,
  ⟨0x48, [], false, [], [⟨F.EM_CMD_STAT_BUSY, .ro, 0⟩, ⟨F.EM_CMD_STAT_STATUS, .ro, 0⟩]⟩,
  ⟨0x4C, [], false, [], [⟨F.EM_CMD_LOC_STORE, .rw, 0⟩, ⟨F.EM_CMD_LOC_INDEX, .rw, 0⟩, ⟨F.EM_CMD_LOC_SLOT, .rw, 0⟩]⟩,
  ⟨0x50, [], false, [4], [⟨F.EM_CMD_HDR_LO, .rw, 0⟩]⟩,
  ⟨0x54, [], false, [], [⟨F.EM_CMD_HDR_HI, .rw, 0⟩]⟩,
  ⟨0x58, [], false, [4], [⟨F.EM_CMD_DATA_LO, .rw, 0⟩]⟩,
  ⟨0x5C, [], false, [], [⟨F.EM_CMD_DATA_HI, .rw, 0⟩]⟩,
  ⟨0x60, [], false, [4], [⟨F.EM_CMD_CTR_PKT_LO, .ro, 0⟩]⟩,
  ⟨0x64, [], false, [], [⟨F.EM_CMD_CTR_PKT_HI, .ro, 0⟩]⟩,
  ⟨0x68, [], false, [4], [⟨F.EM_CMD_CTR_BYTE_LO, .ro, 0⟩]⟩,
  ⟨0x6C, [], false, [], [⟨F.EM_CMD_CTR_BYTE_HI, .ro, 0⟩]⟩,
  ⟨0x80, [(30, 0x4)], false, [], [⟨F.EM_CMD_KEY, .rw, 0⟩]⟩,
  ⟨0x100, [], false, [4], [⟨F.EM_BULK_ADDR_LO, .rw, 0⟩]⟩,
  ⟨0x104, [], false, [], [⟨F.EM_BULK_ADDR_HI, .rw, 0⟩]⟩,
  ⟨0x108, [], false, [], [⟨F.EM_BULK_CNT_CNT, .rw, 0⟩]⟩,
  ⟨0x10C, [], false, [], [⟨F.EM_BULK_CTL_START, .w1s, 0⟩, ⟨F.EM_BULK_CTL_ABORT, .w1s, 0⟩, ⟨F.EM_BULK_CTL_ABORT_ST, .ro, 0⟩,
    ⟨F.EM_BULK_CTL_STATE, .ro, 0⟩, ⟨F.EM_BULK_CTL_DONE, .ro, 0⟩]⟩,
  ⟨0x110, [], false, [], [⟨F.EM_BULK_FAIL_FAIL_CNT, .ro, 0⟩, ⟨F.EM_BULK_FAIL_FIRST, .ro, 0⟩]⟩,
  ⟨0x140, [], false, [], [⟨F.EM_ODIE_USED, .ro, 0⟩]⟩,
  ⟨0x144, [], false, [], [⟨F.EM_OVF_USED, .ro, 0⟩]⟩,
  ⟨0x148, [], false, [], [⟨F.EM_DEEP_USED, .ro, 0⟩]⟩,
  ⟨0x180, [], true, [4], c32⟩,
  ⟨0x188, [], true, [4], c32⟩,
  ⟨0x190, [], true, [4], c32⟩,
  ⟨0x198, [], true, [4], c32⟩,
  ⟨0x1A0, [], false, [], c32⟩,
  ⟨0x1A4, [], false, [], c32⟩,
  ⟨0x1A8, [], false, [], c32⟩,
  ⟨0x1AC, [], false, [], c32⟩,
  ⟨0x1B0, [], false, [], c32⟩]

/-- Registers of the emDesc page. -/
def regs_emDesc : List RegD := [
  ⟨0x40, [(128, 0x10)], false, [], [⟨F.EM_TBL_CFG_EN, .rw, 0⟩, ⟨F.EM_TBL_CFG_STORE, .rw, 0⟩, ⟨F.EM_TBL_CFG_WIDTH, .ro, 0⟩,
    ⟨F.EM_TBL_CFG_KEY_B, .rw, 0⟩, ⟨F.EM_TBL_CFG_DATA_B, .rw, 0⟩]⟩,
  ⟨0x44, [(128, 0x10)], false, [], [⟨F.EM_TBL_CNT, .ro, 0⟩]⟩]

/-- Registers of the tc page. -/
def regs_tc : List RegD := [
  ⟨0x40, [], false, [], [⟨F.TC_CMD_CTL_GO, .w1s, 0⟩, ⟨F.TC_CMD_CTL_AUTO_P, .rw, 0⟩, ⟨F.TC_CMD_CTL_OP, .rw, 0⟩, ⟨F.TC_CMD_CTL_VIEWS, .rw,
    0⟩, ⟨F.TC_CMD_CTL_TABLE_ID, .rw, 0⟩, ⟨F.TC_CMD_CTL_P, .rw, 0⟩]⟩,
  ⟨0x44, [], false, [], [⟨F.TC_CMD_STAT_BUSY, .ro, 0⟩, ⟨F.TC_CMD_STAT_MOVES, .ro, 0⟩, ⟨F.TC_CMD_STAT_STATUS, .ro, 0⟩]⟩,
  ⟨0x48, [], false, [], [⟨F.TC_CMD_LOC_ROW, .rw, 0⟩]⟩,
  ⟨0x4C, [], false, [4], [⟨F.TC_CMD_HDR_LO, .rw, 0⟩]⟩,
  ⟨0x50, [], false, [], [⟨F.TC_CMD_HDR_HI, .rw, 0⟩]⟩,
  ⟨0x54, [], false, [4], [⟨F.TC_CMD_DATA_LO, .rw, 0⟩]⟩,
  ⟨0x58, [], false, [], [⟨F.TC_CMD_DATA_HI, .rw, 0⟩]⟩,
  ⟨0x60, [(5, 0x4)], false, [], [⟨F.TC_CMD_VAL, .rw, 0⟩]⟩,
  ⟨0x80, [(5, 0x4)], false, [], [⟨F.TC_CMD_MASK, .rw, 0⟩]⟩,
  ⟨0xA0, [], false, [], [⟨F.TC_MR_GAP, .rw, 16⟩]⟩,
  ⟨0x100, [(64, 0x4)], false, [], [⟨F.TC_TBL_EN, .rw, 0⟩, ⟨F.TC_TBL_CNT, .ro, 0⟩]⟩,
  ⟨0x200, [], false, [], [⟨F.TC_USED, .ro, 0⟩]⟩,
  ⟨0x240, [], true, [4], c32⟩,
  ⟨0x248, [], true, [4], c32⟩,
  ⟨0x250, [], true, [4], c32⟩,
  ⟨0x258, [], false, [], c32⟩,
  ⟨0x25C, [], false, [], c32⟩,
  ⟨0x260, [], false, [], c32⟩,
  ⟨0x264, [], false, [], c32⟩]

/-- Registers of the view page. -/
def regs_view : List RegD := [
  ⟨0x40, [], false, [], [⟨F.VIEW_CTL_COMMIT, .w1s, 0⟩, ⟨F.VIEW_CTL_ABORT, .w1s, 0⟩, ⟨F.VIEW_CTL_SYNC, .w1s, 0⟩, ⟨F.VIEW_CTL_FORCE, .rw,
    0⟩, ⟨F.VIEW_CTL_DRAIN_LIMIT, .rw, 100⟩]⟩,
  ⟨0x44, [], false, [], [⟨F.VIEW_STAT_ACTIVE, .ro, 0⟩, ⟨F.VIEW_STAT_DRAINED, .ro, 1⟩, ⟨F.VIEW_STAT_SYNC_NEEDED, .ro, 0⟩,
    ⟨F.VIEW_STAT_EARLY, .w1c, 0⟩, ⟨F.VIEW_STAT_DRAIN_TO, .w1c, 0⟩, ⟨F.VIEW_STAT_C_STATE, .ro, 0⟩, ⟨F.VIEW_STAT_C_ABORT, .ro, 0⟩,
    ⟨F.VIEW_STAT_S_STATE, .ro, 0⟩, ⟨F.VIEW_STAT_S_ABORT, .ro, 0⟩, ⟨F.VIEW_STAT_REASON, .ro, 0⟩]⟩,
  ⟨0x48, [], false, [], [⟨F.VIEW_CNT, .ro, 0⟩]⟩,
  ⟨0x4C, [], false, [], [⟨F.VIEW_INFL_0, .ro, 0⟩]⟩,
  ⟨0x50, [], false, [], [⟨F.VIEW_INFL_1, .ro, 0⟩]⟩,
  ⟨0x54, [], false, [4, 8], [⟨F.VIEW_FLIP_NS, .ro, 0⟩]⟩,
  ⟨0x58, [], false, [], [⟨F.VIEW_FLIP_SEC_LO, .ro, 0⟩]⟩,
  ⟨0x5C, [], false, [], [⟨F.VIEW_FLIP_SEC_HI, .ro, 0⟩]⟩,
  ⟨0x60, [], false, [], [⟨F.VIEW_SYNC_REM, .ro, 0⟩]⟩,
  ⟨0x100, [], false, [], [⟨F.VIEW_REFUSED, .rc, 0⟩]⟩,
  ⟨0x104, [], false, [], [⟨F.VIEW_FORCE_DROP, .rc, 0⟩]⟩]

/-- Registers of the lrnDev page. -/
def regs_lrnDev : List RegD := [
  ⟨0x40, [], false, [], [⟨F.LRN_CFG_EN, .rw, 0⟩, ⟨F.LRN_CFG_RX_EN, .rw, 0⟩, ⟨F.LRN_CFG_TX_EN, .rw, 0⟩, ⟨F.LRN_CFG_TABLE_ID, .rw, 0⟩,
    ⟨F.LRN_CFG_REMOTE_INST, .rw, 0⟩]⟩,
  ⟨0x44, [], false, [], [⟨F.LRN_DOM_DOMAIN_ID, .rw, 0⟩, ⟨F.LRN_DOM_DEVICE_ID, .rw, 0⟩]⟩,
  ⟨0x48, [], false, [], [⟨F.LRN_TX_PIPE, .rw, 0⟩, ⟨F.LRN_TX_CLASS, .rw, 6⟩, ⟨F.LRN_TX_FLUSH_US, .rw, 10⟩]⟩,
  ⟨0x4C, [], false, [], [⟨F.LRN_PEER_HELLO_MS, .rw, 100⟩, ⟨F.LRN_PEER_PEER_TMO_MS, .rw, 1000⟩]⟩,
  ⟨0x50, [], false, [4], [⟨F.LRN_DA_LO, .rw, 0⟩]⟩,
  ⟨0x54, [], false, [], [⟨F.LRN_DA_HI, .rw, 0⟩]⟩,
  ⟨0x58, [], false, [4], [⟨F.LRN_SA_LO, .rw, 0⟩]⟩,
  ⟨0x5C, [], false, [], [⟨F.LRN_SA_HI, .rw, 0⟩]⟩,
  ⟨0x60, [], false, [], [⟨F.LRN_STALE_STALE_US, .rw, 1000000⟩]⟩,
  ⟨0x64, [], false, [], [⟨F.LRN_DAMP_MOVES, .rw, 4⟩, ⟨F.LRN_DAMP_WIN_MS, .rw, 1000⟩, ⟨F.LRN_DAMP_HOLD_S, .rw, 10⟩]⟩,
  ⟨0x68, [], false, [], [⟨F.LRN_SEQ, .ro, 0⟩]⟩,
  ⟨0x6C, [], false, [], [⟨F.LRN_FLUSH_START, .w1s, 0⟩, ⟨F.LRN_FLUSH_ABORT, .w1s, 0⟩, ⟨F.LRN_FLUSH_ABORT_ST, .ro, 0⟩, ⟨F.LRN_FLUSH_STATE,
    .ro, 0⟩, ⟨F.LRN_FLUSH_SEL, .rw, 0⟩, ⟨F.LRN_FLUSH_ARG, .rw, 0⟩]⟩,
  ⟨0x70, [], false, [], [⟨F.LRN_DUMP_START, .w1s, 0⟩, ⟨F.LRN_DUMP_ABORT, .w1s, 0⟩, ⟨F.LRN_DUMP_ABORT_ST, .ro, 0⟩, ⟨F.LRN_DUMP_STATE, .ro,
    0⟩]⟩,
  ⟨0x74, [], false, [], [⟨F.LRN_PEER_SEL, .rw, 0⟩]⟩,
  ⟨0x78, [], false, [], [⟨F.LRN_PEER_SEQ, .ro, 0⟩]⟩,
  ⟨0x7C, [], false, [], [⟨F.LRN_PEER_STAT_KNOWN, .ro, 0⟩, ⟨F.LRN_PEER_STAT_NEED_SYNC, .w1c, 0⟩, ⟨F.LRN_PEER_STAT_AGO_MS, .ro, 0⟩]⟩,
  ⟨0x80, [], false, [4], [⟨F.LRN_RING_LO, .rw, 0⟩]⟩,
  ⟨0x84, [], false, [], [⟨F.LRN_RING_HI, .rw, 0⟩]⟩,
  ⟨0x88, [], false, [], [⟨F.LRN_RING_SZ, .rw, 0⟩]⟩,
  ⟨0x8C, [], false, [], [⟨F.LRN_RING_PI, .ro, 0⟩]⟩,
  ⟨0x90, [], false, [], [⟨F.LRN_RING_CI, .rw, 0⟩]⟩,
  ⟨0x94, [], false, [], [⟨F.LRN_RING_MASK, .rw, 0⟩]⟩,
  ⟨0x100, [], false, [], c32⟩,
  ⟨0x104, [], false, [], c32⟩,
  ⟨0x108, [], false, [], c32⟩,
  ⟨0x10C, [], false, [], c32⟩,
  ⟨0x110, [], false, [], c32⟩,
  ⟨0x114, [], false, [], c32⟩,
  ⟨0x118, [], false, [], c32⟩]

/-- Registers of the lrnHalf page. -/
def regs_lrnHalf : List RegD := [
  ⟨0x100, [], true, [4], c32⟩,
  ⟨0x108, [], true, [4], c32⟩,
  ⟨0x110, [], true, [4], c32⟩,
  ⟨0x118, [], false, [], c32⟩,
  ⟨0x11C, [], false, [], c32⟩,
  ⟨0x120, [], false, [], c32⟩,
  ⟨0x124, [], false, [], c32⟩,
  ⟨0x128, [], false, [], c32⟩,
  ⟨0x12C, [], false, [], c32⟩,
  ⟨0x130, [], false, [], c32⟩,
  ⟨0x134, [], false, [], c32⟩,
  ⟨0x138, [], false, [], c32⟩,
  ⟨0x13C, [], false, [], c32⟩]

/-- Registers of the lrnAge page. -/
def regs_lrnAge : List RegD := [
  ⟨0x40, [], false, [], [⟨F.LRN_AGE_STAT, .ro, 0⟩]⟩,
  ⟨0x400, [(256, 0x4)], false, [], [⟨F.LRN_AGE_EN, .rw, 0⟩, ⟨F.LRN_AGE_RF_SRC, .rw, 0⟩, ⟨F.LRN_AGE_RF_LKP, .rw, 0⟩, ⟨F.LRN_AGE_UNIT, .rw,
    0⟩, ⟨F.LRN_AGE_MAXAGE, .rw, 0⟩]⟩]

/-- Registers of the lrnLim page. -/
def regs_lrnLim : List RegD := [
  ⟨0x40, [(68, 0x4)], false, [], [⟨F.LRN_PORT_ACT, .rw, 0⟩, ⟨F.LRN_PORT_LIMIT, .rw, 0⟩]⟩,
  ⟨0x200, [(68, 0x4)], false, [], [⟨F.LRN_PCNT_CNT, .ro, 0⟩]⟩,
  ⟨0x400, [(256, 0x4)], false, [], [⟨F.LRN_INST_LIMIT, .rw, 0⟩]⟩,
  ⟨0x800, [(256, 0x4)], false, [], [⟨F.LRN_ICNT_CNT, .ro, 0⟩]⟩]

/-- Registers of the sintMain page. -/
def regs_sintMain : List RegD := [
  ⟨0x40, [], false, [], [⟨F.SINT_CFG_XON_GAP, .rw, 18⟩]⟩,
  ⟨0x44, [], false, [], [⟨F.SINT_POOL_CTL_APPLY, .w1s, 0⟩, ⟨F.SINT_POOL_CTL_RES, .ro, 0⟩]⟩,
  ⟨0x48, [(4, 0x4)], false, [], [⟨F.SINT_POOL_CNT, .rw, 0⟩]⟩,
  ⟨0x58, [(4, 0x4)], false, [], [⟨F.SINT_POOL_FREE, .ro, 0⟩]⟩,
  ⟨0x68, [], false, [], [⟨F.SINT_SH, .ro, 393216⟩]⟩,
  ⟨0x6C, [], false, [], [⟨F.SINT_SU, .ro, 0⟩]⟩,
  ⟨0x70, [(4, 0x4)], false, [], [⟨F.SINT_UNK, .rw, 4294967295⟩]⟩,
  ⟨0x80, [(8, 0x4)], false, [], [⟨F.SINT_SPILL_EN, .rw, 0⟩, ⟨F.SINT_SPILL_DEEP_MAX, .rw, 0⟩, ⟨F.SINT_SPILL_SPILL_TH, .rw, 1024⟩]⟩,
  ⟨0xA0, [], false, [], [⟨F.SINT_DEEP_FREE, .ro, 10485760⟩]⟩,
  ⟨0x100, [], false, [], [⟨F.SINT_CMD_CTL_GO, .w1s, 0⟩, ⟨F.SINT_CMD_CTL_OP, .rw, 0⟩, ⟨F.SINT_CMD_CTL_PIPE, .rw, 0⟩, ⟨F.SINT_CMD_CTL_POOL,
    .rw, 0⟩, ⟨F.SINT_CMD_CTL_AGENT, .rw, 0⟩]⟩,
  ⟨0x104, [], false, [], [⟨F.SINT_CMD_PTR, .rw, 0⟩]⟩,
  ⟨0x108, [], false, [], [⟨F.SINT_CMD_STAT_BUSY, .ro, 0⟩, ⟨F.SINT_CMD_STAT_STATUS, .ro, 0⟩]⟩,
  ⟨0x10C, [], false, [4], [⟨F.SINT_CMD_DESC_LO, .ro, 0⟩]⟩,
  ⟨0x110, [], false, [], [⟨F.SINT_CMD_DESC_HI, .ro, 0⟩]⟩,
  ⟨0x114, [], false, [], [⟨F.SINT_CMD_LEN, .rw, 0⟩]⟩,
  ⟨0x118, [], false, [], [⟨F.SINT_WIN_PTR, .rw, 0⟩]⟩,
  ⟨0x11C, [], false, [], [⟨F.SINT_WIN_OFF, .rw, 0⟩]⟩,
  ⟨0x140, [], false, [], [⟨F.SINT_AUDIT_START, .w1s, 0⟩, ⟨F.SINT_AUDIT_ABORT, .w1s, 0⟩, ⟨F.SINT_AUDIT_ABORT_ST, .ro, 0⟩,
    ⟨F.SINT_AUDIT_STATE, .ro, 0⟩, ⟨F.SINT_AUDIT_RECLAIM, .rw, 0⟩, ⟨F.SINT_AUDIT_AG_EN, .rw, 0⟩, ⟨F.SINT_AUDIT_POOL, .rw, 0⟩,
    ⟨F.SINT_AUDIT_AGENT, .rw, 0⟩]⟩,
  ⟨0x144, [], false, [], [⟨F.SINT_AUD_LEAK, .ro, 0⟩]⟩,
  ⟨0x148, [], false, [], [⟨F.SINT_AUD_SW, .ro, 0⟩]⟩,
  ⟨0x14C, [], false, [], [⟨F.SINT_AUD_DUP, .ro, 0⟩]⟩,
  ⟨0x150, [], false, [], [⟨F.SINT_AUD_FIRST, .ro, 0xFFFFFF⟩]⟩,
  ⟨0x200, [(4, 0x8)], true, [4], c32⟩,
  ⟨0x220, [(4, 0x8)], true, [4], c32⟩,
  ⟨0x240, [], false, [], c32⟩,
  ⟨0x244, [], false, [], c32⟩,
  ⟨0x248, [], false, [], c32⟩,
  ⟨0x24C, [], false, [], c32⟩,
  ⟨0x250, [], false, [], c32⟩,
  ⟨0x258, [], true, [4], c32⟩,
  ⟨0x260, [], true, [4], c32⟩,
  ⟨0x268, [], false, [], c32⟩,
  ⟨0x26C, [], false, [], c32⟩,
  ⟨0x800, [(64, 0x4)], false, [], [⟨F.SINT_WIN, .rw, 0⟩]⟩]

/-- Registers of the sintAcc page. -/
def regs_sintAcc : List RegD := [
  ⟨0x400, [(256, 0x4)], false, [], [⟨F.A_CFG_ALPHA, .rw, 8⟩, ⟨F.A_CFG_HDRM, .rw, 0⟩, ⟨F.A_CFG_MIN, .rw, 0⟩]⟩,
  ⟨0x800, [(256, 0x4)], false, [], [⟨F.A_USE_XOFF, .ro, 0⟩, ⟨F.A_USE_H, .ro, 0⟩, ⟨F.A_USE_USE, .ro, 0⟩]⟩,
  ⟨0xC00, [(256, 0x4)], false, [], c32⟩]

/-- Registers of the xbar page. -/
def regs_xbar : List RegD := [
  ⟨0x40, [], false, [], [⟨F.XB_CTL_RUN, .rw, 0⟩, ⟨F.XB_CTL_EXP_HOLD, .rw, 1⟩]⟩,
  ⟨0x44, [], false, [], [⟨F.XB_STAT_MC_MODE, .ro, 1⟩, ⟨F.XB_STAT_OUT_BUSY, .ro, 0⟩]⟩,
  ⟨0x48, [], false, [], [⟨F.XB_FLAP_HOLD_MS, .rw, 10⟩]⟩,
  ⟨0x4C, [], false, [], [⟨F.XB_MIR_FLOOR_FLOOR, .rw, 4096⟩]⟩,
  ⟨0x50, [], false, [], [⟨F.XB_MCG_SEL_GROUP, .rw, 0⟩]⟩,
  ⟨0x54, [], false, [], [⟨F.XB_MCG_MAP_0, .rw, 0⟩]⟩,
  ⟨0x58, [], false, [], [⟨F.XB_MCG_MAP_1, .rw, 0⟩]⟩,
  ⟨0x5C, [], false, [], [⟨F.XB_MCG_MAP_2, .rw, 0⟩]⟩,
  ⟨0x60, [], false, [], [⟨F.XB_VOQ_SEL_INPUT, .rw, 0⟩, ⟨F.XB_VOQ_SEL_QUEUE, .rw, 0⟩, ⟨F.XB_VOQ_SEL_CLASS, .rw, 0⟩]⟩,
  ⟨0x64, [], false, [], [⟨F.XB_VOQ_FRM, .ro, 0⟩]⟩,
  ⟨0x68, [], false, [], [⟨F.XB_VOQ_BYTES, .ro, 0⟩]⟩,
  ⟨0x6C, [], false, [], [⟨F.XB_STORE_USE, .ro, 0⟩]⟩,
  ⟨0x80, [(8, 0x4)], false, [], [⟨F.XB_AGE_LIMIT_US, .rw, 1000000⟩]⟩,
  ⟨0x100, [(16, 0x10)], false, [], [⟨F.XB_MIR_CFG_EN, .rw, 0⟩, ⟨F.XB_MIR_CFG_DEST_PORT, .rw, 0⟩, ⟨F.XB_MIR_CFG_TRUNC, .rw, 0⟩,
    ⟨F.XB_MIR_CFG_CLASS, .rw, 0⟩]⟩,
  ⟨0x104, [(16, 0x10)], false, [], [⟨F.XB_MIR_SRC_ING, .rw, 0⟩, ⟨F.XB_MIR_SRC_EGR, .rw, 0⟩, ⟨F.XB_MIR_SRC_PORT, .rw, 0⟩]⟩,
  ⟨0x108, [(16, 0x10)], false, [], [⟨F.XB_MIR_LIM_LIMIT, .rw, 4096⟩]⟩,
  ⟨0x10C, [(16, 0x10)], false, [], [⟨F.XB_MIR_USE_USE, .ro, 0⟩]⟩,
  ⟨0x200, [(72, 0x4)], false, [], [⟨F.XB_PORT_DOWN, .ro, 0⟩, ⟨F.XB_PORT_HOLD, .ro, 0⟩, ⟨F.XB_PORT_FLUSH, .w1s, 0⟩,
    ⟨F.XB_PORT_HOLD_REM_MS, .ro, 0⟩]⟩,
  ⟨0x400, [], true, [4], c32⟩,
  ⟨0x408, [], true, [4], c32⟩,
  ⟨0x410, [(8, 0x4)], false, [], c32⟩,
  ⟨0x430, [], false, [], c32⟩,
  ⟨0x434, [], false, [], c32⟩,
  ⟨0x438, [], false, [], c32⟩,
  ⟨0x43C, [], false, [], c32⟩,
  ⟨0x440, [], false, [], c32⟩,
  ⟨0x444, [], false, [], c32⟩,
  ⟨0x448, [], false, [], c32⟩,
  ⟨0x480, [(16, 0x4)], false, [], c32⟩]

/-- Registers of the tmMain page. -/
def regs_tmMain : List RegD := [
  ⟨0x40, [], false, [], [⟨F.TM_CTL_RUN, .rw, 0⟩, ⟨F.TM_CTL_LEAD_NS, .rw, 100⟩]⟩,
  ⟨0x44, [], false, [], [⟨F.TM_WHL_STAT_ENTRIES, .ro, 0⟩, ⟨F.TM_WHL_STAT_SLOT, .ro, 0⟩]⟩,
  ⟨0x48, [], false, [], [⟨F.TM_OVF_STAT, .ro, 0⟩]⟩,
  ⟨0x100, [(16, 0x8)], false, [], [⟨F.TM_GRP_RATE, .rw, 0⟩]⟩,
  ⟨0x104, [(16, 0x8)], false, [], [⟨F.TM_GRP_STAT_ALLOW, .ro, 0⟩, ⟨F.TM_GRP_STAT_WHEEL, .ro, 0⟩, ⟨F.TM_GRP_STAT_OVF, .ro, 0⟩]⟩]

/-- Registers of the tmPort page. -/
def regs_tmPort : List RegD := [
  ⟨0x40, [], false, [], [⟨F.TM_PORT_CTL_GUARD_FIX, .rw, 0⟩, ⟨F.TM_PORT_CTL_GRP_EN, .rw, 0⟩, ⟨F.TM_PORT_CTL_GRP, .rw, 0⟩,
    ⟨F.TM_PORT_CTL_OVHD, .rw, 20⟩]⟩,
  ⟨0x44, [], false, [], [⟨F.TM_PORT_RATE, .rw, 0⟩]⟩,
  ⟨0x48, [], false, [], [⟨F.TM_PORT_STAT_VEC, .ro, 0⟩, ⟨F.TM_PORT_STAT_OPEN, .ro, 255⟩, ⟨F.TM_PORT_STAT_ALLOW, .ro, 1⟩,
    ⟨F.TM_PORT_STAT_WHEEL, .ro, 0⟩, ⟨F.TM_PORT_STAT_OVF, .ro, 0⟩, ⟨F.TM_PORT_STAT_PAUSED, .ro, 0⟩]⟩,
  ⟨0x80, [(8, 0x10)], false, [], [⟨F.TM_SHP_SLOPE, .rw, 0⟩]⟩,
  ⟨0x84, [(8, 0x10)], false, [], [⟨F.TM_SHP_LIM_HI, .rw, 9236⟩, ⟨F.TM_SHP_LIM_LO, .rw, 9236⟩]⟩,
  ⟨0x88, [(8, 0x10)], false, [], [⟨F.TM_SHP_CRED, .ro, 0⟩]⟩,
  ⟨0x8C, [(8, 0x10)], false, [], [⟨F.TM_TXQ_FRM, .ro, 0⟩]⟩,
  ⟨0x100, [], false, [], [⟨F.TM_GCL_CTL_EN, .rw, 0⟩, ⟨F.TM_GCL_CTL_PEND, .w1s, 0⟩, ⟨F.TM_GCL_CTL_OPER_BANK, .ro, 0⟩,
    ⟨F.TM_GCL_CTL_INSTALLED, .ro, 0⟩, ⟨F.TM_GCL_CTL_ADMIN_LEN, .rw, 0⟩]⟩,
  ⟨0x104, [], false, [4, 8], [⟨F.TM_GCL_ADM_BASE_NS, .rw, 0⟩]⟩,
  ⟨0x108, [], false, [], [⟨F.TM_GCL_ADM_BASE_SEC_LO, .rw, 0⟩]⟩,
  ⟨0x10C, [], false, [], [⟨F.TM_GCL_ADM_BASE_SEC_HI, .rw, 0⟩]⟩,
  ⟨0x110, [], false, [], [⟨F.TM_GCL_ADM_CYCLE, .rw, 0⟩]⟩,
  ⟨0x114, [], false, [4, 8], [⟨F.TM_GCL_OPER_BASE_NS, .ro, 0⟩]⟩,
  ⟨0x118, [], false, [], [⟨F.TM_GCL_OPER_BASE_SEC_LO, .ro, 0⟩]⟩,
  ⟨0x11C, [], false, [], [⟨F.TM_GCL_OPER_BASE_SEC_HI, .ro, 0⟩]⟩,
  ⟨0x120, [], false, [], [⟨F.TM_GCL_OPER_CYCLE, .ro, 0⟩]⟩,
  ⟨0x124, [], false, [], [⟨F.TM_GCL_OPER_LEN, .ro, 0⟩]⟩,
  ⟨0x128, [], false, [4, 8], [⟨F.TM_GCL_CHG_NS, .ro, 0⟩]⟩,
  ⟨0x12C, [], false, [], [⟨F.TM_GCL_CHG_SEC_LO, .ro, 0⟩]⟩,
  ⟨0x130, [], false, [], [⟨F.TM_GCL_CHG_SEC_HI, .ro, 0⟩]⟩,
  ⟨0x140, [(8, 0x4)], false, [], [⟨F.TM_GCL_MAXWIN, .ro, 4294967295⟩]⟩,
  ⟨0x200, [], true, [4], c32⟩,
  ⟨0x208, [], false, [], c32⟩,
  ⟨0x20C, [], false, [], c32⟩,
  ⟨0x210, [], false, [], c32⟩,
  ⟨0x800, [(256, 0x4)], false, [], [⟨F.TM_GCL_A_GATES, .rw, 0⟩, ⟨F.TM_GCL_A_INTERVAL, .rw, 0⟩]⟩,
  ⟨0xC00, [(256, 0x4)], false, [], [⟨F.TM_GCL_B_GATES, .rw, 0⟩, ⟨F.TM_GCL_B_INTERVAL, .rw, 0⟩]⟩]

/-- Registers of the mtr page. -/
def regs_mtr : List RegD := [
  ⟨0x40, [], false, [], [⟨F.MTR_PIPE_EN_EGR_EN, .rw, 0⟩, ⟨F.MTR_PIPE_EN_ING_EN, .rw, 0⟩]⟩,
  ⟨0x44, [], false, [], [⟨F.MTR_UNK_LEN_LEN, .rw, 1518⟩]⟩,
  ⟨0x48, [], false, [], [⟨F.MTR_CMD_CTL_GO, .w1s, 0⟩, ⟨F.MTR_CMD_CTL_OP, .rw, 0⟩, ⟨F.MTR_CMD_CTL_INDEX, .rw, 0⟩]⟩,
  ⟨0x4C, [], false, [], [⟨F.MTR_CMD_STAT_BUSY, .ro, 0⟩, ⟨F.MTR_CMD_STAT_STATUS, .ro, 0⟩]⟩,
  ⟨0x50, [], false, [], [⟨F.MTR_CMD_CFG_MODE, .rw, 0⟩, ⟨F.MTR_CMD_CFG_AWARE, .rw, 0⟩, ⟨F.MTR_CMD_CFG_RED_DROP, .rw, 0⟩]⟩,
  ⟨0x54, [], false, [], [⟨F.MTR_CMD_CIR, .rw, 0⟩]⟩,
  ⟨0x58, [], false, [], [⟨F.MTR_CMD_PIR, .rw, 0⟩]⟩,
  ⟨0x5C, [], false, [], [⟨F.MTR_CMD_CBS, .rw, 0⟩]⟩,
  ⟨0x60, [], false, [], [⟨F.MTR_CMD_XBS, .rw, 0⟩]⟩,
  ⟨0x64, [], false, [], [⟨F.MTR_CMD_TOK1, .ro, 0⟩]⟩,
  ⟨0x68, [], false, [], [⟨F.MTR_CMD_TOK2, .ro, 0⟩]⟩,
  ⟨0x100, [], true, [4], c32⟩,
  ⟨0x108, [], true, [4], c32⟩,
  ⟨0x110, [], true, [4], c32⟩,
  ⟨0x118, [], false, [], c32⟩,
  ⟨0x11C, [], false, [], c32⟩]

/-- Registers of the hifMain page. -/
def regs_hifMain : List RegD := [
  ⟨0x40, [], false, [], [⟨F.HIF_CTL_PRIMARY, .rw, 0⟩, ⟨F.HIF_CTL_BIF, .rw, 0⟩]⟩,
  ⟨0x44, [(4, 0x4)], false, [], [⟨F.HIF_PF_CFG_ACC, .rw, 0⟩, ⟨F.HIF_PF_CFG_FIRST, .rw, 4⟩, ⟨F.HIF_PF_CFG_NUM, .rw, 0⟩]⟩,
  ⟨0x54, [(4, 0x4)], false, [], [⟨F.HIF_LINK_UP, .ro, 0⟩, ⟨F.HIF_LINK_RATE, .ro, 0⟩, ⟨F.HIF_LINK_WIDTH, .ro, 0⟩, ⟨F.HIF_LINK_CPL_TMO_MS,
    .rw, 5⟩]⟩,
  ⟨0x64, [], false, [], [⟨F.HIF_DRAIN_LIMIT_MS, .rw, 10⟩]⟩,
  ⟨0x68, [], false, [], [⟨F.HIF_INST_SEL, .rw, 0⟩]⟩,
  ⟨0x6C, [], false, [], [⟨F.HIF_INST_CMD_GO, .w1s, 0⟩, ⟨F.HIF_INST_CMD_OP, .rw, 0⟩]⟩,
  ⟨0x70, [], false, [], [⟨F.HIF_INST_CMD_STAT_BUSY, .ro, 0⟩, ⟨F.HIF_INST_CMD_STAT_STATUS, .ro, 0⟩]⟩,
  ⟨0x74, [], false, [], [⟨F.HIF_RX_HOLD_US, .rw, 1000⟩]⟩,
  ⟨0x80, [], false, [], [⟨F.HIF_RING_SEL, .rw, 0⟩]⟩,
  ⟨0x84, [], false, [], [⟨F.HIF_RING_CTL_TX_EN, .rw, 0⟩, ⟨F.HIF_RING_CTL_RX_EN, .rw, 0⟩, ⟨F.HIF_RING_CTL_PIPE, .rw, 0⟩,
    ⟨F.HIF_RING_CTL_RX_CLASS, .rw, 0⟩, ⟨F.HIF_RING_CTL_LOG2, .rw, 0⟩, ⟨F.HIF_RING_CTL_INST, .rw, 0⟩]⟩,
  ⟨0x88, [], false, [4], [⟨F.HIF_RING_TXBASE_LO, .rw, 0⟩]⟩,
  ⟨0x8C, [], false, [], [⟨F.HIF_RING_TXBASE_HI, .rw, 0⟩]⟩,
  ⟨0x90, [], false, [4], [⟨F.HIF_RING_RXBASE_LO, .rw, 0⟩]⟩,
  ⟨0x94, [], false, [], [⟨F.HIF_RING_RXBASE_HI, .rw, 0⟩]⟩,
  ⟨0x98, [], false, [], [⟨F.HIF_RING_VEC_TX_INT, .rw, 0⟩, ⟨F.HIF_RING_VEC_RX_INT, .rw, 0⟩, ⟨F.HIF_RING_VEC_VEC, .rw, 0⟩,
    ⟨F.HIF_RING_VEC_MOD_US, .rw, 0⟩]⟩,
  ⟨0x9C, [], false, [], [⟨F.HIF_RING_BUF_BUF_SZ, .rw, 2048⟩]⟩,
  ⟨0xA0, [], false, [], [⟨F.HIF_RING_CI_TX_CI, .ro, 0⟩, ⟨F.HIF_RING_CI_RX_CI, .ro, 0⟩]⟩]

/-- Registers of the inst page. -/
def regs_inst : List RegD := [
  ⟨0x40, [], false, [], [⟨F.HIF_INST_STAT_STATE, .ro, 0⟩, ⟨F.HIF_INST_STAT_RST_BUSY, .ro, 0⟩, ⟨F.HIF_INST_STAT_DRAIN_TO, .ro, 0⟩,
    ⟨F.HIF_INST_STAT_STAGED, .ro, 0⟩, ⟨F.HIF_INST_STAT_GEN, .ro, 0⟩]⟩,
  ⟨0x44, [], false, [], [⟨F.HIF_INST_RST_GO, .w1s, 0⟩]⟩,
  ⟨0x48, [], false, [], [⟨F.HIF_MBX_CTL_SEND, .w1s, 0⟩, ⟨F.HIF_MBX_CTL_BUSY, .ro, 0⟩, ⟨F.HIF_MBX_CTL_DONE, .w1s, 0⟩, ⟨F.HIF_MBX_CTL_RES,
    .ro, 0⟩, ⟨F.HIF_MBX_CTL_MBX_VEC, .rw, 0⟩, ⟨F.HIF_MBX_CTL_MBX_TMO_MS, .rw, 100⟩]⟩,
  ⟨0x50, [], false, [], [⟨F.HIF_INST_QP_FIRST, .rw, 0⟩, ⟨F.HIF_INST_QP_NUM, .rw, 0⟩]⟩,
  ⟨0x54, [], false, [], [⟨F.HIF_INST_VEC_FIRST, .rw, 0⟩, ⟨F.HIF_INST_VEC_NUM, .rw, 0⟩]⟩,
  ⟨0x58, [], false, [], [⟨F.HIF_INST_TQ, .rw, 0⟩]⟩,
  ⟨0x5C, [], false, [], [⟨F.HIF_INST_TCNT, .ro, 0⟩]⟩,
  ⟨0x60, [], false, [], [⟨F.HIF_INST_CTR_FIRST, .rw, 0⟩]⟩,
  ⟨0x64, [], false, [], [⟨F.HIF_INST_CTR_NUM, .rw, 0⟩]⟩,
  ⟨0x68, [], false, [], [⟨F.HIF_INST_MTR_FIRST, .rw, 0⟩, ⟨F.HIF_INST_MTR_NUM, .rw, 0⟩]⟩,
  ⟨0x6C, [], false, [], [⟨F.HIF_INST_BUF_MIN, .rw, 0⟩]⟩,
  ⟨0x70, [], false, [], [⟨F.HIF_INST_LRN, .rw, 0⟩]⟩,
  ⟨0x74, [], false, [], [⟨F.HIF_INST_PVIS_0, .rw, 0⟩]⟩,
  ⟨0x78, [], false, [], [⟨F.HIF_INST_PVIS_1, .rw, 0⟩]⟩,
  ⟨0x7C, [], false, [], [⟨F.HIF_INST_PVIS_2, .rw, 0⟩]⟩,
  ⟨0x80, [], false, [], [⟨F.HIF_INST_CLS, .rw, 0⟩]⟩,
  ⟨0x100, [(16, 0x4)], false, [], [⟨F.HIF_MBX_REQ, .rw, 0⟩]⟩,
  ⟨0x140, [(16, 0x4)], false, [], [⟨F.HIF_MBX_RSP, .rw, 0⟩]⟩,
  ⟨0x200, [], false, [], c32⟩,
  ⟨0x204, [], false, [], c32⟩,
  ⟨0x208, [], false, [], c32⟩,
  ⟨0x20C, [], false, [], c32⟩,
  ⟨0x210, [], false, [], c32⟩]

/-- Registers of the hbmMain page. -/
def regs_hbmMain : List RegD := [
  ⟨0x40, [], false, [], [⟨F.HBM_CTL_RUN, .rw, 0⟩, ⟨F.HBM_CTL_SR_EN, .rw, 1⟩, ⟨F.HBM_CTL_SCRUB_EN, .rw, 1⟩, ⟨F.HBM_CTL_RT_EN, .rw, 1⟩,
    ⟨F.HBM_CTL_TRAINED, .ro, 0⟩, ⟨F.HBM_CTL_SR_US, .rw, 10⟩]⟩,
  ⟨0x44, [], false, [], [⟨F.HBM_PRIO_SCRUB, .rw, 1⟩, ⟨F.HBM_PRIO_HOST_TRACE, .rw, 3⟩, ⟨F.HBM_PRIO_CTL, .rw, 4⟩, ⟨F.HBM_PRIO_SPILL_WR,
    .rw, 5⟩, ⟨F.HBM_PRIO_SPILL_RD, .rw, 6⟩, ⟨F.HBM_PRIO_DEEP, .rw, 7⟩]⟩,
  ⟨0x48, [], false, [], [⟨F.HBM_RT_RT_MS, .rw, 50⟩]⟩,
  ⟨0x4C, [], false, [], [⟨F.HBM_SCRUB_SCRUB_MIN, .rw, 60⟩]⟩,
  ⟨0x50, [], false, [], [⟨F.HBM_FENCE_CFG_AUTO, .rw, 1⟩, ⟨F.HBM_FENCE_CFG_UE_LIM, .rw, 16⟩]⟩,
  ⟨0x54, [], false, [], [⟨F.HBM_FENCE_FENCED, .ro, 0⟩, ⟨F.HBM_FENCE_CAUSE, .ro, 0⟩, ⟨F.HBM_FENCE_PC, .ro, 0⟩]⟩,
  ⟨0x58, [], false, [], [⟨F.HBM_TRAIN_GO, .w1s, 0⟩, ⟨F.HBM_TRAIN_ABORT, .w1s, 0⟩, ⟨F.HBM_TRAIN_ABORT_ST, .ro, 0⟩, ⟨F.HBM_TRAIN_STATE,
    .ro, 0⟩, ⟨F.HBM_TRAIN_PC, .rw, 0⟩]⟩,
  ⟨0x100, [], true, [4], c32⟩,
  ⟨0x108, [], true, [4], c32⟩,
  ⟨0x110, [], false, [], c32⟩,
  ⟨0x114, [], false, [], c32⟩,
  ⟨0x118, [], false, [], c32⟩,
  ⟨0x11C, [], false, [], c32⟩,
  ⟨0x120, [], false, [], c32⟩]

/-- Registers of the hbmCh page. -/
def regs_hbmCh : List RegD := [
  ⟨0x40, [(2, 0x4)], false, [], [⟨F.HBM_PC_STAT_FENCE, .w1s, 0⟩, ⟨F.HBM_PC_STAT_SR, .ro, 0⟩, ⟨F.HBM_PC_STAT_PAUSE, .ro, 0⟩,
    ⟨F.HBM_PC_STAT_QDEPTH, .ro, 0⟩]⟩,
  ⟨0x100, [(2, 0x8)], false, [], c32⟩,
  ⟨0x104, [(2, 0x8)], false, [], c32⟩]

/-- Registers of the sec page. -/
def regs_sec : List RegD := [
  ⟨0x40, [], false, [], [⟨F.SEC_STAT_BOOT_RES, .ro, 0⟩, ⟨F.SEC_STAT_ID_READY, .ro, 0⟩, ⟨F.SEC_STAT_OWNED, .ro, 0⟩, ⟨F.SEC_STAT_REQ, .ro,
    0⟩, ⟨F.SEC_STAT_DBG_DIS, .ro, 0⟩, ⟨F.SEC_STAT_DBG_LVL, .ro, 0⟩, ⟨F.SEC_STAT_N, .ro, 0⟩]⟩,
  ⟨0x44, [], false, [], [⟨F.SEC_CMD_CTL_GO, .w1s, 0⟩, ⟨F.SEC_CMD_CTL_ABORT, .w1s, 0⟩, ⟨F.SEC_CMD_CTL_ABORT_ST, .ro, 0⟩,
    ⟨F.SEC_CMD_CTL_STATE, .ro, 0⟩, ⟨F.SEC_CMD_CTL_OP, .rw, 0⟩]⟩,
  ⟨0x48, [], false, [], [⟨F.SEC_CMD_STAT_BUSY, .ro, 0⟩, ⟨F.SEC_CMD_STAT_STATUS, .ro, 0⟩]⟩,
  ⟨0x4C, [], false, [4], [⟨F.SEC_CMD_ADDR_LO, .rw, 0⟩]⟩,
  ⟨0x50, [], false, [], [⟨F.SEC_CMD_ADDR_HI, .rw, 0⟩]⟩,
  ⟨0x54, [], false, [4], [⟨F.SEC_CMD_OUT_LO, .rw, 0⟩]⟩,
  ⟨0x58, [], false, [], [⟨F.SEC_CMD_OUT_HI, .rw, 0⟩]⟩,
  ⟨0x5C, [], false, [], [⟨F.SEC_CMD_ARG, .rw, 0⟩]⟩,
  ⟨0x60, [], false, [], [⟨F.SEC_CMD_LEN, .rw, 0⟩]⟩,
  ⟨0x64, [], false, [], [⟨F.SEC_CTL_REQ_SIGNED, .w1s, 0⟩]⟩,
  ⟨0x68, [], false, [], [⟨F.SEC_BOOT_ERR_B, .ro, 0⟩, ⟨F.SEC_BOOT_ERR_A, .ro, 0⟩]⟩,
  ⟨0x70, [], false, [4], [⟨F.SEC_SERIAL_LO, .ro, 0⟩]⟩,
  ⟨0x74, [], false, [], [⟨F.SEC_SERIAL_HI, .ro, 0⟩]⟩,
  ⟨0x80, [(8, 0x4)], false, [], [⟨F.SEC_DBG_NONCE, .ro, 0⟩]⟩,
  ⟨0xA0, [], false, [], [⟨F.SEC_MR_SEL, .rw, 0⟩]⟩,
  ⟨0xC0, [(12, 0x4)], false, [], [⟨F.SEC_MR, .ro, 0⟩]⟩,
  ⟨0x100, [(48, 0x4)], false, [], [⟨F.SEC_KEYH, .ro, 0⟩]⟩,
  ⟨0x200, [], false, [], [⟨F.SEC_VERIFY_FAIL, .rc, 0⟩]⟩,
  ⟨0x204, [], false, [], [⟨F.SEC_DBG_FAIL, .rc, 0⟩]⟩]

/-- Registers of the ras page. -/
def regs_ras : List RegD := [
  ⟨0x40, [], false, [], [⟨F.RAS_CFG_AF_WDOG, .rw, 0⟩, ⟨F.RAS_CFG_AR_HBM, .rw, 0⟩, ⟨F.RAS_CFG_LOG_CE, .rw, 0⟩, ⟨F.RAS_CFG_WDOG_LIM, .rw,
    8⟩]⟩,
  ⟨0x44, [], false, [], [⟨F.RAS_LOG_STAT_FULL, .ro, 0⟩, ⟨F.RAS_LOG_STAT_CNT, .ro, 0⟩]⟩,
  ⟨0x48, [], false, [], [⟨F.RAS_LOG_SEL, .rw, 0⟩]⟩,
  ⟨0x4C, [(4, 0x4)], false, [], [⟨F.RAS_LOG_W, .ro, 0⟩]⟩,
  ⟨0x5C, [], false, [], [⟨F.RAS_LOG_CLR_CLR, .w1s, 0⟩]⟩,
  ⟨0x80, [], false, [], [⟨F.RAS_TEST_CTL_GO, .w1s, 0⟩, ⟨F.RAS_TEST_CTL_ABORT, .w1s, 0⟩, ⟨F.RAS_TEST_CTL_ABORT_ST, .ro, 0⟩,
    ⟨F.RAS_TEST_CTL_STATE, .ro, 0⟩, ⟨F.RAS_TEST_CTL_TEST, .rw, 0⟩, ⟨F.RAS_TEST_CTL_TARGET, .rw, 0⟩]⟩,
  ⟨0x84, [], false, [], [⟨F.RAS_TEST_STAT_BUSY, .ro, 0⟩, ⟨F.RAS_TEST_STAT_STATUS, .ro, 0⟩]⟩,
  ⟨0x88, [], false, [], [⟨F.RAS_TEST_RES, .ro, 0⟩]⟩,
  ⟨0x100, [], false, [], [⟨F.RAS_CE, .rc, 0⟩]⟩,
  ⟨0x104, [], false, [], [⟨F.RAS_REPAIR, .rc, 0⟩]⟩,
  ⟨0x108, [], false, [], [⟨F.RAS_UE, .rc, 0⟩]⟩,
  ⟨0x10C, [], false, [], [⟨F.RAS_LOG_OVF, .rc, 0⟩]⟩,
  ⟨0x110, [], false, [], [⟨F.RAS_TEST_REFUSED, .rc, 0⟩]⟩]

/-- Registers of the dbg page. -/
def regs_dbg : List RegD := [
  ⟨0x40, [], false, [], [⟨F.DBG_CTL_ATTACH, .rw, 0⟩]⟩,
  ⟨0x44, [], false, [], [⟨F.DBG_HALT_HALT, .w1s, 0⟩, ⟨F.DBG_HALT_RESUME, .w1s, 0⟩, ⟨F.DBG_HALT_STEP, .w1s, 0⟩, ⟨F.DBG_HALT_RST, .w1s, 0⟩,
    ⟨F.DBG_HALT_EV14, .w1s, 0⟩, ⟨F.DBG_HALT_SCOPE, .rw, 0⟩, ⟨F.DBG_HALT_ID, .rw, 0⟩]⟩,
  ⟨0x48, [], false, [], [⟨F.DBG_HSTAT_HOLD, .ro, 0⟩, ⟨F.DBG_HSTAT_HALTED, .ro, 0⟩, ⟨F.DBG_HSTAT_STATUS, .ro, 0⟩]⟩,
  ⟨0x4C, [], false, [], [⟨F.DBG_TREG_SEL_SPECIAL, .rw, 0⟩, ⟨F.DBG_TREG_SEL_NUM, .rw, 0⟩]⟩,
  ⟨0x50, [], false, [4], [⟨F.DBG_TREG_LO, .rw, 0⟩]⟩,
  ⟨0x54, [], false, [], [⟨F.DBG_TREG_HI, .rw, 0⟩]⟩,
  ⟨0x58, [], false, [4], [⟨F.DBG_ACC_ADDR_LO, .rw, 0⟩]⟩,
  ⟨0x5C, [], false, [], [⟨F.DBG_ACC_ADDR_HI, .rw, 0⟩]⟩,
  ⟨0x60, [], false, [4], [⟨F.DBG_ACC_DATA_LO, .rw, 0⟩]⟩,
  ⟨0x64, [], false, [], [⟨F.DBG_ACC_DATA_HI, .rw, 0⟩]⟩,
  ⟨0x68, [], false, [], [⟨F.DBG_ACC_CTL_GO, .w1s, 0⟩, ⟨F.DBG_ACC_CTL_WRITE, .rw, 0⟩, ⟨F.DBG_ACC_CTL_SZ, .rw, 0⟩, ⟨F.DBG_ACC_CTL_BUSY,
    .ro, 0⟩, ⟨F.DBG_ACC_CTL_STATUS, .ro, 0⟩]⟩,
  ⟨0x70, [], false, [], [⟨F.DBG_MBX_ADDR, .rw, 0⟩]⟩,
  ⟨0x74, [], false, [], [⟨F.DBG_MBX_DATA, .wo, 0⟩]⟩,
  ⟨0x78, [], false, [], [⟨F.DBG_MBX_CTL_SUBMIT, .w1s, 0⟩, ⟨F.DBG_MBX_CTL_BUSY, .ro, 0⟩, ⟨F.DBG_MBX_CTL_STATUS, .ro, 0⟩]⟩,
  ⟨0x80, [], false, [], [⟨F.DBG_TR_IDX, .rw, 0⟩]⟩,
  ⟨0x84, [], false, [4], [⟨F.DBG_TR_LO, .ro, 0⟩]⟩,
  ⟨0x88, [], false, [], [⟨F.DBG_TR_HI, .ro, 0⟩]⟩,
  ⟨0x100, [(16, 0x10)], false, [], [⟨F.DBG_BP_CTL_EN, .rw, 0⟩, ⟨F.DBG_BP_CTL_KIND, .rw, 0⟩, ⟨F.DBG_BP_CTL_ACT, .rw, 0⟩,
    ⟨F.DBG_BP_CTL_SEG, .rw, 0⟩, ⟨F.DBG_BP_CTL_THR, .rw, 0⟩, ⟨F.DBG_BP_CTL_ENGINE, .rw, 0⟩]⟩,
  ⟨0x104, [(16, 0x10)], false, [], [⟨F.DBG_BP_ADDR, .rw, 0⟩]⟩,
  ⟨0x108, [(16, 0x10)], false, [], [⟨F.DBG_BP_LIM, .rw, 0⟩]⟩,
  ⟨0x10C, [(16, 0x10)], false, [], c32⟩,
  ⟨0x200, [(16, 0x4)], false, [], [⟨F.DBG_DROP, .rc, 0⟩]⟩,
  ⟨0x300, [], false, [], [⟨F.DBG_SEC_STAT, .ro, 0⟩]⟩,
  ⟨0x304, [], false, [4], [⟨F.DBG_SERIAL_LO, .ro, 0⟩]⟩,
  ⟨0x308, [], false, [], [⟨F.DBG_SERIAL_HI, .ro, 0⟩]⟩,
  ⟨0x320, [(8, 0x4)], false, [], [⟨F.DBG_NONCE, .ro, 0⟩]⟩]

/-- Registers of the aon page. -/
def regs_aon : List RegD := [
  ⟨0x40, [], false, [], [⟨F.AON_WAKE_RET, .ro, 4⟩, ⟨F.AON_WAKE_EN, .rw, 0⟩]⟩,
  ⟨0x44, [], false, [], [⟨F.AON_WAKE_STAT_WOKE, .w1c, 0⟩, ⟨F.AON_WAKE_STAT_CAUSE, .w1c, 0⟩]⟩,
  ⟨0x48, [], false, [], [⟨F.AON_WAKE_TMR, .rw, 0⟩]⟩,
  ⟨0x4C, [], false, [], [⟨F.AON_DORMANT_AUTO_S, .rw, 0⟩]⟩,
  ⟨0x50, [], false, [], [⟨F.AON_KA_SVC, .rw, 0⟩]⟩,
  ⟨0x54, [], false, [4], [⟨F.AON_WAKE_DA_LO, .rw, 0⟩]⟩,
  ⟨0x58, [], false, [], [⟨F.AON_WAKE_DA_HI_ETYPE, .rw, 0⟩, ⟨F.AON_WAKE_DA_HI_DA, .rw, 0⟩]⟩,
  ⟨0x5C, [], false, [], [⟨F.AON_HOLD_MODE, .rw, 0⟩, ⟨F.AON_HOLD_MAX_AGE, .rw, 50⟩, ⟨F.AON_HOLD_WM_KB, .rw, 768⟩]⟩,
  ⟨0x60, [], false, [], [⟨F.AON_HOLD_STAT, .ro, 0⟩]⟩,
  ⟨0x100, [], false, [], c32⟩,
  ⟨0x104, [], false, [], c32⟩,
  ⟨0x108, [], false, [], c32⟩,
  ⟨0x10C, [], false, [], c32⟩,
  ⟨0x110, [], false, [], c32⟩,
  ⟨0x200, [(32, 0x4)], false, [], [⟨F.AON_GPIO_CFG_WAKE, .rw, 0⟩, ⟨F.AON_GPIO_CFG_MODE, .rw, 0⟩, ⟨F.AON_GPIO_CFG_FILTER_NS, .rw, 0⟩]⟩,
  ⟨0x300, [], false, [], [⟨F.AON_GPIO_LATCH, .w1c, 0⟩]⟩,
  ⟨0x304, [], false, [], [⟨F.AON_GPIO_IN, .ro, 0⟩]⟩]

/-- The registers a kind of page holds beyond the common header. -/
def PageKind.regs : PageKind → List RegD
  | .dev => regs_dev
  | .time => regs_time
  | .irqMain => regs_irqMain
  | .irqSrc => regs_irqSrc
  | .tsk => regs_tsk
  | .lckMain => regs_lckMain
  | .lckPage => regs_lckPage
  | .port => regs_port
  | .sds => regs_sds
  | .parse => regs_parse
  | .eng => regs_eng
  | .clu => regs_clu
  | .em => regs_em
  | .emDesc => regs_emDesc
  | .tc => regs_tc
  | .view => regs_view
  | .lrnDev => regs_lrnDev
  | .lrnHalf => regs_lrnHalf
  | .lrnAge => regs_lrnAge
  | .lrnLim => regs_lrnLim
  | .sintMain => regs_sintMain
  | .sintAcc => regs_sintAcc
  | .xbar => regs_xbar
  | .tmMain => regs_tmMain
  | .tmPort => regs_tmPort
  | .mtr => regs_mtr
  | .hifMain => regs_hifMain
  | .inst => regs_inst
  | .hbmMain => regs_hbmMain
  | .hbmCh => regs_hbmCh
  | .sec => regs_sec
  | .ras => regs_ras
  | .dbg => regs_dbg
  | .aon => regs_aon
  | .db => []

namespace R

/-- DEV_MODE (R512). -/
def DEV_MODE : Nat := 0x40
/-- DEV_MODE_REQ (R512). -/
def DEV_MODE_REQ : Nat := 0x44
/-- DEV_MAINT_PORTS_LO (R512). -/
def DEV_MAINT_PORTS_LO : Nat := 0x48
/-- DEV_MAINT_PORTS_HI (R512). -/
def DEV_MAINT_PORTS_HI : Nat := 0x4C
/-- DEV_MAINT (R512). -/
def DEV_MAINT : Nat := 0x50
/-- DEV_FENCE (R512). -/
def DEV_FENCE : Nat := 0x54
/-- DEV_PWR (R512). -/
def DEV_PWR : Nat := 0x58
/-- DEV_PWR_STAT (R512). -/
def DEV_PWR_STAT : Nat := 0x5C
/-- DEV_CORE_RST (R512). -/
def DEV_CORE_RST : Nat := 0x60
/-- DEV_CORE_ENTRY_LO (R512). -/
def DEV_CORE_ENTRY_LO : Nat := 0x64
/-- DEV_CORE_ENTRY_HI (R512). -/
def DEV_CORE_ENTRY_HI : Nat := 0x68
/-- DEV_CORE_STAT (R512). -/
def DEV_CORE_STAT (i : Nat) : Nat := 0x70 + i * 0x4
/-- DEV_SLEEP (R512). -/
def DEV_SLEEP : Nat := 0x80
/-- DEV_WAKE (R512). -/
def DEV_WAKE : Nat := 0x84
/-- DEV_SLEEP_DROP (R512). -/
def DEV_SLEEP_DROP : Nat := 0x100
/-- DEV_MAINT_DROP (R512). -/
def DEV_MAINT_DROP : Nat := 0x104
/-- DEV_MODE_CHG (R512). -/
def DEV_MODE_CHG : Nat := 0x108
/-- DEV_FENCE_DROP (R512). -/
def DEV_FENCE_DROP : Nat := 0x10C
/-- AON_WAKE (R512). -/
def AON_WAKE : Nat := 0xF80040
/-- AON_WAKE_STAT (R512). -/
def AON_WAKE_STAT : Nat := 0xF80044
/-- AON_WAKE_TMR (R512). -/
def AON_WAKE_TMR : Nat := 0xF80048
/-- AON_DORMANT (R512). -/
def AON_DORMANT : Nat := 0xF8004C
/-- AON_KA_SVC (R512). -/
def AON_KA_SVC : Nat := 0xF80050
/-- AON_WAKE_DA_LO (R512). -/
def AON_WAKE_DA_LO : Nat := 0xF80054
/-- AON_WAKE_DA_HI (R512). -/
def AON_WAKE_DA_HI : Nat := 0xF80058
/-- AON_HOLD (R512). -/
def AON_HOLD : Nat := 0xF8005C
/-- AON_HOLD_STAT (R512). -/
def AON_HOLD_STAT : Nat := 0xF80060
/-- AON_HOLD_DROP (R512). -/
def AON_HOLD_DROP : Nat := 0xF80100
/-- AON_HOLD_REPLAY (R512). -/
def AON_HOLD_REPLAY : Nat := 0xF80104
/-- AON_HOLD_STALE (R512). -/
def AON_HOLD_STALE : Nat := 0xF80108
/-- AON_SVC_RX (R512). -/
def AON_SVC_RX : Nat := 0xF8010C
/-- AON_WAKE_CNT (R512). -/
def AON_WAKE_CNT : Nat := 0xF80110
/-- AON_GPIO_CFG (R512). -/
def AON_GPIO_CFG (i : Nat) : Nat := 0xF80200 + i * 0x4
/-- AON_GPIO_LATCH (R512). -/
def AON_GPIO_LATCH : Nat := 0xF80300
/-- AON_GPIO_IN (R512). -/
def AON_GPIO_IN : Nat := 0xF80304
/-- TIME_CTL (R88). -/
def TIME_CTL : Nat := 0x10040
/-- TIME_STAT (R88). -/
def TIME_STAT : Nat := 0x10044
/-- TIME_NOW_FRAC (R88). -/
def TIME_NOW_FRAC : Nat := 0x10048
/-- TIME_NOW_NS (R88). -/
def TIME_NOW_NS : Nat := 0x1004C
/-- TIME_NOW_SEC_LO (R88). -/
def TIME_NOW_SEC_LO : Nat := 0x10050
/-- TIME_NOW_SEC_HI (R88). -/
def TIME_NOW_SEC_HI : Nat := 0x10054
/-- TIME_FREQ (R88). -/
def TIME_FREQ : Nat := 0x10058
/-- TIME_ADJ_NS (R88). -/
def TIME_ADJ_NS : Nat := 0x1005C
/-- TIME_ADJ_REM (R88). -/
def TIME_ADJ_REM : Nat := 0x10060
/-- TIME_SLEW (R88). -/
def TIME_SLEW : Nat := 0x10064
/-- TIME_SET_NS (R88). -/
def TIME_SET_NS : Nat := 0x10068
/-- TIME_SET_SEC_LO (R88). -/
def TIME_SET_SEC_LO : Nat := 0x1006C
/-- TIME_SET_SEC_HI (R88). -/
def TIME_SET_SEC_HI : Nat := 0x10070
/-- TIME_STEP (R88). -/
def TIME_STEP : Nat := 0x10074
/-- TIME_SERVO (R88). -/
def TIME_SERVO : Nat := 0x10078
/-- TIME_PPS_ERR (R88). -/
def TIME_PPS_ERR : Nat := 0x1007C
/-- TIME_LAG (R88). -/
def TIME_LAG : Nat := 0x10080
/-- TIME_IO (R88). -/
def TIME_IO : Nat := 0x10084
/-- TIME_UTC (R88). -/
def TIME_UTC : Nat := 0x10088
/-- TIME_TRIG_NS (R88). -/
def TIME_TRIG_NS (i : Nat) : Nat := 0x10100 + i * 0x10
/-- TIME_TRIG_SEC_LO (R88). -/
def TIME_TRIG_SEC_LO (i : Nat) : Nat := 0x10104 + i * 0x10
/-- TIME_TRIG_SEC_HI (R88). -/
def TIME_TRIG_SEC_HI (i : Nat) : Nat := 0x10108 + i * 0x10
/-- TIME_TRIG_CTL (R88). -/
def TIME_TRIG_CTL (i : Nat) : Nat := 0x1010C + i * 0x10
/-- PPS_REJECT (R88). -/
def PPS_REJECT : Nat := 0x10180
/-- TOD_ERR (R88). -/
def TOD_ERR : Nat := 0x10184
/-- TOD_MISMATCH (R88). -/
def TOD_MISMATCH : Nat := 0x10188
/-- STEP_CNT (R88). -/
def STEP_CNT : Nat := 0x1018C
/-- DIST_ERR (R88). -/
def DIST_ERR : Nat := 0x10190
/-- IRQ_CTL (R439). -/
def IRQ_CTL : Nat := 0x20040
/-- IRQ_CLAIM (R439). -/
def IRQ_CLAIM (i : Nat) : Nat := 0x20080 + i * 0x10
/-- IRQ_EOI (R439). -/
def IRQ_EOI (i : Nat) : Nat := 0x20084 + i * 0x10
/-- IRQ_TCFG (R439). -/
def IRQ_TCFG (i : Nat) : Nat := 0x20088 + i * 0x10
/-- IRQ_TSTAT (R439). -/
def IRQ_TSTAT (i : Nat) : Nat := 0x2008C + i * 0x10
/-- IRQ_HEOI (R439). -/
def IRQ_HEOI : Nat := 0x200E0
/-- IRQ_SOFT (R439). -/
def IRQ_SOFT : Nat := 0x200E4
/-- IRQ_SOFT_STAT_LO (R439). -/
def IRQ_SOFT_STAT_LO : Nat := 0x200E8
/-- IRQ_SOFT_STAT_HI (R439). -/
def IRQ_SOFT_STAT_HI : Nat := 0x200EC
/-- IRQ_WAKE (R439). -/
def IRQ_WAKE (i : Nat) : Nat := 0x20100 + i * 0x4
/-- IRQ_WAKE_STAT (R439). -/
def IRQ_WAKE_STAT : Nat := 0x20180
/-- IRQ_NULL (R439). -/
def IRQ_NULL (i : Nat) : Nat := 0x20200 + i * 0x4
/-- IRQ_MSI_SENT (R439). -/
def IRQ_MSI_SENT : Nat := 0x20220
/-- IRQ_MSI_MASKED (R439). -/
def IRQ_MSI_MASKED : Nat := 0x20228
/-- IRQ_SRC, index over all its pages (R439). -/
def IRQ_SRC (j : Nat) : Nat := 0x21400 + (j / 256) * 0x1000 + (j % 256) * 4
/-- IRQ_ASSERT, index over all its pages (R439). -/
def IRQ_ASSERT (j : Nat) : Nat := 0x21800 + (j / 8) * 0x1000 + (j % 8) * 4
/-- IRQ_INSV, index over all its pages (R439). -/
def IRQ_INSV (j : Nat) : Nat := 0x21840 + (j / 8) * 0x1000 + (j % 8) * 4
/-- TSK_CTL (R422). -/
def TSK_CTL : Nat := 0x30040
/-- TSK_SEL (R422). -/
def TSK_SEL : Nat := 0x30044
/-- TSK_TCE_CFG (R422). -/
def TSK_TCE_CFG : Nat := 0x30048
/-- TSK_TCE_TCB_LO (R422). -/
def TSK_TCE_TCB_LO : Nat := 0x3004C
/-- TSK_TCE_TCB_HI (R422). -/
def TSK_TCE_TCB_HI : Nat := 0x30050
/-- TSK_TCE_STAT (R422). -/
def TSK_TCE_STAT : Nat := 0x30054
/-- TSK_TCE_ENTRY_LO (R422). -/
def TSK_TCE_ENTRY_LO : Nat := 0x30058
/-- TSK_TCE_ENTRY_HI (R422). -/
def TSK_TCE_ENTRY_HI : Nat := 0x3005C
/-- TSK_CMD (R422). -/
def TSK_CMD : Nat := 0x30060
/-- TSK_CMD_STAT (R422). -/
def TSK_CMD_STAT : Nat := 0x30064
/-- TSK_TR_CTL (R422). -/
def TSK_TR_CTL : Nat := 0x30080
/-- TSK_TR_BASE_LO (R422). -/
def TSK_TR_BASE_LO : Nat := 0x30084
/-- TSK_TR_BASE_HI (R422). -/
def TSK_TR_BASE_HI : Nat := 0x30088
/-- TSK_TR_SIZE (R422). -/
def TSK_TR_SIZE : Nat := 0x3008C
/-- TSK_TR_WP (R422). -/
def TSK_TR_WP : Nat := 0x30090
/-- TSK_GRP_CFG (R422). -/
def TSK_GRP_CFG (i : Nat) : Nat := 0x30100 + i * 0x8
/-- TSK_GRP_TICK (R422). -/
def TSK_GRP_TICK (i : Nat) : Nat := 0x30104 + i * 0x8
/-- TSK_CTX_CMD (R422). -/
def TSK_CTX_CMD (i : Nat) : Nat := 0x30200 + i * 0x10
/-- TSK_CTX_OPH (R422). -/
def TSK_CTX_OPH (i : Nat) : Nat := 0x30204 + i * 0x10
/-- TSK_CTX_STAT (R422). -/
def TSK_CTX_STAT (i : Nat) : Nat := 0x30208 + i * 0x10
/-- TSK_CTX_CFG (R422). -/
def TSK_CTX_CFG (i : Nat) : Nat := 0x3020C + i * 0x10
/-- TSK_DISPATCH (R422). -/
def TSK_DISPATCH : Nat := 0x30300
/-- TSK_PREEMPT (R422). -/
def TSK_PREEMPT : Nat := 0x30308
/-- TSK_ABORT (R422). -/
def TSK_ABORT : Nat := 0x30310
/-- TSK_REL_PEND (R422). -/
def TSK_REL_PEND : Nat := 0x30314
/-- TSK_TR_LOST (R422). -/
def TSK_TR_LOST : Nat := 0x30318
/-- LCK_CFG (R422). -/
def LCK_CFG : Nat := 0x40040
/-- LCK_ACQ_CNT (R422). -/
def LCK_ACQ_CNT : Nat := 0x40100
/-- LCK_BUSY_CNT (R422). -/
def LCK_BUSY_CNT : Nat := 0x40108
/-- LCK_ABAND (R422). -/
def LCK_ABAND : Nat := 0x40110
/-- LCK_CHAIN_CUT (R422). -/
def LCK_CHAIN_CUT : Nat := 0x40114
/-- LCK_ACQ, index over all its pages (R422). -/
def LCK_ACQ (j : Nat) : Nat := 0x41400 + (j / 256) * 0x1000 + (j % 256) * 4
/-- LCK_REL, index over all its pages (R422). -/
def LCK_REL (j : Nat) : Nat := 0x41800 + (j / 256) * 0x1000 + (j % 256) * 4
/-- LCK_STAT, index over all its pages (R422). -/
def LCK_STAT (j : Nat) : Nat := 0x41C00 + (j / 256) * 0x1000 + (j % 256) * 4
/-- PORT_MODE (R61). -/
def PORT_MODE (p : Nat) : Nat := 0x80040 + p * 0x1000
/-- PORT_CTL (R61). -/
def PORT_CTL (p : Nat) : Nat := 0x80044 + p * 0x1000
/-- PORT_LINK (R61). -/
def PORT_LINK (p : Nat) : Nat := 0x80048 + p * 0x1000
/-- PORT_DEB (R61). -/
def PORT_DEB (p : Nat) : Nat := 0x8004C + p * 0x1000
/-- PORT_FC (R61). -/
def PORT_FC (p : Nat) : Nat := 0x80050 + p * 0x1000
/-- PORT_TS_ADJ (R61). -/
def PORT_TS_ADJ (p : Nat) : Nat := 0x80054 + p * 0x1000
/-- PORT_TS_STAT (R61). -/
def PORT_TS_STAT (p : Nat) : Nat := 0x80058 + p * 0x1000
/-- PORT_TS_TAG (R61). -/
def PORT_TS_TAG (p : Nat) : Nat := 0x8005C + p * 0x1000
/-- PORT_TS_NS (R61). -/
def PORT_TS_NS (p : Nat) : Nat := 0x80060 + p * 0x1000
/-- PORT_TS_SEC_LO (R61). -/
def PORT_TS_SEC_LO (p : Nat) : Nat := 0x80064 + p * 0x1000
/-- PORT_TS_SEC_HI (R61). -/
def PORT_TS_SEC_HI (p : Nat) : Nat := 0x80068 + p * 0x1000
/-- PORT_KA (R61). -/
def PORT_KA (p : Nat) : Nat := 0x8006C + p * 0x1000
/-- RX_FRM (R61). -/
def RX_FRM (p : Nat) : Nat := 0x80100 + p * 0x1000
/-- RX_BYTE (R61). -/
def RX_BYTE (p : Nat) : Nat := 0x80108 + p * 0x1000
/-- TX_FRM (R61). -/
def TX_FRM (p : Nat) : Nat := 0x80110 + p * 0x1000
/-- TX_BYTE (R61). -/
def TX_BYTE (p : Nat) : Nat := 0x80118 + p * 0x1000
/-- RX_FCS (R61). -/
def RX_FCS (p : Nat) : Nat := 0x80120 + p * 0x1000
/-- RX_OVERSIZE (R61). -/
def RX_OVERSIZE (p : Nat) : Nat := 0x80124 + p * 0x1000
/-- RX_RUNT (R61). -/
def RX_RUNT (p : Nat) : Nat := 0x80128 + p * 0x1000
/-- RX_CTRL (R61). -/
def RX_CTRL (p : Nat) : Nat := 0x8012C + p * 0x1000
/-- TX_CUT (R61). -/
def TX_CUT (p : Nat) : Nat := 0x80130 + p * 0x1000
/-- FEC_CORR (R61). -/
def FEC_CORR (p : Nat) : Nat := 0x80134 + p * 0x1000
/-- FEC_UNCORR (R61). -/
def FEC_UNCORR (p : Nat) : Nat := 0x80138 + p * 0x1000
/-- LT_RESTART (R61). -/
def LT_RESTART (p : Nat) : Nat := 0x8013C + p * 0x1000
/-- TS_OVF (R61). -/
def TS_OVF (p : Nat) : Nat := 0x80140 + p * 0x1000
/-- LINK_DOWN (R61). -/
def LINK_DOWN (p : Nat) : Nat := 0x80144 + p * 0x1000
/-- TX_FCS_DROP (R61). -/
def TX_FCS_DROP (p : Nat) : Nat := 0x80148 + p * 0x1000
/-- TX_STOMP (R61). -/
def TX_STOMP (p : Nat) : Nat := 0x8014C + p * 0x1000
/-- SDS_LANE_MAP_TX (R61). -/
def SDS_LANE_MAP_TX (p : Nat) : Nat := 0xC0040 + p * 0x1000
/-- SDS_LANE_MAP_RX (R61). -/
def SDS_LANE_MAP_RX (p : Nat) : Nat := 0xC0044 + p * 0x1000
/-- SDS_LANE_POL (R61). -/
def SDS_LANE_POL (p : Nat) : Nat := 0xC0048 + p * 0x1000
/-- PARSE_CFG (R109). -/
def PARSE_CFG (p : Nat) : Nat := 0x100040 + p * 0x1000
/-- PARSE_NUM_A (R109). -/
def PARSE_NUM_A (p : Nat) : Nat := 0x100044 + p * 0x1000
/-- PARSE_NUM_B (R109). -/
def PARSE_NUM_B (p : Nat) : Nat := 0x100048 + p * 0x1000
/-- PARSE_PORT_INST (R109). -/
def PARSE_PORT_INST (p : Nat) : Nat := 0x10004C + p * 0x1000
/-- PARSE_STAT (R109). -/
def PARSE_STAT (p : Nat) : Nat := 0x100050 + p * 0x1000
/-- PARSE_PORT_CFG (R109). -/
def PARSE_PORT_CFG (p i : Nat) : Nat := 0x100054 + p * 0x1000 + i * 0x4
/-- PARSE_PCP_MAP (R109). -/
def PARSE_PCP_MAP (p : Nat) : Nat := 0x100068 + p * 0x1000
/-- PARSE_DSCP_MAP (R109). -/
def PARSE_DSCP_MAP (p i : Nat) : Nat := 0x10006C + p * 0x1000 + i * 0x4
/-- PSEL_CTL (R109). -/
def PSEL_CTL (p i : Nat) : Nat := 0x100100 + p * 0x1000 + i * 0x10
/-- PSEL_MASK (R109). -/
def PSEL_MASK (p i : Nat) : Nat := 0x100104 + p * 0x1000 + i * 0x10
/-- PSEL_VAL (R109). -/
def PSEL_VAL (p i : Nat) : Nat := 0x100108 + p * 0x1000 + i * 0x10
/-- PKEY_CTL (R109). -/
def PKEY_CTL (p i j : Nat) : Nat := 0x100400 + p * 0x1000 + i * 0x80 + j * 0x20
/-- PKEY_EXT (R109). -/
def PKEY_EXT (p i j k : Nat) : Nat := 0x100404 + p * 0x1000 + i * 0x80 + j * 0x20 + k * 0x4
/-- PARSE_FRM (R109). -/
def PARSE_FRM (p : Nat) : Nat := 0x100C00 + p * 0x1000
/-- PARSE_STOP (R109). -/
def PARSE_STOP (p i : Nat) : Nat := 0x100C08 + p * 0x1000 + i * 0x4
/-- PARSE_KEYINV (R109). -/
def PARSE_KEYINV (p : Nat) : Nat := 0x100C24 + p * 0x1000
/-- PARSE_LKP_REFUSE (R109). -/
def PARSE_LKP_REFUSE (p : Nat) : Nat := 0x100C28 + p * 0x1000
/-- PARSE_RW_DROP (R109). -/
def PARSE_RW_DROP (p : Nat) : Nat := 0x100C2C + p * 0x1000
/-- PARSE_RCY_LIM (R109). -/
def PARSE_RCY_LIM (p : Nat) : Nat := 0x100C30 + p * 0x1000
/-- PARSE_FCS_DROP (R109). -/
def PARSE_FCS_DROP (p : Nat) : Nat := 0x100C34 + p * 0x1000
/-- PARSE_DROP_NOFWD (R109). -/
def PARSE_DROP_NOFWD (p : Nat) : Nat := 0x100C38 + p * 0x1000
/-- PARSE_DROP_PRG (R109). -/
def PARSE_DROP_PRG (p i : Nat) : Nat := 0x100D00 + p * 0x1000 + i * 0x4
/-- ENG_CTL (R141). -/
def ENG_CTL (p : Nat) : Nat := 0x200040 + p * 0x1000
/-- ENG_THR_CFG (R141). -/
def ENG_THR_CFG (p : Nat) : Nat := 0x200044 + p * 0x1000
/-- ENG_ENTRY (R141). -/
def ENG_ENTRY (p : Nat) : Nat := 0x200048 + p * 0x1000
/-- ENG_WDOG (R141). -/
def ENG_WDOG (p : Nat) : Nat := 0x20004C + p * 0x1000
/-- ENG_THR_RST (R141). -/
def ENG_THR_RST (p : Nat) : Nat := 0x200050 + p * 0x1000
/-- ENG_STAT (R141). -/
def ENG_STAT (p : Nat) : Nat := 0x200054 + p * 0x1000
/-- ENG_DL (R141). -/
def ENG_DL (p : Nat) : Nat := 0x200058 + p * 0x1000
/-- ENG_HKEY_SEL (R207). -/
def ENG_HKEY_SEL (p : Nat) : Nat := 0x200060 + p * 0x1000
/-- ENG_HKEY_LO (R207). -/
def ENG_HKEY_LO (p : Nat) : Nat := 0x200064 + p * 0x1000
/-- ENG_HKEY_HI (R207). -/
def ENG_HKEY_HI (p : Nat) : Nat := 0x200068 + p * 0x1000
/-- EV_MASK (R141). -/
def EV_MASK (p i : Nat) : Nat := 0x200080 + p * 0x1000 + i * 0x10
/-- EV_PEND (R141). -/
def EV_PEND (p i : Nat) : Nat := 0x200084 + p * 0x1000 + i * 0x10
/-- ENG_TMR (R141). -/
def ENG_TMR (p i : Nat) : Nat := 0x200088 + p * 0x1000 + i * 0x10
/-- ENG_THR_STAT (R141). -/
def ENG_THR_STAT (p i : Nat) : Nat := 0x20008C + p * 0x1000 + i * 0x10
/-- ENG_PKT (R141). -/
def ENG_PKT (p : Nat) : Nat := 0x200100 + p * 0x1000
/-- ENG_ISSUE (R141). -/
def ENG_ISSUE (p : Nat) : Nat := 0x200108 + p * 0x1000
/-- ENG_IDLE (R141). -/
def ENG_IDLE (p : Nat) : Nat := 0x200110 + p * 0x1000
/-- ENG_SENDWAIT (R141). -/
def ENG_SENDWAIT (p : Nat) : Nat := 0x200118 + p * 0x1000
/-- WDOG_EXP (R141). -/
def WDOG_EXP (p : Nat) : Nat := 0x200120 + p * 0x1000
/-- WDOG_DROP (R141). -/
def WDOG_DROP (p : Nat) : Nat := 0x200124 + p * 0x1000
/-- RST_DROP (R141). -/
def RST_DROP (p : Nat) : Nat := 0x200128 + p * 0x1000
/-- DL_CNT (R141). -/
def DL_CNT (p : Nat) : Nat := 0x20012C + p * 0x1000
/-- FU_STALL (R207). -/
def FU_STALL (p : Nat) : Nat := 0x200130 + p * 0x1000
/-- FU_REFUSE (R207). -/
def FU_REFUSE (p : Nat) : Nat := 0x200138 + p * 0x1000
/-- FU_KILL (R207). -/
def FU_KILL (p : Nat) : Nat := 0x20013C + p * 0x1000
/-- CLU_IRAM_ADDR (R141). -/
def CLU_IRAM_ADDR (p : Nat) : Nat := 0x300040 + p * 0x1000
/-- CLU_IRAM_DATA (R141). -/
def CLU_IRAM_DATA (p : Nat) : Nat := 0x300044 + p * 0x1000
/-- CLU_SHR_ADDR (R141). -/
def CLU_SHR_ADDR (p : Nat) : Nat := 0x300048 + p * 0x1000
/-- CLU_SHR_DATA (R141). -/
def CLU_SHR_DATA (p : Nat) : Nat := 0x30004C + p * 0x1000
/-- CLU_IRAM_FIX_ADDR (R142). -/
def CLU_IRAM_FIX_ADDR (p : Nat) : Nat := 0x300050 + p * 0x1000
/-- CLU_IRAM_FIX_DATA (R142). -/
def CLU_IRAM_FIX_DATA (p : Nat) : Nat := 0x300054 + p * 0x1000
/-- CLU_SEG_LO (R186). -/
def CLU_SEG_LO (p i : Nat) : Nat := 0x300080 + p * 0x1000 + i * 0x8
/-- CLU_SEG_HI (R186). -/
def CLU_SEG_HI (p i : Nat) : Nat := 0x300084 + p * 0x1000 + i * 0x8
/-- CLU_SEG_CTL (R186). -/
def CLU_SEG_CTL (p : Nat) : Nat := 0x3000C0 + p * 0x1000
/-- CLU_TVEC (R186). -/
def CLU_TVEC (p : Nat) : Nat := 0x3000C4 + p * 0x1000
/-- EM_SEED (R237). -/
def EM_SEED (p : Nat) : Nat := 0x400040 + p * 0x100000
/-- EM_CMD_CTL (R237). -/
def EM_CMD_CTL (p : Nat) : Nat := 0x400044 + p * 0x100000
/-- EM_CMD_STAT (R237). -/
def EM_CMD_STAT (p : Nat) : Nat := 0x400048 + p * 0x100000
/-- EM_CMD_LOC (R237). -/
def EM_CMD_LOC (p : Nat) : Nat := 0x40004C + p * 0x100000
/-- EM_CMD_HDR_LO (R237). -/
def EM_CMD_HDR_LO (p : Nat) : Nat := 0x400050 + p * 0x100000
/-- EM_CMD_HDR_HI (R237). -/
def EM_CMD_HDR_HI (p : Nat) : Nat := 0x400054 + p * 0x100000
/-- EM_CMD_DATA_LO (R237). -/
def EM_CMD_DATA_LO (p : Nat) : Nat := 0x400058 + p * 0x100000
/-- EM_CMD_DATA_HI (R237). -/
def EM_CMD_DATA_HI (p : Nat) : Nat := 0x40005C + p * 0x100000
/-- EM_CMD_CTR_PKT_LO (R237). -/
def EM_CMD_CTR_PKT_LO (p : Nat) : Nat := 0x400060 + p * 0x100000
/-- EM_CMD_CTR_PKT_HI (R237). -/
def EM_CMD_CTR_PKT_HI (p : Nat) : Nat := 0x400064 + p * 0x100000
/-- EM_CMD_CTR_BYTE_LO (R237). -/
def EM_CMD_CTR_BYTE_LO (p : Nat) : Nat := 0x400068 + p * 0x100000
/-- EM_CMD_CTR_BYTE_HI (R237). -/
def EM_CMD_CTR_BYTE_HI (p : Nat) : Nat := 0x40006C + p * 0x100000
/-- EM_CMD_KEY (R237). -/
def EM_CMD_KEY (p i : Nat) : Nat := 0x400080 + p * 0x100000 + i * 0x4
/-- EM_BULK_ADDR_LO (R237). -/
def EM_BULK_ADDR_LO (p : Nat) : Nat := 0x400100 + p * 0x100000
/-- EM_BULK_ADDR_HI (R237). -/
def EM_BULK_ADDR_HI (p : Nat) : Nat := 0x400104 + p * 0x100000
/-- EM_BULK_CNT (R237). -/
def EM_BULK_CNT (p : Nat) : Nat := 0x400108 + p * 0x100000
/-- EM_BULK_CTL (R237). -/
def EM_BULK_CTL (p : Nat) : Nat := 0x40010C + p * 0x100000
/-- EM_BULK_FAIL (R237). -/
def EM_BULK_FAIL (p : Nat) : Nat := 0x400110 + p * 0x100000
/-- EM_ODIE_USED (R237). -/
def EM_ODIE_USED (p : Nat) : Nat := 0x400140 + p * 0x100000
/-- EM_OVF_USED (R237). -/
def EM_OVF_USED (p : Nat) : Nat := 0x400144 + p * 0x100000
/-- EM_DEEP_USED (R237). -/
def EM_DEEP_USED (p : Nat) : Nat := 0x400148 + p * 0x100000
/-- EM_LKP (R237). -/
def EM_LKP (p : Nat) : Nat := 0x400180 + p * 0x100000
/-- EM_HIT (R237). -/
def EM_HIT (p : Nat) : Nat := 0x400188 + p * 0x100000
/-- EM_DEEP_CMISS (R237). -/
def EM_DEEP_CMISS (p : Nat) : Nat := 0x400190 + p * 0x100000
/-- EM_BANK_WAIT (R237). -/
def EM_BANK_WAIT (p : Nat) : Nat := 0x400198 + p * 0x100000
/-- EM_RETRY (R237). -/
def EM_RETRY (p : Nat) : Nat := 0x4001A0 + p * 0x100000
/-- EM_ERR (R237). -/
def EM_ERR (p : Nat) : Nat := 0x4001A4 + p * 0x100000
/-- EM_CORR (R237). -/
def EM_CORR (p : Nat) : Nat := 0x4001A8 + p * 0x100000
/-- EM_SLOT_BUSY (R237). -/
def EM_SLOT_BUSY (p : Nat) : Nat := 0x4001AC + p * 0x100000
/-- EM_BADTBL (R237). -/
def EM_BADTBL (p : Nat) : Nat := 0x4001B0 + p * 0x100000
/-- EM_TBL_CFG of table n, half h (R237). -/
def EM_TBL_CFG (h n : Nat) : Nat := 0x401040 + h * 0x100000 + (n / 128) * 0x1000 + (n % 128) * 0x10
/-- EM_TBL_CNT of table n, half h (R237). -/
def EM_TBL_CNT (h n : Nat) : Nat := 0x401044 + h * 0x100000 + (n / 128) * 0x1000 + (n % 128) * 0x10
/-- TC_CMD_CTL (R269). -/
def TC_CMD_CTL (p : Nat) : Nat := 0x403040 + p * 0x100000
/-- TC_CMD_STAT (R269). -/
def TC_CMD_STAT (p : Nat) : Nat := 0x403044 + p * 0x100000
/-- TC_CMD_LOC (R269). -/
def TC_CMD_LOC (p : Nat) : Nat := 0x403048 + p * 0x100000
/-- TC_CMD_HDR_LO (R269). -/
def TC_CMD_HDR_LO (p : Nat) : Nat := 0x40304C + p * 0x100000
/-- TC_CMD_HDR_HI (R269). -/
def TC_CMD_HDR_HI (p : Nat) : Nat := 0x403050 + p * 0x100000
/-- TC_CMD_DATA_LO (R269). -/
def TC_CMD_DATA_LO (p : Nat) : Nat := 0x403054 + p * 0x100000
/-- TC_CMD_DATA_HI (R269). -/
def TC_CMD_DATA_HI (p : Nat) : Nat := 0x403058 + p * 0x100000
/-- TC_CMD_VAL (R269). -/
def TC_CMD_VAL (p i : Nat) : Nat := 0x403060 + p * 0x100000 + i * 0x4
/-- TC_CMD_MASK (R269). -/
def TC_CMD_MASK (p i : Nat) : Nat := 0x403080 + p * 0x100000 + i * 0x4
/-- TC_MR (R269). -/
def TC_MR (p : Nat) : Nat := 0x4030A0 + p * 0x100000
/-- TC_TBL (R269). -/
def TC_TBL (p i : Nat) : Nat := 0x403100 + p * 0x100000 + i * 0x4
/-- TC_USED (R269). -/
def TC_USED (p : Nat) : Nat := 0x403200 + p * 0x100000
/-- TC_LKP (R269). -/
def TC_LKP (p : Nat) : Nat := 0x403240 + p * 0x100000
/-- TC_HIT (R269). -/
def TC_HIT (p : Nat) : Nat := 0x403248 + p * 0x100000
/-- TC_MOVES (R269). -/
def TC_MOVES (p : Nat) : Nat := 0x403250 + p * 0x100000
/-- TC_RETRY (R269). -/
def TC_RETRY (p : Nat) : Nat := 0x403258 + p * 0x100000
/-- TC_ERR (R269). -/
def TC_ERR (p : Nat) : Nat := 0x40325C + p * 0x100000
/-- TC_PAR (R269). -/
def TC_PAR (p : Nat) : Nat := 0x403260 + p * 0x100000
/-- TC_BADTBL (R269). -/
def TC_BADTBL (p : Nat) : Nat := 0x403264 + p * 0x100000
/-- VIEW_CTL (R269). -/
def VIEW_CTL (p : Nat) : Nat := 0x404040 + p * 0x100000
/-- VIEW_STAT (R269). -/
def VIEW_STAT (p : Nat) : Nat := 0x404044 + p * 0x100000
/-- VIEW_CNT (R269). -/
def VIEW_CNT (p : Nat) : Nat := 0x404048 + p * 0x100000
/-- VIEW_INFL_0 (R269). -/
def VIEW_INFL_0 (p : Nat) : Nat := 0x40404C + p * 0x100000
/-- VIEW_INFL_1 (R269). -/
def VIEW_INFL_1 (p : Nat) : Nat := 0x404050 + p * 0x100000
/-- VIEW_FLIP_NS (R269). -/
def VIEW_FLIP_NS (p : Nat) : Nat := 0x404054 + p * 0x100000
/-- VIEW_FLIP_SEC_LO (R269). -/
def VIEW_FLIP_SEC_LO (p : Nat) : Nat := 0x404058 + p * 0x100000
/-- VIEW_FLIP_SEC_HI (R269). -/
def VIEW_FLIP_SEC_HI (p : Nat) : Nat := 0x40405C + p * 0x100000
/-- VIEW_SYNC_REM (R269). -/
def VIEW_SYNC_REM (p : Nat) : Nat := 0x404060 + p * 0x100000
/-- VIEW_REFUSED (R269). -/
def VIEW_REFUSED (p : Nat) : Nat := 0x404100 + p * 0x100000
/-- VIEW_FORCE_DROP (R269). -/
def VIEW_FORCE_DROP (p : Nat) : Nat := 0x404104 + p * 0x100000
/-- LRN_CFG (R304). -/
def LRN_CFG : Nat := 0x600040
/-- LRN_DOM (R304). -/
def LRN_DOM : Nat := 0x600044
/-- LRN_TX (R304). -/
def LRN_TX : Nat := 0x600048
/-- LRN_PEER (R304). -/
def LRN_PEER : Nat := 0x60004C
/-- LRN_DA_LO (R304). -/
def LRN_DA_LO : Nat := 0x600050
/-- LRN_DA_HI (R304). -/
def LRN_DA_HI : Nat := 0x600054
/-- LRN_SA_LO (R304). -/
def LRN_SA_LO : Nat := 0x600058
/-- LRN_SA_HI (R304). -/
def LRN_SA_HI : Nat := 0x60005C
/-- LRN_STALE (R304). -/
def LRN_STALE : Nat := 0x600060
/-- LRN_DAMP (R304). -/
def LRN_DAMP : Nat := 0x600064
/-- LRN_SEQ (R304). -/
def LRN_SEQ : Nat := 0x600068
/-- LRN_FLUSH (R304). -/
def LRN_FLUSH : Nat := 0x60006C
/-- LRN_DUMP (R304). -/
def LRN_DUMP : Nat := 0x600070
/-- LRN_PEER_SEL (R304). -/
def LRN_PEER_SEL : Nat := 0x600074
/-- LRN_PEER_SEQ (R304). -/
def LRN_PEER_SEQ : Nat := 0x600078
/-- LRN_PEER_STAT (R304). -/
def LRN_PEER_STAT : Nat := 0x60007C
/-- LRN_RING_LO (R304). -/
def LRN_RING_LO : Nat := 0x600080
/-- LRN_RING_HI (R304). -/
def LRN_RING_HI : Nat := 0x600084
/-- LRN_RING_SZ (R304). -/
def LRN_RING_SZ : Nat := 0x600088
/-- LRN_RING_PI (R304). -/
def LRN_RING_PI : Nat := 0x60008C
/-- LRN_RING_CI (R304). -/
def LRN_RING_CI : Nat := 0x600090
/-- LRN_RING_MASK (R304). -/
def LRN_RING_MASK : Nat := 0x600094
/-- LRN_BAD_FRAME (R304). -/
def LRN_BAD_FRAME : Nat := 0x600100
/-- LRN_LOOP (R304). -/
def LRN_LOOP : Nat := 0x600104
/-- LRN_STALE_CNT (R304). -/
def LRN_STALE_CNT : Nat := 0x600108
/-- LRN_SEQ_GAP (R304). -/
def LRN_SEQ_GAP : Nat := 0x60010C
/-- LRN_SEQ_OLD (R304). -/
def LRN_SEQ_OLD : Nat := 0x600110
/-- LRN_RING_OVF (R304). -/
def LRN_RING_OVF : Nat := 0x600114
/-- LRN_CFG_BAD (R304). -/
def LRN_CFG_BAD : Nat := 0x600118
/-- LRN_LOCAL (R304). -/
def LRN_LOCAL (p : Nat) : Nat := 0x601100 + p * 0x1000
/-- LRN_REMOTE (R304). -/
def LRN_REMOTE (p : Nat) : Nat := 0x601108 + p * 0x1000
/-- LRN_AGED (R304). -/
def LRN_AGED (p : Nat) : Nat := 0x601110 + p * 0x1000
/-- LRN_MOVES (R304). -/
def LRN_MOVES (p : Nat) : Nat := 0x601118 + p * 0x1000
/-- LRN_LOST (R304). -/
def LRN_LOST (p : Nat) : Nat := 0x60111C + p * 0x1000
/-- LRN_LIMIT_DROP (R304). -/
def LRN_LIMIT_DROP (p : Nat) : Nat := 0x601120 + p * 0x1000
/-- LRN_LIMIT_FWD (R304). -/
def LRN_LIMIT_FWD (p : Nat) : Nat := 0x601124 + p * 0x1000
/-- LRN_Q_DROP (R304). -/
def LRN_Q_DROP (p : Nat) : Nat := 0x601128 + p * 0x1000
/-- LRN_FULL (R304). -/
def LRN_FULL (p : Nat) : Nat := 0x60112C + p * 0x1000
/-- LRN_FROZEN (R304). -/
def LRN_FROZEN (p : Nat) : Nat := 0x601130 + p * 0x1000
/-- LRN_STATIC_MISM (R304). -/
def LRN_STATIC_MISM (p : Nat) : Nat := 0x601134 + p * 0x1000
/-- LRN_DAMP_FULL (R304). -/
def LRN_DAMP_FULL (p : Nat) : Nat := 0x601138 + p * 0x1000
/-- LRN_RF_SKIP (R304). -/
def LRN_RF_SKIP (p : Nat) : Nat := 0x60113C + p * 0x1000
/-- LRN_AGE_STAT (R304). -/
def LRN_AGE_STAT : Nat := 0x603040
/-- LRN_AGE (R304). -/
def LRN_AGE (i : Nat) : Nat := 0x603400 + i * 0x4
/-- LRN_PORT (R304). -/
def LRN_PORT (i : Nat) : Nat := 0x604040 + i * 0x4
/-- LRN_PCNT (R304). -/
def LRN_PCNT (i : Nat) : Nat := 0x604200 + i * 0x4
/-- LRN_INST (R304). -/
def LRN_INST (i : Nat) : Nat := 0x604400 + i * 0x4
/-- LRN_ICNT (R304). -/
def LRN_ICNT (i : Nat) : Nat := 0x604800 + i * 0x4
/-- SINT_CFG (R333). -/
def SINT_CFG : Nat := 0x700040
/-- SINT_POOL_CTL (R333). -/
def SINT_POOL_CTL : Nat := 0x700044
/-- SINT_POOL_CNT (R333). -/
def SINT_POOL_CNT (i : Nat) : Nat := 0x700048 + i * 0x4
/-- SINT_POOL_FREE (R333). -/
def SINT_POOL_FREE (i : Nat) : Nat := 0x700058 + i * 0x4
/-- SINT_SH (R333). -/
def SINT_SH : Nat := 0x700068
/-- SINT_SU (R333). -/
def SINT_SU : Nat := 0x70006C
/-- SINT_UNK (R333). -/
def SINT_UNK (i : Nat) : Nat := 0x700070 + i * 0x4
/-- SINT_SPILL (R333). -/
def SINT_SPILL (i : Nat) : Nat := 0x700080 + i * 0x4
/-- SINT_DEEP_FREE (R333). -/
def SINT_DEEP_FREE : Nat := 0x7000A0
/-- SINT_CMD_CTL (R333). -/
def SINT_CMD_CTL : Nat := 0x700100
/-- SINT_CMD_PTR (R333). -/
def SINT_CMD_PTR : Nat := 0x700104
/-- SINT_CMD_STAT (R333). -/
def SINT_CMD_STAT : Nat := 0x700108
/-- SINT_CMD_DESC_LO (R333). -/
def SINT_CMD_DESC_LO : Nat := 0x70010C
/-- SINT_CMD_DESC_HI (R333). -/
def SINT_CMD_DESC_HI : Nat := 0x700110
/-- SINT_CMD_LEN (R333). -/
def SINT_CMD_LEN : Nat := 0x700114
/-- SINT_WIN_PTR (R333). -/
def SINT_WIN_PTR : Nat := 0x700118
/-- SINT_WIN_OFF (R333). -/
def SINT_WIN_OFF : Nat := 0x70011C
/-- SINT_AUDIT (R333). -/
def SINT_AUDIT : Nat := 0x700140
/-- SINT_AUD_LEAK (R333). -/
def SINT_AUD_LEAK : Nat := 0x700144
/-- SINT_AUD_SW (R333). -/
def SINT_AUD_SW : Nat := 0x700148
/-- SINT_AUD_DUP (R333). -/
def SINT_AUD_DUP : Nat := 0x70014C
/-- SINT_AUD_FIRST (R333). -/
def SINT_AUD_FIRST : Nat := 0x700150
/-- SINT_ALLOC (R333). -/
def SINT_ALLOC (i : Nat) : Nat := 0x700200 + i * 0x8
/-- SINT_FREE (R333). -/
def SINT_FREE (i : Nat) : Nat := 0x700220 + i * 0x8
/-- SINT_NOBUF (R333). -/
def SINT_NOBUF : Nat := 0x700240
/-- SINT_CHAIN (R333). -/
def SINT_CHAIN : Nat := 0x700244
/-- SINT_CHAIN_FAIL (R333). -/
def SINT_CHAIN_FAIL : Nat := 0x700248
/-- SINT_STK_OVF (R333). -/
def SINT_STK_OVF : Nat := 0x70024C
/-- SINT_USE_UFL (R333). -/
def SINT_USE_UFL : Nat := 0x700250
/-- SINT_SPILL_FRM (R333). -/
def SINT_SPILL_FRM : Nat := 0x700258
/-- SINT_REFILL_FRM (R333). -/
def SINT_REFILL_FRM : Nat := 0x700260
/-- SINT_DEEP_DROP (R333). -/
def SINT_DEEP_DROP : Nat := 0x700268
/-- SINT_DEEP_ERR (R333). -/
def SINT_DEEP_ERR : Nat := 0x70026C
/-- SINT_WIN (R333). -/
def SINT_WIN (i : Nat) : Nat := 0x700800 + i * 0x4
/-- A_CFG, index over all its pages (R333). -/
def A_CFG (j : Nat) : Nat := 0x701400 + (j / 256) * 0x1000 + (j % 256) * 4
/-- A_USE, index over all its pages (R333). -/
def A_USE (j : Nat) : Nat := 0x701800 + (j / 256) * 0x1000 + (j % 256) * 4
/-- A_DROP, index over all its pages (R333). -/
def A_DROP (j : Nat) : Nat := 0x701C00 + (j / 256) * 0x1000 + (j % 256) * 4
/-- XB_CTL (R363). -/
def XB_CTL : Nat := 0x800040
/-- XB_STAT (R363). -/
def XB_STAT : Nat := 0x800044
/-- XB_FLAP (R363). -/
def XB_FLAP : Nat := 0x800048
/-- XB_MIR_FLOOR (R363). -/
def XB_MIR_FLOOR : Nat := 0x80004C
/-- XB_MCG_SEL (R363). -/
def XB_MCG_SEL : Nat := 0x800050
/-- XB_MCG_MAP_0 (R363). -/
def XB_MCG_MAP_0 : Nat := 0x800054
/-- XB_MCG_MAP_1 (R363). -/
def XB_MCG_MAP_1 : Nat := 0x800058
/-- XB_MCG_MAP_2 (R363). -/
def XB_MCG_MAP_2 : Nat := 0x80005C
/-- XB_VOQ_SEL (R363). -/
def XB_VOQ_SEL : Nat := 0x800060
/-- XB_VOQ_FRM (R363). -/
def XB_VOQ_FRM : Nat := 0x800064
/-- XB_VOQ_BYTES (R363). -/
def XB_VOQ_BYTES : Nat := 0x800068
/-- XB_STORE_USE (R363). -/
def XB_STORE_USE : Nat := 0x80006C
/-- XB_AGE (R363). -/
def XB_AGE (i : Nat) : Nat := 0x800080 + i * 0x4
/-- XB_MIR_CFG (R363). -/
def XB_MIR_CFG (i : Nat) : Nat := 0x800100 + i * 0x10
/-- XB_MIR_SRC (R363). -/
def XB_MIR_SRC (i : Nat) : Nat := 0x800104 + i * 0x10
/-- XB_MIR_LIM (R363). -/
def XB_MIR_LIM (i : Nat) : Nat := 0x800108 + i * 0x10
/-- XB_MIR_USE (R363). -/
def XB_MIR_USE (i : Nat) : Nat := 0x80010C + i * 0x10
/-- XB_PORT (R363). -/
def XB_PORT (i : Nat) : Nat := 0x800200 + i * 0x4
/-- XB_MATCH (R363). -/
def XB_MATCH : Nat := 0x800400
/-- XB_EXP_MATCH (R363). -/
def XB_EXP_MATCH : Nat := 0x800408
/-- XB_AGE_DROP (R363). -/
def XB_AGE_DROP (i : Nat) : Nat := 0x800410 + i * 0x4
/-- XB_FLUSH_DROP (R363). -/
def XB_FLUSH_DROP : Nat := 0x800430
/-- XB_TXQ_DROP (R363). -/
def XB_TXQ_DROP : Nat := 0x800434
/-- XB_MC_RESIDUE (R363). -/
def XB_MC_RESIDUE : Nat := 0x800438
/-- XB_MC_EMPTY (R363). -/
def XB_MC_EMPTY : Nat := 0x80043C
/-- XB_STORE_FULL (R363). -/
def XB_STORE_FULL : Nat := 0x800440
/-- XB_RCY_DROP (R363). -/
def XB_RCY_DROP : Nat := 0x800444
/-- XB_HOLD_CNT (R363). -/
def XB_HOLD_CNT : Nat := 0x800448
/-- XB_MIR_DROP (R363). -/
def XB_MIR_DROP (i : Nat) : Nat := 0x800480 + i * 0x4
/-- TM_CTL (R390). -/
def TM_CTL : Nat := 0x900040
/-- TM_WHL_STAT (R390). -/
def TM_WHL_STAT : Nat := 0x900044
/-- TM_OVF_STAT (R390). -/
def TM_OVF_STAT : Nat := 0x900048
/-- TM_GRP_RATE (R390). -/
def TM_GRP_RATE (i : Nat) : Nat := 0x900100 + i * 0x8
/-- TM_GRP_STAT (R390). -/
def TM_GRP_STAT (i : Nat) : Nat := 0x900104 + i * 0x8
/-- TM_PORT_CTL (R390). -/
def TM_PORT_CTL (p : Nat) : Nat := 0x910040 + p * 0x1000
/-- TM_PORT_RATE (R390). -/
def TM_PORT_RATE (p : Nat) : Nat := 0x910044 + p * 0x1000
/-- TM_PORT_STAT (R390). -/
def TM_PORT_STAT (p : Nat) : Nat := 0x910048 + p * 0x1000
/-- TM_SHP_SLOPE (R390). -/
def TM_SHP_SLOPE (p i : Nat) : Nat := 0x910080 + p * 0x1000 + i * 0x10
/-- TM_SHP_LIM (R390). -/
def TM_SHP_LIM (p i : Nat) : Nat := 0x910084 + p * 0x1000 + i * 0x10
/-- TM_SHP_CRED (R390). -/
def TM_SHP_CRED (p i : Nat) : Nat := 0x910088 + p * 0x1000 + i * 0x10
/-- TM_TXQ_FRM (R390). -/
def TM_TXQ_FRM (p i : Nat) : Nat := 0x91008C + p * 0x1000 + i * 0x10
/-- TM_GCL_CTL (R390). -/
def TM_GCL_CTL (p : Nat) : Nat := 0x910100 + p * 0x1000
/-- TM_GCL_ADM_BASE_NS (R390). -/
def TM_GCL_ADM_BASE_NS (p : Nat) : Nat := 0x910104 + p * 0x1000
/-- TM_GCL_ADM_BASE_SEC_LO (R390). -/
def TM_GCL_ADM_BASE_SEC_LO (p : Nat) : Nat := 0x910108 + p * 0x1000
/-- TM_GCL_ADM_BASE_SEC_HI (R390). -/
def TM_GCL_ADM_BASE_SEC_HI (p : Nat) : Nat := 0x91010C + p * 0x1000
/-- TM_GCL_ADM_CYCLE (R390). -/
def TM_GCL_ADM_CYCLE (p : Nat) : Nat := 0x910110 + p * 0x1000
/-- TM_GCL_OPER_BASE_NS (R390). -/
def TM_GCL_OPER_BASE_NS (p : Nat) : Nat := 0x910114 + p * 0x1000
/-- TM_GCL_OPER_BASE_SEC_LO (R390). -/
def TM_GCL_OPER_BASE_SEC_LO (p : Nat) : Nat := 0x910118 + p * 0x1000
/-- TM_GCL_OPER_BASE_SEC_HI (R390). -/
def TM_GCL_OPER_BASE_SEC_HI (p : Nat) : Nat := 0x91011C + p * 0x1000
/-- TM_GCL_OPER_CYCLE (R390). -/
def TM_GCL_OPER_CYCLE (p : Nat) : Nat := 0x910120 + p * 0x1000
/-- TM_GCL_OPER_LEN (R390). -/
def TM_GCL_OPER_LEN (p : Nat) : Nat := 0x910124 + p * 0x1000
/-- TM_GCL_CHG_NS (R390). -/
def TM_GCL_CHG_NS (p : Nat) : Nat := 0x910128 + p * 0x1000
/-- TM_GCL_CHG_SEC_LO (R390). -/
def TM_GCL_CHG_SEC_LO (p : Nat) : Nat := 0x91012C + p * 0x1000
/-- TM_GCL_CHG_SEC_HI (R390). -/
def TM_GCL_CHG_SEC_HI (p : Nat) : Nat := 0x910130 + p * 0x1000
/-- TM_GCL_MAXWIN (R390). -/
def TM_GCL_MAXWIN (p i : Nat) : Nat := 0x910140 + p * 0x1000 + i * 0x4
/-- TM_TX_SEL (R390). -/
def TM_TX_SEL (p : Nat) : Nat := 0x910200 + p * 0x1000
/-- TM_TOO_BIG (R390). -/
def TM_TOO_BIG (p : Nat) : Nat := 0x910208 + p * 0x1000
/-- TM_GUARD_HOLD (R390). -/
def TM_GUARD_HOLD (p : Nat) : Nat := 0x91020C + p * 0x1000
/-- TM_CFG_CHG (R390). -/
def TM_CFG_CHG (p : Nat) : Nat := 0x910210 + p * 0x1000
/-- TM_GCL_A (R390). -/
def TM_GCL_A (p i : Nat) : Nat := 0x910800 + p * 0x1000 + i * 0x4
/-- TM_GCL_B (R390). -/
def TM_GCL_B (p i : Nat) : Nat := 0x910C00 + p * 0x1000 + i * 0x4
/-- MTR_PIPE_EN (R390). -/
def MTR_PIPE_EN (p : Nat) : Nat := 0xA00040 + p * 0x1000
/-- MTR_UNK_LEN (R390). -/
def MTR_UNK_LEN (p : Nat) : Nat := 0xA00044 + p * 0x1000
/-- MTR_CMD_CTL (R390). -/
def MTR_CMD_CTL (p : Nat) : Nat := 0xA00048 + p * 0x1000
/-- MTR_CMD_STAT (R390). -/
def MTR_CMD_STAT (p : Nat) : Nat := 0xA0004C + p * 0x1000
/-- MTR_CMD_CFG (R390). -/
def MTR_CMD_CFG (p : Nat) : Nat := 0xA00050 + p * 0x1000
/-- MTR_CMD_CIR (R390). -/
def MTR_CMD_CIR (p : Nat) : Nat := 0xA00054 + p * 0x1000
/-- MTR_CMD_PIR (R390). -/
def MTR_CMD_PIR (p : Nat) : Nat := 0xA00058 + p * 0x1000
/-- MTR_CMD_CBS (R390). -/
def MTR_CMD_CBS (p : Nat) : Nat := 0xA0005C + p * 0x1000
/-- MTR_CMD_XBS (R390). -/
def MTR_CMD_XBS (p : Nat) : Nat := 0xA00060 + p * 0x1000
/-- MTR_CMD_TOK1 (R390). -/
def MTR_CMD_TOK1 (p : Nat) : Nat := 0xA00064 + p * 0x1000
/-- MTR_CMD_TOK2 (R390). -/
def MTR_CMD_TOK2 (p : Nat) : Nat := 0xA00068 + p * 0x1000
/-- MTR_GREEN (R390). -/
def MTR_GREEN (p : Nat) : Nat := 0xA00100 + p * 0x1000
/-- MTR_YELLOW (R390). -/
def MTR_YELLOW (p : Nat) : Nat := 0xA00108 + p * 0x1000
/-- MTR_RED (R390). -/
def MTR_RED (p : Nat) : Nat := 0xA00110 + p * 0x1000
/-- MTR_DROP (R390). -/
def MTR_DROP (p : Nat) : Nat := 0xA00118 + p * 0x1000
/-- MTR_WAIT (R390). -/
def MTR_WAIT (p : Nat) : Nat := 0xA0011C + p * 0x1000
/-- HIF_CTL (R466). -/
def HIF_CTL : Nat := 0xB00040
/-- HIF_PF_CFG (R466). -/
def HIF_PF_CFG (i : Nat) : Nat := 0xB00044 + i * 0x4
/-- HIF_LINK (R466). -/
def HIF_LINK (i : Nat) : Nat := 0xB00054 + i * 0x4
/-- HIF_DRAIN (R466). -/
def HIF_DRAIN : Nat := 0xB00064
/-- HIF_INST_SEL (R466). -/
def HIF_INST_SEL : Nat := 0xB00068
/-- HIF_INST_CMD (R466). -/
def HIF_INST_CMD : Nat := 0xB0006C
/-- HIF_INST_CMD_STAT (R466). -/
def HIF_INST_CMD_STAT : Nat := 0xB00070
/-- HIF_RX_HOLD_US (R466). -/
def HIF_RX_HOLD_US : Nat := 0xB00074
/-- HIF_RING_SEL (R466). -/
def HIF_RING_SEL : Nat := 0xB00080
/-- HIF_RING_CTL (R466). -/
def HIF_RING_CTL : Nat := 0xB00084
/-- HIF_RING_TXBASE_LO (R466). -/
def HIF_RING_TXBASE_LO : Nat := 0xB00088
/-- HIF_RING_TXBASE_HI (R466). -/
def HIF_RING_TXBASE_HI : Nat := 0xB0008C
/-- HIF_RING_RXBASE_LO (R466). -/
def HIF_RING_RXBASE_LO : Nat := 0xB00090
/-- HIF_RING_RXBASE_HI (R466). -/
def HIF_RING_RXBASE_HI : Nat := 0xB00094
/-- HIF_RING_VEC (R466). -/
def HIF_RING_VEC : Nat := 0xB00098
/-- HIF_RING_BUF (R466). -/
def HIF_RING_BUF : Nat := 0xB0009C
/-- HIF_RING_CI (R466). -/
def HIF_RING_CI : Nat := 0xB000A0
/-- HIF_INST_STAT (R466). -/
def HIF_INST_STAT (p : Nat) : Nat := 0x10000040 + p * 0x1000
/-- HIF_INST_RST (R466). -/
def HIF_INST_RST (p : Nat) : Nat := 0x10000044 + p * 0x1000
/-- HIF_MBX_CTL (R466). -/
def HIF_MBX_CTL (p : Nat) : Nat := 0x10000048 + p * 0x1000
/-- HIF_INST_QP (R466). -/
def HIF_INST_QP (p : Nat) : Nat := 0x10000050 + p * 0x1000
/-- HIF_INST_VEC (R466). -/
def HIF_INST_VEC (p : Nat) : Nat := 0x10000054 + p * 0x1000
/-- HIF_INST_TQ (R466). -/
def HIF_INST_TQ (p : Nat) : Nat := 0x10000058 + p * 0x1000
/-- HIF_INST_TCNT (R466). -/
def HIF_INST_TCNT (p : Nat) : Nat := 0x1000005C + p * 0x1000
/-- HIF_INST_CTR_FIRST (R466). -/
def HIF_INST_CTR_FIRST (p : Nat) : Nat := 0x10000060 + p * 0x1000
/-- HIF_INST_CTR_NUM (R466). -/
def HIF_INST_CTR_NUM (p : Nat) : Nat := 0x10000064 + p * 0x1000
/-- HIF_INST_MTR (R466). -/
def HIF_INST_MTR (p : Nat) : Nat := 0x10000068 + p * 0x1000
/-- HIF_INST_BUF (R466). -/
def HIF_INST_BUF (p : Nat) : Nat := 0x1000006C + p * 0x1000
/-- HIF_INST_LRN (R466). -/
def HIF_INST_LRN (p : Nat) : Nat := 0x10000070 + p * 0x1000
/-- HIF_INST_PVIS_0 (R466). -/
def HIF_INST_PVIS_0 (p : Nat) : Nat := 0x10000074 + p * 0x1000
/-- HIF_INST_PVIS_1 (R466). -/
def HIF_INST_PVIS_1 (p : Nat) : Nat := 0x10000078 + p * 0x1000
/-- HIF_INST_PVIS_2 (R466). -/
def HIF_INST_PVIS_2 (p : Nat) : Nat := 0x1000007C + p * 0x1000
/-- HIF_INST_CLS (R466). -/
def HIF_INST_CLS (p : Nat) : Nat := 0x10000080 + p * 0x1000
/-- HIF_MBX_REQ (R466). -/
def HIF_MBX_REQ (p i : Nat) : Nat := 0x10000100 + p * 0x1000 + i * 0x4
/-- HIF_MBX_RSP (R466). -/
def HIF_MBX_RSP (p i : Nat) : Nat := 0x10000140 + p * 0x1000 + i * 0x4
/-- HIF_STALE (R466). -/
def HIF_STALE (p : Nat) : Nat := 0x10000200 + p * 0x1000
/-- HIF_DB_BAD (R466). -/
def HIF_DB_BAD (p : Nat) : Nat := 0x10000204 + p * 0x1000
/-- HIF_RX_NORING (R466). -/
def HIF_RX_NORING (p : Nat) : Nat := 0x10000208 + p * 0x1000
/-- HIF_MBX_LATE (R466). -/
def HIF_MBX_LATE (p : Nat) : Nat := 0x1000020C + p * 0x1000
/-- HIF_CPL_TMO (R466). -/
def HIF_CPL_TMO (p : Nat) : Nat := 0x10000210 + p * 0x1000
/-- HBM_CTL (R487). -/
def HBM_CTL : Nat := 0xC00040
/-- HBM_PRIO (R487). -/
def HBM_PRIO : Nat := 0xC00044
/-- HBM_RT (R487). -/
def HBM_RT : Nat := 0xC00048
/-- HBM_SCRUB (R487). -/
def HBM_SCRUB : Nat := 0xC0004C
/-- HBM_FENCE_CFG (R487). -/
def HBM_FENCE_CFG : Nat := 0xC00050
/-- HBM_FENCE (R487). -/
def HBM_FENCE : Nat := 0xC00054
/-- HBM_TRAIN (R487). -/
def HBM_TRAIN : Nat := 0xC00058
/-- HBM_RD_BYTES (R487). -/
def HBM_RD_BYTES : Nat := 0xC00100
/-- HBM_WR_BYTES (R487). -/
def HBM_WR_BYTES : Nat := 0xC00108
/-- HBM_CE (R487). -/
def HBM_CE : Nat := 0xC00110
/-- HBM_UE (R487). -/
def HBM_UE : Nat := 0xC00114
/-- HBM_RT_CNT (R487). -/
def HBM_RT_CNT : Nat := 0xC00118
/-- HBM_RT_FAIL (R487). -/
def HBM_RT_FAIL : Nat := 0xC0011C
/-- HBM_PROMOTE (R487). -/
def HBM_PROMOTE : Nat := 0xC00120
/-- HBM_PC_STAT (R487). -/
def HBM_PC_STAT (p i : Nat) : Nat := 0xC10040 + p * 0x1000 + i * 0x4
/-- HBM_PC_CE (R487). -/
def HBM_PC_CE (p i : Nat) : Nat := 0xC10100 + p * 0x1000 + i * 0x8
/-- HBM_PC_UE (R487). -/
def HBM_PC_UE (p i : Nat) : Nat := 0xC10104 + p * 0x1000 + i * 0x8
/-- SEC_STAT (R537). -/
def SEC_STAT : Nat := 0xD00040
/-- SEC_CMD_CTL (R537). -/
def SEC_CMD_CTL : Nat := 0xD00044
/-- SEC_CMD_STAT (R537). -/
def SEC_CMD_STAT : Nat := 0xD00048
/-- SEC_CMD_ADDR_LO (R537). -/
def SEC_CMD_ADDR_LO : Nat := 0xD0004C
/-- SEC_CMD_ADDR_HI (R537). -/
def SEC_CMD_ADDR_HI : Nat := 0xD00050
/-- SEC_CMD_OUT_LO (R537). -/
def SEC_CMD_OUT_LO : Nat := 0xD00054
/-- SEC_CMD_OUT_HI (R537). -/
def SEC_CMD_OUT_HI : Nat := 0xD00058
/-- SEC_CMD_ARG (R537). -/
def SEC_CMD_ARG : Nat := 0xD0005C
/-- SEC_CMD_LEN (R537). -/
def SEC_CMD_LEN : Nat := 0xD00060
/-- SEC_CTL (R537). -/
def SEC_CTL : Nat := 0xD00064
/-- SEC_BOOT_ERR (R537). -/
def SEC_BOOT_ERR : Nat := 0xD00068
/-- SEC_SERIAL_LO (R537). -/
def SEC_SERIAL_LO : Nat := 0xD00070
/-- SEC_SERIAL_HI (R537). -/
def SEC_SERIAL_HI : Nat := 0xD00074
/-- SEC_DBG_NONCE (R537). -/
def SEC_DBG_NONCE (i : Nat) : Nat := 0xD00080 + i * 0x4
/-- SEC_MR_SEL (R537). -/
def SEC_MR_SEL : Nat := 0xD000A0
/-- SEC_MR (R537). -/
def SEC_MR (i : Nat) : Nat := 0xD000C0 + i * 0x4
/-- SEC_KEYH (R537). -/
def SEC_KEYH (i : Nat) : Nat := 0xD00100 + i * 0x4
/-- SEC_VERIFY_FAIL (R537). -/
def SEC_VERIFY_FAIL : Nat := 0xD00200
/-- SEC_DBG_FAIL (R537). -/
def SEC_DBG_FAIL : Nat := 0xD00204
/-- RAS_CFG (R554). -/
def RAS_CFG : Nat := 0xE00040
/-- RAS_LOG_STAT (R554). -/
def RAS_LOG_STAT : Nat := 0xE00044
/-- RAS_LOG_SEL (R554). -/
def RAS_LOG_SEL : Nat := 0xE00048
/-- RAS_LOG_W (R554). -/
def RAS_LOG_W (i : Nat) : Nat := 0xE0004C + i * 0x4
/-- RAS_LOG_CLR (R554). -/
def RAS_LOG_CLR : Nat := 0xE0005C
/-- RAS_TEST_CTL (R554). -/
def RAS_TEST_CTL : Nat := 0xE00080
/-- RAS_TEST_STAT (R554). -/
def RAS_TEST_STAT : Nat := 0xE00084
/-- RAS_TEST_RES (R554). -/
def RAS_TEST_RES : Nat := 0xE00088
/-- RAS_CE (R554). -/
def RAS_CE : Nat := 0xE00100
/-- RAS_REPAIR (R554). -/
def RAS_REPAIR : Nat := 0xE00104
/-- RAS_UE (R554). -/
def RAS_UE : Nat := 0xE00108
/-- RAS_LOG_OVF (R554). -/
def RAS_LOG_OVF : Nat := 0xE0010C
/-- RAS_TEST_REFUSED (R554). -/
def RAS_TEST_REFUSED : Nat := 0xE00110
/-- DBG_CTL (R573). -/
def DBG_CTL : Nat := 0xF00040
/-- DBG_HALT (R573). -/
def DBG_HALT : Nat := 0xF00044
/-- DBG_HSTAT (R573). -/
def DBG_HSTAT : Nat := 0xF00048
/-- DBG_TREG_SEL (R573). -/
def DBG_TREG_SEL : Nat := 0xF0004C
/-- DBG_TREG_LO (R573). -/
def DBG_TREG_LO : Nat := 0xF00050
/-- DBG_TREG_HI (R573). -/
def DBG_TREG_HI : Nat := 0xF00054
/-- DBG_ACC_ADDR_LO (R573). -/
def DBG_ACC_ADDR_LO : Nat := 0xF00058
/-- DBG_ACC_ADDR_HI (R573). -/
def DBG_ACC_ADDR_HI : Nat := 0xF0005C
/-- DBG_ACC_DATA_LO (R573). -/
def DBG_ACC_DATA_LO : Nat := 0xF00060
/-- DBG_ACC_DATA_HI (R573). -/
def DBG_ACC_DATA_HI : Nat := 0xF00064
/-- DBG_ACC_CTL (R573). -/
def DBG_ACC_CTL : Nat := 0xF00068
/-- DBG_MBX_ADDR (R573). -/
def DBG_MBX_ADDR : Nat := 0xF00070
/-- DBG_MBX_DATA (R573). -/
def DBG_MBX_DATA : Nat := 0xF00074
/-- DBG_MBX_CTL (R573). -/
def DBG_MBX_CTL : Nat := 0xF00078
/-- DBG_TR_IDX (R573). -/
def DBG_TR_IDX : Nat := 0xF00080
/-- DBG_TR_LO (R573). -/
def DBG_TR_LO : Nat := 0xF00084
/-- DBG_TR_HI (R573). -/
def DBG_TR_HI : Nat := 0xF00088
/-- DBG_BP_CTL (R573). -/
def DBG_BP_CTL (i : Nat) : Nat := 0xF00100 + i * 0x10
/-- DBG_BP_ADDR (R573). -/
def DBG_BP_ADDR (i : Nat) : Nat := 0xF00104 + i * 0x10
/-- DBG_BP_LIM (R573). -/
def DBG_BP_LIM (i : Nat) : Nat := 0xF00108 + i * 0x10
/-- DBG_BP_HITS (R573). -/
def DBG_BP_HITS (i : Nat) : Nat := 0xF0010C + i * 0x10
/-- DBG_DROP (R573). -/
def DBG_DROP (i : Nat) : Nat := 0xF00200 + i * 0x4
/-- DBG_SEC_STAT (R559). -/
def DBG_SEC_STAT : Nat := 0xF00300
/-- DBG_SERIAL_LO (R559). -/
def DBG_SERIAL_LO : Nat := 0xF00304
/-- DBG_SERIAL_HI (R559). -/
def DBG_SERIAL_HI : Nat := 0xF00308
/-- DBG_NONCE (R559). -/
def DBG_NONCE (i : Nat) : Nat := 0xF00320 + i * 0x4

end R

end Sys2Proof.Machine
end

