-- ==== Sys2Proof/Config.lean ====
section
/-! DEFINITION. What an implementation of the ZRL7464 fixes and the spec leaves open. Every constant here is opaque: it has no body,
so nothing in Lean can prove a value of it, and a statement about the model holds whatever it is. -/

namespace Sys2Proof.Config

/-- The value the spec leaves open at the n-th such point of a run (the model's own counter `State.freeCtr` numbers them):
an undefined window register after a call (R147), an undefined or unstated result of data the spec does not fix.
[DESIGN CHOICE, log 11] -/
opaque freeValue : Nat → BitVec 64

/-- Random bytes the part draws (the debug nonce of R527): the n-th draw. [DESIGN CHOICE, log 12] -/
opaque randomWord : Nat → BitVec 64

/-- The answer of a keep-alive service, by its bit of AON_KA_SVC, to a frame: none if the state that the firmware handed over (stored
addresses, sessions, actor state, R505) does not concern it; an empty list if it is consumed without an answer. [DESIGN CHOICE, log 14] -/
opaque kaAnswer : Nat → List (BitVec 8) → Option (List (BitVec 8))

/-- Whether an SLH-DSA signature of the parameter set of R515 verifies: public key, message, signature (FIPS 205).
[DESIGN CHOICE, log 13] -/
opaque slhVerify : List (BitVec 8) → List (BitVec 8) → List (BitVec 8) → Bool

/-- The identity keys derived from the device seed (R521), as the signatures they make over a message: RSASSA-PSS, 384 bytes, and
SLH-DSA-SHA2-192f, 35,664 bytes. [DESIGN CHOICE, log 13] -/
opaque idSignRsa : Nat → List (BitVec 8) → List (BitVec 8)
opaque idSignSlh : Nat → List (BitVec 8) → List (BitVec 8)

/-- Bytes of the quad-SPI flash of the board (R518, R522). [DESIGN CHOICE, log 7] -/
opaque flashSize : Nat

end Sys2Proof.Config
end

