-- ==== Sys2Proof/Machine/SMap.lean ====
section
/-! DEFINITION. Sparse maps: the one representation of every table, memory and register space of the model. A map is a list of
key and value pairs with strictly rising keys that lists no key at its default value, so equal maps are equal data. What an
unlisted key reads as is a function of the key, given at each use. -/

namespace Sys2Proof.Machine

/-- A sparse map from natural numbers. -/
abbrev SMap (α : Type) := List (Nat × α)

/-- The entry listed for a key, if any. -/
def smFind {α : Type} : SMap α → Nat → Option α
  | [], _ => none
  | (k, v) :: m, i => if i = k then some v else smFind m i

/-- The value of a key: the listed one, else the default of the key. -/
def smGet {α : Type} (d : Nat → α) (m : SMap α) (i : Nat) : α := (smFind m i).getD (d i)

/-- The map without any entry of a key. [DEDUCED, log 112] -/
def smErase {α : Type} : SMap α → Nat → SMap α
  | [], _ => []
  | (k, v) :: m, i => if i = k then smErase m i else (k, v) :: smErase m i

/-- The map with an entry placed or replaced in key order. -/
def smPut {α : Type} : SMap α → Nat → α → SMap α
  | [], i, x => [(i, x)]
  | (k, v) :: m, i, x =>
    if i < k then (i, x) :: (k, v) :: m
    else if i = k then (i, x) :: m
    else (k, v) :: smPut m i x

/-- The map with a key set to a value; a value equal to the default removes the entry. -/
def smSet {α : Type} [DecidableEq α] (d : Nat → α) (m : SMap α) (i : Nat) (x : α) : SMap α :=
  if x = d i then smErase m i else smPut m i x

/-- Every key of the map lies above `i`. -/
def smAbove {α : Type} (i : Nat) : SMap α → Bool
  | [] => true
  | (k, _) :: m => decide (i < k) && smAbove i m

/-- The canonical form: keys strictly rising, no entry at its default. -/
def smWf {α : Type} [DecidableEq α] (d : Nat → α) : SMap α → Bool
  | [] => true
  | (k, v) :: m => decide (v ≠ d k) && smAbove k m && smWf d m

/-- The map with every entry of keys in `[lo, hi)` removed: those keys read as their defaults. -/
def smClear {α : Type} (m : SMap α) (lo hi : Nat) : SMap α :=
  m.filter (fun e => decide (e.1 < lo) || decide (hi ≤ e.1))

end Sys2Proof.Machine
end

