-- ==== Sys2Proof/Machine/State.lean ====
section
/-! DEFINITION. The state of the block as plain data: everything the spec gives the machine, the queue of waiting commands, and
the model's own bookkeeping (named as such). Registers of the map live in `regs` at their addresses unless a field below holds
what they show. -/

namespace Sys2Proof.Machine

/-- Why a run of the model stops with a fault. No command of this block ends in one: the violation rule (R583) lets no access
stop a block, and every event of the table has an effect or is turned away with the state unchanged. [DEDUCED, log 17] -/
inductive Fault where
  /-- Raised by nobody; the type has to have a name for a stop the spec may come to give. Safe. -/
  | none
  deriving DecidableEq, Repr

/-- Why the model refuses a command. -/
inductive Refusal where
  /-- Raised by an arm of `exec` whose command has no meaning yet, with the mnemonic of the command. Safe. -/
  | notModelled (mnemonic : String)
  deriving DecidableEq, Repr

/-- What the outside of the part sees. [DESIGN CHOICE, log 122] -/
inductive Out where
  /-- A frame sent by the MAC of a front port, FCS included. -/
  | frame (port : Nat) (bytes : List Byte)
  /-- A pause (classes 0xFF, priority-less) or PFC frame: enabled classes and quanta per class (R54). -/
  | flow (port : Nat) (pfc : Bool) (classes : Nat) (quanta : Nat)
  /-- An MSI-X message to a vector (R429). -/
  | msix (vec : Nat)
  /-- A write by DMA to the memory of a host (R453, R454). -/
  | hostWrite (host addr : Nat) (bytes : List Byte)
  /-- A read by DMA of host memory, by request number (R456). -/
  | hostRead (host addr len id : Nat)
  /-- A frame sent by a keep-alive MAC (R505). -/
  | keepAlive (slot : Nat) (bytes : List Byte)
  /-- A message on TOD_OUT (R82). -/
  | tod (bytes : List Byte)
  /-- A rising edge on PPS_OUT (R82), of so many milliseconds. -/
  | pps (ms : Nat)
  /-- A 1 µs pulse on a GPIO (R81). -/
  | gpioPulse (n : Nat)
  /-- A frame handed to the control complex (port 68) or Fumarole (port 71). -/
  | toCore (port : Nat) (bytes : List Byte)
  /-- Codes sent on the UART by the boot ROM (R518). -/
  | uart (bytes : List Byte)
  /-- Levels that EXTEST drives from the boundary-scan cells (R555). -/
  | balls (levels : List Bool)
  /-- Bits shifted out of the JTAG port (R555). -/
  | tdo (bits : List Bool)
  /-- Completion of a PCIe configuration request with Configuration Request Retry Status, or not (R606). -/
  | cfgStatus (host : Nat) (retry : Bool)
  deriving DecidableEq, Repr

/-- What a thread waits for (R115, R118, R123, R489). A WFE keeps its mask, the physical register of its result and its length in
halfwords (R397). -/
inductive WaitSt where
  | run
  | wfe (mask : BitVec 16) (rd len : Nat)
  | sendWait
  | sleep
  deriving DecidableEq, Repr

/-- A fused-unit instruction accepted and not yet written back (R188, R199): the physical register, its value, and the key
word it replaces. -/
structure FuPend where
  rd  : Nat
  val : Word
  key : Option (Nat × Word)
  /-- tick of its issue, and the issue of its engine by which its latency has passed when every cycle has one (R188) -/
  at_ : Nat
  due : Nat
  deriving DecidableEq, Repr

/-- What the pairing rules ask of an instruction (R160): the registers it writes and those it could name beyond its operands, its memory
and unit use, whether it can only be second or alone, its use of the flags, and whether its result comes later (R161).
[DEDUCED, log 40] -/
structure Kind where
  writes : List Nat := []
  also   : List Nat := []
  mem    : Bool := false
  unit   : Bool := false
  tail   : Bool := false
  alone  : Bool := false
  setsF  : Bool := false
  readsF : Bool := false
  isBc   : Bool := false
  slow   : Bool := false
  deriving DecidableEq, Repr

/-- The first instruction of what may become a pair (R160): its thread, address, length, tick and kind. -/
structure Lead where
  thr  : Nat
  pc   : Nat
  len  : Nat
  at_  : Nat
  kind : Kind
  deriving DecidableEq, Repr

/-- How an engine or a control core chooses its issues (R115, R160, R488): PTR, the last issue, the threads whose last issue returns its
result later, and the number of issues. -/
structure Arb where
  ptr    : Nat := 7
  lead   : Option Lead := none
  late   : List Nat := []
  issues : Nat := 0
  deriving DecidableEq, Repr

/-- A thread or context (R112, R144–R149, R488). [DESIGN CHOICE, log 10] -/
structure Thr where
  /-- halfword address of the next instruction -/
  pc     : Nat := 0
  /-- registers: 0–7 are x0–x7, 8 + i is register i of the window ring (R147) -/
  rf     : SMap Word := []
  /-- slot of the ring that holds the current frame, 0–4 -/
  base   : Nat := 0
  /-- D of R147 -/
  depth  : Nat := 1
  wsp    : Word := 0
  /-- N, Z, C, V (R149) -/
  flg    : BitVec 4 := 0
  /-- PUM, UM, EXL, PIE, IE (R149) -/
  status : BitVec 5 := 0
  epc    : Word := 0
  eflg   : Word := 0
  ecause : Word := 0
  einfo  : Word := 0
  tvec   : Word := 0
  escr0  : Word := 0
  escr1  : Word := 0
  /-- segment descriptors of the full profile (R150) -/
  segs   : SMap Word := []
  evPend : BitVec 16 := 0
  evMask : BitVec 16 := 0
  wait   : WaitSt := .run
  /-- halted by the debugger (R560) -/
  halted : Bool := false
  /-- a debugger step lets one issue through (R562) -/
  step   : Bool := false
  /-- a context halted by a double fault (R490) -/
  dead   : Bool := false
  /-- not started since its reset (R134) -/
  fresh  : Bool := true
  /-- the packet held (R112) -/
  pkt    : Option Nat := none
  /-- the context buffer, which is the send slot (R123, R153) -/
  slot   : SMap Byte := []
  /-- the engine cycle at which the timer reaches zero (R119) -/
  tmr    : Option Nat := none
  /-- the running task (R391) -/
  task   : Option Nat := none
  /-- why the task last resumed, and the status of the last port command (R400) -/
  cause  : Nat := 0
  gstat  : Nat := 0
  /-- the lock whose queue holds the agent's request (R410) -/
  lockReq : Option Nat := none
  /-- the running task was stopped and leaves at the next point at which a switch could be taken (R407) -/
  stopReq : Bool := false
  /-- fused-unit instructions in flight, oldest first (R199) -/
  fu     : List FuPend := []
  /-- tick at which its reset is complete (R132), and tick at which its spill or fill is (R148) -/
  rstEnd : Nat := 0
  moveEnd : Nat := 0
  /-- the spill that runs: where its frame goes, and the bytes that stood there (R183) -/
  spilling : Option (Nat × List Byte) := none
  deriving DecidableEq, Repr

/-- An engine (R115–R123, R193). -/
structure Eng where
  /-- the channel input queue: packets waiting, oldest first (R120) -/
  q      : List Nat := []
  /-- packets delivered to threads and not committed, oldest first (R122) -/
  held   : List Nat := []
  /-- the thread that last received a packet (R121) -/
  last   : Nat := 7
  /-- its choice of issues; those of the control cores stand at 256–259 -/
  arb    : Arb := {}
  /-- key store of HSH: word KEY × 8 + WORD (R193) -/
  keys   : SMap Word := []
  deriving DecidableEq, Repr

/-- Task states (R392). -/
inductive TaskSt where
  | off | idle | ready | running | delayed
  deriving DecidableEq, Repr

/-- A task control entry (R391): the register words that configure it, and its state. [DESIGN CHOICE, log 136] -/
structure Tce where
  cfg     : W32 := 0
  tcbLo   : W32 := 0
  tcbHi   : W32 := 0
  entryLo : W32 := 0
  entryHi : W32 := 0
  st      : TaskSt := .off
  eprio   : Nat := 0
  pend    : Nat := 0
  grant   : Bool := false
  tmo     : Bool := false
  /-- not loaded since START (R396) -/
  fresh   : Bool := false
  /-- the ring slot its current frame was saved in (R147, R395) -/
  base    : Nat := 0
  /-- cause shown when it resumes (R400) -/
  cause   : Nat := 0
  deriving DecidableEq, Repr

/-- A queued request for a lock (R410): agent, task (0xFFF for none), priority. -/
structure Waiter where
  agent : Nat
  task  : Nat
  prio  : Nat
  deriving DecidableEq, Repr

/-- A lock (R409, R413). `aband` is the mark of an abandoned lock, `seen` the ABAND its holder saw at acquisition. -/
structure Lock where
  held  : Bool := false
  owner : Nat := 0
  otask : Nat := 0
  aband : Bool := false
  seen  : Bool := false
  q     : List Waiter := []
  deriving DecidableEq, Repr

/-- Where a packet is on the road of R12: waiting for a parser, between the parser and I11 of a pipeline, in a queue of a
crossbar input, on the egress side of a pipeline, or crossed to a port from 64 to 71. -/
inductive Loc where
  | src
  | ing (pipe : Nat)
  | voq (input : Nat)
  | egr (pipe : Nat)
  | out (port : Nat)
  deriving DecidableEq, Repr

/-- A packet (R12, R15, R90, R96, R97): its context as the stage channel carries it, its header store entry, its mark for discard
(R129), and what the hardware records with the frame. -/
structure Pkt where
  ctx     : SMap Byte := []
  hdr     : SMap Byte := []
  discard : Bool := false
  loc     : Loc := .src
  /-- frame bytes kept, the FCS position included (R48), and bytes of a recirculation header before them (R96) -/
  len     : Nat := 0
  skip    : Nat := 0
  /-- first buffer, and the owner and account recorded at admission (R312, R316, R317) -/
  ptr     : Nat := 0xFFFFFF
  owner   : Nat := 0
  acct    : Nat := 0
  /-- source port and sending instance (R97) -/
  inPort  : Nat := 0
  inst    : Nat := 0
  /-- receive stamp in 2^-48 ns (R13), and S at the arrival at the parser (R344) -/
  rx      : Nat := 0
  arrS    : Nat := 0
  /-- received on a 400GbE port (R21) -/
  fast    : Bool := false
  /-- the tail has not arrived: an FCS failure is still to be detected (R25) -/
  bad     : Bool := false
  /-- the failure was detected before the enqueue, where the frame is removed (R25) -/
  failed  : Bool := false
  /-- USER of a frame replayed at port 71 (R506) -/
  user    : Nat := 0
  /-- class given at injection, where the parser takes it from there (R285) -/
  clsFix  : Option Nat := none
  /-- the failure was detected after the match: the egress port drops the frame (R25) -/
  late    : Bool := false
  /-- the view whose in-flight count holds the packet (R251) -/
  view    : Option Nat := none
  /-- forward-delivered lookups issued (R18) -/
  fwd     : Nat := 0
  /-- copy-store entry that holds its buffers (R348) -/
  store   : Option Nat := none
  /-- markers of a fan-out frame still in VOQs (R347), and whether a first cell of it has been matched (R257) -/
  marks   : Nat := 0
  matched : Bool := false
  /-- mirror session of a copy, and the sessions that have copied the frame, bit by bit (R349) -/
  copyOf  : Option Nat := none
  mirs    : Nat := 0
  /-- destination port and class of its crossing -/
  dest    : Nat := 0
  cls     : Nat := 0
  /-- frame bytes that have crossed, and the packet whose set of cells it shares (R347) -/
  data    : List Byte := []
  cells   : Nat := 0
  /-- the last cell has crossed -/
  crossed : Bool := false
  /-- its SEND stands though its thread has been reset since (R136) -/
  sent    : Bool := false
  /-- given up behind the crossbar while its cells still cross: it ends when the last one has (R25, R58, R353) -/
  gone    : Bool := false
  deriving DecidableEq, Repr

/-- The part of a queue an entry lies in (R325): near, marked for spill, or deep with its blocks and the HBM address and length
of what was written. -/
inductive Part where
  | near
  | marked
  | deep (blocks : List Nat) (addr len : Nat)
  deriving DecidableEq, Repr

/-- An entry of a queue of Caldera (R336): a frame or copy, or a multicast marker (R347). -/
structure VEnt where
  pkt    : Nat
  marker : Bool := false
  part   : Part := .near
  deriving DecidableEq, Repr

/-- A connection through the crossbar (R338, R341): its queue and packet, the outputs it holds, the packets it delivers to, the
cell time it was accepted for, the cells carried. -/
structure Conn where
  queue  : Nat
  pkt    : Nat
  marker : Bool
  outs   : List Nat
  copies : List Nat
  start  : Nat := 0
  sent   : Nat := 0
  deriving DecidableEq, Repr

/-- A frame being transmitted or delivered by a rewrite helper (R365): the packet, its class, its transmit stamp in 2^-48 ns and
whether its FCS failure was found since (R25). -/
structure Tx where
  pkt   : Nat
  cls   : Nat
  stamp : Nat
  stomp : Bool := false
  /-- nanoseconds of transmission that the send slope has been applied for (R367) -/
  ran   : Nat := 0
  deriving DecidableEq, Repr

/-- A pool of near buffers (R305, R308): buffers in use by the pool, pointers pushed (top first), and the first index never
popped; the stack is the pushed pointers and then the indexes from `next` on. [DESIGN CHOICE, log 123] -/
structure Pool where
  cnt   : Nat
  stack : List Nat := []
  next  : Nat := 0
  deriving DecidableEq, Repr

/-- Usage of an account (R313, R315). -/
structure Acct where
  r    : Nat := 0
  sh   : Nat := 0
  h    : Nat := 0
  xoff : Bool := false
  deriving DecidableEq, Repr

/-- A meter (R378, R380): configuration words, tokens in 2^-16 bytes, S of the last refill in nanoseconds. -/
structure Meter where
  cfg : W32 := 0
  cir : Nat := 0
  pir : Nat := 0
  cbs : Nat := 0
  xbs : Nat := 0
  t1  : Nat := 0
  t2  : Nat := 0
  at_ : Nat := 0
  deriving DecidableEq, Repr

/-- A lookup in flight (R104, R170, R217): the packet and its slot, the delivery stage, and what is searched. -/
structure Lkp where
  pkt   : Nat
  slot  : Nat
  stage : Nat
  kind  : Nat
  table : Nat
  key   : List Byte
  half  : Nat
  view  : Nat
  /-- issued by LKUP -/
  fwd   : Bool
  /-- it missed the bucket cache and waits for a fill, which a write has made stale (R220, R221) -/
  miss  : Bool := false
  stale : Bool := false
  /-- overflow slots that could not be read in either replica (R219) -/
  unread : Bool := false
  deriving DecidableEq, Repr

/-- A source check on its way to a learn engine (R105, R273). -/
structure SrcChk where
  bd   : Nat
  mac  : Nat
  port : Nat
  view : Nat
  inst : Nat
  pkt  : Nat
  deriving DecidableEq, Repr

/-- The time unit (R62–R87). Times are in units of 2^−48 ns. -/
structure TimeSt where
  /-- domain time D -/
  d        : Nat := 0
  /-- what the last tick added to D -/
  inc      : Nat := 0
  /-- the watermark W (R77) -/
  w        : Option Nat := none
  /-- the remaining slew -/
  slew     : Int := 0
  /-- a forced step is ordered and has not taken effect -/
  ordered  : Bool := false
  /-- what the ticks have added to D since power-up, steps left out -/
  run      : Nat := 0
  /-- the seconds an AUTOSET step gives to an edge and `run` at that edge (R67); none for TIME_SET (R76) -/
  target   : Option (Nat × Nat) := none
  /-- S before and after a forward step whose skipped events are being released (R78) -/
  skipFrom : Option (Nat × Nat) := none
  /-- model tick in which the last forced step took effect (R85, R86) -/
  stepTick : Option Nat := none
  /-- consecutive samples within LOCK_NS, consecutive rejected edges, consecutive mismatches (R65, R67, R68) -/
  good     : Nat := 0
  rej      : Nat := 0
  mism     : Nat := 0
  /-- TIME_FREQ and the ticks it held in LOCKED, latest first (R71) -/
  hist     : List (Int × Nat) := []
  /-- domain time of the last PPS edge, and `run` then (R66, R67) -/
  edge     : Option (Nat × Nat) := none
  /-- model ticks of the last sample and of the last valid time-of-day message (R88) -/
  sampleAt : Option Nat := none
  todAt    : Option Nat := none
  deriving DecidableEq, Repr

/-- A report of a link transition on its way to Caldera (R57). -/
structure LinkRep where
  port   : Nat
  up     : Bool
  reason : Nat
  time   : Nat
  deriving DecidableEq, Repr

/-- An entry of an exact-match table (R210, R211). `sw` says that a software command wrote it (R447). -/
structure EmEnt where
  tbl     : Nat
  view    : Nat
  age     : Nat
  inst    : Nat
  stat    : Bool
  learned : Bool
  frozen  : Bool
  ctr     : Nat
  key     : List Byte
  data    : List Byte
  sw      : Bool := true
  deriving DecidableEq, Repr

/-- A row of the ternary array (R238, R239): a free row keeps what it held. -/
structure TcRow where
  valid : Bool := true
  tag  : Nat
  view : Nat
  prio : Nat
  inst : Nat
  ctr  : Nat
  val  : Nat
  mask : Nat
  data : Nat
  deriving DecidableEq, Repr

/-- A learn event queued to its home half (R274): a local learn with its reservation. -/
structure Learn where
  bd   : Nat
  mac  : Nat
  port : Nat
  inst : Nat
  deriving DecidableEq, Repr

/-- A learn record, received or to be sent (R284). -/
structure LrnRec where
  op   : Nat
  bd   : Nat
  mac  : Nat
  dev  : Nat
  port : Nat
  ts   : Nat
  deriving DecidableEq, Repr

/-- A peer of the learning domain (R287). -/
structure Peer where
  known : Bool := false
  sync  : Bool := false
  exp   : Nat := 0
  at_   : Nat := 0
  deriving DecidableEq, Repr

/-- A moving address tracked by damping (R281, R282): ticks of its moves, latest first. -/
structure Damp where
  moves  : List Nat
  frozen : Bool
  /-- tick of its freeze -/
  since  : Nat := 0
  deriving DecidableEq, Repr

/-- A frame in the hold buffer (R506): port, receive stamp, tick of arrival, bytes. -/
structure Held where
  port  : Nat
  stamp : Nat
  at_   : Nat
  bytes : List Byte
  deriving DecidableEq, Repr

/-- A request of a client of the HBM controller for one 64-byte word (R468, R471, R472): the client's number, the word, whether it is a write,
and whether it has been promoted. -/
structure HbmReq where
  client : Nat
  word   : Nat
  wr     : Bool
  top    : Bool := false
  deriving DecidableEq, Repr

/-- What a non-posted DMA request is for (R453, R454). -/
inductive DmaKind where
  | txDesc
  | txData (ptr len : Nat)
  | rxDesc (slot : Nat)
  deriving DecidableEq, Repr

/-- An outstanding non-posted request with its tag (R456). -/
structure Dma where
  inst : Nat
  gen  : Nat
  ring : Nat
  kind : DmaKind
  /-- offset of this part of a data read, and whether another part of it was lost -/
  off  : Nat := 0
  lost : Bool := false
  deriving DecidableEq, Repr

/-- A DMA operation that waits in the HIF for its link, with its tag (R456). -/
inductive DmaOp where
  | read (d : Dma) (addr len : Nat)
  | write (inst gen addr : Nat) (bytes : List Byte)
  deriving DecidableEq, Repr

/-- What the HIF holds of a ring beyond its registers: producer indices, the transmit descriptor read and not yet done, the receive
descriptors read (slot and buffer address), and moderation: 0 none, 1 in the window, 2 with a message due (R452–R455). -/
structure Ring where
  txPi : Nat := 0
  rxPi : Nat := 0
  txD  : Option Nat := none
  rxD  : List (Nat × Nat) := []
  rxNext : Nat := 0
  mod_ : Nat := 0
  deriving DecidableEq, Repr

/-- The fuse array (R513). SVN is two bit masks of 64 (R514). [DESIGN CHOICE, log 8] -/
structure Fuses where
  uds    : Nat := 0
  serial : Nat := 0
  vkhRsa : Nat := 0
  vkhSlh : Nat := 0
  svnA   : Nat := 0
  svnB   : Nat := 0
  okhRsa : Nat := 0
  okhSlh : Nat := 0
  ownEn  : Bool := false
  ownReq : Bool := false
  dbgDis : Bool := false
  slotB  : Nat := 0
  deriving DecidableEq, Repr

/-- Pins and straps the machine drives or reads (R602–R619): rail enables and power-goods, THERMTRIP_N asserted, the sequencer waiting
out its second, a POR_N release still to come, strap codes, and the SSC codes latched. [DESIGN CHOICE, log 9; DESIGN CHOICE, log 119] -/
structure Pins where
  enMain   : Bool := true
  enHbm    : Bool := true
  pgMain   : Bool := true
  pgHbm    : Bool := true
  therm    : Bool := false
  retry    : Bool := false
  por      : Bool := true
  filtRst  : Nat := 0
  filtTime : Nat := 0
  slewIo18 : Nat := 0
  slewIo33 : Nat := 0
  sscSel   : Nat := 0
  sscFm    : Nat := 0
  sscSelL  : Nat := 0
  sscFmL   : Nat := 0
  deriving DecidableEq, Repr

/-- The state of the block. -/
structure State where
  /-- commands waiting, first in, first out -/
  pending : List Instr := []
  /-- ticks of 2 ns since power-up: the model's own clock for cycle counts and time since an event -/
  clk     : Nat := 0
  /-- the model's own number of the next free value (`Config.freeValue`) -/
  freeCtr : Nat := 0
  /-- the tick at which each port's hold timer ends (R353) -/
  holdEnd : SMap Nat := []
  /-- registers of the map at their addresses; an unlisted register holds its reset value (R575, R576) -/
  regs    : SMap W32 := []
  /-- values latched for a reader: agent × 2^32 + address (R582) -/
  latches : SMap (Option W32) := []
  /-- data of the last register read, as its requester received it -/
  rdata   : W32 := 0
  /-- tick in which the completion point of a long operation fell, plus one, by the register that shows ABORT_ST (R549) -/
  doneAt  : SMap Nat := []
  /-- what the outside has seen, oldest first -/
  outs    : List Out := []
  time    : TimeSt := {}
  thrs    : SMap Thr := []
  engs    : SMap Eng := []
  tasks   : SMap Tce := []
  /-- ready lists: agent × 64 + priority (R393) -/
  ready   : SMap (List Nat) := []
  /-- delay list of each tick group: difference and task (R403) -/
  delays  : SMap (List (Nat × Nat)) := []
  /-- deadline and task of armed timeouts and delays of timeout groups, soonest first (R402) -/
  tmouts  : List (Nat × Nat) := []
  locks   : SMap Lock := []
  /-- the on-die Tephra ring (R406) -/
  tephra  : SMap Word := []
  /-- memories at their internal addresses of R152: engine, cluster and pipeline RAM, instruction RAM, control SRAM, HBM -/
  mem     : SMap Byte := []
  /-- cores with a core wake signalled while a context of theirs sleeps (R489) -/
  coreWakes : List Nat := []
  pkts    : SMap Pkt := []
  /-- the next packet, lookup and copy-store number -/
  nextId  : Nat := 0
  /-- frames waiting for the parser of a pipeline: pipeline × 128 + port (R89), and the port each parser served last -/
  srcQ    : SMap (List Nat) := []
  parsed  : SMap Nat := []
  /-- lookups in flight (R217), and source checks waiting at each half (R273) -/
  lkps    : SMap Lkp := []
  srcChks : SMap (List SrcChk) := []
  /-- near-buffer bytes: pointer × 16384 + offset; buffer descriptors by pointer (R309) -/
  near    : SMap Byte := []
  bufs    : SMap Word := []
  pools   : SMap Pool := []
  accts   : SMap Acct := []
  /-- classes for which the last flow-control frame a MAC sent says XOFF (R54) -/
  pfcSent : SMap Nat := []
  /-- deep blocks freed (top first), the first block never taken, frames that lie in each block, and the open block of each VOQ with the
  bytes used in it (R324–R327) -/
  deepStk  : List Nat := []
  deepNext : Nat := 0
  deepRefs : SMap Nat := []
  deepOpen : SMap (Option (Nat × Nat)) := []
  /-- buffers allocated or freed while an audit walk runs (R323) -/
  audSkip : SMap Bool := []
  /-- contexts committed by I11 of a pipeline and not yet enqueued (R123) -/
  voqIn   : SMap (List Nat) := []
  /-- queues of Caldera: input × 1024 + port × 8 + class, + 576 + session for mirror queues of inputs 0–15 (R336) -/
  voqs    : SMap (List VEnt) := []
  /-- the copy store: references left and the packet that records owner, account and chain (R348) -/
  copies  : SMap (Option (Nat × Pkt)) := []
  /-- accepted connections with their inputs, oldest first (R341) -/
  conns   : List (Nat × Conn) := []
  /-- grant, accept and port pointers (R339); the round that runs next and the cell time it runs in (R338) -/
  gp      : SMap Nat := []
  ap      : SMap Nat := []
  pp      : SMap Nat := []
  round   : Nat := 3
  cellT   : Nat := 0
  /-- class queues: port × 8 + class (R364), and the frame each rewrite helper works on -/
  txq     : SMap (List Nat) := []
  txs     : SMap (Option Tx) := []
  /-- shaper credits in 10^-6 bits: port × 8 + class (R367); virtual times in 2^-16 ns: ports 0–63, groups 64–79 (R369) -/
  creds   : SMap Int := []
  vts     : SMap Nat := []
  /-- wheel slot (not reduced) of each entity on the wheel, time in 2^-16 ns of each on the overflow list, and the last slot boundary
  passed (R371) -/
  wheel   : SMap Nat := []
  ovf     : SMap Nat := []
  slotNow : Nat := 0
  /-- quanta of the pause of a class: port × 8 + class (R53) -/
  quanta  : SMap Nat := []
  /-- stamp FIFO of each port: tag and stamp in 2^-16 ns (R51) -/
  stamps  : SMap (List (Nat × Nat)) := []
  meters  : SMap Meter := []
  /-- ticks of the model's clock to subtract for the cycle count of a clock domain: PIPE 0–15, CTL 16, AON 17 (R149, R496) -/
  cycBase : SMap Nat := []
  /-- poison words of HBM, by 64-byte word (R477) -/
  poison  : SMap Bool := []
  /-- the request queue of each bank, keyed by pseudo-channel and bank, oldest first; the requests that wait for an entry; the bank last
  served of each pseudo-channel (R467, R471, R472) -/
  hbmQ    : SMap (List HbmReq) := []
  hbmWait : List HbmReq := []
  hbmLast : SMap Nat := []
  /-- words of remapped pages written since the fill of a fence (R480) -/
  refilled : SMap Bool := []
  /-- the fill of the remapped pages runs (R480) -/
  hbmFill : Bool := false
  /-- the error log, oldest first (R540) -/
  rasLog  : List Nat := []
  /-- MSI-X vectors whose mask bit is clear, those whose pending bit is set, and those whose mask holds a message of a ring or mailbox
  (R429, R450, R455) -/
  vecOpen : SMap Bool := []
  vecPend : SMap Bool := []
  vecMsg  : SMap Bool := []
  /-- target of a mode transition that is draining (R493, R495, R500, R501) -/
  going   : Option Nat := none
  /-- the drain of that transition has ended and its commit point comes next (R499) -/
  goCommit : Bool := false
  linkReps : List LinkRep := []
  /-- wake sources that have fired since the sleep was ordered, bit by bit (R499, R504); a replay is due at the next FORWARD or COMPAT
  (R506); the hold buffer -/
  wakePend : Nat := 0
  replay   : Bool := false
  hold     : List Held := []
  /-- doorbells held for a sleep (R500): transmit or not, instance, ring of the page, index -/
  dbHeld   : List (Bool × Nat × Nat × Nat) := []
  /-- ticks of the watchdog expiries with action 0b10 of each pipeline (R543), of the uncorrectable errors of each pseudo-channel (R479) -/
  wdogAt   : SMap (List Nat) := []
  ueAt     : SMap (List Nat) := []
  /-- retrains deferred to the exit from self-refresh (R482), consecutive failures (R479), spill blocks withdrawn (R480) -/
  rtDue    : SMap Bool := []
  rtFails  : SMap Nat := []
  withdrawn : Bool := false
  pins     : Pins := {}
  fuses    : Fuses := {}
  flash    : SMap Byte := []
  /-- measurement registers (R523), program records of clusters: SHA-384 and length (R526) -/
  mrs      : SMap Nat := []
  progs    : SMap (Option (Nat × Nat)) := []
  /-- on-die and overflow entries at bucket × 4 + slot and 2^21 + slot (R212, R214) -/
  em       : SMap EmEnt := []
  /-- ternary rows; the moves and the write still to come of an INSERT (R245) -/
  tcr      : SMap (Option TcRow) := []
  /-- a commit is pending (R254) -/
  commitPend : Bool := false
  mrMoves  : List (Nat × Nat) := []
  mrIns    : Option (Nat × TcRow) := none
  /-- buckets in the bucket cache of each half with their bytes: half × 4096 + set, latest use first (R220) -/
  bcache   : SMap (List (Nat × List Byte)) := []
  /-- slots of the exact-match stores and rows of the ternary arrays found uncorrectable in both halves and not written since
  (R219, R228, R244, R248) -/
  emBad    : SMap Bool := []
  tcBad    : SMap Bool := []
  /-- on-die counter pairs: half × 2^20 + index (R218) -/
  ctrs     : SMap (Nat × Nat) := []
  /-- the dirty map (R253): on-die bucket, 2^20 + overflow group, 2^21 + row, 2^23 + deep group -/
  dirty    : SMap Bool := []
  /-- learns queued at each half, learn frames that came to port 68, their records not yet handled, records of the open frame -/
  learnQ   : SMap (List Learn) := []
  lrnIn    : List (List Byte) := []
  lrnRecs  : List LrnRec := []
  lrnOpen  : List LrnRec := []
  peers    : SMap Peer := []
  /-- moving addresses: half × 2^64 + BD and MAC, latest move first -/
  damps    : List (Nat × Damp) := []
  /-- tick of the last refresh write of each bucket (R291), and the positions of a flush and of a dump (R289) -/
  rfAt     : SMap Nat := []
  lrnPos   : Nat := 0
  dumpPos  : Nat := 0
  /-- VF Enable of each host's PF; resources in force and staged, as the parameter words of the instance page; held resets; outstanding
  requests; rings (R443–R460) -/
  vfEn     : SMap Bool := []
  instRes  : SMap (Option (List W32)) := []
  instStg  : SMap (Option (List W32)) := []
  rstHeld  : SMap Bool := []
  dmas     : SMap (Option Dma) := []
  /-- DMA operations that wait for their link, oldest first (R456) -/
  dmaQ     : List DmaOp := []
  rings    : SMap Ring := []
  /-- DEV_MODE has reached CONFIGURE since reset (R606) -/
  cfgReady : Bool := false
  /-- FUM_ENTRY of the image that booted (R517) -/
  fumEntry : Nat := 0
  /-- SVN of the stage-1 image that booted (R520) -/
  bootSvn  : Nat := 0
  /-- the mailbox buffer of a debug token (R558), and the boundary-scan cells (R555) -/
  mbx      : SMap Byte := []
  bsr      : List Bool := []
  /-- the control cores have been released by boot (R518) -/
  released : Bool := false
  deriving DecidableEq, Repr

/-- The block right after reset: every register at its reset value, every memory and queue empty, mode RESET (R494, R512).
[DESIGN CHOICE, log 4; DESIGN CHOICE, log 6; DESIGN CHOICE, log 8; DESIGN CHOICE, log 9; DESIGN CHOICE, log 10] -/
def State.reset : State := {}

end Sys2Proof.Machine
end

