-- ==== Sys2Proof/Machine/Ops.lean ====
section
/-! DEFINITION. The named operations every block uses: registers and their fields, counters, interrupt causes, violation
captures, memories, scheduling time. -/

namespace Sys2Proof.Machine

/-! ### Pages (R575, R576) -/

/-- The page at a register address, with its number within its kind. The pages of instances have model addresses of their own,
0x1000_0000 + i × 0x1000, since requesters reach them through selected and own views (R466). -/
def pageOf (a : Nat) : Option (PageKind × Nat) :=
  let n := a / 0x1000
  if n = 0 then some (.dev, 0)
  else if n = 0x10 then some (.time, 0)
  else if n = 0x20 then some (.irqMain, 0)
  else if 0x21 ≤ n ∧ n < 0x25 then some (.irqSrc, n - 0x21)
  else if n = 0x30 then some (.tsk, 0)
  else if n = 0x40 then some (.lckMain, 0)
  else if 0x41 ≤ n ∧ n < 0x45 then some (.lckPage, n - 0x41)
  else if 0x80 ≤ n ∧ n < 0xC0 then some (.port, n - 0x80)
  else if 0xC0 ≤ n ∧ n < 0xC8 then some (.sds, n - 0xC0)
  else if 0x100 ≤ n ∧ n < 0x110 then some (.parse, n - 0x100)
  else if 0x200 ≤ n ∧ n < 0x300 then some (.eng, n - 0x200)
  else if 0x300 ≤ n ∧ n < 0x340 then some (.clu, n - 0x300)
  else if n = 0x400 ∨ n = 0x500 then some (.em, (n - 0x400) / 0x100)
  else if n = 0x401 ∨ n = 0x402 ∨ n = 0x501 ∨ n = 0x502 then some (.emDesc, (n - 0x401) / 0x100 * 2 + (n - 0x401) % 0x100)
  else if n = 0x403 ∨ n = 0x503 then some (.tc, (n - 0x403) / 0x100)
  else if n = 0x404 ∨ n = 0x504 then some (.view, (n - 0x404) / 0x100)
  else if n = 0x600 then some (.lrnDev, 0)
  else if n = 0x601 ∨ n = 0x602 then some (.lrnHalf, n - 0x601)
  else if n = 0x603 then some (.lrnAge, 0)
  else if n = 0x604 then some (.lrnLim, 0)
  else if n = 0x700 then some (.sintMain, 0)
  else if 0x701 ≤ n ∧ n < 0x705 then some (.sintAcc, n - 0x701)
  else if n = 0x800 then some (.xbar, 0)
  else if n = 0x900 then some (.tmMain, 0)
  else if 0x910 ≤ n ∧ n < 0x950 then some (.tmPort, n - 0x910)
  else if n = 0xA00 ∨ n = 0xA01 then some (.mtr, n - 0xA00)
  else if n = 0xB00 then some (.hifMain, 0)
  else if n = 0xC00 then some (.hbmMain, 0)
  else if 0xC10 ≤ n ∧ n < 0xC30 then some (.hbmCh, n - 0xC10)
  else if n = 0xD00 then some (.sec, 0)
  else if n = 0xE00 then some (.ras, 0)
  else if n = 0xF00 then some (.dbg, 0)
  else if n = 0xF80 then some (.aon, 0)
  else if 0x10000 ≤ n ∧ n < 0x10100 then some (.inst, n - 0x10000)
  else none

/-- Block type and number a page shows in PAGE_ID (R575, R576). -/
def pageType : PageKind → Nat → Nat × Nat
  | .dev, _ => (0x0000, 0) | .time, _ => (0x0001, 0) | .irqMain, _ => (0x0002, 0) | .irqSrc, i => (0x0002, i + 1)
  | .tsk, _ => (0x0003, 0) | .lckMain, _ => (0x0004, 0) | .lckPage, i => (0x0004, i + 1) | .port, i => (0x0008, i)
  | .sds, i => (0x000C, i) | .parse, i => (0x0010, i) | .eng, i => (0x0020, i) | .clu, i => (0x0030, i)
  | .em, i => (0x0040 + i * 0x10, 0) | .emDesc, i => (0x0040 + i / 2 * 0x10, 1 + i % 2) | .tc, i => (0x0040 + i * 0x10, 3)
  | .view, i => (0x0040 + i * 0x10, 4) | .lrnDev, _ => (0x0060, 0) | .lrnHalf, i => (0x0060, i + 1)
  | .lrnAge, _ => (0x0060, 3) | .lrnLim, _ => (0x0060, 4) | .sintMain, _ => (0x0070, 0) | .sintAcc, i => (0x0070, i + 1)
  | .xbar, _ => (0x0080, 0) | .tmMain, _ => (0x0090, 0) | .tmPort, i => (0x0091, i) | .mtr, i => (0x00A0, i)
  | .hifMain, _ => (0x00B0, 0) | .inst, i => (0x00B1, i) | .db, i => (0x00B2, i) | .hbmMain, _ => (0x00C0, 0)
  | .hbmCh, i => (0x00C1, i) | .sec, _ => (0x00D0, 0) | .ras, _ => (0x00E0, 0) | .dbg, _ => (0x00F0, 0) | .aon, _ => (0x00F8, 0)

/-- Pages of the block of a page (PAGE_CAP.PAGES, R575). -/
def pageCount : PageKind → Nat
  | .irqMain | .irqSrc | .lckMain | .lckPage | .em | .emDesc | .tc | .view | .lrnDev | .lrnHalf | .lrnAge | .lrnLim
  | .sintMain | .sintAcc => 5
  | .port | .clu | .tmPort => 64 | .sds => 8 | .parse => 16 | .eng => 256 | .mtr => 2 | .hbmCh => 32
  | _ => 1

/-- Whether a page raises an interrupt: the pages that R423 gives a source. -/
def pageInt : PageKind → Bool
  | .clu | .emDesc | .sintAcc | .irqMain | .irqSrc | .lckPage | .db | .lrnAge | .lrnLim | .hifMain => false
  | _ => true

/-- The page whose INT_STAT is a source (R423): its base address. -/
def srcPage (n : Nat) : Option Nat :=
  if n < 0x100 then some (0x200000 + n * 0x1000)
  else if n < 0x140 then some (0x80000 + (n - 0x100) * 0x1000)
  else if n < 0x180 then some (0x910000 + (n - 0x140) * 0x1000)
  else if n < 0x190 then some (0x100000 + (n - 0x180) * 0x1000)
  else if n < 0x198 then some (0xC0000 + (n - 0x190) * 0x1000)
  else if n = 0x198 then some 0x10000 else if n = 0x199 then some 0x30000 else if n = 0x19A then some 0x40000
  else if n = 0x19B then some 0x800000 else if n = 0x19C then some 0x700000 else if n = 0x19D then some 0x900000
  else if n = 0x19E then some 0xA00000 else if n = 0x19F then some 0xA01000
  else if n = 0x1A0 then some 0x400000 else if n = 0x1A1 then some 0x500000
  else if n = 0x1A2 then some 0x403000 else if n = 0x1A3 then some 0x503000 else if n = 0x1A4 then some 0x404000
  else if n = 0x1A5 then some 0x600000 else if n = 0x1A6 then some 0x601000 else if n = 0x1A7 then some 0x602000
  else if 0x200 ≤ n ∧ n < 0x300 then some (0x10000000 + (n - 0x200) * 0x1000)
  else if n = 0x300 then some 0xC00000
  else if 0x301 ≤ n ∧ n < 0x321 then some (0xC10000 + (n - 0x301) * 0x1000)
  else if n = 0x340 then some 0 else if n = 0x341 then some 0xD00000 else if n = 0x342 then some 0xE00000
  else if n = 0x343 then some 0xF00000 else if n = 0x344 then some 0xF80000
  else none

/-! ### Descriptors and reset values -/

/-- Whether an offset falls on an element of an array of registers, its dimensions listed widest stride first. -/
def onGrid : List (Nat × Nat) → Nat → Bool
  | [], o => o == 0
  | (n, st) :: ds, o => decide (o / st < n) && onGrid ds (o % st)

/-- Whether a descriptor covers a page offset. The second register of a 64-bit counter is covered too. -/
def RegD.covers (r : RegD) (o : Nat) : Bool :=
  decide (r.off ≤ o) && (onGrid r.dims (o - r.off) || (r.wide && decide (r.off + 4 ≤ o) && onGrid r.dims (o - r.off - 4)))

/-- Whether an offset of a page lies in an array beyond the elements that exist: the fourth account page ends with account 772 (R312,
R333). -/
def beyond (k : PageKind) (i o : Nat) : Bool := k == .sintAcc && i == 3 && decide (0x400 ≤ o) && decide (5 ≤ o % 0x400 / 4)

/-- The descriptor of a register beyond the common header. -/
def descOf (a : Nat) : Option RegD :=
  match pageOf a with
  | some (k, i) => if beyond k i (a % 0x1000) then none else k.regs.find? (fun r => r.covers (a % 0x1000))
  | none => none

/-- Whether an address is the high half of a 64-bit counter. -/
def isHigh (a : Nat) : Bool :=
  match descOf a with
  | some r => r.wide && decide (r.off + 4 ≤ a % 0x1000) && !(onGrid r.dims (a % 0x1000 - r.off))
  | none => false

/-- What a register holds after reset (R576 and the register tables; the counts of the pools, R305; the page constants). The
registers of rings and of the selected groups and measurement registers have model addresses from 0x1100_0000 on.
[DESIGN CHOICE, log 1; DESIGN CHOICE, log 4; DEDUCED, log 78] -/
def regDefault (a : Nat) : W32 :=
  if 0x11000000 ≤ a then (if a < 0x12000000 ∧ a % 0x100 = 0x9C then 2048 else 0)
  else if R.SINT_POOL_CNT 0 ≤ a ∧ a < R.SINT_POOL_CNT 0 + 0x20 ∧ a % 4 = 0 then
    match (a - R.SINT_POOL_CNT 0) / 4 % 4 with
    | 0 => 32768 | 1 => 8192 | 2 => 16384 | _ => 4096
  else match pageOf a with
    | none => 0
    | some (k, i) =>
      let o := a % 0x1000
      if o = 0 then BitVec.ofNat 32 ((pageType k i).1 * 0x10000 + (pageType k i).2 * 0x100 + 1)
      else if o = 4 then BitVec.ofNat 32 (b2n (pageInt k) * 2 ^ 31 + b2n (k == .eng) * 2 ^ 30 + pageCount k % 256 * 0x10000)
      else if o = 8 then 0x80000000
      else if beyond k i o then 0
      else match k.regs.find? (fun r => r.covers o) with
        | some r => BitVec.ofNat 32 (r.flds.foldl (fun n f => n + f.rst * 2 ^ f.fld.lo) 0)
        | none => 0

/-! ### Registers and fields -/

/-- The bits of a field. -/
def getF (v : W32) (f : Fld) : Nat := bits v.toNat f.hi f.lo

/-- A register with a field replaced. -/
def setF (v : W32) (f : Fld) (x : Nat) : W32 :=
  BitVec.ofNat 32 (v.toNat - getF v f * 2 ^ f.lo + x % 2 ^ (f.hi + 1 - f.lo) * 2 ^ f.lo)

/-- What a register holds. [DESIGN CHOICE, log 1] -/
def State.reg (s : State) (a : Nat) : W32 := smGet regDefault s.regs a

/-- The state with a register set. [DESIGN CHOICE, log 1] -/
def State.setReg (s : State) (a : Nat) (v : W32) : State := { s with regs := smSet regDefault s.regs a v }

/-- What a field of a register holds. -/
def State.fld (s : State) (a : Nat) (f : Fld) : Nat := getF (s.reg a) f

/-- Whether a field of a register is not zero. -/
def State.flag (s : State) (a : Nat) (f : Fld) : Bool := decide (s.fld a f ≠ 0)

/-- The state with a field of a register set. -/
def State.setFld (s : State) (a : Nat) (f : Fld) (x : Nat) : State := s.setReg a (setF (s.reg a) f x)

/-- A 32-bit counter counts once more; it saturates. -/
def State.cnt (s : State) (a : Nat) : State :=
  if s.reg a = 0xFFFFFFFF then s else s.setReg a (s.reg a + 1)

/-- A 32-bit counter counts `n` more; it saturates. -/
def State.cntN (s : State) (a n : Nat) : State := s.setReg a (BitVec.ofNat 32 (min 0xFFFFFFFF ((s.reg a).toNat + n)))

/-- The value of a 64-bit pair, low word first (R582). -/
def State.reg64 (s : State) (a : Nat) : Nat := (s.reg a).toNat + (s.reg (a + 4)).toNat * 2 ^ 32

/-- The state with a 64-bit pair set. -/
def State.setReg64 (s : State) (a n : Nat) : State :=
  (s.setReg a (BitVec.ofNat 32 n)).setReg (a + 4) (BitVec.ofNat 32 (n / 2 ^ 32))

/-- A 64-bit counter counts `n` more. -/
def State.cnt64 (s : State) (a n : Nat) : State := s.setReg64 a ((s.reg64 a + n) % 2 ^ 64)

/-- A cause bit of a page's INT_RAW is latched (R576). -/
def State.raise (s : State) (page b : Nat) : State := s.setReg (page + 0x10) (s.reg (page + 0x10) ||| BitVec.ofNat 32 (2 ^ b))

/-- INT_STAT of a page: INT_RAW AND INT_EN while PAGE_CTL.EN = 1 (R576). -/
def State.intStat (s : State) (page : Nat) : W32 :=
  if (s.reg (page + 8)).getLsbD 31 then s.reg (page + 0x10) &&& s.reg (page + 0x14) else 0

/-- A violation is captured in VIOL_CAP of a page (R584): every field is written, and a capture not yet read sets VOVF. -/
def State.viol (s : State) (page agent type seg off : Nat) : State :=
  let s1 := if getF (s.reg (page + 0x1C)) ⟨19, 16⟩ = 0 then s
            else s.setReg (page + 0xC) (s.reg (page + 0xC) ||| 0x20000000)
  s1.setReg (page + 0x1C)
    (BitVec.ofNat 32 (agent % 4096 * 2 ^ 20 + type % 16 * 2 ^ 16 + seg % 16 * 2 ^ 12 + off % 4096))

/-- A register access of `agent` at `addr` follows the violation rule and is captured in its own page (R585). -/
def State.violAt (s : State) (agent type addr : Nat) : State :=
  s.viol (addr / 0x1000 * 0x1000) agent type 0 (addr % 0x1000)

/-- The next free value, and the state that has used it. [DESIGN CHOICE, log 11] -/
def State.fresh (s : State) : Word × State := (Config.freeValue s.freeCtr, { s with freeCtr := s.freeCtr + 1 })

/-- Something the outside sees. [DESIGN CHOICE, log 122] -/
def State.emit (s : State) (o : Out) : State := { s with outs := s.outs ++ [o] }

/-! ### Completion points (R549) -/

/-- The completion point of the long operation that shows ABORT_ST in register `a` falls in this cycle. -/
def State.point (s : State) (a : Nat) : State := { s with doneAt := smSet (fun _ => 0) s.doneAt a (s.clk + 1) }

/-- Whether the completion point of that operation fell in this cycle. [DESIGN CHOICE, log 124] -/
def State.atPoint (s : State) (a : Nat) : Bool := smGet (fun _ => 0) s.doneAt a == s.clk + 1

/-- An abort written while the operation does not run (R549): in the cycle of its completion point it reads TOO_LATE, and otherwise it
has no effect. -/
def State.lateAbort (s : State) (a : Nat) (f : Fld) : State := if s.atPoint a then s.setFld a f 2 else s

/-! ### Modes (R10) -/

/-- DEV_MODE.MODE. -/
def State.mode (s : State) : Nat := s.fld R.DEV_MODE F.DEV_MODE_MODE

def mOFF : Nat := 0
def mRESET : Nat := 1
def mBOOT : Nat := 2
def mCONFIGURE : Nat := 3
def mFORWARD : Nat := 4
def mCOMPAT : Nat := 5
def mMAINTAIN : Nat := 6
def mDIAGNOSE : Nat := 7
def mDEGRADED : Nat := 8
def mRECOVER : Nat := 9
def mSIMMER : Nat := 10
def mDORMANT : Nat := 11

/-! ### Memories (R152, R155) -/

/-- Every byte of memory that nothing has written reads zero. [DESIGN CHOICE, log 5] -/
def byte0 : Nat → Byte := fun _ => 0

/-- One byte at an internal address. [DESIGN CHOICE, log 5] -/
def State.rd8 (s : State) (a : Nat) : Byte := smGet byte0 s.mem a

/-- The state with one byte stored. -/
def State.wr8 (s : State) (a : Nat) (b : Byte) : State := { s with mem := smSet byte0 s.mem a b }

/-- Bytes read from rising addresses of a byte map. -/
def rdMap (m : SMap Byte) (a : Nat) : Nat → List Byte
  | 0 => []
  | n + 1 => smGet byte0 m a :: rdMap m (a + 1) n

/-- A byte map with bytes stored at rising addresses. -/
def wrMap (m : SMap Byte) (a : Nat) : List Byte → SMap Byte
  | [] => m
  | b :: bs => wrMap (smSet byte0 m a b) (a + 1) bs

/-- `n` bytes of memory from an address on. -/
def State.rdBytes (s : State) (a n : Nat) : List Byte := rdMap s.mem a n

/-- The state with bytes stored from an address on. -/
def State.wrBytes (s : State) (a : Nat) (bs : List Byte) : State := { s with mem := wrMap s.mem a bs }

/-- A little-endian value of `n` bytes in memory. -/
def State.rdLE (s : State) (a n : Nat) : Nat := valLE (s.rdBytes a n)

/-- The state with a little-endian value of `n` bytes stored. -/
def State.wrLE (s : State) (a n v : Nat) : State := s.wrBytes a (bytesLE n v)

/-! ### Records of threads, engines, tasks and locks -/

def State.thr (s : State) (a : Nat) : Thr := smGet (fun _ => {}) s.thrs a
def State.setThr (s : State) (a : Nat) (t : Thr) : State := { s with thrs := smSet (fun _ => {}) s.thrs a t }
def State.eng (s : State) (e : Nat) : Eng := smGet (fun _ => {}) s.engs e
def State.setEng (s : State) (e : Nat) (g : Eng) : State := { s with engs := smSet (fun _ => {}) s.engs e g }
def State.task (s : State) (k : Nat) : Tce := smGet (fun _ => {}) s.tasks k
def State.setTask (s : State) (k : Nat) (t : Tce) : State := { s with tasks := smSet (fun _ => {}) s.tasks k t }
def State.lock (s : State) (n : Nat) : Lock := smGet (fun _ => {}) s.locks n
def State.setLock (s : State) (n : Nat) (l : Lock) : State := { s with locks := smSet (fun _ => {}) s.locks n l }
def State.readyL (s : State) (a p : Nat) : List Nat := smGet (fun _ => []) s.ready (a * 64 + p)
def State.setReadyL (s : State) (a p : Nat) (l : List Nat) : State :=
  { s with ready := smSet (fun _ => []) s.ready (a * 64 + p) l }
def State.delayL (s : State) (g : Nat) : List (Nat × Nat) := smGet (fun _ => []) s.delays g
def State.setDelayL (s : State) (g : Nat) (l : List (Nat × Nat)) : State := { s with delays := smSet (fun _ => []) s.delays g l }

/-! ### Scheduling time (R62, R77) -/

/-- One nanosecond in the units of the time unit. -/
def nsU : Nat := 2 ^ 48

/-- Scheduling time S = max(D, W) (R77). -/
def TimeSt.sched (t : TimeSt) : Nat := max t.d (t.w.getD 0)

/-- Whether a time that advances by `inc` a tick reaches `at_` in this tick. -/
def reachedIn (now inc at_ : Nat) : Bool := decide (at_ ≤ now) && decide (now < at_ + max 1 inc)

/-- Whether S reaches a time in this tick. -/
def TimeSt.reaches (t : TimeSt) (at_ : Nat) : Bool := reachedIn t.sched t.inc at_

/-- D in whole nanoseconds since the epoch. -/
def State.dNs (s : State) : Nat := s.time.d / nsU

/-- S in whole nanoseconds. -/
def State.sNs (s : State) : Nat := s.time.sched / nsU

/-- The time a triple of registers holds, in nanoseconds: nanoseconds, seconds low, seconds high, at rising addresses. -/
def State.timeAt (s : State) (a : Nat) : Nat :=
  ((s.reg (a + 4)).toNat + (s.reg (a + 8)).toNat % 65536 * 2 ^ 32) * 1000000000 + (s.reg a).toNat % 2 ^ 30

/-- The triple of registers set to a time in nanoseconds. -/
def State.setTimeAt (s : State) (a ns : Nat) : State :=
  ((s.setReg a (BitVec.ofNat 32 (ns % 1000000000))).setReg (a + 4) (BitVec.ofNat 32 (ns / 1000000000))).setReg (a + 8)
    (BitVec.ofNat 32 (ns / 1000000000 / 2 ^ 32 % 65536))

end Sys2Proof.Machine
end

