-- ==== Sys2Proof/Machine/Irq.lean ====
section
/-! DEFINITION. The operations of the interrupt controller and the error log (R423–R432, R540). -/

namespace Sys2Proof.Machine

/-! ### Power and clocks (R496) -/

/-- Whether the main rails are up: every mode but OFF, RESET and DORMANT (R496). -/
def State.mainOn (s : State) : Bool := decide (s.mode ≠ mOFF) && decide (s.mode ≠ mRESET) && decide (s.mode ≠ mDORMANT)
/-- Whether the main clocks run: not in SIMMER either (R500). -/
def State.mainClk (s : State) : Bool := s.mainOn && decide (s.mode ≠ mSIMMER)
/-- Whether a power domain is on, by its DEV_PWR bit (R496). -/
def State.domOn (s : State) (d : Nat) : Bool := s.mainOn && (s.reg R.DEV_PWR_STAT).toNat.testBit d
/-- Whether the power domain of a page is on (R496). -/
def State.pageOn (s : State) (a : Nat) : Bool :=
  match pageOf a with
  | some (.port, x) => s.domOn (x / 4)
  | some (.sds, m) => s.domOn (2 * m) || s.domOn (2 * m + 1)
  | some (.parse, p) => s.domOn p
  | some (.eng, e) => s.domOn (e / 16)
  | some (.clu, c) => s.domOn (c / 4)
  | some (.em, h) => s.domOn (16 + h)
  | some (.emDesc, k) => s.domOn (16 + k / 2)
  | some (.tc, h) => s.domOn (16 + h)
  | some (.view, h) => s.domOn (16 + h)
  | some (.lrnHalf, h) => s.domOn (16 + h)
  | some (.mtr, h) => s.domOn (16 + h)
  | _ => true

/-! ### Sources (R423, R424) -/

/-- Whether a GPIO input asserts its source, by its detection mode (R512). -/
def State.gpioAsserted (s : State) (g : Nat) : Bool :=
  let m := s.fld (R.AON_GPIO_CFG g) F.AON_GPIO_CFG_MODE
  let lvl := (s.reg R.AON_GPIO_IN).toNat.testBit g
  if m = 0 then lvl else if m = 1 then !lvl else (s.reg R.AON_GPIO_LATCH).toNat.testBit g

/-- The register of soft latches that holds latch `n`. -/
def softReg (n : Nat) : Nat := if n < 32 then R.IRQ_SOFT_STAT_LO else R.IRQ_SOFT_STAT_HI

/-- Whether soft source latch `n` is set (R424). -/
def State.softLatch (s : State) (n : Nat) : Bool := (s.reg (softReg n)).toNat.testBit (n % 32)

/-- The state with soft source latch `n` set or cleared. -/
def State.setSoft (s : State) (n : Nat) (b : Bool) : State :=
  let m : W32 := BitVec.ofNat 32 (2 ^ (n % 32))
  s.setReg (softReg n) (if b then s.reg (softReg n) ||| m else s.reg (softReg n) &&& ~~~m)

/-- Whether the block of a page has power: the AON domain holds Fumarole and the time unit (R496). -/
def State.pagePower (s : State) (p : Nat) : Bool := decide (p = 0xF80000) || decide (p = 0x10000) || (s.mainOn && s.pageOn p)

/-- Whether a source is asserted (R423); that of a block without power never is (R432). [DEDUCED, log 51] -/
def State.asserted (s : State) (n : Nat) : Bool :=
  if 0x360 ≤ n ∧ n < 0x380 then s.gpioAsserted (n - 0x360)
  else if 0x380 ≤ n ∧ n < 0x3C0 then s.mainOn && s.softLatch (n - 0x380)
  else match srcPage n with
    | some p => s.pagePower p && decide (s.intStat p ≠ 0)
    | none => false

/-- Whether a source is in service. -/
def State.inService (s : State) (n : Nat) : Bool := (s.reg (R.IRQ_INSV (n / 32))).toNat.testBit (n % 32)

/-- The state with the in-service bit of a source set or cleared. -/
def State.setService (s : State) (n : Nat) (b : Bool) : State :=
  let m : W32 := BitVec.ofNat 32 (2 ^ (n % 32))
  let a := R.IRQ_INSV (n / 32)
  s.setReg a (if b then s.reg a ||| m else s.reg a &&& ~~~m)

def State.srcEn (s : State) (n : Nat) : Bool := s.flag (R.IRQ_SRC n) F.IRQ_SRC_EN
def State.srcTgt (s : State) (n : Nat) : Nat := s.fld (R.IRQ_SRC n) F.IRQ_SRC_TGT
def State.srcVec (s : State) (n : Nat) : Nat := s.fld (R.IRQ_SRC n) F.IRQ_SRC_VEC
def State.srcPrio (s : State) (n : Nat) : Nat := s.fld (R.IRQ_SRC n) F.IRQ_SRC_PRIO

/-- Whether a source is pending (R425). -/
def State.srcPending (s : State) (n : Nat) : Bool :=
  s.srcEn n && decide (1 ≤ s.srcPrio n) && !(s.inService n) && s.asserted n

/-- The sources whose IRQ_SRC register holds anything but its reset value, in order of their IDs: only they can be enabled. -/
def State.configured (s : State) : List Nat :=
  s.regs.filterMap fun e =>
    if 0x21400 ≤ e.1 ∧ e.1 < 0x25000 ∧ 0x400 ≤ e.1 % 0x1000 ∧ e.1 % 0x1000 < 0x800 then
      some ((e.1 - 0x21400) / 0x1000 * 256 + (e.1 % 0x1000 - 0x400) / 4)
    else none

/-! ### Delivery (R426, R427) -/

/-- SL of a target: the highest PRIO in service at it. -/
def State.serviceLevel (s : State) (t : Nat) : Nat :=
  s.configured.foldl (fun m n => if s.srcTgt n = t ∧ s.inService n = true then max m (s.srcPrio n) else m) 0

/-- The bar of a target (R426). -/
def State.bar (s : State) (t : Nat) : Nat := max (s.fld (R.IRQ_TCFG t) F.IRQ_TCFG_FLOOR) (s.serviceLevel t)

/-- The source a claim of a target would return (R427). -/
def State.topSource (s : State) (t : Nat) : Option Nat :=
  (s.configured.foldl (fun (acc : Option (Nat × Nat)) n =>
    if s.srcTgt n = t ∧ s.srcPending n = true ∧ s.bar t < s.srcPrio n then
      match acc with
      | some (_, p) => if p < s.srcPrio n then some (n, s.srcPrio n) else acc
      | none => some (n, s.srcPrio n)
    else acc) none).map Prod.fst

/-- Whether the request line of a target is asserted (R426, R439). -/
def State.irqLine (s : State) (t : Nat) : Bool := s.flag R.IRQ_CTL F.IRQ_CTL_EN && (s.topSource t).isSome

/-- Whether the interrupt input of a context or of the Fumarole core is driven (R426). -/
def State.irqInput (s : State) (a : Nat) : Bool :=
  if a < 0x800 then false
  else if a = 0x810 then s.irqLine 4
  else decide (s.fld (R.IRQ_TCFG ((a - 0x800) / 4)) F.IRQ_TCFG_CTX = (a - 0x800) % 4) && s.irqLine ((a - 0x800) / 4)

/-- Whether a source routed to a core is asserted with EN = 1: a wake of that core (R431). [DEDUCED, log 51] -/
def State.coreSource (s : State) (c : Nat) : Bool :=
  s.configured.any fun n => s.srcEn n && (s.srcTgt n == c) && s.asserted n

/-- A source goes in service; a soft source's latch is cleared (R424, R427, R429). -/
def State.serve (s : State) (n : Nat) : State :=
  let s1 := s.setService n true
  if 0x380 ≤ n ∧ n < 0x3C0 then s1.setSoft (n - 0x380) false else s1

/-! ### The error log (R540) -/

/-- An entry of the error log: its severity counts, and it is kept while there is room. [DEDUCED, log 86; DESIGN CHOICE, log 120] -/
def State.logErr (s : State) (sev block inst code loc : Nat) : State :=
  let s1 := if sev = 1 then s.cnt R.RAS_CE else if sev = 2 then s.cnt R.RAS_REPAIR else if sev = 3 then s.cnt R.RAS_UE else s
  if sev = 1 ∧ s.flag R.RAS_CFG F.RAS_CFG_LOG_CE = false then s1
  else
    let s2 := if 3 ≤ sev then s1.raise 0xE00000 0 else s1
    if 512 ≤ s.rasLog.length then s2.cnt R.RAS_LOG_OVF
    else
      let e := s.dNs / 1000000000 % 2 ^ 32 * 2 ^ 96 + s.dNs % 1000000000 * 2 ^ 66 + block * 2 ^ 48 + inst * 2 ^ 40 +
               sev * 2 ^ 36 + code * 2 ^ 24 + loc % 2 ^ 24
      let s3 := { s2 with rasLog := s.rasLog ++ [e] }
      if s.rasLog.length + 1 = 512 then s3.raise 0xE00000 2 else s3

end Sys2Proof.Machine
end

