-- ==== Sys2Proof/Machine/Hbm.lean ====
section
/-! DEFINITION. Where HBM accesses go (R468–R470, R477, R480): pseudo-channels, the remap of a fence, poison words. -/

namespace Sys2Proof.Machine

def hbmBase : Nat := 0x8000000000
def hbmEnd : Nat := 0x8C00000000
def hbmDeep : Nat := 0x8A00000000
def hbmCtl : Nat := 0x8B00000000
def hbmTrace : Nat := 0x8B80000000
def hbmWindow : Nat := 0x8BF8000000

/-- The pseudo-channel of an address (R468). -/
def hbmPc (a : Nat) : Nat := bits (a - hbmBase) 17 12

/-- The fenced pseudo-channel, if any (R479). -/
def State.fencedPc (s : State) : Option Nat :=
  if s.flag R.HBM_FENCE F.HBM_FENCE_FENCED then some (s.fld R.HBM_FENCE F.HBM_FENCE_PC) else none

/-- The place in the remap window of the `i`-th page remapped at the fence of pseudo-channel `f`: the pages of the window that do
not lie on `f`, in address order (R480). -/
def hbmRemapPage (f i : Nat) : Nat := hbmWindow + (i / 63 * 64 + (if i % 63 < f then i % 63 else i % 63 + 1)) * 4096

/-- Whether an address lies on a page that a fence remaps. -/
def hbmRemapped (f a : Nat) : Bool := decide (hbmPc a = f) && decide (hbmDeep ≤ a) && decide (a < hbmTrace)

/-- The location an HBM address is served from; none where the access follows the violation rule (R480). -/
def State.hbmPlace (s : State) (a : Nat) : Option Nat :=
  match s.fencedPc with
  | none => some a
  | some f =>
    if hbmRemapped f a then
      let i := if a < hbmCtl then (a - hbmDeep) / 4096 / 64 else 16384 + (a - hbmCtl) / 4096 / 64
      some (hbmRemapPage f i + a % 4096)
    else if hbmPc a = f ∨ hbmWindow ≤ a then none
    else some a

/-- Whether the 64-byte word of an address reads as uncorrectable: written as a poison word (R477), or filled at a fence and not
written since (R480). [DESIGN CHOICE, log 44] -/
def State.poisoned (s : State) (a : Nat) : Bool :=
  smGet (fun _ => false) s.poison (a / 64) ||
  (match s.fencedPc with
   | some f => hbmRemapped f a && !(smGet (fun _ => false) s.refilled (a / 64))
   | none => false)

/-- A word is written: it is poison no longer. -/
def State.unpoison (s : State) (a : Nat) : State :=
  let s1 := { s with poison := smSet (fun _ => false) s.poison (a / 64) false }
  match s.fencedPc with
  | some f => if hbmRemapped f a then { s1 with refilled := smSet (fun _ => false) s1.refilled (a / 64) true } else s1
  | none => s1

/-- Bytes read from HBM, with whether any word of them is uncorrectable. The bytes of an uncorrectable word are not given by the
spec: they are free values. [DESIGN CHOICE, log 44; DEDUCED, log 84] -/
def State.hbmRead (s : State) (a n : Nat) : List Byte × Bool :=
  let go := (List.range n).map fun i =>
    if s.poisoned (a + i) then (BitVec.ofNat 8 (Config.freeValue (s.freeCtr + i)).toNat, true)
    else match s.hbmPlace (a + i) with
      | some p => (s.rd8 p, false)
      | none => ((0 : Byte), false)
  (go.map Prod.fst, go.any Prod.snd)

/-- Bytes stored to HBM; a byte on a fenced place is lost. [DEDUCED, log 84] -/
def State.hbmWrite (s : State) (a : Nat) : List Byte → State
  | [] => s
  | b :: bs =>
    let s1 := match s.hbmPlace a with
      | some p => (s.wr8 p b).unpoison a
      | none => s
    s1.hbmWrite (a + 1) bs

/-- Whether every byte of an access has a place. -/
def State.hbmOk (s : State) (a n : Nat) : Bool := (List.range n).all fun i => (s.hbmPlace (a + i)).isSome

/-! ### Banks and their queues (R467, R468, R471, R472) -/

/-- The bank of an address: A[22:18] XOR A[27:23]. -/
def hbmBank (a : Nat) : Nat := (bits (a - hbmBase) 22 18) ^^^ (bits (a - hbmBase) 27 23)

/-- The queue of an address: pseudo-channel × 32 + bank. -/
def bankKey (a : Nat) : Nat := hbmPc a * 32 + hbmBank a

/-- The queue of a request, by the place that serves its word. -/
def State.reqKey (s : State) (r : HbmReq) : Nat := bankKey ((s.hbmPlace (64 * r.word)).getD (64 * r.word))

def State.bankQ (s : State) (k : Nat) : List HbmReq := smGet (fun _ => []) s.hbmQ k

/-- The client ports of HBM_PRIO. -/
def cDEEP : Nat := 0
def cSPILL_RD : Nat := 1
def cSPILL_WR : Nat := 2
def cCTL : Nat := 3
def cTRACE : Nat := 4

/-- A request is offered: it enters the queue of its bank, or waits while its 16 entries are taken. -/
def State.hbmOffer (s : State) (r : HbmReq) : State :=
  let k := s.reqKey r
  if 16 ≤ (s.bankQ k).length then { s with hbmWait := s.hbmWait ++ [r] }
  else { s with hbmQ := smSet (fun _ => []) s.hbmQ k (s.bankQ k ++ [r]) }

/-- The requests of one access: one for each 64-byte word that has a place. [DEDUCED, log 84] -/
def State.hbmAsk (s : State) (client : Nat) (wr : Bool) (a n : Nat) : State :=
  if n = 0 then s
  else (List.range ((a + n - 1) / 64 + 1 - a / 64)).foldl (fun t i =>
    if (t.hbmPlace (64 * (a / 64 + i))).isSome then t.hbmOffer { client := client, word := a / 64 + i, wr := wr } else t) s

/-- Bytes stored by a client. -/
def State.hbmPut (s : State) (client a : Nat) (bs : List Byte) : State := (s.hbmWrite a bs).hbmAsk client true a bs.length

/-- The priority of a request (R472). -/
def State.reqPrio (s : State) (r : HbmReq) : Nat := if r.top then 7 else (s.reg R.HBM_PRIO).toNat / 2 ^ (3 * r.client) % 8

/-- The request that enters a queue first: the highest priority, then the lowest client, then the oldest. -/
def State.bestReq (s : State) (l : List HbmReq) : Option HbmReq :=
  l.foldl (fun m r => match m with
    | some q => if s.reqPrio q < s.reqPrio r ∨ (s.reqPrio q = s.reqPrio r ∧ r.client < q.client) then some r else some q
    | none => some r) none

/-- A request that waits for a queue enters it. -/
def State.hbmAdmit (s : State) (k : Nat) : State :=
  match s.bestReq (s.hbmWait.filter fun r => s.reqKey r == k) with
  | some r => ({ s with hbmWait := s.hbmWait.erase r } : State).hbmOffer r
  | none => s

/-- The bank that a pseudo-channel serves next: after the last one served, in rotation, with a request, and ready (R471). -/
def State.nextBank (s : State) (pc : Nat) (ready : BitVec 32) : Option Nat :=
  ((List.range 32).map fun i => (smGet (fun _ => 31) s.hbmLast pc + 1 + i) % 32).find? fun b =>
    ready.getLsbD b && !((s.bankQ (pc * 32 + b)).isEmpty)

/-- Requests queued in all banks of a pseudo-channel (R487). -/
def State.qDepth (s : State) (pc : Nat) : Nat := (List.range 32).foldl (fun n b => n + (s.bankQ (pc * 32 + b)).length) 0

/-- Whether a read of a client waits, in a bank queue or for one, for a word of a range. -/
def State.reads (s : State) (client a n : Nat) : Bool :=
  (s.hbmWait ++ (s.hbmQ.map Prod.snd).flatten).any fun r => (r.client == client) && !r.wr && decide (a / 64 ≤ r.word) && decide (64 * r.word < a + n)

/-- The requests of a pseudo-channel are gone (R480). -/
def State.hbmForget (s : State) (pc : Nat) : State :=
  { s with hbmQ := smClear s.hbmQ (pc * 32) (pc * 32 + 32), hbmWait := s.hbmWait.filter fun r => s.reqKey r / 32 != pc }

/-- Whether a control context may write an HBM range (R470). -/
def hbmCtlWritable (a n : Nat) : Bool := decide (hbmCtl ≤ a) && decide (a + n ≤ hbmEnd)

end Sys2Proof.Machine
end

