-- ==== Sys2Proof/Machine/Sinter.lean ====
section
/-! DEFINITION. Sinter (R305–R333): pools, accounts and admission, ownership, frame bytes in buffers, commands, the data window and
the audit walk; the copy store (R348) and the in-flight counts of the views (R251), which every drop of a packet touches. -/

namespace Sys2Proof.Machine

/-! ### Packets and contexts (R97) -/

def State.pkt (s : State) (k : Nat) : Pkt := smGet (fun _ => {}) s.pkts k
def State.setPkt (s : State) (k : Nat) (q : Pkt) : State := { s with pkts := smSet (fun _ => {}) s.pkts k q }
/-- Whether a packet exists. -/
def State.hasPkt (s : State) (k : Nat) : Bool := (smFind s.pkts k).isSome
/-- The state with a packet removed. -/
def State.delPkt (s : State) (k : Nat) : State := { s with pkts := smErase s.pkts k }

/-- A little-endian word of a context. -/
def ctxWord (m : SMap Byte) (w : Nat) : Nat := valLE (rdMap m (8 * w) 8)
/-- A context with a word written. -/
def setCtxWord (m : SMap Byte) (w v : Nat) : SMap Byte := wrMap m (8 * w) (bytesLE 8 v)
/-- Bits of a context word. -/
def ctxF (m : SMap Byte) (w hi lo : Nat) : Nat := bits (ctxWord m w) hi lo
/-- A context with bits of a word replaced. -/
def setCtxF (m : SMap Byte) (w hi lo x : Nat) : SMap Byte :=
  setCtxWord m w (ctxWord m w - ctxF m w hi lo * 2 ^ lo + x % 2 ^ (hi + 1 - lo) * 2 ^ lo)

def cInPort (m : SMap Byte) : Nat := ctxF m 0 63 57
def cClass (m : SMap Byte) : Nat := ctxF m 0 56 54
def cView (m : SMap Byte) : Nat := ctxF m 0 53 53
def cInst (m : SMap Byte) : Nat := ctxF m 0 52 45
def cFrmLen (m : SMap Byte) : Nat := ctxF m 0 44 31
def cPass (m : SMap Byte) : Nat := ctxF m 0 30 29
def cLenKnown (m : SMap Byte) : Bool := ctxF m 0 28 28 == 1
def cDest (m : SMap Byte) : Nat := ctxF m 7 63 57
def cMc (m : SMap Byte) : Bool := ctxF m 7 56 56 == 1
def cGroup (m : SMap Byte) : Nat := ctxF m 7 55 40
def cMirSes (m : SMap Byte) : Nat := ctxF m 7 39 36
def cMirEn (m : SMap Byte) : Bool := ctxF m 7 35 35 == 1
def cDrop (m : SMap Byte) : Bool := ctxF m 7 34 34 == 1
def cDropCode (m : SMap Byte) : Nat := ctxF m 7 33 27
def cRecirc (m : SMap Byte) : Bool := ctxF m 7 26 26 == 1
def cRecircPipe (m : SMap Byte) : Nat := ctxF m 7 25 22
def cUser (m : SMap Byte) : Nat := ctxF m 7 18 0

/-- The express class of the device: EXP_CLASS of engine 0 (R114, R325, R368). -/
def State.expClass (s : State) : Nat := s.fld (R.ENG_CTL 0) F.ENG_CTL_EXP_CLASS

/-! ### Pools (R305–R309) -/

def poolSize : Nat → Nat
  | 0 => 256 | 1 => 1024 | 2 => 2560 | _ => 10240

/-- A pool after reset. -/
def pool0 : Nat → Pool
  | 0 => { cnt := 32768 } | 1 => { cnt := 8192 } | 2 => { cnt := 16384 } | _ => { cnt := 4096 }

def State.pool (s : State) (k : Nat) : Pool := smGet pool0 s.pools k
def State.setPool (s : State) (k : Nat) (p : Pool) : State := { s with pools := smSet pool0 s.pools k p }

/-- Pointers on the stack of a pool. -/
def Pool.free (p : Pool) : Nat := p.stack.length + (p.cnt - p.next)

/-- Whether a number is that of an agent (R7); the others are unassigned and never recorded. -/
def isAgent (a : Nat) : Bool :=
  decide (a ≤ 0x811) || (decide (0x900 ≤ a) && decide (a < 0xA00)) || (decide (0xA00 ≤ a) && decide (a ≤ 0xA47))

def noBuf : Nat := 0xFFFFFF
def ptrPool (p : Nat) : Nat := p / 2 ^ 22
def ptrIdx (p : Nat) : Nat := p % 2 ^ 22
/-- Whether a pointer names a buffer of its pool. -/
def State.ptrOk (s : State) (p : Nat) : Bool := decide (p < 2 ^ 24) && decide (ptrIdx p < (s.pool (ptrPool p)).cnt)

def State.desc (s : State) (p : Nat) : Word := smGet (fun _ => (0xFFFFFF * 2 ^ 16 : Word)) s.bufs p
def State.setDesc (s : State) (p : Nat) (d : Word) : State := { s with bufs := smSet (fun _ => (0xFFFFFF * 2 ^ 16 : Word)) s.bufs p d }
def descOwner (d : Word) : Nat := bits d.toNat 63 52
def descAcct (d : Word) : Nat := bits d.toNat 51 42
def descNext (d : Word) : Nat := bits d.toNat 39 16
def descBytes (d : Word) : Nat := bits d.toNat 13 0
def mkDesc (owner acct next bytes : Nat) : Word :=
  BitVec.ofNat 64 (owner % 4096 * 2 ^ 52 + acct % 1024 * 2 ^ 42 + next % 2 ^ 24 * 2 ^ 16 + bytes % 2 ^ 14)

/-- A running audit walk leaves out a buffer (R323). -/
def State.audSkipIf (s : State) (p : Nat) : State :=
  if s.fld R.SINT_AUDIT F.SINT_AUDIT_STATE = 1 then { s with audSkip := smSet (fun _ => false) s.audSkip p true } else s

/-- The top of a pool's stack is popped (R308). -/
def State.popBuf (s : State) (k : Nat) : Option (Nat × State) :=
  let p := s.pool k
  match p.stack with
  | i :: l => some (k * 2 ^ 22 + i, ((s.setPool k { p with stack := l }).cnt64 (R.SINT_ALLOC k) 1).audSkipIf (k * 2 ^ 22 + i))
  | [] =>
    if p.next < p.cnt
    then some (k * 2 ^ 22 + p.next, ((s.setPool k { p with next := p.next + 1 }).cnt64 (R.SINT_ALLOC k) 1).audSkipIf (k * 2 ^ 22 + p.next))
    else none

/-- A pointer is pushed; a push onto a full stack is discarded and counted (R308). -/
def State.pushBuf (s : State) (ptr : Nat) : State :=
  let k := ptrPool ptr
  let p := s.pool k
  let s1 := (s.cnt64 (R.SINT_FREE k) 1).audSkipIf ptr
  if p.free < p.cnt then s1.setPool k { p with stack := ptrIdx ptr :: p.stack }
  else (s1.cnt R.SINT_STK_OVF).raise 0x700000 2

/-! ### Accounts (R312–R315) -/

def State.acct (s : State) (a : Nat) : Acct := smGet (fun _ => {}) s.accts a
def State.setAcct (s : State) (a : Nat) (c : Acct) : State := { s with accts := smSet (fun _ => {}) s.accts a c }

def State.aMin (s : State) (a : Nat) : Nat := s.fld (R.A_CFG a) F.A_CFG_MIN * 1024
def State.aHdrm (s : State) (a : Nat) : Nat := if a < 512 then s.fld (R.A_CFG a) F.A_CFG_HDRM * 4096 else 0

/-- Bytes of the pools in use. -/
def State.poolBytes (s : State) : Nat := (List.range 4).foldl (fun n k => n + (s.pool k).cnt * poolSize k) 0

/-- Bytes reserved as minima and headroom: only accounts whose A_CFG differs from its reset value count. -/
def State.reserved (s : State) : Nat :=
  s.regs.foldl (fun n e =>
    if 0x701400 ≤ e.1 ∧ e.1 < 0x705000 ∧ 0x400 ≤ e.1 % 0x1000 ∧ e.1 % 0x1000 < 0x800 then
      let a := (e.1 - 0x701400) / 0x1000 * 256 + (e.1 % 0x1000 - 0x400) / 4
      n + s.aMin a + s.aHdrm a
    else n) 0

/-- SH of R313. -/
def State.sh (s : State) : Nat := s.poolBytes - s.reserved
/-- SU of R313. -/
def State.su (s : State) : Nat := s.accts.foldl (fun n e => n + e.2.sh) 0

/-- 256 × T_a: α_a × max(0, SH − SU) with α_a = 2^(ALPHA − 8). -/
def State.t256 (s : State) (a : Nat) : Nat := (s.sh - s.su) * 2 ^ s.fld (R.A_CFG a) F.A_CFG_ALPHA

/-- PFC(a) of R313. -/
def State.pfcAcct (s : State) (a : Nat) : Bool :=
  decide (a < 512) &&
  (let m := s.fld (R.PORT_FC (a / 8)) F.PORT_FC_MODE
   m == 1 || (m == 2 && (s.fld (R.PORT_FC (a / 8)) F.PORT_FC_PFC_EN).testBit (a % 8)))

/-- XOFF of an account (R315). -/
def State.evalXoff (s : State) (a : Nat) : State :=
  let c := s.acct a
  let x :=
    if ¬ s.pfcAcct a then false
    else if 0 < c.h ∨ s.t256 a ≤ c.sh * 256 then true
    else if c.sh * 256 + s.fld R.SINT_CFG F.SINT_CFG_XON_GAP * 1024 * 256 < s.t256 a then false
    else c.xoff
  s.setAcct a { c with xoff := x }

/-- admission of R313; none is REFUSE. -/
def State.admission (s : State) (a b : Nat) : Option State :=
  let c := s.acct a
  if c.r + b ≤ s.aMin a then some ((s.setAcct a { c with r := c.r + b }).evalXoff a)
  else if (c.sh + b) * 256 ≤ s.t256 a then some ((s.setAcct a { c with sh := c.sh + b }).evalXoff a)
  else if s.pfcAcct a && decide (c.h + b ≤ s.aHdrm a) then some ((s.setAcct a { c with h := c.h + b }).evalXoff a)
  else none

/-- A charge without the test of R313 (R327, R351): to the reserved part while it lasts, then to the shared part. -/
def State.charge (s : State) (a b : Nat) : State :=
  let c := s.acct a
  (if c.r + b ≤ s.aMin a then s.setAcct a { c with r := c.r + b } else s.setAcct a { c with sh := c.sh + b }).evalXoff a

/-- A free of b bytes (R314). [DEDUCED, log 73] -/
def State.uncharge (s : State) (a b : Nat) : State :=
  let c := s.acct a
  let h := min c.h b
  let sh := min c.sh (b - h)
  let r := min c.r (b - h - sh)
  let s1 := (s.setAcct a { c with h := c.h - h, sh := c.sh - sh, r := c.r - r }).evalXoff a
  if h + sh + r < b then (s1.cnt R.SINT_USE_UFL).raise 0x700000 2 else s1

/-! ### Choosing and filling buffers (R310, R311, R316) -/

/-- The smallest pool whose buffers hold `e` bytes; 4 if none does. -/
def poolFor (e : Nat) : Nat := if e ≤ 256 then 0 else if e ≤ 1024 then 1 else if e ≤ 2560 then 2 else if e ≤ 10240 then 3 else 4

/-- The pool taken from `k` on: the first with a free buffer. -/
def State.poolFree (s : State) (k : Nat) : Option Nat := [0, 1, 2, 3].find? fun j => decide (k ≤ j) && decide (0 < (s.pool j).free)

/-- How an allocation ends. -/
inductive AllocRes where
  | got (ptr : Nat)
  | refused
  | noBuf
  deriving DecidableEq, Repr

/-- A buffer of pool `k` or the next larger with one free, charged to an account; `test` is false where R327 and R351 charge without
the test of R313. -/
def State.alloc (s : State) (k acct owner : Nat) (test : Bool) : AllocRes × State :=
  let j := s.poolFree k
  let b := poolSize (j.getD k)
  if 4 ≤ k then (.noBuf, s)
  else match (if test then s.admission acct b else some (s.charge acct b)) with
    | none => (.refused, s)
    | some s1 =>
      match j with
      | none => (.noBuf, s)
      | some i => match s1.popBuf i with
        | some (p, s2) => (.got p, s2.setDesc p (mkDesc owner acct noBuf (descBytes (s.desc p))))
        | none => (.noBuf, s)

/-- Bytes written to a buffer from an offset on. -/
def State.bufWrite (s : State) (ptr off : Nat) (bs : List Byte) : State :=
  { s with near := wrMap s.near (ptr * 16384 + off) bs }

/-- Bytes of a buffer. -/
def State.bufRead (s : State) (ptr off n : Nat) : List Byte := rdMap s.near (ptr * 16384 + off) n

/-- A buffer filled from its start, with BYTES recorded. -/
def State.bufFill (s : State) (ptr : Nat) (bs : List Byte) : State :=
  let d := s.desc ptr
  (s.bufWrite ptr 0 bs).setDesc ptr (mkDesc (descOwner d) (descAcct d) (descNext d) bs.length)

/-- How the storing of a frame ends: stored, without a free buffer (R310), refused (R313), or cut short for want of a chained
buffer (R311). -/
inductive StoreRes where
  | stored (ptr : Nat)
  | noRoom
  | refused
  | cut (ptr : Nat)
  deriving DecidableEq, Repr

/-- A frame stored in near buffers: the first from pool `k`, at most one chained for `maxfrm` bytes (R310, R311).
[DESIGN CHOICE, log 68] -/
def State.storeFrame (s : State) (k acct owner maxfrm : Nat) (test : Bool) (bs : List Byte) : StoreRes × State :=
  match s.alloc k acct owner test with
  | (.noBuf, s1) => (.noRoom, s1.cnt R.SINT_NOBUF)
  | (.refused, s1) => (.refused, s1.cnt (R.A_DROP acct))
  | (.got p, s1) =>
    let n := poolSize (ptrPool p)
    let s2 := s1.bufFill p (bs.take n)
    if bs.length ≤ n then (.stored p, s2)
    else
      match s2.alloc (poolFor (maxfrm - n)) acct owner test with
      | (.got p2, s3) =>
        let d := s3.desc p
        let s4 := (s3.setDesc p (mkDesc (descOwner d) (descAcct d) p2 (descBytes d))).cnt R.SINT_CHAIN
        (.stored p, s4.bufFill p2 (bs.drop n))
      | (_, s3) => (.cut p, s3.cnt R.SINT_CHAIN_FAIL)

/-- The buffers of a chain; a pointer that names no buffer ends it. -/
def State.chain (s : State) (p : Nat) : Nat → List Nat
  | 0 => []
  | n + 1 => if s.ptrOk p then p :: s.chain (descNext (s.desc p)) n else []

/-- The links a chain may have: at most two buffers (R311). -/
def chainMax : Nat := 2

/-- The first `n` bytes of a chain, after `skip` bytes. -/
def State.chainRead (s : State) (p skip n : Nat) : List Byte :=
  (((s.chain p chainMax).map fun b => s.bufRead b 0 (poolSize (ptrPool b))).flatten.drop skip).take n

/-- Bytes written over the first bytes of a chain after `skip` bytes; the header window lies in the first buffer. -/
def State.chainWrite (s : State) (p skip : Nat) (bs : List Byte) : State :=
  if s.ptrOk p then
    let n := poolSize (ptrPool p) - skip
    let s1 := s.bufWrite p skip (bs.take n)
    if n < bs.length ∧ s.ptrOk (descNext (s.desc p)) then s1.bufWrite (descNext (s.desc p)) 0 (bs.drop n) else s1
  else s

/-- The data path frees a chain as the agent recorded at admission: a buffer whose OWNER is another is lost (R317, R318). -/
def State.freeChain (s : State) (p owner : Nat) : State :=
  (s.chain p chainMax).foldl (fun s b =>
    let d := s.desc b
    if descOwner d = owner then (s.pushBuf b).uncharge (descAcct d) (poolSize (ptrPool b)) else s) s

/-! ### The copy store (R348) -/

def State.copyEnt (s : State) (n : Nat) : Option (Nat × Pkt) := smGet (fun _ => none) s.copies n
def State.setCopy (s : State) (n : Nat) (c : Option (Nat × Pkt)) : State := { s with copies := smSet (fun _ => none) s.copies n c }

/-- A reference on a copy-store entry ends; at zero the store frees the chain as the recorded owner. -/
def State.copyRelease (s : State) (n : Nat) : State :=
  match s.copyEnt n with
  | none => s
  | some (c, q) => if c ≤ 1 then (s.setCopy n none).freeChain q.ptr q.owner else s.setCopy n (some (c - 1, q))

/-- The frame buffers of a packet are given back. -/
def State.releaseBufs (s : State) (k : Nat) : State :=
  let q := s.pkt k
  let s1 := s.setPkt k { q with ptr := noBuf, store := none }
  match q.store with
  | some n => s1.copyRelease n
  | none => if q.ptr = noBuf then s1 else s1.freeChain q.ptr q.owner

/-! ### In-flight counts (R251, R256) -/

def inflReg (v : Nat) : Nat := if v = 0 then R.VIEW_INFL_0 0 else R.VIEW_INFL_1 0

/-- A packet or copy is added to the count of a view. -/
def State.viewAdd (s : State) (v : Nat) : State := s.setReg (inflReg v) (s.reg (inflReg v) + 1)

/-- A packet or copy leaves the count of a view; a drain completes at zero. -/
def State.viewSub (s : State) (v : Nat) : State :=
  let s1 := s.setReg (inflReg v) (s.reg (inflReg v) - 1)
  if s1.reg (inflReg v) = 0 ∧ s.flag (R.VIEW_STAT 0) F.VIEW_STAT_DRAINED = false ∧ s.fld (R.VIEW_STAT 0) F.VIEW_STAT_ACTIVE ≠ v
  then ((s1.setFld (R.VIEW_STAT 0) F.VIEW_STAT_DRAINED 1).raise 0x404000 1).raise 0x504000 1 else s1

/-- A packet leaves the device, delivered or dropped: buffers, in-flight count, and the packet itself. -/
def State.endPkt (s : State) (k : Nat) : State :=
  let v := (s.pkt k).view
  let s1 := (s.releaseBufs k).delPkt k
  match v with
  | some n => s1.viewSub n
  | none => s1

/-- A packet behind the crossbar is given up: it ends, once its last cell has crossed. -/
def State.giveUp (s : State) (k : Nat) : State :=
  if (s.pkt k).crossed then s.endPkt k else s.setPkt k { s.pkt k with gone := true }

/-- A new packet enters the machine. [DESIGN CHOICE, log 123] -/
def State.newPkt (s : State) (q : Pkt) : Nat × State := (s.nextId, { s.setPkt s.nextId q with nextId := s.nextId + 1 })

/-- The queue of a source at a parser (R89). -/
def State.src (s : State) (p port : Nat) : List Nat := smGet (fun _ => []) s.srcQ (p * 128 + port)
def State.setSrc (s : State) (p port : Nat) (l : List Nat) : State := { s with srcQ := smSet (fun _ => []) s.srcQ (p * 128 + port) l }
/-- Whether a pipeline is fenced (R544). -/
def State.fenced (s : State) (p : Nat) : Bool := (s.fld R.DEV_FENCE F.DEV_FENCE_PIPE).testBit p

/-- A frame waits for a parser; one that a source other than a front port directs to a fenced pipeline is dropped there (R544). -/
def State.toParser (s : State) (p : Nat) (q : Pkt) : State :=
  let (k, s1) := s.newPkt { q with loc := .src, arrS := s.time.sched }
  if s.fenced p ∧ 64 ≤ q.inPort then (s1.endPkt k).cnt R.DEV_FENCE_DROP
  else s1.setSrc p q.inPort (s1.src p q.inPort ++ [k])

/-! ### XOFF (R54, R315) -/

/-- Every account is evaluated. -/
def State.evalAll (s : State) : State := (List.range 512).foldl (fun s a => s.evalXoff a) s

/-- Classes of a port in XOFF. -/
def State.xoffClasses (s : State) (port : Nat) : Nat :=
  (List.range 8).foldl (fun n c => if (s.acct (port * 8 + c)).xoff then n + 2 ^ c else n) 0

/-- SINT_XOFF_EVAL (R315). -/
def execSintXoffEval (s : State) : Host.Outcome State Fault Refusal := .next s.evalAll

/-! ### Commands (R320) -/

/-- The SINT command of OP, PIPE, POOL and AGENT in SINT_CMD_CTL for a requester: status and state after it (R318, R320).
[DEDUCED, log 109; DESIGN CHOICE, log 126] -/
def State.sintCommand (s : State) (who : Nat) : Nat × State :=
  let c := R.SINT_CMD_CTL
  let op := s.fld c F.SINT_CMD_CTL_OP
  let ptr := s.fld R.SINT_CMD_PTR F.SINT_CMD_PTR
  let viol (s : State) : State := s.viol 0x700000 who 4 0 (c % 0x1000)
  let owns (s : State) : Bool := descOwner (s.desc ptr) == who
  let setOwner (s : State) (o : Nat) : State := (s.chain ptr chainMax).foldl (fun s b =>
    let d := s.desc b
    s.setDesc b (mkDesc o (descAcct d) (descNext d) (descBytes d))) s
  if op = 0 then (0, s)
  else if op = 1 then
    let a := if 0x900 ≤ who ∧ who < 0xA00 then 512 + (who - 0x900) else 768
    let k := s.fld c F.SINT_CMD_CTL_POOL
    match s.admission a (poolSize k) with
    | none => (2, s)
    | some s1 => match s1.popBuf k with
      | none => (1, s)
      | some (p, s2) => (0, (s2.setDesc p (mkDesc who a noBuf (descBytes (s.desc p)))).setReg R.SINT_CMD_PTR (BitVec.ofNat 32 p))
  else if op = 2 ∨ op = 3 ∨ op = 5 then
    if ¬ s.ptrOk ptr then (3, s)
    else if op = 5 then
      let d := (s.desc ptr).toNat
      (0, (s.setReg R.SINT_CMD_DESC_LO (BitVec.ofNat 32 d)).setReg R.SINT_CMD_DESC_HI (BitVec.ofNat 32 (d / 2 ^ 32)))
    else if ¬ owns s then (0, viol s)
    else if op = 2 then (0, if isAgent (s.fld c F.SINT_CMD_CTL_AGENT) then setOwner s (s.fld c F.SINT_CMD_CTL_AGENT) else s)
    else (0, s.freeChain ptr who)
  else if op = 4 then
    let len := s.fld R.SINT_CMD_LEN F.SINT_CMD_LEN
    if ¬ s.ptrOk ptr then (3, s)
    else if len = 0 ∨ (s.chain ptr chainMax).foldl (fun n b => n + poolSize (ptrPool b)) 0 < len then (3, s)
    else if ¬ (0x800 ≤ who ∧ who ≤ 0x810) ∨ ¬ owns s then (0, viol s)
    else
      let o := if who = 0x810 then 0xA47 else 0xA44
      let port := if who = 0x810 then 71 else 68
      (0, (setOwner s o).toParser (s.fld c F.SINT_CMD_CTL_PIPE)
        { len := len, ptr := ptr, owner := o, acct := descAcct (s.desc ptr), inPort := port, rx := s.time.d })
  else (3, s)

/-- SINT_CMD_CTL.GO: the command runs and completes (R320). [DEDUCED, log 108] -/
def State.sintGo (s : State) (who : Nat) : State :=
  let (st, s1) := s.sintCommand who
  ((s1.setFld R.SINT_CMD_CTL F.SINT_CMD_CTL_GO 0).setReg R.SINT_CMD_STAT (BitVec.ofNat 32 st)).raise 0x700000 0

/-- SINT_POOL_CTL.APPLY (R306). -/
def State.poolApply (s : State) : State :=
  let cnt (k : Nat) : Nat := s.fld (R.SINT_POOL_CNT k) F.SINT_POOL_CNT
  let sum := (List.range 4).foldl (fun n k => n + cnt k * poolSize k) 0
  let idle := decide (s.mode = mCONFIGURE) && (s.accts.all fun e => e.2.r + e.2.sh + e.2.h == 0)
  let res (s : State) (n : Nat) : State := s.setFld R.SINT_POOL_CTL F.SINT_POOL_CTL_RES n
  if ¬ idle then res s 3
  else if 100663296 < sum then res s 2
  else res ((List.range 4).foldl (fun s k => s.setPool k { cnt := cnt k }) s) 1

/-- The buffer and offset a window register reaches; none beyond the buffer's size or for a pointer of no buffer (R321). -/
def State.winPlace (s : State) (n : Nat) : Option (Nat × Nat) :=
  let p := s.fld R.SINT_WIN_PTR F.SINT_WIN_PTR
  let o := s.fld R.SINT_WIN_OFF F.SINT_WIN_OFF * 256 + 4 * n
  if s.ptrOk p ∧ o + 4 ≤ poolSize (ptrPool p) then some (p, o) else none

/-! ### The audit walk (R323) -/

/-- The chain that a data read fills, outstanding or waiting. -/
def Dma.chain (d : Dma) : Option Nat := match d.kind with
  | .txData p _ => some p
  | _ => none
def DmaOp.chain : DmaOp → Option Nat
  | .read d _ _ => d.chain
  | .write _ _ _ _ => none

/-- References to each buffer from packets, the copy store and frames that a transmit ring is reading into buffers. -/
def State.bufRefs (s : State) : List Nat :=
  (s.pkts.map fun e => if e.2.store.isSome then [] else s.chain e.2.ptr chainMax).flatten ++
  (s.copies.map fun e => match e.2 with | some (_, q) => s.chain q.ptr chainMax | none => []).flatten ++
  ((s.dmas.filterMap (fun e => e.2.bind Dma.chain) ++ s.dmaQ.filterMap DmaOp.chain).map fun p => s.chain p chainMax).flatten

/-- Pointers of a pool that have ever left its stack: only they can be missing from it. -/
def State.usedBufs (s : State) (k : Nat) : List Nat := (List.range (s.pool k).next).map fun i => k * 2 ^ 22 + i

/-- Whether an owner is a control context, Fumarole or an instance. -/
def swOwner (o : Nat) : Bool := (decide (0x800 ≤ o) && decide (o ≤ 0x810)) || (decide (0x900 ≤ o) && decide (o < 0xA00))

/-- The stack without surplus entries of a pointer (each entry beyond the first). -/
def dedupStack : List Nat → List Nat
  | [] => []
  | i :: l => i :: (dedupStack l).filter (· ≠ i)

/-- The end of the walk over a pool (R323): LEAK, SW and DUP counted, and the reclaims made. -/
def State.auditEnd (s : State) : State :=
  let a := R.SINT_AUDIT
  let k := s.fld a F.SINT_AUDIT_POOL
  let refs := s.bufRefs
  let p := s.pool k
  let seen := (s.usedBufs k).filter fun b => !(smGet (fun _ => false) s.audSkip b)
  let inStk (b : Nat) : Nat := p.stack.count (ptrIdx b)
  let lost := seen.filter fun b => inStk b == 0 && refs.count b == 0
  let leak := lost.filter fun b => !(swOwner (descOwner (s.desc b)))
  let sw := lost.filter fun b => swOwner (descOwner (s.desc b))
  let dup := seen.foldl (fun n b => n + (inStk b - 1) + (if 0 < inStk b ∧ 0 < refs.count b then 1 else 0) + (refs.count b - 1)) 0
  let s1 := (((s.setReg R.SINT_AUD_LEAK (BitVec.ofNat 32 leak.length)).setReg R.SINT_AUD_SW (BitVec.ofNat 32 sw.length)).setReg
    R.SINT_AUD_DUP (BitVec.ofNat 32 dup)).setReg R.SINT_AUD_FIRST (BitVec.ofNat 32 (leak.headD noBuf))
  let s2 := if s.flag a F.SINT_AUDIT_RECLAIM then
      let take := leak ++ (if s.flag a F.SINT_AUDIT_AG_EN then sw.filter fun b => descOwner (s.desc b) == s.fld a F.SINT_AUDIT_AGENT else [])
      let s3 := s1.setPool k { p with stack := dedupStack p.stack }
      take.foldl (fun s b => (s.pushBuf b).uncharge (descAcct (s.desc b)) (poolSize k)) s3
    else s1
  ((({ s2 with audSkip := [] }).setFld a F.SINT_AUDIT_STATE 2).point a).raise 0x700000 1

/-- SINT_AUDIT.START (R323). -/
def State.auditStart (s : State) : State :=
  ((((({ s with audSkip := [] }).setReg R.SINT_AUD_LEAK 0).setReg R.SINT_AUD_SW 0).setReg R.SINT_AUD_DUP 0).setReg R.SINT_AUD_FIRST 0xFFFFFF).setFld
    R.SINT_AUDIT F.SINT_AUDIT_STATE 1

/-- SINT_AUDIT.ABORT (R323, R332, R549). -/
def State.auditAbort (s : State) : State :=
  if s.fld R.SINT_AUDIT F.SINT_AUDIT_STATE = 1 then
    ((({ s with audSkip := [] }).setFld R.SINT_AUDIT F.SINT_AUDIT_STATE 3).setFld R.SINT_AUDIT F.SINT_AUDIT_ABORT_ST 1).raise 0x700000 1
  else s.lateAbort R.SINT_AUDIT F.SINT_AUDIT_ABORT_ST

/-- SINT_AUDIT_COMPLETE (R323). -/
def execSintAuditComplete (s : State) : Host.Outcome State Fault Refusal :=
  .next (if s.fld R.SINT_AUDIT F.SINT_AUDIT_STATE = 1 then s.auditEnd else s)

end Sys2Proof.Machine
end

