-- ==== Sys2Proof/Machine/Meter.lean ====
section
/-! DEFINITION. Meters (R378–R382, R388, R390): refill, colouring, the meter points and the meter commands. -/

namespace Sys2Proof.Machine

def mtrPage (h : Nat) : Nat := 0xA00000 + h * 0x1000
def State.meter (s : State) (h i : Nat) : Meter := smGet (fun _ => {}) s.meters (h * 131072 + i)
def State.setMeter (s : State) (h i : Nat) (m : Meter) : State := { s with meters := smSet (fun _ => {}) s.meters (h * 131072 + i) m }

def Meter.tr (m : Meter) : Bool := m.cfg.getLsbD 31
def Meter.aware (m : Meter) : Bool := m.cfg.getLsbD 30
def Meter.redDrop (m : Meter) : Bool := m.cfg.getLsbD 29

/-- Tokens gained in `el` ns at `r` kb/s, in 2^-16 bytes: r × 1000 ÷ 8 × el × 10^-9 × 65536. -/
def tokens (r el : Nat) : Nat := r * el * 65536 / 8000000

/-- The refill of R380. -/
def Meter.refill (m : Meter) (now : Nat) : Meter :=
  let el := now - m.at_
  let a := m.t1 + tokens m.cir el
  if m.tr then { m with at_ := now, t1 := min (m.cbs * 65536) a, t2 := min (m.xbs * 65536) (m.t2 + tokens m.pir el) }
  else { m with at_ := now, t1 := min (m.cbs * 65536) a, t2 := min (m.xbs * 65536) (m.t2 + (a - min (m.cbs * 65536) a)) }

/-- The colour of a packet of `b` bytes and input colour `cin`, and the meter after it (R380). -/
def Meter.colour (m0 : Meter) (now b cin : Nat) : Nat × Meter :=
  let i := if cin = 3 then 2 else cin
  if m0.cir = 0 then (if m0.aware then i else 0, m0)
  else
    let m := m0.refill now
    let n := b * 65536
    let blind := !m.aware
    if ¬ m.tr then
      if (blind || i == 0) && decide (n ≤ m.t1) then (0, { m with t1 := m.t1 - n })
      else if (blind || i != 2) && decide (n ≤ m.t2) then (1, { m with t2 := m.t2 - n })
      else (2, m)
    else
      if (m.aware && i == 2) || decide (m.t2 < n) then (2, m)
      else if (m.aware && i == 1) || decide (m.t1 < n) then (1, { m with t2 := m.t2 - n })
      else (0, { m with t1 := m.t1 - n, t2 := m.t2 - n })

/-- A meter point of a packet of pipeline `p` (R379, R381): the state after it, and whether the packet is dropped there. -/
def State.meterPoint (s : State) (p k : Nat) (egress : Bool) : Bool × State :=
  let q := s.pkt k
  let h := p / 8
  let en := s.fld (R.MTR_PIPE_EN h) (if egress then F.MTR_PIPE_EN_EGR_EN else F.MTR_PIPE_EN_ING_EN)
  let u := cUser q.ctx
  if en.testBit (p % 8) ∧ u / 2 ^ 17 = (if egress then 2 else 1) then
    let i := u % 2 ^ 17
    let m := s.meter h i
    let b := if cLenKnown q.ctx then cFrmLen q.ctx else s.fld (R.MTR_UNK_LEN h) F.MTR_UNK_LEN_LEN
    let (col, m1) := m.colour s.sNs b (ctxF q.ctx 0 25 24)
    let s1 := (s.setMeter h i m1).setPkt k { q with ctx := setCtxF q.ctx 0 25 24 col }
    let s2 := s1.cnt64 (if col = 0 then R.MTR_GREEN h else if col = 1 then R.MTR_YELLOW h else R.MTR_RED h) 1
    if col = 2 ∧ m.redDrop then (true, s2.cnt (R.MTR_DROP h)) else (false, s2)
  else (false, s)

/-- The meter command in MTR_CMD_CTL (R390): status and state. -/
def State.mtrCommand (s : State) (h : Nat) : Nat × State :=
  let i := s.fld (R.MTR_CMD_CTL h) F.MTR_CMD_CTL_INDEX
  let rateOk (n : Nat) : Bool := n == 0 || (decide (8 ≤ n) && decide (n ≤ 400000000))
  match s.fld (R.MTR_CMD_CTL h) F.MTR_CMD_CTL_OP with
  | 0 => (0, s)
  | 1 =>
    let cfg := s.reg (R.MTR_CMD_CFG h) &&& 0xE0000000
    let cir := (s.reg (R.MTR_CMD_CIR h)).toNat
    let pir := (s.reg (R.MTR_CMD_PIR h)).toNat
    let cbs := s.fld (R.MTR_CMD_CBS h) F.MTR_CMD_CBS
    let xbs := s.fld (R.MTR_CMD_XBS h) F.MTR_CMD_XBS
    if ¬ rateOk cir ∨ ¬ rateOk pir ∨ cbs < 64 ∨ xbs < 64 ∨ (cfg.getLsbD 31 = true ∧ pir < cir) then (5, s)
    else (0, s.setMeter h i { cfg := cfg, cir := cir, pir := pir, cbs := cbs, xbs := xbs, t1 := cbs * 65536, t2 := xbs * 65536, at_ := s.sNs })
  | 2 =>
    let m := s.meter h i
    (0, (((((((s.setReg (R.MTR_CMD_CFG h) m.cfg).setReg (R.MTR_CMD_CIR h) (BitVec.ofNat 32 m.cir)).setReg (R.MTR_CMD_PIR h)
      (BitVec.ofNat 32 m.pir)).setReg (R.MTR_CMD_CBS h) (BitVec.ofNat 32 m.cbs)).setReg (R.MTR_CMD_XBS h) (BitVec.ofNat 32 m.xbs)).setReg
      (R.MTR_CMD_TOK1 h) (BitVec.ofNat 32 (m.t1 / 65536))).setReg (R.MTR_CMD_TOK2 h) (BitVec.ofNat 32 (m.t2 / 65536))))
  | 3 =>
    let m := s.meter h i
    (0, s.setMeter h i { m with t1 := m.cbs * 65536, t2 := m.xbs * 65536, at_ := s.sNs })
  | _ => (5, s)

/-- MTR_CMD_CTL.GO: the command runs and completes. [DEDUCED, log 108] -/
def State.mtrGo (s : State) (h : Nat) : State :=
  let (st, s1) := s.mtrCommand h
  ((s1.setFld (R.MTR_CMD_CTL h) F.MTR_CMD_CTL_GO 0).setReg (R.MTR_CMD_STAT h) (BitVec.ofNat 32 st)).raise (mtrPage h) 0

end Sys2Proof.Machine
end

