-- ==== Sys2Proof/Machine/Geyser.lean ====
section
/-! DEFINITION. The operations of Geyser and the lock unit (R391–R422): task states and ready lists, releases, the task context
block, switches, Tephra scheduling records, locks, priority inheritance and abandonment. -/

namespace Sys2Proof.Machine

/-! ### Agents and roles -/

/-- Roles of ENG_THR_CFG (R112). -/
def rOff : Nat := 0
def rPacket : Nat := 1
def rService : Nat := 2

/-- The role of an engine thread (R112). -/
def State.role (s : State) (a : Nat) : Nat := bits (s.reg (R.ENG_THR_CFG (a / 8))).toNat (2 * (a % 8) + 1) (2 * (a % 8))

/-- Whether an agent can run tasks: a service thread, or a control context with TSK_CTX_CFG_n.EN = 1 (R393). -/
def State.runsTasks (s : State) (a : Nat) : Bool :=
  if a < 0x800 then s.role a == rService else decide (a < 0x810) && s.flag (R.TSK_CTX_CFG (a - 0x800)) F.TSK_CTX_CFG_EN

/-- An event of a thread is latched (R117). [DEDUCED, log 43] -/
def State.event (s : State) (a ev : Nat) : State :=
  let t := s.thr a
  s.setThr a { t with evPend := t.evPend ||| BitVec.ofNat 16 (2 ^ ev) }

/-- A wake is signalled to the core of a context: it matters while a context of the core sleeps (R489). -/
def State.wakeCore (s : State) (a : Nat) : State :=
  if a < 0x800 ∨ 0x810 ≤ a then s
  else
    let c := (a - 0x800) / 4
    if ([0, 1, 2, 3].any fun n => (s.thr (0x800 + c * 4 + n)).wait == .sleep) && !(s.coreWakes.contains c)
    then { s with coreWakes := s.coreWakes ++ [c] } else s

/-! ### Task control entries -/

def Tce.agent (t : Tce) : Nat := getF t.cfg F.TSK_TCE_CFG_AGENT
def Tce.bprio (t : Tce) : Nat := getF t.cfg F.TSK_TCE_CFG_BPRIO
def Tce.group (t : Tce) : Nat := getF t.cfg F.TSK_TCE_CFG_GROUP
/-- Internal address of the task context block. -/
def Tce.tcb (t : Tce) : Nat := t.tcbLo.toNat + t.tcbHi.toNat * 2 ^ 32
/-- Entry halfword address. -/
def Tce.entry (t : Tce) : Nat := t.entryLo.toNat + t.entryHi.toNat * 2 ^ 32

/-- Codes of R392. -/
def TaskSt.code : TaskSt → Nat
  | .off => 0 | .idle => 1 | .ready => 2 | .running => 3 | .delayed => 4

/-- Whether the group of a task is not suspended (R393). [DEDUCED, log 50] -/
def State.groupRuns (s : State) (g : Nat) : Bool := !(s.flag (R.TSK_GRP_CFG g) F.TSK_GRP_CFG_SUSP)

/-- A Tephra record is written to its ring, or lost (R406). `rec` is the 64-bit record. -/
def State.tephraPut (s : State) (rec : Word) : State :=
  if s.flag R.TSK_TR_CTL F.TSK_TR_CTL_FULL then s.cnt R.TSK_TR_LOST
  else
    let wp := (s.reg R.TSK_TR_WP).toNat
    let hbm := s.flag R.TSK_TR_CTL F.TSK_TR_CTL_DEST
    let size := if hbm then s.fld R.TSK_TR_SIZE F.TSK_TR_SIZE * 8192 else 8192
    let base := (s.reg R.TSK_TR_BASE_LO).toNat + (s.reg R.TSK_TR_BASE_HI).toNat * 2 ^ 32
    let adr := base + wp % size * 8
    let s1 := if hbm then (if 0x8B80000000 ≤ adr ∧ adr + 8 ≤ 0x8C00000000 then s.wrLE adr 8 rec.toNat else s)
              else { s with tephra := smSet (fun _ => 0) s.tephra (wp % size) rec }
    let s2 := s1.setReg R.TSK_TR_WP (BitVec.ofNat 32 (wp + 1))
    if s.flag R.TSK_TR_CTL F.TSK_TR_CTL_STOP_FULL && decide (size ≤ wp + 1)
    then (s2.setFld R.TSK_TR_CTL F.TSK_TR_CTL_FULL 1).raise 0x30000 2 else s2

/-- The Tephra record of a task's change of state or priority, if records are on for it (R405). -/
def State.tephraTask (s : State) (k : Nat) (frm dst : TaskSt) (reason : Nat) : State :=
  if s.flag R.TSK_TR_CTL F.TSK_TR_CTL_EN && s.flag (R.TSK_GRP_CFG (s.task k).group) F.TSK_GRP_CFG_TR_EN then
    s.tephraPut (BitVec.ofNat 64 (s.sNs % 2 ^ 42 * 2 ^ 22 + k * 2 ^ 10 + frm.code * 2 ^ 7 + dst.code * 2 ^ 4 + reason))
  else s

/-- A task leaves its ready list. -/
def State.unready (s : State) (k : Nat) : State :=
  let t := s.task k
  s.setReadyL t.agent t.eprio ((s.readyL t.agent t.eprio).filter (· ≠ k))

/-- A task leaves its group's delay list, its difference passing to the entry after it (R403), and the timeout store. -/
def removeDelay (k : Nat) : List (Nat × Nat) → List (Nat × Nat)
  | [] => []
  | (d, j) :: l =>
    if j = k then (match l with | [] => [] | (d2, j2) :: l2 => (d + d2, j2) :: l2)
    else (d, j) :: removeDelay k l

def State.untime (s : State) (k : Nat) : State :=
  let g := (s.task k).group
  let s1 := s.setDelayL g (removeDelay k (s.delayL g))
  { s1 with tmouts := s1.tmouts.filter (fun e => e.2 ≠ k) }

/-- A delay entered in a delta list: `n` ticks from now, behind entries due at the same tick (R403). -/
def insertDelay (k n : Nat) : List (Nat × Nat) → List (Nat × Nat)
  | [] => [(n, k)]
  | (d, j) :: l => if n < d then (n, k) :: (d - n, j) :: l else (d, j) :: insertDelay k (n - d) l

/-- A deadline entered in order, behind equal ones. -/
def insertTmo (dl k : Nat) : List (Nat × Nat) → List (Nat × Nat)
  | [] => [(dl, k)]
  | (d, j) :: l => if dl < d then (dl, k) :: (d, j) :: l else (d, j) :: insertTmo dl k l

/-- A delay or timeout of `arg` is armed for a task, in the mode of its group (R402). -/
def State.armTime (s : State) (k arg : Nat) : State :=
  let g := (s.task k).group
  if s.flag (R.TSK_GRP_CFG g) F.TSK_GRP_CFG_MODE then
    { s with tmouts := insertTmo (s.time.sched + arg * nsU) k s.tmouts }
  else s.setDelayL g (insertDelay k arg (s.delayL g))

/-- A task becomes READY: at the tail of its list, or at the head after a preemption (R393, R399). -/
def State.makeReady (s : State) (k reason cause : Nat) (atHead : Bool) : State :=
  let t := s.task k
  let s1 := s.setTask k { t with st := .ready, cause := cause, tmo := false }
  let l := s1.readyL t.agent t.eprio
  (s1.setReadyL t.agent t.eprio (if atHead then k :: l else l ++ [k])).tephraTask k t.st .ready reason

/-- A release of a task (R394); `reason` is the Tephra reason. -/
def State.release (s : State) (k reason : Nat) : State :=
  let t := s.task k
  match t.st with
  | .off => s
  | .idle => ((s.untime k).makeReady k reason 1 false)
  | _ => (s.setTask k { t with pend := min 255 (t.pend + 1) }).cnt R.TSK_REL_PEND

/-- The end of a delay or timeout: READY with cause TIMEOUT (R404). -/
def State.timeUp (s : State) (k : Nat) : State :=
  match (s.task k).st with
  | .delayed | .idle => s.makeReady k 4 2 false
  | _ => s

/-- The EPRIO of a task changes (R393, R411, R412). -/
def State.setEprio (s : State) (k p : Nat) : State :=
  let t := s.task k
  if t.eprio = p then s
  else
    let reason := if t.eprio < p then 0xC else 0xD
    match t.st with
    | .ready =>
      let s1 := (s.unready k).setTask k { t with eprio := p }
      (s1.setReadyL t.agent p (s1.readyL t.agent p ++ [k])).tephraTask k t.st t.st reason
    | _ => (s.setTask k { t with eprio := p }).tephraTask k t.st t.st reason

/-! ### Locks (R409–R413) -/

/-- The waiter served next: the highest priority, the first of them (R410). -/
def headWaiter : List Waiter → Option Waiter
  | [] => none
  | w :: l => match headWaiter l with
    | none => some w
    | some v => if w.prio < v.prio then some v else some w

/-- The highest priority queued on the locks a task still holds (R412). -/
def State.heldPrio (s : State) (agent k : Nat) : Nat :=
  s.locks.foldl (fun m e => if e.2.held && e.2.owner == agent && e.2.otask == k
    then e.2.q.foldl (fun m w => max m w.prio) m else m) 0

/-- A task's EPRIO becomes the greater of its BPRIO and the highest priority queued on any lock it holds (R412). -/
def State.dropPrio (s : State) (k : Nat) : State :=
  if k ≥ 4096 then s else s.setEprio k (max (s.task k).bprio (s.heldPrio (s.task k).agent k))

/-- The task number recorded for an agent: its running task, 0xFFF if none (R409). -/
def State.curTask (s : State) (a : Nat) : Nat := ((s.thr a).task).getD 0xFFF

/-- The agent and task that are given a lock hear of it: event 4 on the agent, or a grant held in the task's entry (R410). -/
def State.tellGrant (s : State) (w : Waiter) : State :=
  let s1 := s.setThr w.agent { s.thr w.agent with lockReq := none }
  (if s.curTask w.agent = w.task ∨ w.task = 0xFFF then s1.event w.agent 4
   else s1.setTask w.task { s1.task w.task with grant := true }).wakeCore w.agent

/-- A free lock passes to its head waiter, if any (R410, R413). -/
def State.passLock (s : State) (n : Nat) : State :=
  let l := s.lock n
  match headWaiter l.q with
  | none => s.setLock n { l with held := false, owner := 0, otask := 0, seen := false }
  | some w =>
    ((s.setLock n { l with held := true, owner := w.agent, otask := w.task, seen := l.aband,
                           q := l.q.filter (· ≠ w) }).tellGrant w).cnt64 R.LCK_ACQ_CNT 1

/-- A read that acquires (R409): the lock word and the state after it. -/
def State.lockAcquire (s : State) (a n : Nat) : Nat × State :=
  let l := s.lock n
  let k := s.curTask a
  if l.held then
    if l.owner = a ∧ l.otask = k then (0x20000000 + b2n l.seen * 0x40000000 + a, s)
    else (0x80000000 + l.owner, s.cnt64 R.LCK_BUSY_CNT 1)
  else (b2n l.aband * 0x40000000,
    (s.setLock n { l with held := true, owner := a, otask := k, seen := l.aband }).cnt64 R.LCK_ACQ_CNT 1)

/-- Inheritance along a chain of holders, at most `fuel` links (R411). -/
def State.inherit (s : State) (n q : Nat) : Nat → State
  | 0 => s.cnt R.LCK_CHAIN_CUT
  | fuel + 1 =>
    let l := s.lock n
    let k := l.otask
    if ¬ l.held ∨ 4096 ≤ k ∨ k = 0xFFF ∨ q ≤ (s.task k).eprio then s
    else
      let s1 := s.setEprio k q
      match (s1.thr l.owner).lockReq with
      | none => s1
      | some m =>
        let lm := s1.lock m
        if lm.q.any (fun w => w.agent == l.owner && w.task == k) then
          (s1.setLock m { lm with q := lm.q.map (fun w => if w.agent = l.owner ∧ w.task = k then { w with prio := q } else w) }).inherit
            m q fuel
        else s1

/-- LKQ: a request is queued, granted at once on a free lock (R410, R411). The caller has checked the request slot. [DEDUCED, log 45] -/
def State.lockQueue (s : State) (a n : Nat) : State :=
  let l := s.lock n
  let k := s.curTask a
  let p := if k = 0xFFF then s.fld R.LCK_CFG F.LCK_CFG_DEF_PRIO else (s.task k).eprio
  let w : Waiter := ⟨a, k, p⟩
  if l.held then
    ((s.setLock n { l with q := l.q ++ [w] }).setThr a { s.thr a with lockReq := some n }).inherit n p 8
  else
    ((s.setLock n { l with held := true, owner := a, otask := k, seen := l.aband }).tellGrant w).cnt64 R.LCK_ACQ_CNT 1

/-- Whether an agent and its running task hold a lock. -/
def State.holds (s : State) (a n : Nat) : Bool :=
  (s.lock n).held && (s.lock n).owner == a && (s.lock n).otask == s.curTask a

/-- A release by the holder (R410, R412, R413). [DEDUCED, log 45] -/
def State.lockRelease (s : State) (n : Nat) : State :=
  let l := s.lock n
  ((s.setLock n { l with held := false, aband := l.aband && !l.seen }).passLock n).dropPrio l.otask

/-- A lock is abandoned: freed, marked, counted, and passed on (R413). -/
def State.lockAbandon (s : State) (n : Nat) : State :=
  let l := s.lock n
  ((((s.setLock n { l with held := false, aband := true }).cnt R.LCK_ABAND).raise 0x40000 0).passLock n).dropPrio l.otask

/-- The locks held that satisfy a test on owner and task are abandoned. -/
def State.abandonWhere (s : State) (p : Nat → Nat → Bool) : State :=
  (s.locks.filter (fun e => e.2.held && p e.2.owner e.2.otask)).foldl (fun s e => s.lockAbandon e.1) s

/-- Queued requests of an agent are removed, and the priority they gave ends (R412, R413). -/
def State.dropRequests (s : State) (a : Nat) : State :=
  match (s.thr a).lockReq with
  | none => s
  | some n =>
    let l := s.lock n
    ((s.setLock n { l with q := l.q.filter (fun w => w.agent ≠ a) }).setThr a { s.thr a with lockReq := none }).dropPrio
      (if l.held then l.otask else 4096)

/-- Every lock and request of an agent that is reset (R413); where several are reset at once, the requests of all have gone before. -/
def State.abandonAgent (s : State) (a : Nat) : State := (s.dropRequests a).abandonWhere (fun o _ => o == a)

/-- The locks of a task that ends (R413). -/
def State.abandonTask (s : State) (k : Nat) : State := s.abandonWhere (fun o t => t == k && o == (s.task k).agent)

/-! ### Switches (R395–R399) -/

/-- The bytes of the task context block that Geyser writes (R395). -/
def Thr.tcbBytes (t : Thr) (pc : Nat) : List Byte :=
  bytesLE 8 pc ++ bytesLE 8 (t.flg.toNat + t.status.toNat * 2 ^ 8 + t.depth * 2 ^ 16) ++ bytesLE 8 t.wsp.toNat ++
  bytesLE 8 t.evPend.toNat ++
  ((List.range 88).map fun i => bytesLE 8 (smGet (fun _ => (0 : Word)) t.rf i).toNat).flatten

/-- The halfword address saved: the next instruction, or the WFE a waiting thread is in (R397). -/
def Thr.savePc (t : Thr) : Nat :=
  match t.wait with
  | .wfe _ _ len => t.pc - len
  | _ => t.pc

/-- The unit instructions a thread has in flight write their results: a switch kills none (R200, R396). -/
def State.settle (s : State) (a : Nat) : State :=
  let t := s.thr a
  let g := s.eng (a / 8)
  let s1 := s.setThr a { t with fu := [], rf := t.fu.foldl (fun m f => smSet (fun _ => (0 : Word)) m f.rd f.val) t.rf }
  if t.fu.isEmpty then s
  else s1.setEng (a / 8) { g with keys := t.fu.foldl (fun m f => match f.key with
    | none => m
    | some (i, v) => smSet (fun _ => (0 : Word)) m i v) g.keys }

/-- The running task of an agent is saved to its block, with the ring slot of its current frame beside it. [DESIGN CHOICE, log 136] -/
def State.saveTask (s : State) (a k : Nat) : State :=
  (s.setTask k { s.task k with base := (s.thr a).base }).wrBytes (s.task k).tcb ((s.thr a).tcbBytes (s.thr a).savePc)

/-- A thread loaded from a task context block; `base` is the ring slot of its current frame. [DESIGN CHOICE, log 136] -/
def State.loadTcb (s : State) (t : Thr) (adr base : Nat) : Thr :=
  let dw (i : Nat) : Nat := s.rdLE (adr + i * 8) 8
  let d := bits (dw 1) 18 16
  { t with
    pc := dw 0, flg := BitVec.ofNat 4 (dw 1), status := BitVec.ofNat 5 (dw 1 / 2 ^ 8),
    depth := if d = 0 then 1 else min d 4, base := base,
    wsp := BitVec.ofNat 64 (dw 2), evPend := BitVec.ofNat 16 (dw 3),
    rf := (List.range 88).foldl (fun m i => smSet (fun _ => (0 : Word)) m i (BitVec.ofNat 64 (dw (4 + i)))) [],
    wait := .run }

/-- A task is loaded on its agent: from its block, or fresh after START (R396); a grant held for it raises event 4 (R410).
[DEDUCED, log 49] -/
def State.loadTask (s : State) (a k : Nat) (reason : Nat) : State :=
  let t := s.task k
  let h := s.thr a
  let h1 := if t.fresh
    then { h with pc := t.entry, depth := 1, base := 0, rf := [], flg := 0, wsp := 0, evPend := 0,
                  status := 1, wait := .run }
    else s.loadTcb h t.tcb t.base
  let h2 := { h1 with task := some k, cause := t.cause, stopReq := false, fu := [],
                      evPend := h1.evPend ||| (if t.grant then 0x10 else 0) }
  ((((s.unready k).setTask k { t with st := .running, fresh := false, grant := false }).setThr a h2).tephraTask k t.st .running
    reason).cnt64 R.TSK_DISPATCH 1

/-- Whether a READY task may be dispatched: its agent runs tasks and its group is not suspended (R393). -/
def State.dispatchable (s : State) (k : Nat) : Bool := s.groupRuns (s.task k).group

/-- The task an agent would run next: the head of its highest list that holds a dispatchable task, among priorities above
`lim` counted from 1 (0 for any) (R393, R398). -/
def State.bestTask (s : State) (a lim : Nat) : Option Nat :=
  if s.runsTasks a && s.flag R.TSK_CTL F.TSK_CTL_RUN then
    (List.range 64).foldl (fun acc p => if p < lim then acc else match (s.readyL a p).find? (fun k => s.dispatchable k) with
      | some k => some k
      | none => acc) none
  else none

/-- The halfword address of an agent's idle point (R398). -/
def State.idlePc (s : State) (a : Nat) : Nat :=
  if a < 0x800 then s.fld (R.ENG_ENTRY (a / 8)) F.ENG_ENTRY_SVC_ENTRY else s.fld (R.TSK_CTX_CFG (a - 0x800)) F.TSK_CTX_CFG_IDLE_PC

/-- After a task has left an agent: the next dispatchable task is loaded, or the agent returns to its idle point (R401). -/
def State.nextTask (s : State) (a : Nat) : State :=
  let s := s.settle a
  match s.bestTask a 0 with
  | some k => (s.setThr a { s.thr a with task := none }).loadTask a k 6
  | none => s.setThr a { s.thr a with task := none, stopReq := false, pc := s.idlePc a, wait := .run }

/-- Whether the running task of an agent may be switched out now (R178, R399). -/
def State.canSwitch (s : State) (a : Nat) : Bool :=
  let t := s.thr a
  t.status.getLsbD 0 && !(t.status.getLsbD 2) && !t.dead && !t.halted

/-- The switch request to an agent: a dispatchable task above its running task, or a stop of that task (R399, R407). -/
def State.switchReq (s : State) (a : Nat) : Bool :=
  match (s.thr a).task with
  | none => false
  | some k => (s.thr a).stopReq || (s.bestTask a ((s.task k).eprio + 1)).isSome

/-- A task goes OFF (R401, R407, R408): it leaves every list, and its locks are abandoned. -/
def State.taskOff (s : State) (k reason : Nat) : State :=
  let t := s.task k
  let s1 := if t.st = .ready then s.unready k else s.untime k
  ((s1.setTask k { t with st := .off, grant := false, tmo := false }).tephraTask k t.st .off reason).abandonTask k

/-- A reset reaches an agent that runs a task (R408). -/
def State.abortTask (s : State) (a : Nat) : State :=
  match (s.thr a).task with
  | none => s
  | some k =>
    let s1 := s.setThr a { s.thr a with task := none, stopReq := false }
    if (s.task k).st = .running then ((s1.taskOff k 0xE).cnt R.TSK_ABORT).raise 0x30000 1 else s1

/-- Status of a command (R400, R407). -/
def gOK : Nat := 0
def gBAD_STATE : Nat := 1
def gNO_TASK : Nat := 2
def gBAD_ARG : Nat := 3

/-- A command through a port slot (R400, R401). `op` is the command, `k2` the task of RELEASE, `arg` the time of WAIT and DELAY. A task that
was stopped and still runs leaves its agent by any command that would switch it out, and stays OFF (R407). [DEDUCED, log 108] -/
def State.portCommand (s : State) (a op k2 arg : Nat) : State :=
  let s := s.settle a
  let t := s.thr a
  let st (s : State) (n : Nat) : State := s.setThr a { s.thr a with gstat := n }
  match t.task with
  | none => st s gNO_TASK
  | some k =>
    let e := s.task k
    let leave (s : State) : State := (st s gOK).nextTask a
    if t.stopReq ∧ (op = 1 ∨ op = 2 ∨ op = 3 ∨ op = 5) then leave s
    else if op = 1 ∨ (op = 3 ∧ arg = 0) then
      leave ((s.saveTask a k).makeReady k 8 4 false)
    else if op = 2 then
      if 0 < e.pend then st ((s.setTask k { e with pend := e.pend - 1 }).setThr a { t with cause := 1 }) gOK
      else
        let s1 := ((s.saveTask a k).setTask k { e with st := .idle, tmo := decide (arg ≠ 0), base := t.base }).tephraTask k e.st .idle 9
        leave (if arg = 0 then s1 else s1.armTime k arg)
    else if op = 3 then
      leave ((((s.saveTask a k).setTask k { e with st := .delayed, base := t.base }).tephraTask k e.st .delayed 0xA).armTime k arg)
    else if op = 4 then
      if (s.task k2).st = .off then st s gBAD_STATE else st (s.release k2 2) gOK
    else if op = 5 then leave (s.taskOff k 0xB)
    else st s gBAD_ARG

/-- The status an agent reads from its port slot, word 0 (R400). -/
def State.portStatus (s : State) (a : Nat) : Nat :=
  let t := s.thr a
  t.cause * 2 ^ 60 + s.curTask a % 4096 * 2 ^ 48 + t.gstat

/-- Whether the block of a task lies where R395 wants it: in shared RAM of the target's cluster or state memory of its
pipeline for a service thread, in control complex SRAM for a control context. -/
def Tce.tcbOk (t : Tce) : Bool :=
  let a := t.tcb
  let ag := t.agent
  if ag < 0x800 then
    let c := ag / 8 / 4
    let p := ag / 8 / 16
    (decide (0x1100000000 + c * 0x40000 ≤ a) && decide (a + 1024 ≤ 0x1100000000 + (c + 1) * 0x40000)) ||
    (decide (0x1200000000 + p * 0x200000 ≤ a) && decide (a + 1024 ≤ 0x1200000000 + (p + 1) * 0x200000))
  else decide (0x2000000000 ≤ a) && decide (a + 1024 ≤ 0x2000800000)

/-- A software command of TSK_CMD on a task: its status, and the state after it (R407). [DEDUCED, log 108] -/
def State.tskCommand (s : State) (op k : Nat) : Nat × State :=
  let t := s.task k
  if op = 1 then
    if t.st ≠ .off then (1, s)
    else if ¬ s.runsTasks t.agent then (2, s)
    else if ¬ t.tcbOk ∨ ¬ s.flag (R.TSK_GRP_CFG t.group) F.TSK_GRP_CFG_EN then (3, s)
    else (0, (s.setTask k { t with pend := 0, eprio := t.bprio, fresh := true, grant := false }).makeReady k 0 0 false)
  else if op = 2 then
    if t.st = .off then (1, s) else (0, s.release k 1)
  else if op = 3 then
    if t.st = .off then (1, s)
    else
      let run := t.st = .running ∧ (s.thr t.agent).task = some k
      let s1 := s.taskOff k 5
      if run then
        (0, if s1.canSwitch t.agent then s1.nextTask t.agent
            else s1.setThr t.agent { s1.thr t.agent with stopReq := true })
      else (0, s1)
  else (3, s)

/-- `n` ticks of a tick group pass: the count advances, and every entry due is released in list order (R403, R404). -/
def State.dueDelays (s : State) (g : Nat) : Nat → List (Nat × Nat) → State
  | _, [] => s.setDelayL g []
  | n, (d, k) :: l =>
    if d ≤ n then (s.timeUp k).dueDelays g (n - d) l else s.setDelayL g ((d - n, k) :: l)

def State.groupTicks (s : State) (g n : Nat) : State :=
  let s1 := s.setReg (R.TSK_GRP_TICK g) (s.reg (R.TSK_GRP_TICK g) + BitVec.ofNat 32 n)
  s1.dueDelays g n (s1.delayL g)

end Sys2Proof.Machine
end

