-- ==== Sys2Proof/Machine/Flags.lean ====
section
/-! DEFINITION. The flags N, Z, C, V (bits 3 to 0 of FLG, R149) and the conditions over them (R164). -/

namespace Sys2Proof.Machine

/-- FLG from its four flags. -/
def mkFlags (n z c v : Bool) : BitVec 4 := BitVec.ofNat 4 (b2n n * 8 + b2n z * 4 + b2n c * 2 + b2n v)

def flagN (f : BitVec 4) : Bool := f.getLsbD 3
def flagZ (f : BitVec 4) : Bool := f.getLsbD 2
def flagC (f : BitVec 4) : Bool := f.getLsbD 1
def flagV (f : BitVec 4) : Bool := f.getLsbD 0

/-- Flags of an addition: C is the carry out, V the signed overflow. -/
def addFlags (x y : Word) : BitVec 4 :=
  let r := x + y
  mkFlags r.msb (r == 0) (decide (2 ^ 64 ≤ x.toNat + y.toNat)) ((x.msb == y.msb) && (r.msb != x.msb))

/-- Flags of a subtraction or comparison: C is the unsigned borrow, V the signed overflow. -/
def subFlags (x y : Word) : BitVec 4 :=
  let r := x - y
  mkFlags r.msb (r == 0) (decide (x.toNat < y.toNat)) ((x.msb != y.msb) && (r.msb != x.msb))

/-- Flags of TST: C and V are cleared. -/
def tstFlags (x y : Word) : BitVec 4 := mkFlags (x &&& y).msb ((x &&& y) == 0) false false

/-- Whether a condition holds (R164); code 0xF is no condition. -/
def condHolds (c : Cond) (f : BitVec 4) : Bool :=
  match c.toNat with
  | 0x0 => flagZ f
  | 0x1 => !flagZ f
  | 0x2 => flagN f != flagV f
  | 0x3 => flagN f == flagV f
  | 0x4 => !flagZ f && (flagN f == flagV f)
  | 0x5 => flagZ f || (flagN f != flagV f)
  | 0x6 => flagC f
  | 0x7 => !flagC f
  | 0x8 => !flagC f && !flagZ f
  | 0x9 => flagC f || flagZ f
  | 0xA => flagN f
  | 0xB => !flagN f
  | 0xC => flagV f
  | 0xD => !flagV f
  | 0xE => true
  | _ => false

end Sys2Proof.Machine
end

