-- ==== Sys2Proof/Machine/Operands.lean ====
section
/-! DEFINITION. Operand values and encodings of Velkor instructions (R156–R158, R166–R172): immediates, shift amounts, byte orders,
and the words that EINFO reports (R174). -/

namespace Sys2Proof.Machine

/-- A sign-extended immediate of `w` bits. -/
def immS {w : Nat} (i : BitVec w) : Word := i.signExtend 64

/-- A zero-extended immediate. -/
def immZ {w : Nat} (i : BitVec w) : Word := i.zeroExtend 64

/-- The immediate of ADDI and CMPI: imm7 in the short form, imm15 in the long form (R157, R167). -/
def immSL (lg : Bool) (i : BitVec 15) : Word := if lg then immS i else immS (i.truncate 7)

/-- Length of an instruction in halfwords. -/
def ilen (lg : Bool) : Nat := if lg then 2 else 1

/-! ### Encodings -/

/-- Format L-R. -/
def encLR (opc rd rs1 rs2 func : Nat) : Nat := 2 ^ 31 + opc * 2 ^ 25 + rd * 2 ^ 20 + rs1 * 2 ^ 15 + rs2 * 2 ^ 10 + func
/-- Format L-X. -/
def encLX (opc rd rs1 op : Nat) (param : BitVec 13) : Nat := 2 ^ 31 + opc * 2 ^ 25 + rd * 2 ^ 20 + rs1 * 2 ^ 15 + op * 2 ^ 13 + param.toNat
/-- Format L-S. -/
def encLS (opc r : Nat) (sreg : BitVec 12) : Nat := 2 ^ 31 + opc * 2 ^ 25 + r * 2 ^ 20 + sreg.toNat * 2 ^ 8
/-- A short instruction of OP 0xC. -/
def encSys (f r : Nat) : Nat := 0xC * 2 ^ 11 + f * 2 ^ 7 + r * 2 ^ 3

/-- EINFO of an encoding, with the source unit and the refusal code (R174). [DEDUCED, log 54] -/
def einfo (enc : Nat) (lg : Bool) (src code : Nat) : Word :=
  BitVec.ofNat 64 (enc + src * 2 ^ 32 + code * 2 ^ 36 + b2n lg * 2 ^ 44)

/-! ### Unary operations (R167) -/

/-- Leading zero bits of a word. -/
def clz64 (x : Word) : Nat := if x = 0 then 64 else 63 - Nat.log2 x.toNat
/-- Trailing zero bits of a word. -/
def ctz64 (x : Word) : Nat := ((List.range 64).find? fun i => x.getLsbD i).getD 64
/-- Bits set in a word. -/
def popc64 (x : Word) : Nat := (List.range 64).foldl (fun n i => n + b2n (x.getLsbD i)) 0
/-- The low `n` bytes reversed, the upper bits zero. -/
def bswapN (n : Nat) (x : Word) : Word := BitVec.ofNat 64 (valBE (bytesLE n x.toNat))
/-- The low `w` bits, zero-extended. -/
def zextN (w : Nat) (x : Word) : Word := BitVec.ofNat 64 (x.toNat % 2 ^ w)
/-- The low `w` bits, sign-extended. -/
def sextN (w : Nat) (x : Word) : Word := BitVec.ofInt 64 (sint w x.toNat)
/-- A shift amount, modulo 64 (R165). -/
def shAmt (x : Word) : Nat := x.toNat % 64
/-- A 16-bit lane replaced, the others kept (LDIK). -/
def setLane (x : Word) (lane : Nat) (imm : BitVec 16) : Word :=
  (x &&& ~~~((0xFFFF : Word) <<< (16 * lane))) ||| (immZ imm <<< (16 * lane))
/-- The greater of two signed words. -/
def smax (x y : Word) : Word := if x.slt y then y else x
/-- The lesser of two signed words. -/
def smin (x y : Word) : Word := if y.slt x then y else x
def umax (x y : Word) : Word := if x.ult y then y else x
def umin (x y : Word) : Word := if y.ult x then y else x
/-- The unsigned quotient; by zero, all ones (R165). -/
def quo (x y : Word) : Word := if y = 0 then BitVec.allOnes 64 else x / y
/-- The unsigned remainder; by zero, the dividend (R165). -/
def rem (x y : Word) : Word := if y = 0 then x else x % y
/-- The high 64 bits of the unsigned product. -/
def mulhi (x y : Word) : Word := BitVec.ofNat 64 (x.toNat * y.toNat / 2 ^ 64)

end Sys2Proof.Machine
end

