-- ==== Sys2Proof/Machine/Thread.lean ====
section
/-! DEFINITION. The operations of threads and contexts: eligibility and issue (R115), registers and windows (R144–R149), segments and
the places they reach (R150–R155), exceptions (R174–R177), resets (R132). -/

namespace Sys2Proof.Machine

/-- What a step that always completes answers. -/
abbrev Result := Host.Outcome State Fault Refusal

/-! ### Where an agent runs -/

def pipeOf (a : Nat) : Nat := a / 128
def cluOf (a : Nat) : Nat := a / 32
def engOf (a : Nat) : Nat := a / 8
/-- Address of the ENG page of a thread's engine. -/
def engPage (a : Nat) : Nat := 0x200000 + engOf a * 0x1000

/-- Whether an engine runs (R134). -/
def State.engRun (s : State) (e : Nat) : Bool := s.flag (R.ENG_CTL e) F.ENG_CTL_RUN
/-- Whether an agent uses the engine profile (R143). -/
def isEng (a : Nat) : Bool := decide (a < 0x800)

/-- The clock domain of an agent in `cycBase`. -/
def clkDom (a : Nat) : Nat := if a < 0x800 then pipeOf a else if a < 0x810 then 16 else 17

/-- Cycles of an agent's clock domain: 3.0 GHz, 2.0 GHz and 250 MHz against a tick of 2 ns (R149, R498). [DESIGN CHOICE, log 118] -/
def State.cycles (s : State) (a : Nat) : Nat :=
  let n := s.clk - smGet (fun _ => 0) s.cycBase (clkDom a)
  if a < 0x800 then n * 6 else if a < 0x810 then n * 4 else n / 2

/-- Whether the reset of a thread still runs (R132), and whether a spill or fill of its window does (R148). -/
def State.inReset (s : State) (a : Nat) : Bool := decide (s.clk < (s.thr a).rstEnd)
def State.moving (s : State) (a : Nat) : Bool := decide (s.clk < (s.thr a).moveEnd)

/-- Whether a thread may issue (R112, R115, R134, R490, R500, R518, R560). [DEDUCED, log 46] -/
def State.eligible (s : State) (a : Nat) : Bool :=
  let t := s.thr a
  (t.wait == .run) && !t.dead && (!t.halted || t.step) && !(s.inReset a) && !(s.moving a) &&
  (if a < 0x800 then
     s.mainClk && s.domOn (pipeOf a) && s.engRun (engOf a) &&
     (s.role a == rService || (s.role a == rPacket && t.pkt.isSome))
   else if a < 0x810 then s.released && s.mainClk
   else s.released && decide (s.mode ≠ mOFF) && decide (s.mode ≠ mRESET))

/-! ### Registers -/

/-- The physical register of a register number (R144, R147): numbers 8–31 are w0–w23, from the current frame's slot on. -/
def Thr.phys (t : Thr) (n : Nat) : Nat := if n < 8 then n else 8 + (t.base * 16 + (n - 8)) % 80

/-- A register of a thread. -/
def Thr.get (t : Thr) (n : Nat) : Word := smGet (fun _ => (0 : Word)) t.rf (t.phys n)

/-- A thread with a register written. -/
def Thr.set (t : Thr) (n : Nat) (v : Word) : Thr := { t with rf := smSet (fun _ => (0 : Word)) t.rf (t.phys n) v }

/-- A register of an agent. -/
def State.x (s : State) (a n : Nat) : Word := (s.thr a).get n

/-- The state with a register of an agent written. -/
def State.setX (s : State) (a n : Nat) (v : Word) : State := s.setThr a ((s.thr a).set n v)

/-- The halfword addresses of a profile: 16 bits on engines, 39 bits otherwise (R143). -/
def pcMod (a : Nat) : Nat := if a < 0x800 then 2 ^ 16 else 2 ^ 39

/-- The state with an agent's pc set. -/
def State.setPc (s : State) (a pc : Nat) : State := s.setThr a { s.thr a with pc := pc % pcMod a }

/-- The pc of an agent. -/
def State.pc (s : State) (a : Nat) : Nat := (s.thr a).pc

/-- FLG of an agent. -/
def State.flg (s : State) (a : Nat) : BitVec 4 := (s.thr a).flg

/-- The state with FLG of an agent set. -/
def State.setFlg (s : State) (a : Nat) (f : BitVec 4) : State := s.setThr a { s.thr a with flg := f }

/-- Whether any of the registers has a fused-unit result that is not written back (R190). [DEDUCED, log 41] -/
def Thr.busy (t : Thr) (ns : List Nat) : Bool := t.fu.any fun p => ns.any fun n => t.phys n == p.rd

/-! ### Issue (R115, R160, R488) -/

/-- What chooses the issues of an agent: its engine, or its control core, kept behind the engines. -/
def unitOf (a : Nat) : Nat := if a < 0x800 then engOf a else 256 + (a - 0x800) / 4
/-- The agents among which it chooses: eight threads, the four contexts of a core, the Fumarole core alone. -/
def rivals (a : Nat) : List Nat :=
  if a < 0x800 then (List.range 8).map (engOf a * 8 + ·) else if a < 0x810 then (List.range 4).map ((a - 0x800) / 4 * 4 + 0x800 + ·) else [a]

/-- The thread of an engine that holds a packet. -/
def State.holder (s : State) (e k : Nat) : Option Nat :=
  ((List.range 8).find? fun t => (s.thr (e * 8 + t)).pkt == some k).map fun t => e * 8 + t

/-- OLDEST of an engine (R122). -/
def State.oldest (s : State) (e : Nat) : Option Nat :=
  match (s.eng e).held with
  | k :: _ => some k
  | [] => (s.eng e).q.head?

/-- Whether the express thread of an engine is enabled (R113), and which it is. -/
def State.expThr (s : State) (e : Nat) : Nat := e * 8 + s.fld (R.ENG_CTL e) F.ENG_CTL_EXP_TID
def State.expOn (s : State) (e : Nat) : Bool := s.flag (R.ENG_CTL e) F.ENG_CTL_EXP_EN && (s.role (s.expThr e) == rPacket)

/-- BOOST (R125): the express thread has issued SEND and its packet is not OLDEST. -/
def State.boost (s : State) (e : Nat) : Bool :=
  s.expOn e && (s.thr (s.expThr e)).wait == .sendWait && (s.thr (s.expThr e)).pkt != s.oldest e

/-- The threads that hold packets older than the express packet, oldest first, while BOOST = 1. -/
def State.elders (s : State) (e : Nat) : List Nat :=
  if s.boost e then
    ((s.eng e).held.takeWhile fun k => (s.thr (s.expThr e)).pkt != some k).filterMap fun k => s.holder e k
  else []

/-- Whether a thread is eligible whatever its next instruction is: nothing that it has issued is still to return. [DEDUCED, log 134] -/
def State.sure (s : State) (a : Nat) : Bool :=
  s.eligible a && (s.thr a).fu.isEmpty && !((s.eng (unitOf a)).arb.late.contains a)

/-- Whether rotation chose the issue of a thread: it is not the express thread's, nor one under BOOST (R115). -/
def State.rotates (s : State) (a : Nat) : Bool :=
  !(decide (a < 0x800) && ((s.expOn (engOf a) && a == s.expThr (engOf a)) || (s.elders (engOf a)).contains a))

/-- Whether the choice of R115 can fall on an eligible thread: no other that is surely eligible comes before it, which is the express
thread, then under BOOST an older packet's, then rotation after PTR; a control core knows rotation alone (R488). [DEDUCED, log 134] -/
def State.chosen (s : State) (a : Nat) : Bool :=
  let l := rivals a
  let n := l.length
  let place (b : Nat) : Nat := (b + 2 * n - (s.eng (unitOf a)).arb.ptr % n - 1) % n
  let eng := decide (a < 0x800)
  let e := engOf a
  let exp (b : Nat) : Bool := eng && s.expOn e && b == s.expThr e
  let elder := if eng then s.elders e else []
  exp a ||
  (!(l.any fun b => exp b && s.sure b) &&
    (if elder.contains a then !((elder.takeWhile (· ≠ a)).any s.sure)
     else !(elder.any s.sure) && !(l.any fun b => decide (place b < place a) && !(exp b) && s.sure b)))

/-- An issue of a thread: the pc passes the instruction, ENG_ISSUE counts on an engine, PTR moves where rotation chose it, and a debugger's
step is used up. -/
def State.issued (s : State) (a len : Nat) (k : Kind) : State :=
  let t := s.thr a
  let g := s.eng (unitOf a)
  let n := (rivals a).length
  let s1 := s.setThr a { t with pc := (t.pc + len) % pcMod a, step := false }
  let s2 := s1.setEng (unitOf a) { g with arb :=
    { ptr := if s.rotates a then a % n else g.arb.ptr, issues := g.arb.issues + 1,
      lead := some { thr := a, pc := t.pc, len := len, at_ := s.clk, kind := k },
      late := if k.slow then a :: g.arb.late.filter (· ≠ a) else g.arb.late.filter (· ≠ a) } }
  if a < 0x800 then s2.cnt64 (R.ENG_ISSUE (engOf a)) 1 else s2

/-- The second instruction of a pair, in the issue of the first. -/
def State.joined (s : State) (a len : Nat) (k : Kind) : State :=
  let t := s.thr a
  let g := s.eng (unitOf a)
  (s.setThr a { t with pc := (t.pc + len) % pcMod a }).setEng (unitOf a)
    { g with arb := { g.arb with lead := none, late := if k.slow then a :: g.arb.late.filter (· ≠ a) else g.arb.late } }

/-- What the pairing rules ask of a load or atomic, and of a store. -/
def kLoad (rd : Reg) : Kind := { writes := [rd.val], mem := true, slow := true }
def kStore : Kind := { mem := true }

/-- Whether two instructions pair, by their kinds and the registers the second names (R160). -/
def Kind.pairs (p q : Kind) (ns : List Nat) : Bool :=
  !p.alone && !p.tail && !q.alone && !(p.mem && q.mem) && !(p.unit && q.unit) &&
  (p.writes.all fun r => !((ns ++ q.also).contains r)) && !(p.setsF && (q.setsF || (q.readsF && !q.isBc)))

/-- Whether an instruction issues as the second of a pair (R160): the first was the last issue, in this tick, and both lie in one block
of eight halfwords. A halt or RUN = 0 that came since does not part them (R134, R184). [DEDUCED, log 40] -/
def State.joins (s : State) (a len : Nat) (ns : List Nat) (k : Kind) : Bool :=
  match (s.eng (unitOf a)).arb.lead with
  | none => false
  | some l =>
    l.thr == a && l.at_ == s.clk && (l.pc + l.len) % pcMod a == (s.thr a).pc && l.pc / 8 == ((s.thr a).pc + len - 1) / 8 &&
    l.kind.pairs k ns && ((s.thr a).wait == .run) && !(s.thr a).dead && !(s.inReset a) && !((s.thr a).busy ns) && s.mainClk &&
    (decide (0x800 ≤ a) || s.domOn (pipeOf a)) && (decide (0x800 ≤ a) || s.role a == rService || (s.thr a).pkt.isSome)

/-- The state in which an instruction has issued, alone or as the second of a pair. [DEDUCED, log 40] -/
def State.took (s : State) (a len : Nat) (ns : List Nat) (k : Kind) : State :=
  if s.joins a len ns k then s.joined a len k else s.issued a len k

/-- Whether an instruction that names the registers `ns` issues now. [DEDUCED, log 41] -/
def State.canIssue (s : State) (a : Nat) (ns : List Nat) : Bool := s.eligible a && !((s.thr a).busy ns) && s.chosen a

/-- An instruction of `len` halfwords that names the registers `ns`: it issues and has its effect, or the thread cannot issue it
now and nothing changes. [DEDUCED, log 40] -/
def State.instr (s : State) (a len : Nat) (ns : List Nat) (k : Kind) (f : State → State) : Result :=
  if s.joins a len ns k || s.canIssue a ns then .next (f (s.took a len ns k)) else .next s

/-! ### Segments (R150–R154) -/

/-- What an access does (R151). -/
inductive Need where
  | load | store | fetch | atom | spill | fill
  deriving DecidableEq, Repr

/-- Granules of R150. -/
def granule (d : Word) : Nat :=
  match bits d.toNat 57 56 with
  | 0 => 1 | 1 => 64 | 2 => 4096 | _ => 0x100000

/-- Size of a segment. -/
def segSize (d : Word) : Nat := (bits d.toNat 55 40 + 1) * granule d

/-- Base of a segment; bits below the granule read as zero. -/
def segBase (d : Word) : Nat := bits d.toNat 39 0 / granule d * granule d

/-- The effective descriptor of a segment (R153, R154, R150). [DESIGN CHOICE, log 47] -/
def State.segDesc (s : State) (a n : Nat) : Word :=
  if a < 0x800 then
    if n = 1 then (if (s.thr a).pkt.isSome then BitVec.ofNat 64 (7 * 2 ^ 61 + 319 * 2 ^ 40) else 0)
    else if n = 2 then (if (s.thr a).pkt.isSome then BitVec.ofNat 64 (7 * 2 ^ 61 + 127 * 2 ^ 40) else 0)
    else if 8 ≤ n then 0
    else
      let c := cluOf a
      let d : Word := BitVec.ofNat 64 ((s.reg (R.CLU_SEG_LO c n)).toNat + (s.reg (R.CLU_SEG_HI c n)).toNat * 2 ^ 32)
      let slice := (n == 3 && s.flag (R.CLU_SEG_CTL c) F.CLU_SEG_CTL_S3_SLICE) ||
                   (n == 7 && s.flag (R.CLU_SEG_CTL c) F.CLU_SEG_CTL_S7_SLICE)
      let b := segBase d + (if slice then a % 8 * segSize d else 0)
      BitVec.ofNat 64 (d.toNat / 2 ^ 40 * 2 ^ 40 + b % 2 ^ 40)
  else
    let d := smGet (fun _ => (0 : Word)) (s.thr a).segs n
    BitVec.ofNat 64 (d.toNat / 2 ^ 40 * 2 ^ 40 + segBase d)

/-- The kinds of memory a segment can lie in (R152, R153). -/
inductive Region where
  | reg | data | shr | st | iram | sram | hbm | hdr | slot
  deriving DecidableEq, Repr

/-- Internal addresses of the memories. -/
def dataAt (e : Nat) : Nat := 0x1000000000 + e * 0x10000
def shrAt (c : Nat) : Nat := 0x1100000000 + c * 0x40000
def stateAt (p : Nat) : Nat := 0x1200000000 + p * 0x200000
def iramAt (c : Nat) : Nat := 0x1300000000 + c * 0x20000
def sramBase : Nat := 0x2000000000

/-- The region a range lies in wholly, with the internal address of its first byte: the local regions on engines, every other
region in the full profile (R152). -/
def regionOf (a base size : Nat) : Option (Region × Nat) :=
  let fits (lo sz : Nat) : Bool := decide (lo ≤ base) && decide (base + size ≤ lo + sz)
  if a < 0x800 then
    if fits 0x40000000 0x8000 then some (.data, dataAt (engOf a) + (base - 0x40000000))
    else if fits 0x41000000 0x40000 then some (.shr, shrAt (cluOf a) + (base - 0x41000000))
    else if fits 0x42000000 0x200000 then some (.st, stateAt (pipeOf a) + (base - 0x42000000))
    else if fits 0x43000000 0x20000 then some (.iram, iramAt (cluOf a) + (base - 0x43000000))
    else none
  else
    if fits 0 0x4000000 then some (.reg, base)
    else if 0x1000000000 ≤ base ∧ base < dataAt 256 ∧ base % 0x10000 + size ≤ 0x8000 then some (.data, base)
    else if 0x1100000000 ≤ base ∧ base < shrAt 64 ∧ (base - 0x1100000000) % 0x40000 + size ≤ 0x40000 then some (.shr, base)
    else if 0x1200000000 ≤ base ∧ base < stateAt 16 ∧ (base - 0x1200000000) % 0x200000 + size ≤ 0x200000 then some (.st, base)
    else if 0x1300000000 ≤ base ∧ base < iramAt 64 ∧ (base - 0x1300000000) % 0x20000 + size ≤ 0x20000 then some (.iram, base)
    else if fits sramBase 0x800000 then some (.sram, base)
    else if fits hbmBase 0xC00000000 then some (.hbm, base)
    else none

/-- The pipeline whose power domain holds a memory address, if any. -/
def memPipe (adr : Nat) : Option Nat :=
  if 0x1000000000 ≤ adr ∧ adr < dataAt 256 then some ((adr - 0x1000000000) / 0x100000)
  else if 0x1100000000 ≤ adr ∧ adr < shrAt 64 then some ((adr - 0x1100000000) / 0x100000)
  else if 0x1200000000 ≤ adr ∧ adr < stateAt 16 then some ((adr - 0x1200000000) / 0x200000)
  else if 0x1300000000 ≤ adr ∧ adr < iramAt 64 then some ((adr - 0x1300000000) / 0x80000)
  else none

/-- Where an allowed access goes. -/
inductive Place where
  | mem (adr : Nat)
  | hbm (adr : Nat)
  | hdr (pkt off : Nat)
  | slot (off : Nat)
  | reg (adr : Nat)
  | port
  deriving DecidableEq, Repr

/-- Offset in a pipeline's state memory of the Geyser port slot of a thread (R400). -/
def portSlot (a : Nat) : Nat := 0x1FF000 + (a % 128) * 16

/-- Where an access of `n` bytes at offset `off` of a segment goes, or the type of its violation (R148, R151, R152, R155, R169, R400,
R470, R584). [DEDUCED, log 19] -/
def State.place (s : State) (a seg off n : Nat) (need : Need) : Except Nat Place :=
  let d := s.segDesc a seg
  let bad (t : Nat) : Except Nat Place := .error (if need = .spill ∨ need = .fill then 0xA else t)
  let right : Bool := match need with
    | .load | .fill => d.getLsbD 62
    | .store | .spill => d.getLsbD 61
    | .fetch => d.getLsbD 60
    | .atom => d.getLsbD 59 && d.getLsbD 62 && d.getLsbD 61
  let user := !(isEng a) && (s.thr a).status.getLsbD 3
  let where_ : Option (Region × Nat) :=
    if isEng a ∧ seg = 1 then some (.hdr, 0) else if isEng a ∧ seg = 2 then some (.slot, 0)
    else regionOf a (segBase d) (segSize d)
  if ¬ d.getLsbD 63 then bad 7
  else match where_ with
  | none => bad 7
  | some (rg, p0) =>
    let adr := p0 + off
    if ¬ right then bad (if need = .atom then 9 else 7)
    else if ¬ isEng a ∧ d.getLsbD 58 ∧ user then bad 7
    else if rg = .iram ∧ (need = .store ∨ need = .atom ∨ need = .spill) then bad (if need = .atom then 9 else 7)
    else if isEng a ∧ need = .fetch ∧ rg ≠ .iram then bad 7
    else if need = .atom ∧ rg ≠ .shr ∧ rg ≠ .st then bad 9
    else if segSize d < off + n then bad 8
    else if need = .atom ∧ adr % n ≠ 0 then bad 9
    else match rg with
    | .reg => if n = 4 ∧ adr % 4 = 0 ∧ (need = .load ∨ need = .store) then .ok (.reg adr) else bad 5
    | .hdr => match (s.thr a).pkt with
      | some k => .ok (.hdr k off)
      | none => bad 7
    | .slot => .ok (.slot off)
    | .hbm =>
      if (need = .store ∨ need = .spill) ∧ ¬ hbmCtlWritable adr n then .error 0xB
      else if s.hbmOk adr n then .ok (.hbm adr) else bad 7
    | _ =>
      if (match memPipe adr with | some q => !(s.domOn q) | none => false) then bad 6
      else
        let o := (adr - 0x1200000000) % 0x200000
        if rg = .st ∧ s.flag R.TSK_CTL F.TSK_CTL_PORT_EN ∧ 0x1FF000 < o + n then
          if isEng a ∧ s.role a = rService ∧ adr = stateAt (pipeOf a) + portSlot a ∧ n = 8 ∧ (need = .load ∨ need = .store)
          then .ok .port else bad 7
        else .ok (.mem adr)

/-- A segment violation is captured (R151, R584, R585): SEG names the segment for the types 0x7 to 0xA, and OFFSET is that of the HBM
address for type 0xB. [DEDUCED, log 36] -/
def State.segViol (s : State) (a seg off typ : Nat) : State :=
  if typ = 0xB then s.viol 0xC00000 a typ 0 (segBase (s.segDesc a seg) + off)
  else s.viol (if typ = 6 then 0 else if a < 0x800 then engPage a else 0) a typ (if 7 ≤ typ ∧ typ ≤ 0xA then seg else 0) off

/-- The bytes at a place of memory; register space and the Geyser port are not memory. -/
def State.placeRead (s : State) (a : Nat) (p : Place) (n : Nat) : List Byte × State :=
  match p with
  | .mem adr => (s.rdBytes adr n, s)
  | .hbm adr =>
    let (bs, ue) := s.hbmRead adr n
    (bs, (if ue then { s with freeCtr := s.freeCtr + n } else s).hbmAsk cCTL false adr n)
  | .hdr k off => (rdMap (smGet (fun _ => ({} : Pkt)) s.pkts k).hdr off n, s)
  | .slot off => (rdMap (s.thr a).slot off n, s)
  | .reg _ | .port => (List.replicate n 0, s)

/-- Bytes stored at a place of memory. -/
def State.placeWrite (s : State) (a : Nat) (p : Place) (bs : List Byte) : State :=
  match p with
  | .mem adr => s.wrBytes adr bs
  | .hbm adr => s.hbmPut cCTL adr bs
  | .hdr k off =>
    let q := smGet (fun _ => ({} : Pkt)) s.pkts k
    { s with pkts := smSet (fun _ => {}) s.pkts k { q with hdr := wrMap q.hdr off bs } }
  | .slot off => s.setThr a { s.thr a with slot := wrMap (s.thr a).slot off bs }
  | .reg _ | .port => s

/-- The halfword at an address of the instruction stream: 0x0000 where the fetch is a violation (R151, R156). -/
def State.fetch (s : State) (a hw : Nat) : Nat × State :=
  match s.place a 0 (2 * hw) 2 .fetch with
  | .ok p => let (bs, s1) := s.placeRead a p 2
             (valLE bs, s1)
  | .error t => (0, s.segViol a 0 (2 * hw) t)

/-! ### The register window (R146–R148) -/

/-- The registers of a ring slot, in bytes. -/
def Thr.frame (t : Thr) (slot : Nat) : List Byte :=
  ((List.range 16).map fun i => bytesLE 8 (smGet (fun _ => (0 : Word)) t.rf (8 + slot % 5 * 16 + i)).toNat).flatten

/-- A thread with a ring slot loaded from 128 bytes. -/
def Thr.setFrame (t : Thr) (slot : Nat) (bs : List Byte) : Thr :=
  { t with rf := (List.range 16).foldl (fun m i => smSet (fun _ => (0 : Word)) m (8 + slot % 5 * 16 + i)
      (BitVec.ofNat 64 (valLE ((bs.drop (i * 8)).take 8)))) t.rf }

/-- The internal address of a place in a memory. -/
def Place.adr? : Place → Option Nat
  | .mem adr | .hbm adr => some adr
  | _ => none

/-- A spill of the oldest resident frame to s7 at WSP: it runs for 8 cycles, which is until the second tick from now at the latest, and what
it replaces is kept for a reset that stops it (R148, R183). [DEDUCED, log 135] -/
def State.spill (s : State) (a : Nat) : State :=
  let t := s.thr a
  let bs := t.frame (t.base + 5 - (t.depth - 1))
  let s1 := match s.place a 7 t.wsp.toNat 128 .spill with
    | .ok p =>
      let s1 := s.placeWrite a p bs
      s1.setThr a { s1.thr a with spilling := p.adr?.map fun adr => (adr, s.rdBytes adr 128) }
    | .error e => s.segViol a 7 t.wsp.toNat e
  s1.setThr a { s1.thr a with wsp := t.wsp + 128, moveEnd := s.clk + 2 }

/-- A reset stops a spill that runs: the bytes of the register pairs whose cycle had not completed are as before it. How many had is a
free value (R148, R183). [DEDUCED, log 135] -/
def State.cutSpill (s : State) (a : Nat) : State :=
  match (s.thr a).spilling with
  | none => s
  | some (adr, old) =>
    if ¬ s.moving a then s
    else
      let n := 16 * ((Config.freeValue s.freeCtr).toNat % 9)
      { s.wrBytes (adr + n) (old.drop n) with freeCtr := s.freeCtr + 1 }

/-- A fill of the current frame from s7 below WSP. -/
def State.fill (s : State) (a : Nat) : State :=
  let w := (s.thr a).wsp - 128
  let (bs, s1) := match s.place a 7 w.toNat 128 .fill with
    | .ok p => s.placeRead a p 128
    | .error e => (List.replicate 128 0, s.segViol a 7 w.toNat e)
  let t := s1.thr a
  s1.setThr a { t.setFrame t.base bs with wsp := w, moveEnd := s.clk + 2 }

/-- The 16 registers that are new after a call: w8–w23 hold free values. [DESIGN CHOICE, log 11] -/
def Thr.newFrame (t : Thr) (ctr : Nat) : Nat → Thr
  | 0 => t
  | n + 1 => (t.newFrame ctr n).set (16 + n) (Config.freeValue (ctr + n))

/-- CALL and CALLR: the window slides up, w15 holds the return address, and the thread goes on at `target` (R146, R147). -/
def State.callTo (s : State) (a target : Nat) : State :=
  let s1 := if (s.thr a).depth = 4 then s.spill a else s.setThr a { s.thr a with depth := (s.thr a).depth + 1 }
  let t := s1.thr a
  let t1 := ({ t with base := (t.base + 1) % 5 }.newFrame s1.freeCtr 16).set 23 (BitVec.ofNat 64 t.pc)
  { s1.setThr a { t1 with pc := target % pcMod a } with freeCtr := s1.freeCtr + 16 }

/-- RET: to the address in w15, and the window slides down (R146, R147). -/
def State.retFrom (s : State) (a : Nat) : State :=
  let t := s.thr a
  let s1 := s.setThr a { t with base := (t.base + 4) % 5, pc := (t.get 23).toNat % pcMod a }
  if t.depth = 1 then s1.fill a else s1.setThr a { s1.thr a with depth := t.depth - 1 }

/-! ### Resets (R132, R408, R413) -/

/-- The packet of a thread or queue is marked for discard (R128, R132). [DEDUCED, log 71] -/
def State.markDiscard (s : State) (k : Nat) : State :=
  let q := smGet (fun _ => ({} : Pkt)) s.pkts k
  { s with pkts := smSet (fun _ => {}) s.pkts k { q with discard := true } }

/-- Whether the receiving side of an engine has room (R120, R123). [DEDUCED, log 70] -/
def State.hasRoom (s : State) (e : Nat) : Bool :=
  if e % 16 = 11 ∨ e % 16 = 15 then true else decide ((s.eng (e + 1)).q.length < 16)

/-- The packet whose send commits in this cycle: its thread has issued SEND, it is OLDEST, and the receiving side has room (R123). -/
def State.sendsNow (s : State) (a : Nat) : Option Nat :=
  match s.oldest (engOf a) with
  | none => none
  | some k =>
    if (s.thr a).pkt = some k ∧ (s.thr a).wait = .sendWait ∧ s.mainClk ∧ s.domOn (pipeOf a) ∧ s.hasRoom (engOf a) then some k else none

/-- A thread reset, with its restart after 16 cycles, or 32 with its engine (R132, R133, R200): `wdog` when the watchdog ordered it, `n` the
ticks it runs. A send that commits in this cycle stands (R136). [DEDUCED, log 53] -/
def State.threadReset (s : State) (a : Nat) (wdog : Bool) (n : Nat := 3) : State :=
  let t := s.thr a
  let e := engOf a
  let s1 := ((s.cutSpill a).abandonAgent a).abortTask a
  let s2 := match t.pkt with
    | some k =>
      if s.sendsNow a = some k then
        { s1 with pkts := smSet (fun _ => {}) s1.pkts k { smGet (fun _ => ({} : Pkt)) s1.pkts k with ctx := t.slot, sent := true } }
      else (s1.markDiscard k).cnt (if wdog then R.WDOG_DROP e else R.RST_DROP e)
    | none => s1
  let s3 := s2.cntN (R.FU_KILL e) t.fu.length
  let run := s3.engRun e && (s3.role a == rService)
  let g := s3.eng e
  (s3.setEng e { g with arb := { g.arb with lead := none, late := g.arb.late.filter (· ≠ a) } }).setThr a
    { tvec := BitVec.ofNat 64 (s3.fld (R.CLU_TVEC (cluOf a)) F.CLU_TVEC_TVEC), halted := t.halted, rstEnd := s.clk + n,
      evMask := t.evMask, fresh := !run, pc := if run then s3.fld (R.ENG_ENTRY e) F.ENG_ENTRY_SVC_ENTRY else 0 }

/-! ### Exceptions (R174–R177) -/

/-- A double fault (R177): a thread reset on an engine, a halt of a context (R490). [DEDUCED, log 42] -/
def State.doubleFault (s : State) (a : Nat) : State :=
  if a < 0x800 then s.threadReset a false
  else
    let s1 := s.setThr a { s.thr a with dead := true }
    if a < 0x810 then s1.raise 0 2 else s1

/-- Taking an exception or an interrupt (R175): EPC, ECAUSE and EINFO are written, FLG is saved, PIE := IE, PUM := UM, IE := 0, UM := 0,
EXL := 1, and the thread goes on at TVEC. While EXL = 1 it is a double fault. [DEDUCED, log 54] -/
def State.excp (s : State) (a cause epc : Nat) (info : Word) : State :=
  let t := s.thr a
  if t.status.getLsbD 2 then s.doubleFault a
  else s.setThr a { t with
    epc := BitVec.ofNat 64 epc, ecause := BitVec.ofNat 64 cause, einfo := info, eflg := t.flg.zeroExtend 64,
    status := BitVec.ofNat 5 (b2n (t.status.getLsbD 3) * 16 + 4 + b2n (t.status.getLsbD 0) * 2),
    pc := t.tvec.toNat % pcMod a }

/-- The exception of an instruction of `len` halfwords that has been issued: EPC names the instruction itself. -/
def State.excpAt (s : State) (a len cause : Nat) (info : Word) : State :=
  s.excp a cause (((s.thr a).pc + pcMod a - len) % pcMod a) info

/-- The registers that an instruction names, by its format (R144, R157, R158): the short form `h`, or the long form `h`, `l`. -/
def namedRegs (h l : Nat) : List Nat :=
  if h < 0x8000 then
    let r := bits h 10 7
    match bits h 14 11 with
    | 0x0 | 0x1 | 0xD => [r, bits h 6 3]
    | 0xA | 0xB | 0xE | 0xF => []
    | 0xC => if r = 2 ∨ r = 5 then List.range 32 else if 3 ≤ r ∧ r ≤ 7 then [bits h 6 3] else []
    | _ => [r]
  else
    let w := h * 65536 + l
    let rd := bits w 24 20
    let rs1 := bits w 19 15
    let sel := bits w 9 4
    let base := if rs1 = 0 then [] else [rs1]
    match bits w 30 25 with
    | 0x00 => if sel = 0x15 ∨ sel = 0x16 then [rs1, bits w 14 10] else if sel = 0x18 then [rd] else [rd, rs1, bits w 14 10]
    | 0x07 => [rs1]
    | 0x08 | 0x29 | 0x32 | 0x33 | 0x34 => [rd]
    | 0x21 | 0x22 | 0x23 => rd :: bits w 10 6 :: base
    | 0x24 => [rd, rs1, bits w 14 10]
    | 0x25 => if sel = 0 then [rd, rs1] else [rs1]
    | 0x28 | 0x2A | 0x31 => []
    | 0x2B => List.range 32
    | 0x2C => if sel = 0 then [rs1] else if sel = 3 then [] else List.range 32
    | 0x30 => if sel = 2 then [rd, rs1] else if sel = 3 ∨ sel = 4 then [rs1] else if sel = 8 ∨ sel = 9 then List.range 32 else []
    | 0x38 => [rd, rs1]
    | 0x39 | 0x3A => [rd, rs1, bits w 12 8]
    | opc => if 0x10 ≤ opc ∧ opc ≤ 0x20 then rd :: base else [rd, rs1]

/-- The halfword at an address of the instruction stream as it stands, no violation captured. -/
def State.peek (s : State) (a hw : Nat) : Nat :=
  match s.place a 0 (2 * hw) 2 .fetch with
  | .ok p => valLE (s.placeRead a p 2).1
  | .error _ => 0

/-- Whether the next instruction of a thread needs a unit result that is not written back (R190). -/
def State.stalled (s : State) (a : Nat) : Bool :=
  let t := s.thr a
  !t.fu.isEmpty && t.busy (namedRegs (s.peek a t.pc) (s.peek a ((t.pc + 1) % pcMod a)))

/-- UNDEF (R159): from the decoder, or from a fused unit with its refusal code. [DEDUCED, log 54] -/
def State.undef (s : State) (a enc : Nat) (lg : Bool) (src code : Nat) : State :=
  s.excpAt a (ilen lg) 1 (einfo enc lg src code)

/-- Return from an exception (R176): FLG, IE and UM are restored, EXL is cleared, and the thread goes on at EPC. -/
def State.eretTo (s : State) (a : Nat) : State :=
  let t := s.thr a
  s.setThr a { t with
    flg := t.eflg.truncate 4, pc := t.epc.toNat % pcMod a,
    status := BitVec.ofNat 5 (b2n (t.status.getLsbD 4) * 16 + b2n (t.status.getLsbD 4) * 8 + b2n (t.status.getLsbD 1) * 2 +
                              b2n (t.status.getLsbD 1)) }

/-- Whether an agent runs at user level (R143). -/
def State.userMode (s : State) (a : Nat) : Bool := !(isEng a) && (s.thr a).status.getLsbD 3

/-! ### Special registers (R149) -/

/-- The value of a special register; none for a number the profile does not have. -/
def State.sregGet (s : State) (a n : Nat) : Option Word :=
  let t := s.thr a
  match n with
  | 0x000 => some (t.status.zeroExtend 64)
  | 0x001 => some (t.flg.zeroExtend 64)
  | 0x002 => some t.epc
  | 0x003 => some t.eflg
  | 0x004 => some t.ecause
  | 0x005 => some t.einfo
  | 0x006 => some t.tvec
  | 0x007 => some t.escr0
  | 0x008 => some t.escr1
  | 0x009 => some t.wsp
  | 0x00A => some (BitVec.ofNat 64 t.depth)
  | 0x00B => some (BitVec.ofNat 64 a)
  | 0x00C => some (BitVec.ofNat 64 (s.cycles a))
  | 0x00D => some (BitVec.ofNat 64 (s.dNs / 1000000000 % 2 ^ 32 * 2 ^ 32 + s.dNs % 1000000000))
  | 0x00E => some (if isEng a then 0 else 1)
  | 0x00F => some (t.evPend.zeroExtend 64)
  | _ =>
    if 0x100 ≤ n ∧ n < 0x110 then (if isEng a ∧ 0x108 ≤ n then none else some (s.segDesc a (n - 0x100))) else none

/-- Whether a special register is of type RO. -/
def sregRO (n : Nat) : Bool := decide (0x00A ≤ n) && decide (n ≤ 0x00F)

/-- Whether a special register is marked S. -/
def sregS (n : Nat) : Bool := n == 0 || (decide (2 ≤ n) && decide (n ≤ 9)) || (decide (0x100 ≤ n) && decide (n < 0x110))

/-- A special register written, where it may be. -/
def State.sregSet (s : State) (a n : Nat) (v : Word) : State :=
  let t := s.thr a
  match n with
  | 0x000 => s.setThr a { t with status := if isEng a then v.truncate 5 &&& 0x07 else v.truncate 5 }
  | 0x001 => s.setThr a { t with flg := v.truncate 4 }
  | 0x002 => s.setThr a { t with epc := v }
  | 0x003 => s.setThr a { t with eflg := v &&& 0xF }
  | 0x004 => s.setThr a { t with ecause := v &&& 0xFF }
  | 0x005 => s.setThr a { t with einfo := v }
  | 0x006 => s.setThr a { t with tvec := v }
  | 0x007 => s.setThr a { t with escr0 := v }
  | 0x008 => s.setThr a { t with escr1 := v }
  | 0x009 => s.setThr a { t with wsp := v }
  | _ => if 0x100 ≤ n ∧ n < 0x110 ∧ ¬ isEng a
         then s.setThr a { t with segs := smSet (fun _ => (0 : Word)) t.segs (n - 0x100) v } else s

/-- The segment number a capture of R149 records. -/
def sregSeg (n : Nat) : Nat := if 0x100 ≤ n ∧ n < 0x110 then n - 0x100 else 0

/-- A violation by MFS, MTS or XCHS: captured in the ENG page of the engine, or in the DEV page (R149, R585). -/
def State.sregViol (s : State) (a n typ : Nat) : State := s.viol (if isEng a then engPage a else 0) a typ (sregSeg n) n

/-- The part of MTS and XCHS that writes the special register, with the violations of R149. PRIV has been tested before. -/
def State.sregWrite (s : State) (a n : Nat) (v : Word) : State :=
  if (s.sregGet a n).isNone then s.sregViol a n 1
  else if sregRO n then s.sregViol a n 2
  else if isEng a ∧ 0x100 ≤ n then s.sregViol a n 4
  else s.sregSet a n v

end Sys2Proof.Machine
end

