-- ==== Sys2Proof/Machine/Stage.lean ====
section
/-! DEFINITION. The stage channel (R120–R140): queues, delivery, ordered send, discards, the watchdog, event deadlock, and the resets
and configuration of an engine (R132–R134). -/

namespace Sys2Proof.Machine

/-- Whether an engine is halted as a whole: all of its threads are (R560). -/
def State.engHalted (s : State) (e : Nat) : Bool := (List.range 8).all fun t => (s.thr (e * 8 + t)).halted

/-- Whether an OLDEST cannot commit because of a halt (R566). -/
def State.heldBack (s : State) (e : Nat) : Bool :=
  match s.oldest e with
  | none => false
  | some k =>
    if (s.pkt k).discard then false
    else match s.holder e k with
      | some a => (s.thr a).halted && (s.thr a).wait != .sendWait
      | none => s.engHalted e

/-- Debug hold of a pipeline (R566). [DEDUCED, log 101] -/
def State.debugHold (s : State) (p : Nat) : Bool := (List.range 16).any fun i => s.heldBack (p * 16 + i)

/-- A debug hold of a pipeline that was not in it before raises its cause (R566). [DEDUCED, log 101] -/
def State.holdFrom (s s0 : State) (p : Nat) : State :=
  if s.debugHold p && !(s0.debugHold p) then s.raise 0xF00000 1 else s

/-- Whether the clocks of a pipeline run. -/
def State.pipeOn (s : State) (p : Nat) : Bool := s.mainClk && s.domOn p

/-! ### Commit (R123) -/

/-- The class queue a packet joins after E3 (R364). -/
def State.txqL (s : State) (port c : Nat) : List Nat := smGet (fun _ => []) s.txq (port * 8 + c)
def State.setTxq (s : State) (port c : Nat) (l : List Nat) : State := { s with txq := smSet (fun _ => []) s.txq (port * 8 + c) l }

def State.voqInL (s : State) (p : Nat) : List Nat := smGet (fun _ => []) s.voqIn p
def State.setVoqIn (s : State) (p : Nat) (l : List Nat) : State := { s with voqIn := smSet (fun _ => []) s.voqIn p l }

/-- A context leaves an engine for the next point of the road; after E3 it is the class queue of its port, which the egress meter
point precedes (`State.toTx`). [DEDUCED, log 70] -/
def State.handOff (s : State) (e k : Nat) (toTx : State → Nat → State) : State :=
  if e % 16 = 11 then s.setVoqIn (e / 16) (s.voqInL (e / 16) ++ [k])
  else if e % 16 = 15 then toTx s k
  else s.setEng (e + 1) { s.eng (e + 1) with q := (s.eng (e + 1)).q ++ [k] }

/-- Event 2 on the thread whose packet is OLDEST now (R117). -/
def State.turnEvent (s : State) (e : Nat) : State :=
  match (s.eng e).held with
  | k :: _ => match s.holder e k with
    | some a => s.event a 2
    | none => s
  | [] => s

/-- OLDEST leaves its engine. -/
def State.leave (s : State) (e k : Nat) : State :=
  let g := s.eng e
  s.setEng e { g with held := g.held.filter (· ≠ k), q := g.q.filter (· ≠ k) }

/-- The send of OLDEST, if it may commit now: its packet and thread; a packet marked for discard commits with the send of its thread like
any other (R123). -/
def State.sendReady (s : State) (e : Nat) : Option (Nat × Nat) :=
  match s.oldest e with
  | none => none
  | some k => match s.holder e k with
    | some a => if (s.thr a).wait = .sendWait then some (k, a) else none
    | none => none

/-- A send commits: the send slot is the packet's context, and the thread is idle (R112, R123). -/
def State.commitSend (s : State) (e k a : Nat) (toTx : State → Nat → State) : State :=
  let t := s.thr a
  let s1 := (s.setPkt k { s.pkt k with ctx := t.slot }).setThr a { t with pkt := none, wait := .run, slot := [] }
  ((((s1.leave e k).cnt64 (R.ENG_PKT e) 1).handOff e k toTx)).turnEvent e

/-- The packet that may commit now with no thread: it is OLDEST, no thread holds it, and it is marked for discard or its send stands though
its thread was reset (R121, R123, R136). [DEDUCED, log 71] -/
def State.discardReady (s : State) (e : Nat) : Option Nat :=
  match s.oldest e with
  | none => none
  | some k => if ((s.pkt k).discard || (s.pkt k).sent) && (s.holder e k).isNone then some k else none

def State.commitDiscard (s : State) (e k : Nat) (toTx : State → Nat → State) : State :=
  let s1 := if (s.pkt k).sent then s.cnt64 (R.ENG_PKT e) 1 else s
  (((s1.setPkt k { s1.pkt k with sent := false }).leave e k).handOff e k toTx).turnEvent e

/-! ### Delivery (R121) -/

/-- Whether every result due at a stage has landed (R19). -/
def State.landed (s : State) (k stage : Nat) : Bool :=
  s.lkps.all fun e => !(e.2.pkt == k && decide (e.2.stage ≤ stage))

/-- Whether a thread suits a packet and is idle (R113, R121). -/
def State.suits (s : State) (e t k : Nat) : Bool :=
  let a := e * 8 + t
  let exp := s.expOn e
  let isExp := a == s.expThr e
  let wants := cClass (s.pkt k).ctx == s.fld (R.ENG_CTL e) F.ENG_CTL_EXP_CLASS
  (s.role a == rPacket) && (s.thr a).pkt.isNone && !(s.inReset a) && (!exp || (isExp == wants))

/-- PACKET_DELIVERY (R121). -/
def execPacketDelivery (eng : EngN) (s : State) : Result :=
  let e := eng.val
  let g := s.eng e
  match g.q with
  | [] => .next s
  | k :: rest =>
    if ¬ s.pipeOn (e / 16) ∨ ¬ s.engRun e ∨ (s.pkt k).discard ∨ ¬ s.landed k (e % 16) then .next s
    else match [1, 2, 3, 4, 5, 6, 7, 8].find? fun i => s.suits e ((g.last + i) % 8) k with
      | none => .next s
      | some i =>
        let t := (g.last + i) % 8
        let a := e * 8 + t
        let h := s.thr a
        let s1 := s.setThr a { h with pkt := some k, slot := (s.pkt k).ctx, pc := s.fld (R.ENG_ENTRY e) F.ENG_ENTRY_PKT_ENTRY,
                                      wait := .run, fresh := false }
        let s2 := (s1.setEng e { g with q := rest, held := g.held ++ [k], last := t }).event a 0
        .next (if g.held.isEmpty then s2.event a 2 else s2)

/-! ### Watchdog and event deadlock (R128, R130) -/

/-- Whether the watchdog of an engine counts: it is on, the engine runs, no debug hold, and OLDEST is not ready to commit. -/
def State.wdogCounts (s : State) (e : Nat) : Bool :=
  s.pipeOn (e / 16) && s.engRun e && decide (s.fld (R.ENG_WDOG e) F.ENG_WDOG_ACT ≠ 0) && !(s.debugHold (e / 16)) &&
  (s.oldest e).isSome && (s.sendReady e).isNone && (s.discardReady e).isNone

/-- A reset by the watchdog of the thread that an event deadlock has just given event 15: the event passes to the next-lowest waiting
thread, if any (R138). [DEDUCED, log 56] -/
def State.passDeadlock (s : State) (e a : Nat) (was : Thr) : State :=
  let waits (t : Nat) : Bool := s.role (e * 8 + t) != rOff && match (s.thr (e * 8 + t)).wait with | .wfe _ _ _ => true | _ => false
  let mine := s.flag (R.ENG_DL e) F.ENG_DL_DET && s.fld (R.ENG_DL e) F.ENG_DL_THR == a % 8 && was.evPend.getLsbD 15 &&
    (match was.wait with | .wfe _ _ _ => true | _ => false)
  match (List.range 8).find? waits with
  | some t => if mine then (s.setFld (R.ENG_DL e) F.ENG_DL_THR t).event (e * 8 + t) 15 else s
  | none => s

/-- The expiry: the count, the interrupt, and the action (R128). [DEDUCED, log 56] -/
def State.wdogExpire (s : State) (e : Nat) : State :=
  let s1 := (s.cnt (R.WDOG_EXP e)).raise (0x200000 + e * 0x1000) 0
  if s.fld (R.ENG_WDOG e) F.ENG_WDOG_ACT = 2 then
    match s.oldest e with
    | none => s1
    | some k => match s.holder e k with
      | some a => (s1.threadReset a true).passDeadlock e a (s.thr a)
      | none => (s1.markDiscard k).cnt (R.WDOG_DROP e)
  else s1

/-- Threads of an engine that wait in WFE for sibling signals only, none pending and no timer armed (R130). -/
def State.deadlocked (s : State) (e : Nat) : Bool :=
  let live := (List.range 8).filter fun t => s.role (e * 8 + t) != rOff
  !live.isEmpty && live.all fun t =>
    match (s.thr (e * 8 + t)).wait with
    | .wfe m _ _ => (m &&& 0xC03F == 0) && ((s.thr (e * 8 + t)).evPend &&& m == 0) && (s.thr (e * 8 + t)).tmr.isNone &&
                    !((s.thr (e * 8 + t)).evPend.getLsbD 14) && !((s.thr (e * 8 + t)).evPend.getLsbD 15)
    | _ => false

/-- EVENT_DEADLOCK (R130). -/
def execEventDeadlock (eng : EngN) (s : State) : Result :=
  let e := eng.val
  if s.pipeOn (e / 16) && s.deadlocked e then
    match (List.range 8).find? fun t => s.role (e * 8 + t) != rOff with
    | none => .next s
    | some t =>
      let s1 := s.event (e * 8 + t) 15
      .next (((s1.setReg (R.ENG_DL e) (BitVec.ofNat 32 (2 ^ 31 + t))).cnt (R.DL_CNT e)).raise (0x200000 + e * 0x1000) 1)
  else .next s

/-! ### Resets and configuration (R132–R134) -/

/-- ENG_THR_RST: the threads named by bits are reset (R132). -/
def State.resetThreads (s : State) (e bits : Nat) (n : Nat := 3) : State :=
  let l := (List.range 8).filter fun t => bits.testBit t
  let s0 := l.foldl (fun s t => s.dropRequests (e * 8 + t)) s
  l.foldl (fun s t => s.threadReset (e * 8 + t) false n) s0

/-- An engine reset (R133): it issues again 32 cycles later. [DEDUCED, log 53] -/
def State.engineReset (s : State) (e : Nat) : State := s.resetThreads e 255 6

/-- A write of ENG_CTL (R134): the express fields keep their values while RUN = 1, and the write that would change them is captured. -/
def State.engCtl (s : State) (e who : Nat) (v : W32) : State :=
  let c := R.ENG_CTL e
  let old := s.reg c
  let was := s.engRun e
  let nv : W32 := v &&& 0xFF000000
  let s1 := if was ∧ bits nv.toNat 30 24 ≠ bits old.toNat 30 24
    then (s.violAt who 3 c).setReg c ((nv &&& 0x80000000) ||| (old &&& 0x7F000000))
    else s.setReg c nv
  if !was && s1.engRun e then
    (List.range 8).foldl (fun s t =>
      let a := e * 8 + t
      if s.role a = rService ∧ (s.thr a).fresh = true
      then s.setThr a { s.thr a with pc := s.fld (R.ENG_ENTRY e) F.ENG_ENTRY_SVC_ENTRY, fresh := false } else s) s1
  else s1

/-- The roles a write of ENG_THR_CFG gives: the reserved code is written as off (R141). -/
def fixRoles (v : Nat) : Nat := (List.range 8).foldl (fun n t => n + (if bits v (2 * t + 1) (2 * t) = 3 then 0 else bits v (2 * t + 1) (2 * t)) * 4 ^ t) 0

/-- A write of ENG_THR_CFG (R134): a violation while RUN = 1; each thread whose role changes is reset. -/
def State.engThrCfg (s : State) (e who : Nat) (v : W32) : State :=
  let c := R.ENG_THR_CFG e
  if s.engRun e then s.violAt who 3 c
  else
    let old := s.reg c
    let nv := fixRoles v.toNat
    let diff := (List.range 8).foldl (fun n t => if bits nv (2 * t + 1) (2 * t) ≠ bits old.toNat (2 * t + 1) (2 * t) then n + 2 ^ t else n) 0
    (s.setReg c (BitVec.ofNat 32 nv)).resetThreads e diff

end Sys2Proof.Machine
end

