-- ==== Sys2Proof/Machine/Queues.lean ====
section
/-! DEFINITION. The queues of Caldera (R325, R336), their heads, spill, refill and flush (R326, R327, R355), and the entities of the timing
wheel that gain or lose waiting frames (R369–R371). -/

namespace Sys2Proof.Machine

/-! ### Queues -/

/-- The port VOQ of an input, and the mirror queues (R336). -/
def voqKey (input port c : Nat) : Nat := input * 1024 + port * 8 + c
def mirKey (input ses : Nat) : Nat := if input = 16 then 16 * 1024 + ses else input * 1024 + 576 + ses
def rcyKey (c : Nat) : Nat := 17 * 1024 + c

def State.voq (s : State) (key : Nat) : List VEnt := smGet (fun _ => []) s.voqs key
def State.setVoq (s : State) (key : Nat) (l : List VEnt) : State := { s with voqs := smSet (fun _ => []) s.voqs key l }

/-- Whether a queue is a mirror queue. -/
def isMirKey (key : Nat) : Bool := if key / 1024 = 16 then true else decide (key / 1024 < 16) && decide (576 ≤ key % 1024)

/-- The crossbar output of a port (R334). -/
def outOf (port : Nat) : Nat := if port < 64 then port / 4 else if port = 69 ∨ port = 70 then 17 else 16

/-- The destination port and class of a queue entry: of the queue for a port VOQ, of the packet otherwise. -/
def State.entDest (s : State) (key : Nat) (v : VEnt) : Nat :=
  if key / 1024 < 16 ∧ key % 1024 < 576 then key % 1024 / 8 else (s.pkt v.pkt).dest
def State.entCls (s : State) (key : Nat) (v : VEnt) : Nat :=
  if key / 1024 < 16 ∧ key % 1024 < 576 then key % 8 else (s.pkt v.pkt).cls

/-- Whether requests for a port are masked (R353, R355). -/
def State.masked (s : State) (port : Nat) : Bool := s.flag (R.XB_PORT port) F.XB_PORT_DOWN

/-- Whether an entry is a marker that an accepted crossing carries; it leaves its queue at the last cell (R347). -/
def State.carried (s : State) (key : Nat) (v : VEnt) : Bool :=
  v.marker && s.conns.any fun e => e.2.marker && e.2.pkt == v.pkt && e.2.copies.any fun c => (s.pkt c).dest == s.entDest key v

/-- The head of a queue if it meets the first two conditions of R337: it lies in the near part, meets R21, and its port is not
masked. A marker already accepted requests no more. -/
def State.reqHead (s : State) (key : Nat) : Option VEnt :=
  match s.voq key with
  | [] => none
  | v :: _ =>
    let q := s.pkt v.pkt
    if v.part == .near && (q.fast || !q.bad) && !(s.masked (s.entDest key v)) && !(s.carried key v) then some v else none

/-- Bytes and entries of the near part of a queue (R325). -/
def State.nearBytes (s : State) (key : Nat) : Nat :=
  (s.voq key).foldl (fun n v => if v.part = .near then n + (s.pkt v.pkt).len else n) 0
def State.nearFrames (s : State) (key : Nat) : Nat := ((s.voq key).filter fun v => v.part == .near).length

/-! ### Waiting frames and the timing wheel (R364, R369–R371) -/

/-- Whether class `c` of a front port has a waiting frame (R364). -/
def State.waiting (s : State) (x c : Nat) : Bool :=
  !(s.txqL x c).isEmpty || (List.range 16).any fun i => (s.reqHead (voqKey i x c)).isSome
def State.portWaiting (s : State) (x : Nat) : Bool := (List.range 8).any fun c => s.waiting x c

/-- The group of a port, as an entity (R369). -/
def State.groupOf (s : State) (x : Nat) : Option Nat :=
  if s.flag (R.TM_PORT_CTL x) F.TM_PORT_CTL_GRP_EN then some (64 + s.fld (R.TM_PORT_CTL x) F.TM_PORT_CTL_GRP) else none

/-- Whether a group has a port (R369). -/
def State.hasPorts (s : State) (e : Nat) : Bool := (List.range 64).any fun x => s.groupOf x == some e

/-- The rate of an entity in kb/s (R369). -/
def State.entRate (s : State) (e : Nat) : Nat := if e < 64 then (s.reg (R.TM_PORT_RATE e)).toNat else (s.reg (R.TM_GRP_RATE (e - 64))).toNat

/-- Whether an entity has a waiting frame. -/
def State.entWaiting (s : State) (e : Nat) : Bool :=
  if e < 64 then s.portWaiting e else (List.range 64).any fun x => s.groupOf x == some e && s.portWaiting x

/-- S in 2^-16 ns. -/
def State.s16 (s : State) : Nat := s.time.sched / 2 ^ 32
def State.vt (s : State) (e : Nat) : Nat := smGet (fun _ => 0) s.vts e
def State.setVt (s : State) (e v : Nat) : State := { s with vts := smSet (fun _ => 0) s.vts e v }

/-- Slot of a time in 2^-16 ns, not reduced. -/
def slotOf (t : Nat) : Nat := ceilDiv t (64 * 65536)

/-- insert(e, T) of R371. -/
def State.whlInsert (s : State) (e t : Nat) : State :=
  let s0 := { s with wheel := smErase s.wheel e, ovf := smErase s.ovf e }
  if t ≤ s.s16 then s0
  else if slotOf t - s.s16 / (64 * 65536) < 4096 then { s0 with wheel := smPut s0.wheel e (slotOf t) }
  else { s0 with ovf := smPut s0.ovf e t }

/-- Whether an entity allows a start (R369–R371). -/
def State.entAllows (s : State) (e : Nat) : Bool :=
  s.entRate e == 0 || ((smFind s.wheel e).isNone && (smFind s.ovf e).isNone && decide (s.vt e ≤ s.s16))

/-- A wake of an entity (R370). -/
def State.entWake (s : State) (e : Nat) : State := s.setVt e (max (s.vt e) s.s16)

/-- What gains a waiting frame between two states wakes: a port and its group (R370). -/
def State.wakes (s0 s : State) (x : Nat) : State :=
  if 64 ≤ x then s
  else
    let go (s : State) (e : Nat) : State := if s0.entWaiting e = false ∧ s.entWaiting e = true then s.entWake e else s
    match s.groupOf x with
    | some g => go (go s x) g
    | none => go s x

/-- Front ports with a frame in some queue, each once. -/
def State.busyPorts (s : State) : List Nat :=
  (List.range 64).filter fun x => s.voqs.any (fun e => decide (e.1 / 1024 < 16) && decide (e.1 % 1024 / 8 = x)) ||
    s.txq.any fun e => decide (e.1 / 8 = x)

/-- Every port and group that gains a waiting frame between two states wakes (R370). -/
def State.wakeAll (s0 s : State) : State := s.busyPorts.foldl (fun t x => State.wakes s0 t x) s

/-! ### Leaving a queue -/

/-- An entry of a queue is given up: a frame ends, a marker leaves its frame, which ends with its last marker (R347). -/
def State.dropEnt (s : State) (v : VEnt) : State :=
  if v.marker then
    let q := s.pkt v.pkt
    if q.marks ≤ 1 then s.endPkt v.pkt else s.setPkt v.pkt { q with marks := q.marks - 1 }
  else s.endPkt v.pkt

/-- Deep blocks of a frame lose a reference; a block that holds no frame returns to the deep pool (R327). -/
def State.blockUnref (s : State) (key b : Nat) : State :=
  let n := smGet (fun _ => 0) s.deepRefs b
  let s1 := { s with deepRefs := smSet (fun _ => 0) s.deepRefs b (n - 1) }
  if n ≤ 1 then
    let o := smGet (fun _ => none) s1.deepOpen key
    { s1 with deepStk := if s.fencedPc = some (b % 64) then s1.deepStk else b :: s1.deepStk,
              deepOpen := if o.map Prod.fst = some b then smErase s1.deepOpen key else s1.deepOpen }
  else s1

/-- The deep part of an entry is given back. -/
def State.freeDeep (s : State) (key : Nat) (v : VEnt) : State :=
  match v.part with
  | .deep bl _ _ => bl.foldl (fun s b => s.blockUnref key b) s
  | _ => s

/-- The deep pool holds 10,485,760 blocks (R324). -/
def deepTotal : Nat := 10485760
/-- Blocks free: the stack, and the blocks never taken, less those withdrawn at a fence (R480). -/
def State.deepFree (s : State) : Nat :=
  let gone := match s.withdrawn, s.fencedPc with
    | true, some f => deepTotal / 64 - (s.deepNext + 63 - f) / 64
    | _, _ => 0
  s.deepStk.length + (deepTotal - s.deepNext) - gone

/-- A block is taken. -/
def State.popBlock (s : State) : Option (Nat × State) :=
  match s.deepStk with
  | b :: l => some (b, { s with deepStk := l })
  | [] =>
    let b := if s.withdrawn ∧ s.fencedPc = some (s.deepNext % 64) then s.deepNext + 1 else s.deepNext
    if b < deepTotal then some (b, { s with deepNext := b + 1 }) else none

/-- Blocks taken one after another. -/
def State.popBlocks (s : State) : Nat → List Nat × State
  | 0 => ([], s)
  | n + 1 => match s.popBlock with
    | none => ([], s)
    | some (b, s1) => let (l, s2) := s1.popBlocks n
                      (b :: l, s2)

/-- HBM address of byte `i` of what was written from offset `off` of the first block on. -/
def deepAddr (bl : List Nat) (off i : Nat) : Nat := hbmBase + bl.getD ((off + i) / 4096) 0 * 4096 + (off + i) % 4096

/-- Bytes written to the deep part, 64 at a time. -/
def State.deepWrite (s : State) (bl : List Nat) (off : Nat) : Nat → List Byte → State
  | _, [] => s
  | i, b :: bs => (s.hbmWrite (deepAddr bl off i) [b]).deepWrite bl off (i + 1) bs

/-- The requests for `n` bytes of the deep part, a multiple of 64. -/
def State.deepAsk (s : State) (client : Nat) (wr : Bool) (bl : List Nat) (off n : Nat) : State :=
  (List.range (n / 64)).foldl (fun t i => t.hbmAsk client wr (deepAddr bl off (64 * i)) 64) s

/-- Entries marked behind the near part are unmarked when no deep frame is left ahead of them (R326). -/
def unmark : List VEnt → List VEnt
  | [] => []
  | v :: l => match v.part with
    | .near => v :: unmark l
    | .marked => { v with part := .near } :: unmark l
    | .deep .. => v :: l

/-- A queue after frames have left it. -/
def State.setVoqU (s : State) (key : Nat) (l : List VEnt) (wasDeep : Bool) : State := s.setVoq key (if wasDeep then unmark l else l)

/-- The entry takes the frame out of sharing: a marker or a stored copy becomes a frame of its own that owns `ptr` or nothing (R326). -/
def State.ownEnt (s : State) (key : Nat) (v : VEnt) : Nat × State :=
  if v.marker then
    let q := s.pkt v.pkt
    let c := setCtxF q.ctx 7 63 57 (s.entDest key v)
    let (k, s1) := s.newPkt { q with ctx := c, marks := 0, store := none, ptr := noBuf, dest := s.entDest key v, cls := s.entCls key v }
    let s2 := match q.view with
      | some n => s1.viewAdd n
      | none => s1
    (k, s2.dropEnt v)
  else (v.pkt, s.releaseBufs v.pkt)

/-- Whether SPILL_WRITE or DEEP_REFILL acts on HBM now: it is trained. -/
def spillKey (pipe port c : Nat) : Nat := voqKey pipe port c

/-- SPILL_WRITE (R326): the oldest marked frame goes to the deep part, or is dropped there. -/
def execSpillWrite (pipe : PipeN) (port : AnyPort) (cls : ClassN) (s : State) : Result :=
  let key := spillKey pipe port cls
  let l := s.voq key
  let pre := l.takeWhile fun v => v.part != .marked
  match l.drop pre.length with
  | [] => .next s
  | v :: post =>
    let q := s.pkt v.pkt
    if q.bad ∨ ¬ s.mainClk then .next s
    else
      let fr := s.chainRead q.ptr q.skip q.len
      let raw := rdMap (setCtxF q.ctx 7 63 57 (s.entDest key v)) 0 128 ++ fr
      let n := ceilDiv raw.length 64 * 64
      let bytes := raw ++ List.replicate (n - raw.length) 0
      let used := l.foldl (fun m e => match e.part with | .deep _ _ len => m + len | _ => m) 0
      let max_ := s.fld (R.SINT_SPILL cls) F.SINT_SPILL_DEEP_MAX
      let open_ := smGet (fun _ => none) s.deepOpen key
      let off := match open_ with | some (_, u) => u | none => 0
      let need := ceilDiv (off + n) 4096 - (if open_.isSome then 1 else 0)
      if (max_ ≠ 0 ∧ max_ * 4194304 < used + n) ∨ s.deepFree < need then
        .next (State.wakeAll s (((s.setVoqU key (pre ++ post) true).dropEnt v).cnt R.SINT_DEEP_DROP))
      else
        let (newB, s1) := s.popBlocks need
        let bl := (match open_ with | some (b, _) => [b] | none => []) ++ newB
        let s2 := (s1.deepWrite bl off 0 bytes).deepAsk cSPILL_WR true bl off n
        let s3 := { s2 with
          deepRefs := bl.foldl (fun m b => smSet (fun _ => 0) m b (smGet (fun _ => 0) m b + 1)) s2.deepRefs
          deepOpen := if (off + n) % 4096 = 0 then smErase s2.deepOpen key
                      else smSet (fun _ => none) s2.deepOpen key (some (bl.getLastD 0, (off + n) % 4096)) }
        let (k, s4) := s3.ownEnt key v
        let s5 := (s4.setVoq key (pre ++ { pkt := k, part := .deep bl off n } :: post)).cnt64 R.SINT_SPILL_FRM 1
        .next (if s5.deepFree = 0 then s5.raise 0x700000 3 else s5)

/-- DEEP_REFILL (R327): the oldest deep frame is read back, waits for a buffer, or is dropped for bad data. -/
def execDeepRefill (pipe : PipeN) (port : AnyPort) (cls : ClassN) (s : State) : Result :=
  let key := spillKey pipe port cls
  let l := s.voq key
  let pre := l.takeWhile fun v => v.part == .near
  match l.drop pre.length with
  | [] => .next s
  | v :: post =>
    match v.part with
    | .deep bl off n =>
      if s.fld (R.SINT_SPILL cls) F.SINT_SPILL_SPILL_TH * 512 ≤ s.nearBytes key ∨ ¬ s.mainClk then .next s
      else
        let q := s.pkt v.pkt
        let bad := (List.range n).any fun i => s.poisoned (deepAddr bl off i) || (s.hbmPlace (deepAddr bl off i)).isNone
        if bad then
          .next (State.wakeAll s (((((s.setVoqU key (pre ++ post) true).freeDeep key v).dropEnt v).cnt R.SINT_DEEP_ERR).deepAsk cSPILL_RD false bl off n))
        else
          let raw := (List.range (128 + q.len)).map fun i => ((s.hbmRead (deepAddr bl off i) 1).1).headD 0
          match s.storeFrame (poolFor q.len) q.acct q.owner q.len false (raw.drop 128) with
          | (.stored p, s1) =>
            let c := setCtxF (setCtxF (wrMap [] 0 (raw.take 128)) 0 27 26 (ptrPool p)) 0 23 0 p
            let s2 := s1.setPkt v.pkt { s1.pkt v.pkt with ctx := c, ptr := p, skip := 0 }
            let s3 := (((s2.freeDeep key v).setVoqU key (pre ++ { v with part := .near } :: post) true).cnt64 R.SINT_REFILL_FRM 1).deepAsk cSPILL_RD false bl off n
            .next (State.wakeAll s s3)
          | _ => .next s
    | _ => .next s

/-! ### Flush (R353, R355) -/

/-- Every entry for a port leaves a queue. [DEDUCED, log 75] -/
def State.flushQueue (s : State) (key x : Nat) : State :=
  let l := s.voq key
  let out (v : VEnt) : Bool := s.entDest key v == x && !(s.carried key v)
  let gone := l.filter out
  let s1 := s.setVoqU key (l.filter fun v => !(out v)) true
  gone.foldl (fun s v => ((s.freeDeep key v).dropEnt v).cnt R.XB_FLUSH_DROP) s1

/-- The flush of a port (R355): every port VOQ, mirror queue and deep part. [DEDUCED, log 75] -/
def State.flushPort (s : State) (x : Nat) : State :=
  (s.voqs.filter fun e => decide (e.1 / 1024 < 17)).foldl (fun s e => s.flushQueue e.1 x) s

/-- Every marker and stored-copy pointer for a port is removed and counted (R353). -/
def State.dropResidue (s : State) (x : Nat) : State :=
  (s.voqs.filter fun e => decide (e.1 / 1024 < 16) && decide (e.1 % 1024 < 576) && decide (e.1 % 1024 / 8 = x)).foldl (fun s e =>
    let l := s.voq e.1
    let isMc (v : VEnt) : Bool := (v.marker && !(s.carried e.1 v)) || ((s.pkt v.pkt).store.isSome && cMc (s.pkt v.pkt).ctx)
    (l.filter isMc).foldl (fun s v => ((s.freeDeep e.1 v).dropEnt v).cnt R.XB_MC_RESIDUE)
      (s.setVoqU e.1 (l.filter fun v => !(isMc v)) true)) s

end Sys2Proof.Machine
end

