-- ==== Sys2Proof/Machine/Caldera.lean ====
section
/-! DEFINITION. Caldera (R334–R363): VOQ enqueue, multicast, mirroring, matching, cell transfer, frame age, link reports and flushes;
and what becomes of a frame whose FCS fails (R25). -/

namespace Sys2Proof.Machine

/-! ### Mirroring (R349–R352) -/

/-- Bytes queued for a mirror session. -/
def State.mirBytes (s : State) (ses : Nat) : Nat :=
  s.voqs.foldl (fun n e => if isMirKey e.1 ∧ (if e.1 / 1024 = 16 then e.1 % 1024 else e.1 % 1024 - 576) = ses
    then e.2.foldl (fun m v => m + ((s.pkt v.pkt).len - 4)) n else n) 0

/-- Length of a copy of a frame of `l` bytes without FCS (R352). -/
def State.mirLen (s : State) (ses l : Nat) : Nat :=
  let t := s.fld (R.XB_MIR_CFG ses) F.XB_MIR_CFG_TRUNC * 64
  if t = 0 then l else min l t

/-- Whether the shared space is below the floor of mirroring (R350). -/
def State.mirLow (s : State) : Bool := decide ((s.sh - s.su) / 256 < s.fld R.XB_MIR_FLOOR F.XB_MIR_FLOOR_FLOOR)

/-- Whether a copy of `n` bytes may be made (R350). -/
def State.mirRoom (s : State) (ses n : Nat) : Bool :=
  decide (s.mirBytes ses + n ≤ s.fld (R.XB_MIR_LIM ses) F.XB_MIR_LIM_LIMIT * 256) && !s.mirLow

/-- A copy that is not made or is discarded counts (R350). -/
def State.mirDrop (s : State) (ses : Nat) : State := (s.cnt (R.XB_MIR_DROP ses)).raise 0x800000 3

/-- The context of a copy (R352). -/
def State.mirCtx (s : State) (m : SMap Byte) (ses n : Nat) : SMap Byte :=
  let c1 := setCtxF (setCtxF (setCtxF m 7 63 57 (s.fld (R.XB_MIR_CFG ses) F.XB_MIR_CFG_DEST_PORT)) 7 35 35 1) 7 39 36 ses
  setCtxWord (setCtxF (setCtxF c1 0 44 31 n) 0 28 28 1) 6 0

/-- A copy-store entry for a frame with `refs` references: a free number, or none when the store is full (R348). -/
def State.newCopy (s : State) (q : Pkt) (refs : Nat) : Option (Nat × State) :=
  if 65536 ≤ s.copies.length then none
  else some (s.nextId, { s.setCopy s.nextId (some (refs, q)) with nextId := s.nextId + 1 })

/-- The ingress-side copy of a frame for a session (R351). -/
def State.mirIngress (s : State) (k ses : Nat) (input : Nat) : State :=
  let q := s.pkt k
  let n := s.mirLen ses (q.len - 4)
  if ¬ s.mirRoom ses n then s.mirDrop ses
  else
    let r := match q.store with
      | some m => match s.copyEnt m with
        | some (c, f) => some (m, s.setCopy m (some (c + 1, f)))
        | none => none
      | none => s.newCopy q 2
    match r with
    | none => ((s.cnt R.XB_STORE_FULL).raise 0x800000 2).mirDrop ses
    | some (m, s1) =>
      let q1 := { q with store := some m, mirs := q.mirs ||| 2 ^ ses }
      let (c, s2) := (s1.setPkt k q1).newPkt { q1 with
        ctx := s.mirCtx q.ctx ses n, len := n + 4, copyOf := some ses, discard := false, failed := false, fast := false, loc := .voq input,
        dest := s.fld (R.XB_MIR_CFG ses) F.XB_MIR_CFG_DEST_PORT, cls := s.fld (R.XB_MIR_CFG ses) F.XB_MIR_CFG_CLASS }
      let s3 := match q.view with
        | some v => s2.viewAdd v
        | none => s2
      s3.setVoq (mirKey input ses) (s3.voq (mirKey input ses) ++ [{ pkt := c }])

/-- Every session that copies a frame at VOQ enqueue does (R349). [DEDUCED, log 72] -/
def State.mirrorIngress (s : State) (k input : Nat) : State :=
  (List.range 16).foldl (fun s ses =>
    let q := s.pkt k
    let on := s.flag (R.XB_MIR_CFG ses) F.XB_MIR_CFG_EN &&
      ((cMirEn q.ctx && (cMirSes q.ctx == ses)) ||
       (s.flag (R.XB_MIR_SRC ses) F.XB_MIR_SRC_ING && (s.fld (R.XB_MIR_SRC ses) F.XB_MIR_SRC_PORT == cInPort q.ctx)))
    if on && !(q.mirs.testBit ses) then s.mirIngress k ses input else s) s

/-! ### VOQ enqueue (R98, R325, R336, R345–R348) -/

/-- A frame or marker is enqueued in a port VOQ, marked for spill where R325 says so. [DEDUCED, log 76] -/
def State.enqueue (s : State) (p port c k : Nat) (marker : Bool) : State :=
  let key := voqKey p port c
  let l := s.voq key
  let sp := R.SINT_SPILL c
  let mark := s.flag sp F.SINT_SPILL_EN && (c != s.expClass) &&
    (l.any (fun v => v.part != .near) ||
     decide (s.fld sp F.SINT_SPILL_SPILL_TH * 1024 < s.nearBytes key + (s.pkt k).len))
  State.wakes s (s.setVoq key (l ++ [{ pkt := k, marker := marker, part := if mark then .marked else .near }])) port

/-- A frame dropped at VOQ enqueue because of ACTION counts by its code (R27). [DEDUCED, log 72] -/
def State.dropAction (s : State) (p k : Nat) : State :=
  let c := cDropCode (s.pkt k).ctx
  (s.endPkt k).cnt (if 0x40 ≤ c then R.PARSE_DROP_PRG p (c - 0x40) else R.PARSE_DROP_NOFWD p)

/-- Word `i` of the bitmap of a replication group (R345). [DESIGN CHOICE, log 1] -/
def mcgReg (g i : Nat) : Nat := 0x12000000 + g * 16 + 4 * i

/-- The ports of a group. -/
def State.mcPorts (s : State) (g : Nat) : List Nat := (List.range 72).filter fun x => (s.reg (mcgReg g (x / 32))).toNat.testBit (x % 32)

/-- A multicast frame (R345–R348). A member 69 or 70 is a request for recirculation, which R26 limits. [DESIGN CHOICE, log 127] -/
def State.enqueueMc (s : State) (p k : Nat) : State :=
  let q := s.pkt k
  let all := s.mcPorts (cGroup q.ctx)
  let fourth (x : Nat) : Bool := (x == 69 || x == 70) && cPass q.ctx == 3
  let ports := all.filter fun x => !(fourth x)
  let s := s.cntN (R.PARSE_RCY_LIM p) (all.countP fourth)
  let c := cClass q.ctx
  if all.isEmpty then (s.endPkt k).cnt R.XB_MC_EMPTY
  else if ports.isEmpty then s.endPkt k
  else if s.fld R.XB_STAT F.XB_STAT_MC_MODE = 0 then
    ports.foldl (fun s x => s.enqueue p x c k true) (s.setPkt k { q with loc := .voq p, marks := ports.length, cls := c })
  else
    let r := match q.store with
      | some m => match s.copyEnt m with
        | some (n, f) => some (m, s.setCopy m (some (n + ports.length, f)))
        | none => none
      | none => s.newCopy q (ports.length + 1)
    match r with
    | none => ((s.endPkt k).cnt R.XB_STORE_FULL).raise 0x800000 2
    | some (m, s1) =>
      let s2 := ports.foldl (fun s x =>
        let (n, s3) := s.newPkt { q with ctx := setCtxF q.ctx 7 63 57 x, store := some m, loc := .voq p, dest := x, cls := c }
        let s4 := match q.view with
          | some v => s3.viewAdd v
          | none => s3
        s4.enqueue p x c n false) (s1.setPkt k { q with store := some m })
      s2.endPkt k

/-- VOQ_ENQUEUE (R336): the next context committed by I11. [DESIGN CHOICE, log 127; DESIGN CHOICE, log 140] -/
def execVoqEnqueue (pipe : PipeN) (s : State) : Result :=
  let p := pipe.val
  match s.voqInL p with
  | [] => .next s
  | k :: rest =>
    if ¬ s.pipeOn p ∨ (smGet (fun _ => []) s.srcChks (p / 8)).any (fun c => c.pkt == k) = true then .next s
    else
      let s0 := s.setVoqIn p rest
      let q := s.pkt k
      if q.discard then .next (s0.endPkt k)
      else if q.failed then .next ((s0.endPkt k).cnt (R.PARSE_FCS_DROP p))
      else
        let s1 := s0.chainWrite q.ptr q.skip (rdMap q.hdr 64 (min 256 q.len))
        let s2 := s1.mirrorIngress k p
        let c := (s2.pkt k).ctx
        let d := cDest c
        if cDrop c then .next (s2.dropAction p k)
        else if ¬ cMc c ∧ 72 ≤ d then .next ((s2.endPkt k).cnt (R.PARSE_DROP_NOFWD p))
        else
          match s2.meterPoint p k false with
          | (true, s3) => .next (s3.endPkt k)
          | (false, s3) =>
            if cMc c then .next (s3.enqueueMc p k)
            else if (d = 69 ∨ d = 70) ∧ cPass c = 3 then .next ((s3.endPkt k).cnt (R.PARSE_RCY_LIM p))
            else
              let q3 := s3.pkt k
              .next ((s3.setPkt k { q3 with loc := .voq p, dest := d, cls := cClass q3.ctx }).enqueue p d (cClass q3.ctx) k false)

/-! ### Matching (R335, R337–R340) -/

/-- Cells in use behind an output, by packets at `l`. -/
def State.cellsAt (s : State) (l : Loc) : Nat := s.pkts.foldl (fun n e => if e.2.loc = l then n + e.2.cells else n) 0

/-- The recirculation port that serves a pipeline. -/
def rcyPort (pipe : Nat) : Nat := if pipe < 8 then 69 else 70

/-- Whether the receiving side of an output has room for a frame (R335); the debug hold closes an egress pipeline (R566). The receive
queue of port 68 holds the learn frames not yet handled; the cores take every other frame at once. [DESIGN CHOICE, log 128] -/
def State.outRoom (s : State) (o dest : Nat) (express : Bool) : Bool :=
  if o < 16 then
    let used := s.cellsAt (.egr o)
    let ents := (s.pkts.filter fun e => e.2.loc == .egr o).length
    s.pipeOn o && !(s.debugHold o) &&
    (if express then decide (used + 36 ≤ 1024) && decide (ents + 1 ≤ 128) else decide (used + 72 ≤ 1024) && decide (ents + 2 ≤ 128))
  else if o = 16 then
    decide ([64, 65, 66, 67, 68, 71].foldl (fun n x => n + s.cellsAt (.out x)) 0 + 36 ≤ 512) &&
    (if dest < 68 then (s.admission (769 + (dest - 64)) 9216).isSome else if dest = 68 then decide (s.lrnIn.length < 256) else true)
  else decide (s.cellsAt (.out dest) + 36 ≤ 256)

/-- Cells of a frame (R16). -/
def cellsOf (len : Nat) : Nat := ceilDiv len 256

/-- The connection an input carries: the oldest accepted one. -/
def State.conn (s : State) (i : Nat) : Option Conn := (s.conns.find? fun e => e.1 == i).map Prod.snd

/-- The connections with the oldest of input `i` replaced or gone. -/
def putConn (i : Nat) (c : Option Conn) : List (Nat × Conn) → List (Nat × Conn)
  | [] => []
  | e :: l => if e.1 = i then (match c with | some d => (i, d) :: l | none => l) else e :: putConn i c l

/-- Whether a connection holds its input and outputs in cell time `n`: until its end, which is known once its last cell is present
(R338). -/
def State.holdsAt (s : State) (n : Nat) (c : Conn) : Bool :=
  (s.pkt c.pkt).bad || decide (n + 1 ≤ max (c.start + c.sent) s.cellT + (cellsOf (s.pkt c.pkt).len - c.sent))
def State.inFree (s : State) (n i : Nat) : Bool := !(s.conns.any fun e => e.1 == i && s.holdsAt n e.2)
def State.outFree (s : State) (n o : Nat) : Bool := !(s.conns.any fun e => e.2.outs.contains o && s.holdsAt n e.2)

/-- Whether an older connection still holds an output of the connection of an input. -/
def State.outTaken (s : State) (i : Nat) (c : Conn) : Bool :=
  (s.conns.takeWhile fun e => e.1 != i).any fun e => e.2.outs.any c.outs.contains

/-- Whether the class of a port is eligible: the last vector for front ports, always for the others (R337). -/
def State.vecOk (s : State) (port c : Nat) : Bool := decide (64 ≤ port) || (s.fld (R.TM_PORT_STAT port) F.TM_PORT_STAT_VEC).testBit c

/-- The queues an input holds. -/
def State.inputKeys (s : State) (i : Nat) : List Nat := (s.voqs.filter fun e => e.1 / 1024 == i).map Prod.fst

/-- Rank of a class: express first, then 7 down to 0 (R365). -/
def State.rank (s : State) (c : Nat) : Nat := if c = s.expClass then 8 else c

/-- The head of a queue as a request toward output `o` (R337). -/
def State.request (s : State) (key o : Nat) : Option VEnt :=
  match s.reqHead key with
  | none => none
  | some v =>
    let d := s.entDest key v
    let c := s.entCls key v
    if outOf d = o ∧ s.vecOk d c ∧ s.outRoom o d (c == s.expClass) then some v else none

/-- The head an input serves toward an output: highest class, then the first port after the port pointer (R339). Mirror queues take
part only when `mir`, and then only behind every other head. -/
def State.best (s : State) (i o : Nat) (expOnly mir : Bool) : Option (Nat × VEnt) :=
  let pp := smGet (fun _ => 0) s.pp (i * 32 + o)
  let score (key : Nat) (v : VEnt) : Nat :=
    let d := s.entDest key v
    s.rank (s.entCls key v) * 256 + (127 - (d + 128 - (pp + 1)) % 128)
  let pick (keys : List Nat) : Option (Nat × VEnt) :=
    keys.foldl (fun acc key => match s.request key o with
      | none => acc
      | some v =>
        if expOnly && s.entCls key v != s.expClass then acc
        else match acc with
          | some (k2, v2) => if score k2 v2 < score key v then some (key, v) else acc
          | none => some (key, v)) none
  let keys := s.inputKeys i
  match pick (keys.filter fun k => !(isMirKey k)) with
  | some r => some r
  | none => if mir then pick (keys.filter isMirKey) else none

/-- The first element at or after a pointer, modulo 18. -/
def nearest (ptr : Nat) (l : List Nat) : Option Nat := (List.range 18).map (fun d => (ptr + d) % 18) |>.find? fun i => l.contains i

/-- The grant of a free output in round `r` of the matching for cell time `n` (R339, R340). -/
def State.grant (s : State) (o r n : Nat) : Option Nat :=
  let exp (i : Nat) : Bool := (s.best i o true false).isSome
  let ins := List.range 18
  let free := ins.filter fun i => s.inFree n i
  let gp := smGet (fun _ => 0) s.gp o
  match nearest gp (free.filter exp) with
  | some i => some i
  | none =>
    if r = 1 ∨ (s.flag R.XB_CTL F.XB_CTL_EXP_HOLD ∧ ins.any exp = true) then none
    else match nearest gp (free.filter fun i => (s.best i o false false).isSome) with
      | some i => some i
      | none => if r = 3 then nearest gp (free.filter fun i => (s.best i o false true).isSome) else none

/-- The ports of output `o` whose VOQ head at input `i` is a marker of a frame and whose class is eligible (R347). -/
def State.mask (s : State) (i o c k : Nat) : List Nat :=
  ((List.range 72).filter fun x => outOf x == o).filter fun x =>
    match s.request (voqKey i x c) o with
    | some v => v.marker && v.pkt == k
    | none => false

/-- Whether a frame has passed its age limit (R344). -/
def State.aged (s : State) (k c : Nat) : Bool :=
  decide ((s.pkt k).arrS + s.fld (R.XB_AGE c) F.XB_AGE_LIMIT_US * 1000 * nsU < s.time.sched)

/-- A crossing is set up for cell time `st`: a frame leaves its queue, markers stay until the last cell has crossed, and the packets it
delivers to are made (R341, R347). [DESIGN CHOICE, log 129] -/
def State.connect (s : State) (i key : Nat) (v : VEnt) (outs : List Nat) (at_ : Nat) : State :=
  let c := s.entCls key v
  let n := cellsOf (s.pkt v.pkt).len
  let s1 := (s.cnt64 R.XB_MATCH 1)
  let s2 := if c = s.expClass then s1.cnt64 R.XB_EXP_MATCH 1 else s1
  if v.marker then
    let ports := outs.flatMap fun o => (s.mask i o c v.pkt).map fun x => (o, x)
    let s2 := s2.setPkt v.pkt { s2.pkt v.pkt with matched := true }
    let r := ports.foldl (fun (acc : State × List Nat × List Nat) e =>
      let (st, ids, seen) := acc
      let (o, x) := e
      let q := st.pkt v.pkt
      let (id, st2) := st.newPkt { q with
        ctx := setCtxF q.ctx 7 63 57 x, hdr := [], ptr := noBuf, store := none, marks := 0, dest := x, cls := c,
        cells := if seen.contains o then 0 else n, loc := if x < 64 then .egr (x / 4) else .out x, discard := false }
      let st3 := match q.view with
        | some w => st2.viewAdd w
        | none => st2
      (st3, ids ++ [id], o :: seen)) (s2, [], [])
    { r.1 with conns := r.1.conns ++ [(i, { queue := key, pkt := v.pkt, marker := true, outs := outs, copies := r.2.1, start := at_ })] }
  else
    let d := s.entDest key v
    let q := s.pkt v.pkt
    let s3 := (s2.setVoq key ((s2.voq key).drop 1)).setPkt v.pkt { q with
      dest := d, cls := c, cells := n, hdr := [], loc := if d < 64 then .egr (d / 4) else .out d }
    { s3 with conns := s3.conns ++ [(i, { queue := key, pkt := v.pkt, marker := false, outs := outs, copies := [v.pkt], start := at_ })] }

/-- A frame refused for its age is removed for the ports of the crossing (R344). -/
def State.ageDrop (s : State) (i key : Nat) (v : VEnt) (outs : List Nat) : State :=
  let c := s.entCls key v
  let s1 := s.cnt (R.XB_AGE_DROP c)
  if v.marker then
    (outs.flatMap fun o => s.mask i o c v.pkt).foldl (fun s x =>
      (s.setVoq (voqKey i x c) ((s.voq (voqKey i x c)).drop 1)).dropEnt v) s1
  else (s1.setVoq key ((s1.voq key).drop 1)).dropEnt v

/-- The acceptance of a free input with grants for cell time `n` (R339): the pair is taken, or released for age. -/
def State.accept (s : State) (i r n : Nat) (grants : List Nat) : State :=
  let expHead (a : Nat) : Bool := (s.best i a true false).isSome
  let wantsExp := s.flag R.XB_CTL F.XB_CTL_EXP_HOLD && (List.range 18).any expHead
  let ap := smGet (fun _ => 0) s.ap i
  let ex := grants.filter expHead
  let cand := if ex.isEmpty then (if wantsExp then [] else grants) else ex
  match nearest ap cand with
  | none => s
  | some a =>
    match s.best i a (r == 1) (r == 3) with
    | none => s
    | some (key, v) =>
      let c := s.entCls key v
      let more := if v.marker then (grants.filter fun o => o ≠ a ∧ (match s.best i o (r == 1) (r == 3) with
          | some (_, v2) => v2.marker && v2.pkt == v.pkt
          | none => false) = true) else []
      let outs := a :: more
      let s1 := { s with
        gp := smSet (fun _ => 0) s.gp a ((i + 1) % 18)
        ap := smSet (fun _ => 0) s.ap i ((a + 1) % 18)
        pp := smSet (fun _ => 0) s.pp (i * 32 + a) (s.entDest key v) }
      if s.aged v.pkt c then s1.ageDrop i key v outs else s1.connect i key v outs n

/-- Mirror queue heads are discarded while the shared space is below the floor (R350). -/
def State.mirTrim (s : State) : State :=
  if s.mirLow then
    (s.voqs.filter fun e => isMirKey e.1).foldl (fun s e => match s.voq e.1 with
      | [] => s
      | v :: l => ((s.setVoq e.1 l).dropEnt v).mirDrop (if e.1 / 1024 = 16 then e.1 % 1024 else e.1 % 1024 - 576)) s
  else s

/-- XBAR_MATCHING_ROUND (R338–R340): the next round of a cell time, the oldest matching first: round 3 of the matching for the next cell
time, round 2 of the one after it, round 1 of the one after that. -/
def execXbarMatchingRound (s : State) : Result :=
  if ¬ s.mainClk ∨ ¬ s.flag R.XB_CTL F.XB_CTL_RUN then .next s
  else
    let r := s.round
    let n := s.cellT + 4 - r
    let s0 := if r = 3 then s.mirTrim else s
    let gs := ((List.range 18).filter fun o => s0.outFree n o).filterMap fun o => (s0.grant o r n).map fun i => (o, i)
    let s1 := (List.range 18).foldl (fun s i =>
      let mine := (gs.filter fun e => e.2 == i).map Prod.fst
      if mine.isEmpty then s else s.accept i r n mine) s0
    .next { State.wakeAll s s1 with round := if r = 1 then 3 else r - 1, cellT := if r = 1 then s.cellT + 1 else s.cellT }

/-! ### Transfer (R16, R17, R341, R347, R348) -/

/-- What a crossed packet holds after another cell of its source. -/
def State.fillCopy (s : State) (id : Nat) (bytes : List Byte) (first last : Bool) : State :=
  let q := s.pkt id
  let s1 := s.setPkt id { q with data := bytes, hdr := if first then wrMap [] 64 (bytes.take 256) else q.hdr, crossed := last }
  if first ∧ q.dest < 64 then
    let e := q.dest / 4 * 16 + 12
    s1.setEng e { s1.eng e with q := (s1.eng e).q ++ [id] }
  else s1

/-- A packet for a port that is down is discarded behind the crossbar (R353): at once from its class queue, and where a thread or a
stage queue holds it, by its mark. -/
def State.txqDrop (s : State) (id : Nat) : State :=
  let q := s.pkt id
  let s1 := s.cnt R.XB_TXQ_DROP
  if (s1.txqL q.dest q.cls).contains id then (s1.setTxq q.dest q.cls ((s1.txqL q.dest q.cls).filter (· ≠ id))).giveUp id
  else s1.markDiscard id

/-- The markers of a crossing leave their queues once its last cell has crossed (R347). -/
def State.takeMarkers (s : State) (i : Nat) (c : Conn) : State :=
  let s1 := c.copies.foldl (fun s id =>
    let key := voqKey i (s.pkt id).dest (s.pkt id).cls
    s.setVoqU key ((s.voq key).filter fun v => !(v.marker && v.pkt == c.pkt)) true) s
  let q := s1.pkt c.pkt
  if q.marks ≤ c.copies.length then s1.endPkt c.pkt else s1.setPkt c.pkt { q with marks := q.marks - c.copies.length }

/-- CELL_TRANSFER (R341): one cell of the connection of an input. -/
def execCellTransfer (input : Fin 18) (s : State) : Result :=
  let i := input.val
  match s.conn i with
  | none => .next s
  | some c =>
    let q := s.pkt c.pkt
    let n := cellsOf q.len
    if ¬ s.mainClk ∨ (q.bad ∧ c.sent + 1 = n) ∨ s.outTaken i c = true then .next s
    else
      let last := decide (n ≤ c.sent + 1)
      let bytes := if q.ptr = noBuf then q.data else s.chainRead q.ptr q.skip (min q.len ((c.sent + 1) * 256))
      let s1 := c.copies.foldl (fun s id => s.fillCopy id bytes (c.sent == 0) last) s
      if ¬ last then .next { s1 with conns := putConn i (some { c with sent := c.sent + 1 }) s1.conns }
      else
        let s2 := { s1 with conns := putConn i none s1.conns }
        let s3 := if c.marker then s2.takeMarkers i c else s2.releaseBufs c.pkt
        .next (State.wakeAll s <| c.copies.foldl (fun s id =>
          let d := (s.pkt id).dest
          if (s.pkt id).gone then s.endPkt id
          else if s.masked d ∧ ¬ (s.pkt id).discard then s.txqDrop id
          else if 64 ≤ d then s.setTxq d (s.pkt id).cls (s.txqL d (s.pkt id).cls ++ [id]) else s) s3)

/-! ### Link reports, holds and flushes (R353–R355) -/

/-- Frames for a port that have crossed and have not begun transmission are discarded (R353). -/
def State.dropCrossed (s : State) (x : Nat) : State :=
  let sending : Option Nat := (smGet (fun _ => none) s.txs x).map Tx.pkt
  (s.pkts.filter fun e => e.2.loc == .egr (x / 4) && e.2.dest == x && e.2.crossed && !e.2.discard && sending != some e.1).foldl
    (fun s e => s.txqDrop e.1) s

/-- A report is taken off its way to Caldera. -/
def State.takeReport (s : State) (x : Nat) (up : Bool) : State :=
  match s.linkReps.find? fun r => r.port == x && r.up == up with
  | some r => { s with linkReps := s.linkReps.erase r }
  | none => s

/-- LINK_DOWN_REPORT (R353). -/
def execLinkDownReport (port : PortN) (reason : BitVec 4) (s : State) : Result :=
  let x := port.val
  let r := R.XB_PORT x
  let s0 := s.takeReport x false
  if reason = 6 then .next (State.wakeAll s (((s0.setFld r F.XB_PORT_DOWN 1).setFld r F.XB_PORT_HOLD 0).flushPort x))
  else
    let ms := s0.fld R.XB_FLAP F.XB_FLAP_HOLD_MS
    let s1 := (((s0.setFld r F.XB_PORT_DOWN 1).dropResidue x).dropCrossed x).cnt R.XB_HOLD_CNT
    let s2 := s1.raise 0x800000 0
    if ms = 0 then .next ((s2.flushPort x).raise 0x800000 1)
    else .next { s2.setFld r F.XB_PORT_HOLD 1 with holdEnd := smSet (fun _ => 0) s2.holdEnd x (s.clk + ms * 500000) }

/-- LINK_UP_REPORT (R354). -/
def execLinkUpReport (port : PortN) (s : State) : Result :=
  let r := R.XB_PORT port
  let s1 := ((s.takeReport port true).setFld r F.XB_PORT_DOWN 0).setFld r F.XB_PORT_HOLD 0
  .next (State.wakes s s1 port)

/-- HOLD_TIMER_EXPIRE (R355). -/
def execHoldTimerExpire (port : PortN) (s : State) : Result :=
  let r := R.XB_PORT port
  if s.flag r F.XB_PORT_HOLD then
    .next (((s.setFld r F.XB_PORT_HOLD 0).flushPort port).raise 0x800000 1)
  else .next s

/-! ### FCS failures (R25) -/

/-- One frame or copy whose FCS failure is detected. -/
def State.fcsFail1 (s : State) (k : Nat) : State :=
  let q := s.pkt k
  let s1 := s.setPkt k { q with bad := false }
  match q.loc with
  | .src | .ing _ => s1.setPkt k { q with bad := false, failed := true }
  | .voq p =>
    if s.conns.any fun e => e.2.marker && e.2.pkt == k then s1.setPkt k { q with bad := false, late := true }
    else
      -- before the match: every entry of the frame leaves its queue
      let s2 := s1.voqs.foldl (fun s e =>
        if e.2.any (fun v => v.pkt == k) then s.setVoqU e.1 ((s.voq e.1).filter fun v => v.pkt != k) true else s) s1
      (s2.endPkt k).cnt (R.PARSE_FCS_DROP p)
  | .egr _ =>
    let x := q.dest
    match smGet (fun _ => none) s.txs x with
    | some t => if t.pkt = k then { s1 with txs := smSet (fun _ => none) s1.txs x (some { t with stomp := true }) }
                else s1.setPkt k { q with bad := false, late := true }
    | none => s1.setPkt k { q with bad := false, late := true }
  | .out _ => s1.setPkt k { q with bad := false, late := true }

/-- FCS_FAILURE (R25): the failure of a frame is detected; copies and crossings of it fail with it. -/
def State.fcsFail (s : State) (k : Nat) : State :=
  let q := s.pkt k
  if ¬ q.bad then s
  else
    let kin := (s.pkts.filter fun e => e.2.bad && (e.1 == k || (q.store.isSome && e.2.store == q.store) ||
      s.conns.any fun c => c.2.pkt == k && c.2.copies.contains e.1)).map Prod.fst
    kin.foldl (fun s j => if s.hasPkt j then s.fcsFail1 j else s) s

def execFcsFailure (pkt : Nat) (s : State) : Result := .next (if s.hasPkt pkt then State.wakeAll s (s.fcsFail pkt) else s)

end Sys2Proof.Machine
end

