-- ==== Sys2Proof/Machine/Fused.lean ====
section
/-! DEFINITION. The fused units FLD, HSH and CKS (R187–R200): operations, refusals, acceptance and writeback. -/

namespace Sys2Proof.Machine

/-- Bits of PARAM. -/
def pbits (p : BitVec 13) (hi lo : Nat) : Nat := bits p.toNat hi lo

/-- A stored key word: word KEY × 8 + WORD (R193). -/
def Eng.key (g : Eng) (i : Nat) : Word := smGet (fun _ => (0 : Word)) g.keys i

/-! ### FLD (R191) -/

/-- FEXT: LEN bits from POS on, extended. -/
def fextVal (x : Word) (p : BitVec 13) : Word :=
  let len := pbits p 6 1 + 1
  let f := x.toNat / 2 ^ pbits p 12 7 % 2 ^ len
  if pbits p 0 0 = 1 then BitVec.ofInt 64 (sint len f) else BitVec.ofNat 64 f

/-- FINS: LEN bits of rs1 placed at POS of rd. -/
def finsVal (d x : Word) (p : BitVec 13) : Word :=
  let pos := pbits p 12 7
  let len := pbits p 6 1 + 1
  let m : Word := BitVec.ofNat 64 ((2 ^ len - 1) * 2 ^ pos)
  (d &&& ~~~m) ||| ((x <<< pos) &&& m)

/-- FSCN: the nearest bit of the wanted value from START on, upwards or downwards; 64 if there is none. -/
def fscnVal (x : Word) (p : BitVec 13) : Word :=
  let start := pbits p 12 7
  let want := pbits p 5 5 = 0
  let hit (i : Nat) : Bool := x.getLsbD i == decide want
  let r := if pbits p 6 6 = 0 then (List.range 64).find? fun i => decide (start ≤ i) && hit i
           else ((List.range (start + 1)).reverse).find? hit
  BitVec.ofNat 64 (r.getD 64)

/-! ### HSH (R192–R195) -/

/-- One bit of a reflected CRC. -/
def crcBit (poly : BitVec 32) (c : BitVec 32) : BitVec 32 := if c.getLsbD 0 then (c >>> 1) ^^^ poly else c >>> 1

/-- One byte of a reflected CRC. -/
def crcByte (poly : BitVec 32) (c : BitVec 32) (b : Byte) : BitVec 32 :=
  (List.range 8).foldl (fun c _ => crcBit poly c) (c ^^^ b.zeroExtend 32)

/-- A reflected CRC over bytes. -/
def crc (poly : BitVec 32) (c : BitVec 32) (bs : List Byte) : BitVec 32 := bs.foldl (crcByte poly) c

/-- The polynomials of CRC-32 and CRC-32C (R192). -/
def polyCrc32 : BitVec 32 := 0xEDB88320
def polyCrc32c : BitVec 32 := 0x82F63B78

/-- The input bytes of a register in network order. -/
def netBytes (x : Word) : List Byte := bytesBE 8 x.toNat

/-- HCRC. -/
def hcrcVal (x y : Word) (p : BitVec 13) : Word :=
  let c := crc (if pbits p 7 5 = 0 then polyCrc32 else polyCrc32c) (y.truncate 32) ((netBytes x).take (pbits p 4 2 + 1))
  (if pbits p 1 1 = 1 then ~~~c else c).zeroExtend 64

/-- The 512 bits of a key, bit 0 of the key as the most significant (R193). -/
def Eng.keyBits (g : Eng) (k : Nat) : Nat := (List.range 8).foldl (fun n w => n * 2 ^ 64 + (g.key (k * 8 + w)).toNat) 0

/-- HTOE: for each set input bit i, the 32 key bits from 8 × BPOS + i on are added. -/
def htoeVal (key : Nat) (x y : Word) (p : BitVec 13) : Word :=
  let bpos := pbits p 5 0
  ((List.range 64).foldl (fun (acc : BitVec 32) i =>
    if x.getLsbD (63 - i) then acc ^^^ BitVec.ofNat 32 (key / 2 ^ (480 - 8 * bpos - i)) else acc) (y.truncate 32)).zeroExtend 64

/-- HVND FUNC 0b00: the vendor hash. -/
def hvndVal (k0 x y : Word) : Word :=
  let h0 := y ^^^ x ^^^ k0
  let h1 := (h0 ^^^ (h0 >>> 31)) * 0x9E6C63D0676A9A99
  let h2 := (h1 ^^^ (h1 >>> 27)) * 0xD1B54A32D192ED03
  h2 ^^^ (h2 >>> 33)

/-! ### CKS (R196) -/

/-- The end-around sum of two 16-bit values. -/
def oc (a b : Nat) : Nat := (a + b) % 65536 + (a + b) / 65536

/-- The halfwords of bytes, an odd last byte as a high byte. -/
def halves : List Byte → List Nat
  | [] => []
  | [a] => [a.toNat * 256]
  | a :: b :: l => (a.toNat * 256 + b.toNat) :: halves l

/-- The ones'-complement sum of halfwords. -/
def ocSum (l : List Nat) : Nat := l.foldl oc 0

def not16 (n : Nat) : Nat := 65535 - n % 65536

/-- CKSA. -/
def cksaVal (x y : Word) (p : BitVec 13) : Word :=
  let t := ocSum (halves ((netBytes x).take (pbits p 7 5 + 1)))
  let t := if pbits p 4 4 = 1 then t % 256 * 256 + t / 256 % 256 else t
  BitVec.ofNat 64 (oc (y.toNat % 65536) t % 65536)

/-- CKSU: incremental update of a checksum. -/
def cksuVal (x y : Word) (p : BitVec 13) : Word :=
  let h (i : Nat) : Nat := bits x.toNat (16 * i + 15) (16 * i)
  let hc := not16 (y.toNat % 65536)
  let r := if pbits p 7 6 = 0 then oc (oc hc (not16 (h 1))) (h 0)
           else oc (oc (oc (oc hc (not16 (h 3))) (not16 (h 2))) (h 1)) (h 0)
  BitVec.ofNat 64 (not16 r)

/-- CKSF: fold and finalise. -/
def cksfVal (x y : Word) (p : BitVec 13) : Word :=
  let h (i : Nat) : Nat := bits x.toNat (16 * i + 15) (16 * i)
  let r := not16 (oc (oc (oc (oc (y.toNat % 65536) (h 3)) (h 2)) (h 1)) (h 0))
  BitVec.ofNat 64 (if pbits p 7 7 = 1 ∧ r = 0 then 65535 else r)

/-! ### Acceptance and refusal (R187, R188, R197, R198) -/

/-- The three units by their number in EINFO (R174). -/
def uFLD : Nat := 1
def uHSH : Nat := 2
def uCKS : Nat := 3

/-- Whether the fields of PARAM marked zero are zero, and the refusal code of a unit instruction, 0 for none. `op` is OP of L-X. -/
def fuZeroOk (unit op : Nat) (p : BitVec 13) : Bool :=
  match unit, op with
  | 1, 0 => true
  | 1, 1 => pbits p 0 0 == 0
  | 1, _ => pbits p 4 0 == 0
  | 2, 0 => pbits p 0 0 == 0
  | 2, 1 => true
  | 2, _ => pbits p 0 0 == 0
  | _, 0 => pbits p 3 0 == 0
  | _, 1 => pbits p 5 0 == 0
  | _, _ => pbits p 6 0 == 0

def fuRefusal (unit op : Nat) (p : BitVec 13) : Nat :=
  match unit, op with
  | 1, 2 => 0
  | 1, _ => if 64 < pbits p 12 7 + pbits p 6 1 + 1 then 0x01 else 0
  | 2, 0 => if 2 ≤ pbits p 7 5 then 0x10 else 0
  | 2, 1 => if 52 < pbits p 5 0 then 0x11 else 0
  | 2, _ => if pbits p 7 6 = 3 then 0x12 else 0
  | 3, 1 => if 2 ≤ pbits p 7 6 then 0x20 else 0
  | _, _ => 0

/-- The value of an accepted unit instruction and the key word it writes. -/
def fuValue (g : Eng) (unit op : Nat) (p : BitVec 13) (d x y : Word) : Word × Option (Nat × Word) :=
  match unit, op with
  | 1, 0 => (fextVal x p, none)
  | 1, 1 => (finsVal d x p, none)
  | 1, _ => (fscnVal x p, none)
  | 2, 0 => (hcrcVal x y p, none)
  | 2, 1 => (htoeVal (g.keyBits (pbits p 7 6)) x y p, none)
  | 2, _ =>
    let i := pbits p 5 4 * 8 + pbits p 3 1
    if pbits p 7 6 = 0 then (hvndVal (g.key (pbits p 5 4 * 8)) x y, none)
    else if pbits p 7 6 = 1 then (g.key i, some (i, x))
    else (g.key i, none)
  | _, 0 => (cksaVal x y p, none)
  | _, 1 => (cksuVal x y p, none)
  | _, _ => (cksfVal x y p, none)

/-- Whether a unit instruction takes rs2 from PARAM[12:8]. -/
def fuTwo (unit : Nat) : Bool := unit != uFLD

/-- The latency L of a unit instruction (R188). -/
def fuLat (unit op : Nat) (p : BitVec 13) : Nat :=
  match unit, op with
  | 2, 0 => 3
  | 2, 1 => 4
  | 2, _ => if pbits p 7 6 = 0 then 5 else 2
  | _, _ => 2

/-- A unit instruction (R187, R188, R197): it is undefined, refused, or accepted with its result to come at writeback. -/
def State.fused (s : State) (a : Nat) (unit op rd rs1 : Nat) (p : BitVec 13) : Result :=
  let rs2 := pbits p 12 8
  s.instr a 2 (if fuTwo unit then [rd, rs1, rs2] else [rd, rs1]) { writes := [rd], unit := true } fun s =>
    let enc := encLX (0x37 + unit) rd rs1 op p
    if ¬ isEng a then s.undef a enc true unit 0xFF
    else if ¬ fuZeroOk unit op p then s.undef a enc true 0 0
    else if fuRefusal unit op p ≠ 0 then
      (s.cnt (R.FU_REFUSE (engOf a))).undef a enc true unit (fuRefusal unit op p)
    else
      let t := s.thr a
      let (v, k) := fuValue (s.eng (engOf a)) unit op p (t.get rd) (t.get rs1) (t.get rs2)
      s.setThr a { t with fu := t.fu ++ [⟨t.phys rd, v, k, s.clk, (s.eng (engOf a)).arb.issues + fuLat unit op p⟩] }

/-- Whether one unit instruction in flight writes its result before another (R188). -/
def FuPend.before (f g : FuPend) : Bool := decide (f.at_ < g.at_) || (f.at_ == g.at_ && decide (f.due < g.due))

/-- The unit instruction in flight whose latency ends first, the oldest of them. [DEDUCED, log 41] -/
def nextBack : List FuPend → Option FuPend
  | [] => none
  | f :: l => match nextBack l with
    | none => some f
    | some g => if g.before f then some g else some f

/-- A unit instruction in flight writes its result, and its key word (R188, R199); a cycle has passed, and what issues now pairs with
nothing before it. [DEDUCED, log 41] -/
def State.writeback (s : State) (a : Nat) : State :=
  let t := s.thr a
  match nextBack t.fu with
  | none => s
  | some f =>
    let s1 := s.setThr a { t with fu := t.fu.erase f, rf := smSet (fun _ => (0 : Word)) t.rf f.rd f.val }
    let g := s1.eng (engOf a)
    s1.setEng (engOf a) { g with arb := { g.arb with lead := none },
                                 keys := match f.key with
                                   | none => g.keys
                                   | some (i, v) => smSet (fun _ => (0 : Word)) g.keys i v }

/-- A unit instruction that issued as the second of a pair is killed where the first raises an exception (R163, R200): FU_KILL counts. `enc` is
the first's encoding, which has issued. [DEDUCED, log 40] -/
def State.killPartner (s : State) (a enc : Nat) (lg : Bool) : State :=
  let t := s.thr a
  let h := s.peek a t.pc
  let w := h * 65536 + s.peek a ((t.pc + 1) % pcMod a)
  let unit := bits w 30 25 - 0x37
  let op := bits w 14 13
  let p : BitVec 13 := BitVec.ofNat 13 w
  let ns := namedRegs h (w % 65536)
  let first : Kind := { writes := [if lg then bits enc 24 20 else bits enc 10 7], mem := lg && bits enc 30 25 == 0x24 }
  let leads := if lg then decide (bits enc 30 25 ≤ 0x08) || bits enc 30 25 == 0x24 else decide (bits enc 14 11 ≤ 0x7)
  if isEng a && leads && decide (0x8000 ≤ h) && decide (1 ≤ unit) && decide (unit ≤ 3) && decide (op ≠ 3) && fuZeroOk unit op p &&
     fuRefusal unit op p == 0 && decide ((t.pc + pcMod a - ilen lg) % pcMod a / 8 = (t.pc + 1) / 8) && first.pairs { unit := true } ns && !(t.busy ns)
  then s.cnt (R.FU_KILL (engOf a)) else s

/-- UNDEF of an instruction that can lead a pair. -/
def State.undefPair (s : State) (a enc : Nat) (lg : Bool) (src code : Nat) : State := (s.killPartner a enc lg).undef a enc lg src code

/-! ### The commands -/

/-- FEXT (R191). -/
def execFext (a : Agent) (rd rs1 : Reg) (param : BitVec 13) (s : State) : Result := s.fused a uFLD 0 rd rs1 param
/-- FINS (R191). -/
def execFins (a : Agent) (rd rs1 : Reg) (param : BitVec 13) (s : State) : Result := s.fused a uFLD 1 rd rs1 param
/-- FSCN (R191). -/
def execFscn (a : Agent) (rd rs1 : Reg) (param : BitVec 13) (s : State) : Result := s.fused a uFLD 2 rd rs1 param
/-- HCRC (R192). -/
def execHcrc (a : Agent) (rd rs1 : Reg) (param : BitVec 13) (s : State) : Result := s.fused a uHSH 0 rd rs1 param
/-- HTOE (R194). -/
def execHtoe (a : Agent) (rd rs1 : Reg) (param : BitVec 13) (s : State) : Result := s.fused a uHSH 1 rd rs1 param
/-- HVND with FUNC 0b00 (R195); with FUNC 0b11 it is refused (R198). -/
def execHvndHash (a : Agent) (rd rs1 : Reg) (param : BitVec 13) (s : State) : Result := s.fused a uHSH 2 rd rs1 param
/-- HVND with FUNC 0b01 (R195): the old key word to rd, the new one pending until writeback. -/
def execHvndKeyWrite (a : Agent) (rd rs1 : Reg) (param : BitVec 13) (s : State) : Result := s.fused a uHSH 2 rd rs1 param
/-- HVND with FUNC 0b10 (R195): a key word to rd. -/
def execHvndKeyRead (a : Agent) (rd rs1 : Reg) (param : BitVec 13) (s : State) : Result := s.fused a uHSH 2 rd rs1 param
/-- CKSA (R196). -/
def execCksa (a : Agent) (rd rs1 : Reg) (param : BitVec 13) (s : State) : Result := s.fused a uCKS 0 rd rs1 param
/-- CKSU (R196). -/
def execCksu (a : Agent) (rd rs1 : Reg) (param : BitVec 13) (s : State) : Result := s.fused a uCKS 1 rd rs1 param
/-- CKSF (R196). -/
def execCksf (a : Agent) (rd rs1 : Reg) (param : BitVec 13) (s : State) : Result := s.fused a uCKS 2 rd rs1 param
/-- FU_WRITEBACK (R188). -/
def execFuWriteback (a : EngThr) (s : State) : Result := .next (s.writeback a)

end Sys2Proof.Machine
end

