-- ==== Sys2Proof/Machine/Headers.lean ====
section
/-! DEFINITION. The header walk of the parser (R91–R95) and the hash of a flow (R100), as functions of the header window alone. The
lengths that R91 leaves open are those of `fixedLen`. -/

namespace Sys2Proof.Machine

/-- What a parser takes from its registers for the walk (R91). -/
structure WalkCfg where
  tpidX  : Option Nat
  peek   : Bool
  vxlan  : Nat
  geneve : Nat
  gtpu   : Nat
  deriving DecidableEq, Repr

/-- What the walk has found. -/
structure Walk where
  /-- HDR_PRESENT -/
  pres   : Nat := 0
  mpls   : Nat := 0
  l3     : Nat := 0
  l4     : Nat := 0
  tun    : Nat := 0
  il2    : Nat := 0
  il3    : Nat := 0
  il4    : Nat := 0
  stop   : Nat := 0
  offStop : Nat := 0
  /-- FLAGS, bit i of word 3 at 2^i -/
  flags  : Nat := 0
  /-- a parsed L3 header is a non-first fragment (R93) -/
  later  : Bool := false
  etype  : Nat := 0
  tcis   : List Nat := []
  tunId  : Nat := 0
  dscp   : Option Nat := none
  /-- addresses, upper protocol and L4 ports of the outer and inner L3 (R100) -/
  addr   : Option (List Byte) := none
  proto  : Nat := 0
  ports  : List Byte := [0, 0, 0, 0]
  iaddr  : Option (List Byte) := none
  iproto : Nat := 0
  iports : List Byte := [0, 0, 0, 0]
  deriving DecidableEq, Repr

/-- The window, the header bytes it holds (the FCS position is none, R94), and the header bytes of the whole frame. -/
structure Win where
  bs   : List Byte
  lim  : Nat
  dend : Nat
  deriving DecidableEq, Repr

def Win.u8 (w : Win) (o : Nat) : Nat := (w.bs.getD o 0).toNat
def Win.u16 (w : Win) (o : Nat) : Nat := w.u8 o * 256 + w.u8 (o + 1)
def Win.be (w : Win) (o n : Nat) : Nat := valBE ((w.bs.drop o).take n)
def Win.slice (w : Win) (o n : Nat) : List Byte := (w.bs.drop o).take n

def Walk.has (h : Walk) (b : Nat) : Walk := { h with pres := h.pres ||| 2 ^ b }
def Walk.flag (h : Walk) (b : Nat) : Walk := { h with flags := h.flags ||| 2 ^ b }
def Walk.flagIf (h : Walk) (c : Bool) (b : Nat) : Walk := if c then h.flag b else h
def Walk.halt (h : Walk) (code off : Nat) : Walk := { h with stop := code, offStop := min off 255 }

/-- Whether `n` header bytes stand at `o` in the window. -/
def Win.fits (w : Win) (o n : Nat) : Bool := decide (o + n ≤ w.lim)

/-- The stop of a header that does not fit: the frame ended inside it, or the window did (R94). -/
def Walk.short (h : Walk) (w : Win) (o n : Nat) : Walk := if w.dend < o + n then h.halt 7 o else h.halt 1 o

/-- Lengths of headers for which R91 gives none: ARP, PTP, ESP, SecTAG, ICMP; R284 gives that of a learn frame. -/
inductive Fixed where
  | arp | ptp | esp | sectag | icmp | learn
  deriving DecidableEq, Repr

def fixedLen : Fixed → Nat
  | .arp => 28 | .ptp => 34 | .esp => 4 | .sectag => 6 | .icmp => 4 | .learn => 12

/-- One's-complement sum of 16-bit words. -/
def sum16 : List Byte → Nat
  | a :: b :: l => a.toNat * 256 + b.toNat + sum16 l
  | [a] => a.toNat * 256
  | [] => 0
/-- The sum folded to 16 bits. -/
def fold16 (n : Nat) : Nat := let m := n % 65536 + n / 65536; let m2 := m % 65536 + m / 65536; m2 % 65536 + m2 / 65536

/-- PTP at `o` (R91 bit 14). -/
def Walk.ptp (h : Walk) (w : Win) (o : Nat) : Walk :=
  if w.fits o (fixedLen .ptp) then ((h.has 14).flagIf (decide (w.u8 o % 16 ≤ 3)) 17).halt 0 (o + fixedLen .ptp)
  else h.short w o (fixedLen .ptp)

/-- Inner L4 (R92): parsing ends there whatever its ports, and before a further tunnel. [DEDUCED, log 133] -/
def Walk.inL4 (h : Walk) (w : Win) (v6 : Bool) (proto o : Nat) : Walk :=
  let at_ (n : Nat) : Walk := if w.fits o n then ({ h.has 31 with il4 := o }.halt 0 (o + n)) else h.short w o n
  if proto = 17 then { at_ 8 with iports := if w.fits o 8 then w.slice o 4 else h.iports }
  else if proto = 6 then
    if ¬ w.fits o 20 then h.short w o 20
    else
      let h1 := { h.has 31 with il4 := o }
      let n := w.u8 (o + 12) / 16 * 4
      if n < 20 then h1.halt 5 o
      else if ¬ w.fits o n then h1.short w o n
      else { h1 with iports := w.slice o 4 }.halt 0 (o + n)
  else if (proto = 1 ∧ ¬ v6) ∨ (proto = 58 ∧ v6) then at_ (fixedLen .icmp)
  else if (proto = 59 ∧ v6) ∨ proto = 47 ∨ proto = 50 then h.halt 0 o
  else h.halt 2 o

/-- IPv6 extension headers: up to four of one header; `bits` when they set bits of their own (R91, R92). The result is the next header,
its offset, or a stop. -/
def Walk.ext (h : Walk) (w : Win) (outer : Bool) (nh o i : Nat) : Nat → (Walk × Option (Nat × Nat))
  | 0 => (h.halt 3 o, none)
  | fuel + 1 =>
    let isExt := (nh == 0 && i == 0) || nh == 43 || nh == 44 || nh == 60
    if ¬ isExt then (h, some (nh, o))
    else if 4 ≤ i then (h.halt 3 o, none)
    else if ¬ w.fits o 8 then (h.short w o 8, none)
    else
      let n := if nh = 44 then 8 else (w.u8 (o + 1) + 1) * 8
      let b := if nh = 0 then 8 else if nh = 43 then 9 else if nh = 44 then 11 else 12
      let h1 := if outer then h.has b else h
      let h2 := if outer && nh == 43 && w.u8 (o + 2) == 4 then h1.has 10 else h1
      if ¬ w.fits o n then (h2.short w o n, none)
      else
        let nx := w.u8 o
        if nh = 44 then
          let h3 := h2.flag 27
          let h4 := if outer then { h3 with proto := nx } else { h3 with iproto := nx }
          if w.u16 (o + 2) / 8 ≠ 0 then ({ h4 with later := true }.halt 4 (o + n), none)
          else h4.ext w outer nx (o + n) (i + 1) fuel
        else
          let h3 := if outer then { h2 with proto := nx } else { h2 with iproto := nx }
          h3.ext w outer nx (o + n) (i + 1) fuel

/-- Inner IPv4 (R91 bit 29). -/
def Walk.inV4 (h : Walk) (w : Win) (o : Nat) : Walk :=
  if ¬ w.fits o 20 then h.short w o 20
  else
    let h1 := { (h.has 29) with il3 := o, iaddr := some (w.slice (o + 12) 8), iproto := w.u8 (o + 9) }
    let n := w.u8 o % 16 * 4
    if w.u8 o / 16 ≠ 4 ∨ n < 20 ∨ w.u16 (o + 2) < n then h1.halt 5 o
    else if ¬ w.fits o n then h1.short w o n
    else
      let fr := w.u16 (o + 6)
      let h2 := h1.flagIf (decide (fr % 16384 ≠ 0)) 27
      if fr % 8192 ≠ 0 then { h2 with later := true }.halt 4 (o + n)
      else h2.inL4 w false (w.u8 (o + 9)) (o + n)

/-- Inner IPv6 (R91 bit 30). -/
def Walk.inV6 (h : Walk) (w : Win) (o : Nat) : Walk :=
  if ¬ w.fits o 40 then h.short w o 40
  else
    let h1 := { (h.has 30) with il3 := o, iaddr := some (w.slice (o + 8) 32), iproto := w.u8 (o + 6) }
    if w.u8 o / 16 ≠ 6 then h1.halt 5 o
    else match h1.ext w false (w.u8 (o + 6)) (o + 40) 0 6 with
      | (h2, some (nh, o2)) => h2.inL4 w true nh o2
      | (h2, none) => h2

/-- Whether an Ethertype is a tag's TPID (R91). -/
def WalkCfg.isTag (c : WalkCfg) (et : Nat) : Bool := et == 0x8100 || et == 0x88A8 || c.tpidX == some et

/-- Whether an Ethertype names a header of R91 that no inner frame leads to (R92). -/
def noInner (et : Nat) : Bool := [0x0806, 0x8847, 0x8848, 0x88F7, 0x88B5, 0x88E5].contains et

/-- Inner Ethernet with at most one tag (R91 bit 28). [DEDUCED, log 133] -/
def Walk.inEth (h : Walk) (c : WalkCfg) (w : Win) (o : Nat) : Walk :=
  if ¬ w.fits o 14 then h.short w o 14
  else
    let h1 := { (h.has 28) with il2 := o }
    let go (h : Walk) (et o : Nat) : Walk :=
      if et = 0x0800 then h.inV4 w o else if et = 0x86DD then h.inV6 w o else h.halt (if noInner et then 0 else 2) o
    let et := w.u16 (o + 12)
    if c.isTag et then
      if ¬ w.fits (o + 14) 4 then h1.short w (o + 14) 4
      else if c.isTag (w.u16 (o + 16)) then h1.halt 3 (o + 18)
      else go h1 (w.u16 (o + 16)) (o + 18)
    else go h1 et (o + 14)

/-- What a tunnel carries, by its protocol number (R91). -/
def Walk.tunProto (h : Walk) (c : WalkCfg) (w : Win) (p o : Nat) : Walk :=
  if p = 0x6558 then h.inEth c w o else if p = 0x0800 then h.inV4 w o else if p = 0x86DD then h.inV6 w o else h.halt 2 o

/-- What an IP packet starts with, by its first nibble. -/
def Walk.nibble (h : Walk) (w : Win) (o : Nat) : Walk :=
  if ¬ w.fits o 1 then h.short w o 1
  else if w.u8 o / 16 = 4 then h.inV4 w o else if w.u8 o / 16 = 6 then h.inV6 w o else h.halt 2 o

/-- GTP-U extension headers (R91 bit 25, R92): the offset after them, or a stop. -/
def Walk.gtpExt (h : Walk) (w : Win) (ty o i : Nat) : Nat → (Walk × Option Nat)
  | 0 => (h.halt 3 o, none)
  | fuel + 1 =>
    if ty = 0 then (h, some o)
    else if 4 ≤ i then (h.halt 3 o, none)
    else if ¬ w.fits o 1 then (h.short w o 1, none)
    else
      let n := w.u8 o * 4
      if n = 0 then (h.halt 5 o, none)
      else if ¬ w.fits o n then (h.short w o n, none)
      else ((h.has 25).flag 20).gtpExt w (w.u8 (o + n - 1)) (o + n) (i + 1) fuel

/-- GTP-U version 1 (R91 bit 24, R92). -/
def Walk.gtpu (h : Walk) (w : Win) (o : Nat) : Walk :=
  if ¬ w.fits o 8 then h.short w o 8
  else if w.u8 o / 16 ≠ 3 then h.halt 0 o
  else
    let h1 := { (h.has 24) with tun := o, tunId := w.be (o + 4) 4 }
    let f := w.u8 o % 8
    let n := if f = 0 then 8 else 12
    if ¬ w.fits o n then h1.short w o n
    else
      let r := if f / 4 = 1 then h1.gtpExt w (w.u8 (o + 11)) (o + 12) 0 6 else (h1, some (o + n))
      match r with
      | (h2, none) => h2
      | (h2, some o2) => if w.u8 (o + 1) = 0xFF then h2.nibble w o2 else h2.halt 0 o2

/-- UDP and what its destination port names (R91, R94). -/
def Walk.udp (h : Walk) (c : WalkCfg) (w : Win) (o : Nat) : Walk :=
  if ¬ w.fits o 8 then h.short w o 8
  else
    let h1 := { (h.has 17) with l4 := o, ports := w.slice o 4 }
    let d := w.u16 (o + 2)
    let p := o + 8
    if d = 319 ∨ d = 320 then h1.ptp w p
    else if d = c.vxlan then
      if w.fits p 8 then { (h1.has 21) with tun := p, tunId := w.be (p + 4) 3 }.inEth c w (p + 8) else h1.short w p 8
    else if d = c.geneve then
      if ¬ w.fits p 8 then h1.short w p 8
      else
        let n := 8 + w.u8 p % 64 * 4
        let h2 := { (h1.has 22) with tun := p, tunId := w.be (p + 4) 3 }.flagIf (decide (8 < n)) 20
        if w.fits p n then h2.tunProto c w (w.u16 (p + 2)) (p + n) else h2.short w p n
    else if d = c.gtpu then h1.gtpu w p
    else h1.halt 0 p

/-- GRE (R91 bit 23, R92). -/
def Walk.gre (h : Walk) (c : WalkCfg) (w : Win) (o : Nat) : Walk :=
  if ¬ w.fits o 4 then h.short w o 4
  else if w.u8 (o + 1) % 8 ≠ 0 then h.halt 2 o
  else
    let f := w.u8 o
    let cb := b2n (f.testBit 7)
    let kb := b2n (f.testBit 5)
    let n := 4 + 4 * (cb + kb + b2n (f.testBit 4))
    let h1 := { (h.has 23) with tun := o }
    if ¬ w.fits o n then h1.short w o n
    else (if kb = 1 then { h1 with tunId := w.be (o + 4 + 4 * cb) 4 } else h1).tunProto c w (w.u16 (o + 2)) (o + n)

/-- What follows the outer L3 (R91). -/
def Walk.outL4 (h : Walk) (c : WalkCfg) (w : Win) (v6 : Bool) (proto o : Nat) : Walk :=
  if proto = 17 then h.udp c w o
  else if proto = 6 then
    if ¬ w.fits o 20 then h.short w o 20
    else
      let h1 := { (h.has 18) with l4 := o }
      let n := w.u8 (o + 12) / 16 * 4
      if n < 20 then h1.halt 5 o
      else if ¬ w.fits o n then h1.short w o n
      else { h1 with ports := w.slice o 4 }.halt 0 (o + n)
  else if (proto = 1 ∧ ¬ v6) ∨ (proto = 58 ∧ v6) then
    if w.fits o (fixedLen .icmp) then { (h.has (if v6 then 20 else 19)) with l4 := o }.halt 0 (o + fixedLen .icmp)
    else h.short w o (fixedLen .icmp)
  else if proto = 47 then h.gre c w o
  else if proto = 50 then
    if w.fits o (fixedLen .esp) then { (h.has 26) with tun := o, tunId := w.be o 4 }.halt 6 (o + fixedLen .esp)
    else h.short w o (fixedLen .esp)
  else if proto = 59 ∧ v6 then h.halt 0 o
  else h.halt 2 o

/-- Outer IPv4 (R91 bits 5 and 7, R93, R95). -/
def Walk.outV4 (h : Walk) (c : WalkCfg) (w : Win) (o : Nat) : Walk :=
  if ¬ w.fits o 20 then h.short w o 20
  else
    let n := w.u8 o % 16 * 4
    let h1 := { (h.has 5) with l3 := o, addr := some (w.slice (o + 12) 8), proto := w.u8 (o + 9), dscp := some (w.u8 (o + 1) / 4) }
    if w.u8 o / 16 ≠ 4 ∨ n < 20 ∨ w.u16 (o + 2) < n then h1.halt 5 o
    else
      let h2 := if 20 < n then (h1.has 7).flag 25 else h1
      let h3 := (h2.flagIf (decide (w.dend < o + w.u16 (o + 2))) 23).flagIf (decide (w.u8 (o + 8) ≤ 1)) 22
      if ¬ w.fits o n then h3.short w o n
      else
        let h4 := h3.flagIf (decide (fold16 (sum16 (w.slice o n)) ≠ 0xFFFF)) 24
        let fr := w.u16 (o + 6)
        let h5 := h4.flagIf (decide (fr % 16384 ≠ 0)) 27
        if fr % 8192 ≠ 0 then { h5 with later := true }.halt 4 (o + n)
        else h5.outL4 c w false (w.u8 (o + 9)) (o + n)

/-- Outer IPv6 (R91 bits 6 and 8–12). -/
def Walk.outV6 (h : Walk) (c : WalkCfg) (w : Win) (o : Nat) : Walk :=
  if ¬ w.fits o 40 then h.short w o 40
  else
    let h1 := { (h.has 6) with l3 := o, addr := some (w.slice (o + 8) 32), proto := w.u8 (o + 6),
                               dscp := some (w.u16 o / 16 % 256 / 4) }
    if w.u8 o / 16 ≠ 6 then h1.halt 5 o
    else
      let h2 := (h1.flagIf (decide (w.dend < o + 40 + w.u16 (o + 4))) 23).flagIf (decide (w.u8 (o + 7) ≤ 1)) 22
      match h2.ext w true (w.u8 (o + 6)) (o + 40) 0 6 with
      | (h3, some (nh, o2)) => h3.outL4 c w true nh o2
      | (h3, none) => h3

/-- The label stack (R91 bit 4, R94): the offset after bottom of stack, or a stop. -/
def Walk.labels (h : Walk) (w : Win) (o i : Nat) : Nat → (Walk × Option Nat)
  | 0 => (h.halt 3 o, none)
  | fuel + 1 =>
    if 8 ≤ i then (h.halt 3 o, none)
    else if ¬ w.fits o 4 then (h.short w o 4, none)
    else if w.u8 (o + 2) % 2 = 1 then (h.has 4, some (o + 4))
    else (h.has 4).labels w (o + 4) (i + 1) fuel

/-- Tags 1–3 (R91): the Ethertype after them and its offset, or a stop. -/
def Walk.tags (h : Walk) (c : WalkCfg) (w : Win) (et o i : Nat) : Nat → (Walk × Option (Nat × Nat))
  | 0 => (h.halt 3 o, none)
  | fuel + 1 =>
    let h1 := { h with etype := et }
    if ¬ c.isTag et then (h1, some (et, o))
    else if 3 ≤ i then (h1.halt 3 o, none)
    else if ¬ w.fits o 4 then (h1.short w o 4, none)
    else { (h1.has (1 + i)) with tcis := h1.tcis ++ [w.u16 o] }.tags c w (w.u16 (o + 2)) (o + 4) (i + 1) fuel

/-- The walk of R91–R95 over a window. [DEDUCED, log 77] -/
def headerWalk (c : WalkCfg) (w : Win) : Walk :=
  let h : Walk := {}
  if ¬ w.fits 0 14 then h.short w 0 14
  else
    let da := w.be 0 6
    let h1 := (((h.has 0).flagIf (decide (da = 2 ^ 48 - 1)) 18).flagIf (decide (w.u8 0 % 2 = 1) && decide (da ≠ 2 ^ 48 - 1)) 19).flagIf
      (decide (w.u8 6 % 2 = 1)) 16
    let r : Walk := match h1.tags c w (w.u16 12) 14 0 5 with
      | (h2, none) => h2
      | (h2, some (et, o)) =>
        if et < 0x0600 then h2.halt 2 o
        else if et = 0x8847 ∨ et = 0x8848 then
          match { h2 with mpls := o }.labels w o 0 9 with
          | (h3, none) => if h3.pres.testBit 4 then h3 else { h3 with mpls := 0 }
          | (h3, some o2) =>
            if ¬ c.peek then h3.halt 2 o2
            else if ¬ w.fits o2 1 then h3.short w o2 1
            else if w.u8 o2 / 16 = 4 then h3.outV4 c w o2
            else if w.u8 o2 / 16 = 6 then h3.outV6 c w o2
            else h3.halt 2 o2
        else if et = 0x0800 then h2.outV4 c w o
        else if et = 0x86DD then h2.outV6 c w o
        else if et = 0x0806 then
          if w.fits o (fixedLen .arp) then { (h2.has 13) with l3 := o }.halt 0 (o + fixedLen .arp) else h2.short w o (fixedLen .arp)
        else if et = 0x88F7 then
          if w.fits o (fixedLen .ptp) then { h2 with l3 := o }.ptp w o else h2.short w o (fixedLen .ptp)
        else if et = 0x88B5 then
          if w.fits o (fixedLen .learn) then { (h2.has 15) with l3 := o }.halt 0 (o + fixedLen .learn) else h2.short w o (fixedLen .learn)
        else if et = 0x88E5 then
          if w.fits o (fixedLen .sectag) then (h2.has 27).halt 6 (o + fixedLen .sectag) else h2.short w o (fixedLen .sectag)
        else h2.halt 2 o
    let r1 := if r.flags.testBit 27 ∧ ¬ r.later then r.flag 26 else r
    if bits r1.pres 31 28 ≠ 0 then r1.flag 21 else r1

/-- The bytes FLOW_HASH covers (R100). -/
def hashBytes (h : Walk) (w : Win) (inner l4 : Bool) : List Byte :=
  let ipBytes (a : List Byte) (p : Nat) (ports : List Byte) : List Byte := a ++ [BitVec.ofNat 8 p] ++ (if l4 then ports else [])
  match (if inner then h.iaddr else none), h.addr with
  | some a, _ => ipBytes a h.iproto h.iports
  | none, some a => ipBytes a h.proto h.ports
  | none, none => w.slice 0 12 ++ bytesBE 2 h.etype

/-- FLOW_HASH (R100): CRC-32C with seed 0xFFFF_FFFF and FIN = 1. -/
def flowHash (h : Walk) (w : Win) (inner l4 : Bool) : Nat := (crc polyCrc32c 0xFFFFFFFF (hashBytes h w inner l4) ^^^ 0xFFFFFFFF).toNat

end Sys2Proof.Machine
end

