-- ==== Sys2Proof/Machine/Parser.lean ====
section
/-! DEFINITION. The parser (R89–R109): sources, the packet context, key profiles, pre-lookups, the source check and the view stamp. -/

namespace Sys2Proof.Machine

/-- What the registers of a parser say of the walk. -/
def State.walkCfg (s : State) (p : Nat) : WalkCfg :=
  { tpidX := if s.flag (R.PARSE_CFG p) F.PARSE_CFG_TPID_X_EN then some (s.fld (R.PARSE_NUM_B p) F.PARSE_NUM_B_TPID_X) else none
    peek := s.flag (R.PARSE_CFG p) F.PARSE_CFG_MPLS_PEEK
    vxlan := s.fld (R.PARSE_NUM_A p) F.PARSE_NUM_A_VXLAN_PORT
    geneve := s.fld (R.PARSE_NUM_A p) F.PARSE_NUM_A_GENEVE_PORT
    gtpu := s.fld (R.PARSE_NUM_B p) F.PARSE_NUM_B_GTPU_PORT }

/-- Index of a source in PARSE_PORT_CFG: a front port of the pipeline, or 4 for every other source. -/
def srcIdx (port : Nat) : Nat := if port < 64 then port % 4 else 4

/-- CLASS of R99 from what the walk found. -/
def State.classOf (s : State) (p k : Nat) (h : Walk) : Nat :=
  let c := R.PARSE_PORT_CFG p k
  let d := s.fld c F.PARSE_PORT_CFG_CLS_DEF
  match s.fld c F.PARSE_PORT_CFG_CLS_SRC with
  | 1 => match h.tcis with
    | t :: _ => bits (s.reg (R.PARSE_PCP_MAP p)).toNat (3 * (t / 8192) + 2) (3 * (t / 8192))
    | [] => d
  | 2 => match h.dscp with
    | some x => bits (s.reg (R.PARSE_DSCP_MAP p (x / 8))).toNat (3 * (x % 8) + 2) (3 * (x % 8))
    | none => d
  | _ => d

/-- BD of R99. -/
def State.bdOf (s : State) (p k : Nat) (h : Walk) : Nat :=
  let c := R.PARSE_PORT_CFG p k
  let b := s.fld c F.PARSE_PORT_CFG_BD
  match s.flag c F.PARSE_PORT_CFG_BD_MODE, h.tcis with
  | true, t :: _ => (b + t % 4096) % 65536
  | _, _ => b

/-- The key profile of a packet (R102). -/
def State.profileOf (s : State) (p k pres : Nat) : Nat :=
  match (List.range 16).find? fun r =>
    s.flag (R.PSEL_CTL p r) F.PSEL_CTL_EN && (s.fld (R.PSEL_CTL p r) F.PSEL_CTL_PMASK).testBit k &&
    ((pres &&& (s.reg (R.PSEL_MASK p r)).toNat) == (s.reg (R.PSEL_VAL p r)).toNat) with
  | some r => s.fld (R.PSEL_CTL p r) F.PSEL_CTL_PROF
  | none => s.fld (R.PARSE_PORT_CFG p k) F.PARSE_PORT_CFG_PROF_DEF

/-- The bytes of an extractor (R103); none makes the key invalid. -/
def extract (h : Walk) (w : Win) (ctx : SMap Byte) (x : Nat) : Option (List Byte) :=
  let off := bits x 11 4
  let n := bits x 3 0 + 1
  let at_ (o : Nat) (there : Bool) : Option (List Byte) :=
    if there ∧ o + off + n ≤ w.bs.length then some (w.slice (o + off) n) else none
  match bits x 15 12 with
  | 0 => at_ 0 true
  | 1 => at_ h.mpls (h.mpls != 0)
  | 2 => at_ h.l3 (h.l3 != 0)
  | 3 => at_ h.l4 (h.l4 != 0)
  | 4 => at_ h.tun (h.tun != 0)
  | 5 => at_ h.il2 (h.il2 != 0)
  | 6 => at_ h.il3 (h.il3 != 0)
  | 7 => at_ h.il4 (h.il4 != 0)
  | 8 => if off + n ≤ 64 then some (rdMap ctx off n) else none
  | _ => none

/-- The key of a profile entry, at most 56 bytes; none if an extractor it uses fails. -/
def State.keyOf (s : State) (p q n : Nat) (h : Walk) (w : Win) (ctx : SMap Byte) : Option (List Byte) :=
  (List.range (s.fld (R.PKEY_CTL p q n) F.PKEY_CTL_NEXT + 1)).foldl (fun acc i =>
    match acc, extract h w ctx (bits (s.reg (R.PKEY_EXT p q n (i / 2))).toNat (16 * (i % 2) + 15) (16 * (i % 2))) with
    | some l, some b => some ((l ++ b).take 56)
    | _, _ => none) (some [])

/-- A lookup goes to the lookup complex (R104, R170). -/
def State.issueLkp (s : State) (l : Lkp) : State :=
  { s with lkps := smPut s.lkps s.nextId l, nextId := s.nextId + 1 }

/-- A result slot's word (R101). -/
def slotWord (status kind table data : Nat) : Nat := status * 2 ^ 60 + kind * 2 ^ 58 + table * 2 ^ 48 + data % 2 ^ 48

/-- The pre-lookups of a profile (R103, R104): each is issued, or its slot receives KEY_INVALID. -/
def State.preLookups (s : State) (p k q : Nat) (h : Walk) (w : Win) (kctx : SMap Byte) : State :=
  [0, 1, 2, 3].foldl (fun s n =>
    let c := R.PKEY_CTL p q n
    if s.flag c F.PKEY_CTL_EN then
      let slot := s.fld c F.PKEY_CTL_SLOT
      let kind := s.fld c F.PKEY_CTL_KIND
      let tbl := s.fld c F.PKEY_CTL_TABLE_ID
      let put (s : State) (st : Nat) : State :=
        s.setPkt k { s.pkt k with ctx := setCtxWord (s.pkt k).ctx (8 + slot) (slotWord st kind tbl 0) }
      match s.keyOf p q n h w kctx with
      | some key => (put s 1).issueLkp { pkt := k, slot := slot, stage := s.fld c F.PKEY_CTL_DSTG, kind := kind, table := tbl, key := key,
                                         half := p / 8, view := cView (s.pkt k).ctx, fwd := false }
      | none => ((put s 5).cnt (R.PARSE_KEYINV p)).raise (0x100000 + p * 0x1000) 1
    else s) s

/-- RX_TS of a stamp (R97): seconds, nanoseconds, 2^-16 ns. -/
def rxWord (t : Nat) : Nat := t / nsU / 1000000000 % 65536 * 2 ^ 48 + t / nsU % 1000000000 * 2 ^ 16 + t / 2 ^ 32 % 65536

/-- Words 2 and 3 of the context. [DEDUCED, log 77] -/
def offWord (h : Walk) : Nat :=
  h.offStop * 2 ^ 56 + h.il4 * 2 ^ 48 + h.il3 * 2 ^ 40 + h.il2 * 2 ^ 32 + h.tun * 2 ^ 24 + h.l4 * 2 ^ 16 + h.l3 * 2 ^ 8 + h.mpls
def parseWord (h : Walk) : Nat := h.pres * 2 ^ 32 + h.stop * 2 ^ 28 + h.flags + h.etype

/-- The length the outer L3 gives a frame whose tail has not arrived (R97). -/
def l3Len (h : Walk) (w : Win) : Nat :=
  if h.pres.testBit 5 then h.l3 + w.u16 (h.l3 + 2) + 4
  else if h.pres.testBit 6 then h.l3 + 40 + w.u16 (h.l3 + 4) + 4 else 0

/-- Sources a parser serves, in port-number order (R89). -/
def srcPorts (p : Nat) : List Nat :=
  [4 * p, 4 * p + 1, 4 * p + 2, 4 * p + 3, 64, 65, 66, 67, 68, if p < 8 then 69 else 70, 71]

/-- Entries of the ingress header store in use (R90). -/
def State.ingUsed (s : State) (p : Nat) : Nat := (s.pkts.filter fun e => e.2.loc == .ing p).length

/-- The source the parser serves next: in rotation after the one it served last (R89, R107); in debug hold only front ports (R566). -/
def State.nextSrc (s : State) (p : Nat) : Option Nat :=
  let l := srcPorts p
  let last := smGet (fun _ => 127) s.parsed p
  let ready (port : Nat) : Bool := !(s.src p port).isEmpty && (decide (port < 64) || !(s.debugHold p))
  match l.find? fun x => decide (last < x) && ready x with
  | some x => some x
  | none => l.find? ready

/-- The parser handles a frame (R107). -/
def State.parseFrame (s : State) (p k : Nat) : State :=
  let q := s.pkt k
  let rc := q.inPort = 69 ∨ q.inPort = 70
  let win := s.chainRead q.ptr q.skip (min 256 q.len)
  let rh := s.chainRead q.ptr 0 16
  let whole := ¬ q.bad ∨ q.len ≤ 256
  let w : Win := { bs := win, lim := min 256 (q.len - 4), dend := if whole then q.len - 4 else 2 ^ 20 }
  let h0 := headerWalk (s.walkCfg p) w
  let h := if rc then (if rh.getD 0 0 = 1 then { h0 with pres := h0.pres ||| 2 ^ 16 } else ({ pres := 2 ^ 16 } : Walk).halt 2 0) else h0
  let i := srcIdx q.inPort
  let b1 := (rh.getD 1 0).toNat
  let view := if rc then bits b1 2 2 else s.fld (R.VIEW_STAT 0) F.VIEW_STAT_ACTIVE
  let cls := if rc then bits b1 5 3 else q.clsFix.getD (s.classOf p i h)
  let user := if rc then valLE (rh.drop 12) % 2 ^ 19 else q.user
  let inst :=
    if rc then (rh.getD 3 0).toNat
    else if q.inPort < 64 then bits (s.reg (R.PARSE_PORT_INST p)).toNat (8 * i + 7) (8 * i)
    else if q.inPort = 71 then
      let f := q.user % 128
      bits (s.reg (R.PARSE_PORT_INST (f / 4))).toNat (8 * (f % 4) + 7) (8 * (f % 4))
    else q.inst
  let flen := if whole then q.len else l3Len h w
  let meta0 := (if rc then (rh.getD 2 0).toNat else q.inPort) % 128 * 2 ^ 57 + cls * 2 ^ 54 + inst % 256 * 2 ^ 45 +
    flen % 2 ^ 14 * 2 ^ 31 + (if rc then bits b1 1 0 else 0) * 2 ^ 29 + b2n (flen ≠ 0) * 2 ^ 28 + ptrPool q.ptr * 2 ^ 26 + q.ptr
  let bd := s.bdOf p i h
  let c0 := setCtxWord [] 0 meta0
  let c1 := setCtxWord c0 1 (if rc then valLE ((rh.drop 4).take 8) else rxWord q.rx)
  let c2 := setCtxWord (setCtxWord c1 2 (offWord h)) 3 (parseWord h)
  let c3 := setCtxWord c2 4 (bd * 2 ^ 48 + h.tcis.getD 0 0 * 2 ^ 32 + h.tcis.getD 1 0 * 2 ^ 16 + h.tcis.getD 2 0)
  let hash := flowHash h w (s.flag (R.PARSE_CFG p) F.PARSE_CFG_HASH_INNER) (s.flag (R.PARSE_CFG p) F.PARSE_CFG_HASH_L4)
  let c4 := setCtxWord c3 5 (h.tunId * 2 ^ 32 + hash)
  let c5 := setCtxWord c4 7 (2 ^ 34 + 2 ^ 27 + user)
  let c6 := setCtxF c5 0 53 53 view
  let s1 := (s.setPkt k { q with ctx := c6, hdr := wrMap [] 64 win, loc := .ing p, view := if rc then q.view else some view }).cnt64
    (R.PARSE_FRM p) 1
  let s2 := if rc then s1 else s1.viewAdd view
  let s3 := if 1 ≤ h.stop ∧ h.stop ≤ 7 then s2.cnt (R.PARSE_STOP p (h.stop - 1)) else s2
  let s4 := if h.stop = 5 then s3.raise (0x100000 + p * 0x1000) 0 else s3
  let s5 := s4.preLookups p k (s4.profileOf p i h.pres) h w c5
  let s6 := if h.pres.testBit 0 ∧ ¬ h.flags.testBit 16 ∧ ¬ rc then
      let chk : SrcChk := { bd := bd, mac := w.be 6 6, port := cInPort c6, view := view, inst := inst, pkt := k }
      { s5 with srcChks := smSet (fun _ => []) s5.srcChks (p / 8) (smGet (fun _ => []) s5.srcChks (p / 8) ++ [chk]) }
    else s5
  s6.setEng (p * 16) { s6.eng (p * 16) with q := (s6.eng (p * 16)).q ++ [k] }

/-- PARSE_START (R107). -/
def execParseStart (pipe : PipeN) (s : State) : Result :=
  let p := pipe.val
  if ¬ s.pipeOn p ∨ s.fenced p ∨ 256 ≤ s.ingUsed p ∨ 16 ≤ (s.eng (p * 16)).q.length then .next s
  else match s.nextSrc p with
    | none => .next s
    | some port =>
      match s.src p port with
      | [] => .next s
      | k :: rest => .next ((({ s.setSrc p port rest with parsed := smSet (fun _ => 127) s.parsed p port }).parseFrame p k).holdFrom s p)

end Sys2Proof.Machine
end

