-- ==== Sys2Proof/Machine/Time.lean ====
section
/-! DEFINITION. The time unit (R62–R88): the tick, the servo, the 1PPS and time-of-day inputs, slews, triggers and outputs. Forced steps
stand with the events they skip, in TimeStep. -/

namespace Sys2Proof.Machine

/-- A 32-bit signed register value. -/
def s32 (v : W32) : Int := v.toInt

/-- Servo states of R68. -/
def tFREERUN : Nat := 0
def tACQUIRE : Nat := 1
def tLOCKED : Nat := 2
def tHOLDOVER : Nat := 3

def State.tState (s : State) : Nat := s.fld R.TIME_STAT F.TIME_STAT_STATE
def State.tSrc (s : State) : Nat := s.fld R.TIME_CTL F.TIME_CTL_SRC

/-- The state with the time unit changed. -/
def State.setTime (s : State) (t : TimeSt) : State := { s with time := t }

/-- A change of servo state; each change sets INT_RAW bit 0 (R68). -/
def State.toServo (s : State) (st : Nat) : State :=
  if s.tState = st then s else (s.setFld R.TIME_STAT F.TIME_STAT_STATE st).raise 0x10000 0

/-- One tick of 2 ns corrected by TIME_FREQ, in units of 2^−48 ns (R63, R88). [DESIGN CHOICE, log 67] -/
def State.tickUnits (s : State) : Int := 2 ^ 49 + 2 ^ 37 * s32 (s.reg R.TIME_FREQ) / 1000000000

/-- The slew of one tick: at most RATE ppm of it (R75). -/
def State.tickSlew (s : State) : Int :=
  let m : Int := 2 ^ 49 * (s.fld R.TIME_SLEW F.TIME_SLEW_RATE : Nat) / 1000000
  max (-m) (min m s.time.slew)

/-- The latest `n` ticks of a history. -/
def histTake : Nat → List (Int × Nat) → List (Int × Nat)
  | _, [] => []
  | n, (f, k) :: l => if n ≤ k then [(f, n)] else (f, k) :: histTake (n - k) l

/-- A tick in LOCKED with a frequency (R71); 2^15 seconds are kept, the longest window. [DEDUCED, log 149] -/
def histTick (f : Int) : List (Int × Nat) → List (Int × Nat)
  | (g, k) :: l => if g = f then (g, k + 1) :: l else (f, 1) :: histTake (2 ^ 15 * 500000000) ((g, k) :: l)
  | [] => [(f, 1)]

/-- A tick of the model: the clock of cycle counts runs where its domain is clocked, and domain time advances in every mode but OFF
(R63, R83). [DESIGN CHOICE, log 3; DEDUCED, log 56] -/
def State.tick (s : State) : State :=
  let stopped := (List.range 18).filter fun d =>
    if d < 16 then !(s.mainClk && s.domOn d) else if d = 16 then !s.mainClk else decide (s.mode = mOFF)
  let s1 := { s with clk := s.clk + 1,
                     cycBase := stopped.foldl (fun m d => smSet (fun _ => 0) m d (smGet (fun _ => 0) m d + 1)) s.cycBase }
  let inc := (s.tickUnits + s.tickSlew).toNat
  if s.mode = mOFF then s1
  else s1.setTime { s.time with d := s.time.d + inc, inc := inc, run := s.time.run + inc, slew := s.time.slew - s.tickSlew,
                                hist := if s.tState = tLOCKED then histTick (s32 (s.reg R.TIME_FREQ)) s.time.hist else s.time.hist }

/-- A slew of `n` nanoseconds added to the remaining slew (R75). -/
def State.addSlew (s : State) (n : Int) : State :=
  let r := s.time.slew + n * nsU
  (s.setTime { s.time with slew := r }).setFld R.TIME_STAT F.TIME_STAT_SLEWING (if r = 0 then s.fld R.TIME_STAT F.TIME_STAT_SLEWING else 1)

/-- TIME_FREQ clamped to ±500 ppm (R69, R88). -/
def clampFreq (f : Int) : W32 := BitVec.ofInt 32 (max (-2048000000) (min 2048000000 f))

/-- A sample of phase error `e`; `hw` when the hardware servo acts on it (R68, R69). [DEDUCED, log 114] -/
def State.sample (s : State) (e : Int) (hw : Bool) : State :=
  let s1 := s.setTime { s.time with sampleAt := some s.clk }
  let s2 := if hw then
      let ki := s.fld R.TIME_SERVO F.TIME_SERVO_KI
      ((s1.setTime { s1.time with slew := 0 }).addSlew (-e)).setReg R.TIME_FREQ (clampFreq (s32 (s.reg R.TIME_FREQ) - e * 4096 / 2 ^ ki))
    else s1
  if s.flag R.TIME_CTL F.TIME_CTL_HOLD then s2
  else
    let fresh := s.tState = tFREERUN ∨ s.tState = tHOLDOVER
    let s3 := if fresh then s2.toServo tACQUIRE else s2
    let good := if e.natAbs ≤ s.fld R.TIME_SERVO F.TIME_SERVO_LOCK_NS then (if fresh then 0 else s.time.good) + 1 else 0
    let s4 := s3.setTime { s3.time with good := good }
    if s4.tState = tACQUIRE ∧ s.fld R.TIME_SERVO F.TIME_SERVO_LOCK_CNT ≤ good then s4.toServo tLOCKED else s4

/-- Entry to HOLDOVER: TIME_FREQ takes its mean over the last 2^HOLD_AVG seconds in LOCKED, to the nearest unit (R71, R72).
[DEDUCED, log 149] -/
def State.enterHoldover (s : State) : State :=
  let h := histTake (2 ^ s.fld R.TIME_SERVO F.TIME_SERVO_HOLD_AVG * 500000000) s.time.hist
  let n : Int := (h.foldl (fun m e => m + e.2) 0 : Nat)
  let sum := h.foldl (fun m e => m + e.1 * (e.2 : Int)) 0
  let s1 := if n = 0 then s else s.setReg R.TIME_FREQ (BitVec.ofInt 32 ((2 * sum + n) / (2 * n)))
  (s1.setTime { s1.time with good := 0, rej := 0 }).toServo tHOLDOVER

/-- PPS_EDGE (R65, R85): the edge is timed, and is a sample, rejected, or neither. [DEDUCED, log 114] -/
def execPpsEdge (s : State) : Result :=
  if s.mode = mOFF then .next s
  else
    let ns := s.dNs % 1000000000
    let e : Int := if ns ≤ 500000000 then ns else (ns : Int) - 1000000000
    let s1 := (s.setTime { s.time with edge := some (s.time.d, s.time.run) }).setReg R.TIME_PPS_ERR (BitVec.ofInt 32 e)
    if s.time.stepTick = some s.clk then .next s1
    else if s.tState = tLOCKED ∧ s.fld R.TIME_IO F.TIME_IO_PPS_REJ * 1000 < e.natAbs then
      let s2 := (s1.cnt R.PPS_REJECT).raise 0x10000 2
      if s.time.rej + 1 = 4 then .next ((s2.setTime { s2.time with rej := 0, good := 0 }).toServo tACQUIRE)
      else .next (s2.setTime { s2.time with rej := s.time.rej + 1 })
    else
      let s2 := s1.setTime { s1.time with rej := 0 }
      .next (if s.tSrc = 2 then s2.sample e true else s2)

/-- CRC-16 of R66: polynomial 0x1021, initial value 0xFFFF. -/
def crc16 (bs : List Byte) : BitVec 16 :=
  bs.foldl (fun (c : BitVec 16) (b : Byte) =>
    (List.range 8).foldl (fun (c : BitVec 16) _ => if c.msb then (c <<< 1) ^^^ 0x1021 else c <<< 1)
      (c ^^^ BitVec.ofNat 16 (b.toNat * 256))) 0xFFFF

/-- Whether sixteen bytes are a time-of-day message that passes its checks (R66). -/
def todOk (bs : List Byte) : Bool :=
  (bs.length == 16) && (bs.take 3 == [0x5A, 0xA5, 0x01]) && ((crc16 ((bs.drop 2).take 12)).toNat == valBE (bs.drop 14))

/-- A forced step by AUTOSET is ordered (R67, R76). -/
def State.orderAutoset (s : State) (secs at_ : Nat) : State :=
  if s.flag R.TIME_STEP F.TIME_STEP_BUSY then s
  else (s.setTime { s.time with ordered := true, target := some (secs, at_), mism := 0 }).setFld R.TIME_STEP F.TIME_STEP_BUSY 1

/-- TOD_MESSAGE (R66, R67): a message that ends now, by its first byte and the rest. -/
def execTodMessage (first : Byte) (rest : List Byte) (s : State) : Result :=
  let bytes := first :: rest
  match s.time.edge with
  | none => .next ((s.cnt R.TOD_ERR).raise 0x10000 3)
  | some (d, at_) =>
    if s.time.run - at_ < 10000000 * nsU ∨ 900000000 * nsU < s.time.run - at_ ∨ ¬ todOk bytes then .next ((s.cnt R.TOD_ERR).raise 0x10000 3)
    else
      let s1 := s.setTime { s.time with todAt := some s.clk }
      if ¬ (bytes.getD 3 0).getLsbD 0 then .next s1
      else
        let secs := valBE ((bytes.drop 4).take 6)
        let same := secs = (d / nsU + 500000000) / 1000000000
        let n := if same then 0 else s.time.mism + 1
        let s2 := s1.setTime { s1.time with mism := n }
        let s3 := if same then s2 else (s2.cnt R.TOD_MISMATCH).raise 0x10000 3
        if s.flag R.TIME_CTL F.TIME_CTL_AUTOSET && (!(s.flag R.TIME_STAT F.TIME_STAT_VALID) || decide (3 ≤ n))
        then .next (s3.orderAutoset secs at_) else .next s3

/-- HOLDOVER_TIMEOUT (R68): no sample within the timeout of the source. -/
def execHoldoverTimeout (s : State) : Result :=
  if s.tSrc = 0 ∨ s.tState = tHOLDOVER ∨ s.mode = mOFF then .next s else .next s.enterHoldover

/-- TIME_PLL_LOCK (R63). -/
def execTimePllLock (s : State) : Result :=
  if s.mode = mOFF then .next s else .next (s.setFld R.TIME_STAT F.TIME_STAT_REF_OK 1)

/-- TIME_PLL_LOCK_LOST (R63). -/
def execTimePllLockLost (s : State) : Result := .next (s.setFld R.TIME_STAT F.TIME_STAT_REF_OK 0)

/-- TIME_DIST_BROADCAST (R74): a block that disagrees reloads, and the event is counted, signalled and logged. -/
def execTimeDistBroadcast (disagrees : Bool) (s : State) : Result :=
  if disagrees then .next (((s.cnt R.DIST_ERR).raise 0x10000 4).logErr 2 1 0 0x10 0) else .next s

/-- SLEW_END (R75): the remaining slew is zero and SLEWING clears. -/
def execSlewEnd (s : State) : Result :=
  if s.time.slew = 0 then .next (s.setFld R.TIME_STAT F.TIME_STAT_SLEWING 0) else .next s

/-- WATERMARK_REACHED (R77): domain time reaches the watermark, which is cleared. -/
def execWatermarkReached (s : State) : Result :=
  match s.time.w with
  | none => .next s
  | some w => if w ≤ s.time.d then .next (s.setTime { s.time with w := none }) else .next s

/-- Whether D reaches a whole second and `ns` in this tick. -/
def State.secondAnd (s : State) (ns : Nat) : Bool :=
  reachedIn s.time.d s.time.inc (s.dNs / 1000000000 * 1000000000 * nsU + ns * nsU)

/-- PPS_OUT_EDGE (R82): PPS_OUT rises at a whole second of D. -/
def execPpsOutEdge (s : State) : Result :=
  if s.flag R.TIME_IO F.TIME_IO_PPS_OUT_EN && s.secondAnd 0 && decide (s.mode ≠ mOFF)
  then .next (s.emit (.pps (s.fld R.TIME_IO F.TIME_IO_PPS_W))) else .next s

/-- The message TOD_OUT sends for the edge of second `secs`, with a UTC offset (R66, R82). -/
def State.todMessage (s : State) (secs utc : Nat) : List Byte :=
  let body := [(0x01 : Byte), BitVec.ofNat 8 (b2n (s.tState == tLOCKED))] ++ bytesBE 6 secs ++ bytesBE 2 utc ++ [0, 0]
  [(0x5A : Byte), 0xA5] ++ body ++ bytesBE 2 (crc16 body).toNat

/-- TOD_OUT_SEND (R82): the message for the second's edge, 100 ms after it. Its UTC offset is a free value, since the hardware does not
use TIME_UTC (R62). [DESIGN CHOICE, log 132] -/
def execTodOutSend (s : State) : Result :=
  if s.flag R.TIME_IO F.TIME_IO_TOD_OUT_EN && s.secondAnd 100000000 && decide (s.mode ≠ mOFF)
  then .next (s.fresh.2.emit (.tod (s.todMessage (s.dNs / 1000000000) s.fresh.1.toNat))) else .next s

/-! ### Triggers (R81) -/

/-- The time of a trigger in nanoseconds. -/
def State.trigNs (s : State) (t : Nat) : Nat := s.timeAt (R.TIME_TRIG_NS t)

/-- A trigger fires: its INT_RAW bit, its action, and its re-arming (R81); in DORMANT Geyser is not powered, and GPIO stays so (R83).
`batch` while skipped events are released: then it fires at most once (R78). -/
def State.trigFire (s : State) (t : Nat) (batch : Bool) : State :=
  let c := R.TIME_TRIG_CTL t
  let arg := s.fld c F.TIME_TRIG_CTL_ARG
  let s1 := s.raise 0x10000 (8 + t)
  let s2 := if s.fld c F.TIME_TRIG_CTL_ACT = 1 then s1.emit (.gpioPulse (arg % 32))
    else if s.fld c F.TIME_TRIG_CTL_ACT = 2 ∧ s.mode ≠ mDORMANT then s1.release arg 3 else s1
  let per := s.fld c F.TIME_TRIG_CTL_PERIOD_US * 1000
  if per = 0 then s2.setFld c F.TIME_TRIG_CTL_ARM 0
  else
    let nx := s.trigNs t + per
    if nx ≤ s.sNs then
      (s2.setFld c F.TIME_TRIG_CTL_LATE 1).setTimeAt (R.TIME_TRIG_NS t) (nx + ((s.sNs - nx) / per + b2n batch) * per)
    else s2.setTimeAt (R.TIME_TRIG_NS t) nx

/-- TIME_TRIGGER_FIRE (R81): S has reached the time of an armed trigger; it waits for the release of skipped events (R78). -/
def execTimeTriggerFire (t : Fin 8) (s : State) : Result :=
  if s.flag (R.TIME_TRIG_CTL t) F.TIME_TRIG_CTL_ARM && s.time.skipFrom.isNone && decide (s.trigNs t ≤ s.sNs) && decide (s.mode ≠ mOFF)
  then .next (s.trigFire t false) else .next s

/-- A write of TIME_TRIG_CTL: arming for a time already reached fires at once with LATE (R79, R81). The bus has stored the fields. -/
def State.trigArmed (s : State) (t : Nat) (was : Bool) : State :=
  if !was && s.flag (R.TIME_TRIG_CTL t) F.TIME_TRIG_CTL_ARM && decide (s.trigNs t ≤ s.sNs)
  then (s.setFld (R.TIME_TRIG_CTL t) F.TIME_TRIG_CTL_LATE 1).trigFire t false else s

end Sys2Proof.Machine
end

