-- ==== Sys2Proof/Machine/Egress.lean ====
section
/-! DEFINITION. Egress: gates (R372–R376), shapers (R367), eligibility (R377), transmit selection (R365), the rewrite helper (R24, R26,
R50, R51) and the end of a transmission (R370). -/

namespace Sys2Proof.Machine

/-- Data rate in Gb/s and T_out in ns of a port mode (R43, R366). -/
def modeRate (m : Nat) : Nat := [0, 10, 25, 25, 50, 100, 100, 100, 200, 200, 400].getD m 0
def modeTout (m : Nat) : Nat := [0, 60, 45, 130, 110, 78, 80, 72, 66, 62, 55].getD m 0
def State.pMode (s : State) (x : Nat) : Nat := s.fld (R.PORT_MODE x) F.PORT_MODE_MODE
def State.linkUp (s : State) (x : Nat) : Bool := s.flag (R.PORT_LINK x) F.PORT_LINK_UP

/-! ### Gates -/

/-- A gate control list as it operates: base and cycle in ns, entries (R372). -/
structure Gcl where
  base  : Nat
  cycle : Nat
  ents  : List (Nat × Nat)
  deriving DecidableEq, Repr

/-- Entries of a bank. -/
def State.gclBank (s : State) (x : Nat) (b : Bool) (n : Nat) : List (Nat × Nat) :=
  (List.range n).map fun k =>
    let v := (s.reg (if b then R.TM_GCL_B x k else R.TM_GCL_A x k)).toNat
    (bits v 31 24, bits v 23 0)

def State.gclOper (s : State) (x : Nat) : Gcl :=
  { base := s.timeAt (R.TM_GCL_OPER_BASE_NS x), cycle := s.fld (R.TM_GCL_OPER_CYCLE x) F.TM_GCL_OPER_CYCLE,
    ents := s.gclBank x (s.flag (R.TM_GCL_CTL x) F.TM_GCL_CTL_OPER_BANK) (s.fld (R.TM_GCL_OPER_LEN x) F.TM_GCL_OPER_LEN) }
def State.gclAdmin (s : State) (x : Nat) : Gcl :=
  { base := s.timeAt (R.TM_GCL_ADM_BASE_NS x), cycle := s.fld (R.TM_GCL_ADM_CYCLE x) F.TM_GCL_ADM_CYCLE,
    ents := s.gclBank x (!(s.flag (R.TM_GCL_CTL x) F.TM_GCL_CTL_OPER_BANK)) (s.fld (R.TM_GCL_CTL x) F.TM_GCL_CTL_ADMIN_LEN) }

/-- Within a cycle, the gates at an offset and the offset at which they may change next (R373). -/
def gclSeg (cycle off : Nat) : List (Nat × Nat) → Nat → Nat → Nat × Nat
  | [], _, g => (g, cycle)
  | (g, d) :: l, at_, _ => if off < at_ + d ∧ ¬ l.isEmpty then (g, min (at_ + d) cycle) else gclSeg cycle off l (at_ + d) g

/-- The gates at a time and the time of the next change that the list itself makes. -/
def Gcl.seg (g : Gcl) (t : Nat) : Nat × Nat :=
  if g.cycle = 0 ∨ g.ents.isEmpty then (255, t + 1000000000)
  else
    let off := (((t : Int) - g.base) % (g.cycle : Int)).toNat
    let cut := g.ents.foldl (fun n e => n + e.2) 0
    let (m, e) := gclSeg g.cycle off g.ents 0 255
    if off < cut ∨ g.cycle ≤ off then (m, t - off + e) else (m, t - off + g.cycle)

/-- The gates of a port at a time, and the time of the next change, every later entry, cycle and pending switch taken into account
(R375). -/
def State.gateSeg (s : State) (x t : Nat) : Nat × Nat :=
  let c := R.TM_GCL_CTL x
  if ¬ s.flag c F.TM_GCL_CTL_EN then (255, t + 1000000000)
  else
    let chg := s.timeAt (R.TM_GCL_CHG_NS x)
    if s.flag c F.TM_GCL_CTL_PEND ∧ chg ≤ t then (s.gclAdmin x).seg t
    else
      let (m, e) := if s.flag c F.TM_GCL_CTL_INSTALLED then (s.gclOper x).seg t else (255, t + 1000000000)
      if s.flag c F.TM_GCL_CTL_PEND then (m, min e chg) else (m, e)

def State.gateOpen (s : State) (x c t : Nat) : Bool := (s.gateSeg x t).1.testBit c

/-- Whether gate c stays open from `t` until `t + d`, `d` given as bits at a rate (R375). -/
def State.gateHolds (s : State) (x c p bits_ rate : Nat) : Nat → Nat → Bool
  | _, 0 => true
  | t, fuel + 1 =>
    let (m, e) := s.gateSeg x t
    if ¬ m.testBit c then decide (bits_ ≤ (t - p) * rate)
    else if bits_ ≤ (e - p) * rate then true
    else s.gateHolds x c p bits_ rate (max e (t + 1)) fuel

/-- On-wire bits that R375 tests for a frame of emitted length `len` if known. -/
def State.wireBits (s : State) (x : Nat) (len : Option Nat) : Nat :=
  let ov := s.fld (R.TM_PORT_CTL x) F.TM_PORT_CTL_OVHD
  match len, s.flag (R.TM_PORT_CTL x) F.TM_PORT_CTL_GUARD_FIX with
  | some l, false => (l + ov) * 8
  | _, _ => (s.fld (R.PORT_CTL x) F.PORT_CTL_MAXFRM + ov) * 8

/-- fits(c, t) of R375. -/
def State.gateFits (s : State) (x c : Nat) (len : Option Nat) : Bool :=
  if ¬ s.flag (R.TM_GCL_CTL x) F.TM_GCL_CTL_EN then true
  else
    let p := s.sNs + modeTout (s.pMode x)
    s.gateOpen x c p && s.gateHolds x c p (s.wireBits x len) (modeRate (s.pMode x)) p 16384

/-- Longest open run of gate c over the entries of a cycle laid twice, none if it never closes (R376). -/
def maxRun (c : Nat) (l : List (Nat × Nat)) : Option Nat :=
  if l.all fun e => e.1.testBit c || e.2 == 0 then none
  else some ((l ++ l).foldl (fun (acc : Nat × Nat) e => if e.1.testBit c then (acc.1 + e.2, max acc.2 (acc.1 + e.2)) else if e.2 = 0 then acc else (0, acc.2))
    (0, 0)).2

/-- The entries of a list as a cycle runs them: cut at its end, the last one held until it (R373). -/
def Gcl.cycleEnts (g : Gcl) : List (Nat × Nat) :=
  let cut := g.ents.foldl (fun (acc : Nat × List (Nat × Nat)) e => (acc.1 + e.2, acc.2 ++ [(e.1, min e.2 (g.cycle - acc.1))])) (0, [])
  match cut.2.getLast? with
  | some (m, d) => cut.2.dropLast ++ [(m, d + (g.cycle - cut.1))]
  | none => []

/-- MAXWIN_c of a port (R376). -/
def State.maxWin (s : State) (x c : Nat) : Option Nat :=
  if s.flag (R.TM_GCL_CTL x) F.TM_GCL_CTL_EN && s.flag (R.TM_GCL_CTL x) F.TM_GCL_CTL_INSTALLED then maxRun c (s.gclOper x).cycleEnts else none

/-- GATE_CHANGE (R373): the gates of the operative list at S take effect. -/
def execGateChange (port : PortN) (s : State) : Result :=
  if s.mainClk then .next (s.setFld (R.TM_PORT_STAT port) F.TM_PORT_STAT_OPEN (s.gateSeg port s.sNs).1) else .next s

/-! ### Shapers (R367, R368) -/

def State.slope (s : State) (x c : Nat) : Nat :=
  let r := modeRate (s.pMode x) * 1000000
  let v := (s.reg (R.TM_SHP_SLOPE x c)).toNat
  if r = 0 then v else min v r

def State.cred (s : State) (x c : Nat) : Int := smGet (fun _ => 0) s.creds (x * 8 + c)
def State.setCred (s : State) (x c : Nat) (v : Int) : State := { s with creds := smSet (fun _ => 0) s.creds (x * 8 + c) v }

/-- The limits of R367, in 10^-6 bits. -/
def State.clampCred (s : State) (x c : Nat) (v : Int) : Int :=
  max (min v (8000000 * (s.fld (R.TM_SHP_LIM x c) F.TM_SHP_LIM_HI : Nat))) (-(8000000 * (s.fld (R.TM_SHP_LIM x c) F.TM_SHP_LIM_LO : Nat)))

def State.paused (s : State) (x c : Nat) : Bool := (s.fld (R.TM_PORT_STAT x) F.TM_PORT_STAT_PAUSED).testBit c
def State.tx (s : State) (x : Nat) : Option Tx := smGet (fun _ => none) s.txs x
def State.setTx (s : State) (x : Nat) (t : Option Tx) : State := { s with txs := smSet (fun _ => none) s.txs x t }
def State.sendingCls (s : State) (x c : Nat) : Bool := match s.tx x with | some t => t.cls == c | none => false

/-- Whether a class has a credit shaper (R367). -/
def State.shaped (s : State) (x c : Nat) : Bool := decide (s.slope x c ≠ 0) && (c != s.expClass)

/-- The credit of a class over one tick of 2 ns (R367). -/
def State.tickCred (s : State) (x c : Nat) : State :=
  if ¬ s.shaped x c then s.setCred x c 0
  else
    let v := s.cred x c
    let v1 := if s.sendingCls x c then v + 2 * ((s.slope x c : Nat) - (modeRate (s.pMode x) * 1000000 : Nat) : Int)
      else if s.paused x c ∨ ¬ s.gateOpen x c s.sNs then v
      else if s.waiting x c ∨ v < 0 then v + 2 * (s.slope x c : Nat) else v
    let v2 := if ¬ s.waiting x c ∧ ¬ s.sendingCls x c ∧ 0 < v1 then 0 else v1
    s.setCred x c (s.clampCred x c v2)

/-- Classes whose slope register differs from its reset value, and classes with a credit. -/
def State.shapedList (s : State) : List (Nat × Nat) :=
  let l := s.regs.filterMap fun e =>
    if 0x910000 ≤ e.1 ∧ e.1 < 0x950000 ∧ 0x80 ≤ e.1 % 0x1000 ∧ e.1 % 0x1000 < 0x100 ∧ e.1 % 16 = 0
    then some ((e.1 - 0x910000) / 0x1000, (e.1 % 0x1000 - 0x80) / 16) else none
  l ++ (s.creds.map fun e => (e.1 / 8, e.1 % 8)).filter fun e => !(l.contains e)

/-- Frames in transmission have run 2 ns longer. -/
def State.runTxs (s : State) : State := { s with txs := s.txs.map fun e => (e.1, e.2.map fun t => { t with ran := t.ran + 2 }) }

/-- AON_WAKE_TMR counts down in whole seconds in SIMMER and DORMANT; WAKE_TIMER_EXPIRE is its last second (R504). -/
def State.tickWake (s : State) : State :=
  if (s.mode = mSIMMER ∨ s.mode = mDORMANT) ∧ s.clk % 500000000 = 0 ∧ 1 < (s.reg R.AON_WAKE_TMR).toNat
  then s.setReg R.AON_WAKE_TMR (s.reg R.AON_WAKE_TMR - 1) else s

/-- What a tick of the model moves: time, the wake timer, credits and the frames that are being sent. -/
def State.pace (s : State) : State :=
  let s1 := s.tick.tickWake
  if s1.mainClk then (s1.shapedList.foldl (fun s e => s.tickCred e.1 e.2) s1).runTxs else s1

/-- SHAPER_CREDIT_RECOVERY (R367): negative credit recovers to 0 within this tick. [DEDUCED, log 148] -/
def execShaperCreditRecovery (port : PortN) (cls : ClassN) (s : State) : Result :=
  let x := port.val
  let c := cls.val
  if s.cred x c < 0 ∧ 0 ≤ s.cred x c + 2 * (s.slope x c : Nat) ∧ s.shaped x c = true ∧ s.sendingCls x c = false ∧ s.paused x c = false ∧ s.gateOpen x c s.sNs = true
  then .next (s.setCred x c 0) else .next s

/-! ### Eligibility (R377) -/

/-- Whether the port and group entities of a port allow a start. -/
def State.allows (s : State) (x : Nat) : Bool :=
  s.entAllows x && (match s.groupOf x with | some g => s.entAllows g | none => true)

/-- Whether a class is open (R377). -/
def State.clsOpen (s : State) (x c : Nat) : Bool :=
  let exempt := c == s.expClass
  !(s.paused x c) && (exempt || !(s.shaped x c) || decide (0 ≤ s.cred x c)) && (exempt || s.allows x) &&
  s.gateOpen x c (s.sNs + s.fld R.TM_CTL F.TM_CTL_LEAD_NS)

/-- ELIGIBILITY_VECTOR_PUBLISH (R377). -/
def execEligibilityVectorPublish (port : PortN) (s : State) : Result :=
  let x := port.val
  if ¬ s.mainClk ∨ ¬ s.flag R.TM_CTL F.TM_CTL_RUN then .next s
  else
    let head (c : Nat) : Bool := (List.range 16).any fun i => (s.reqHead (voqKey i x c)).isSome
    let vec := (List.range 8).foldl (fun n c =>
      if s.clsOpen x c && !((List.range 8).any fun d => decide (s.rank c < s.rank d) && s.clsOpen x d && head d) then n + 2 ^ c else n) 0
    .next (s.setFld (R.TM_PORT_STAT x) F.TM_PORT_STAT_VEC vec)

/-! ### The rewrite helper (R24, R48, R50) -/

/-- EDIT fields of a context (R97). -/
def eStart (m : SMap Byte) : Int := sint 8 (ctxF m 6 63 56)
def eCutOff (m : SMap Byte) : Nat := ctxF m 6 55 48
def eCutLen (m : SMap Byte) : Nat := ctxF m 6 47 40
def ePtp (m : SMap Byte) : Nat := ctxF m 6 39 38
def eTag (m : SMap Byte) : Nat := ctxF m 6 37 22

/-- Whether the edit requests of a context exceed the limit of R24 or the 64 bytes of headroom. -/
def editBad (m : SMap Byte) : Bool :=
  let net := -(eStart m) - (eCutLen m : Nat)
  decide (net < -64) || decide (64 < net) || decide (eStart m < -64) ||
  (decide (eCutLen m ≠ 0) && (decide ((eCutOff m : Int) < eStart m) || decide (256 < eCutOff m + eCutLen m)))

/-- Bytes of a list replaced from an index on, in network order. -/
def putBE (l : List Byte) (i n v : Nat) : List Byte := l.take i ++ (bytesBE n v).take (l.length - i) ++ l.drop (i + n)

/-- A field of `n` bytes in network order. -/
def getBE (l : List Byte) (i n : Nat) : Nat := valBE ((l.drop i).take n)

/-- The index in the emitted frame of a byte of the window (R97). -/
def emitIdx (m : SMap Byte) (o : Nat) : Nat :=
  ((o : Int) - eStart m - (if eCutLen m ≠ 0 ∧ eCutOff m + eCutLen m ≤ o then eCutLen m else 0 : Nat)).toNat

/-- Whether a byte of the window is emitted. -/
def emitted (m : SMap Byte) (o : Nat) : Bool :=
  decide (eStart m ≤ o) && !(decide (eCutLen m ≠ 0) && decide (eCutOff m ≤ o) && decide (o < eCutOff m + eCutLen m))

/-- An IP layer of a context as emitted: whether IPv6, the indexes of its L3 and L4 headers, the L4 protocol if UDP or TCP. -/
structure Layer where
  v6 : Bool
  l3 : Nat
  l4 : Option Nat
  deriving DecidableEq, Repr

def outerLayer (m : SMap Byte) : Option Layer :=
  let pres := ctxF m 3 63 32
  let o := ctxF m 2 15 8
  if (pres.testBit 5 || pres.testBit 6) && emitted m o then
    some { v6 := pres.testBit 6, l3 := emitIdx m o, l4 := if pres.testBit 17 || pres.testBit 18 then some (emitIdx m (ctxF m 2 23 16)) else none }
  else none
def innerLayer (m : SMap Byte) : Option Layer :=
  let pres := ctxF m 3 63 32
  let o := ctxF m 2 47 40
  if (pres.testBit 29 || pres.testBit 30) && emitted m o then
    some { v6 := pres.testBit 30, l3 := emitIdx m o, l4 := if pres.testBit 31 then some (emitIdx m (ctxF m 2 55 48)) else none }
  else none

/-- The upper protocol of IPv6: the next header of the header that ends where L4 begins. -/
def v6Upper (l : List Byte) (l4 nh o : Nat) : Nat → Nat
  | 0 => nh
  | n + 1 => if l4 ≤ o then nh else v6Upper l l4 (getBE l o 1) (o + (if nh = 44 then 8 else (getBE l (o + 1) 1 + 1) * 8)) n

/-- The protocol of a layer in a frame, by its IP header and the extension headers before L4. -/
def layerProto (l : List Byte) (y : Layer) : Nat :=
  if y.v6 then v6Upper l (y.l4.getD 0) (getBE l (y.l3 + 6) 1) (y.l3 + 40) 5 else getBE l (y.l3 + 9) 1

/-- The IPv4 header checksum finalised (CSUM_L3). -/
def finL3 (l : List Byte) (y : Layer) : List Byte :=
  if y.v6 then l
  else
    let n := getBE l y.l3 1 % 16 * 4
    let l0 := putBE l (y.l3 + 10) 2 0
    putBE l0 (y.l3 + 10) 2 (65535 - fold16 (sum16 ((l0.drop y.l3).take n)))

/-- The UDP or TCP checksum finalised (CSUM_L4). -/
def finL4 (l : List Byte) (y : Layer) : List Byte :=
  match y.l4 with
  | none => l
  | some o =>
    let p := layerProto l y
    if p ≠ 17 ∧ p ≠ 6 then l
    else
      let c := o + (if p = 17 then 6 else 16)
      let n := if y.v6 then getBE l (y.l3 + 4) 2 + 40 - (o - y.l3) else getBE l (y.l3 + 2) 2 - (o - y.l3)
      let l0 := putBE l c 2 0
      let pseudo := (if y.v6 then (l0.drop (y.l3 + 8)).take 32 else (l0.drop (y.l3 + 12)).take 8) ++ bytesBE 4 n ++ bytesBE 4 p
      let v := 65535 - fold16 (sum16 pseudo + sum16 ((l0.drop o).take n))
      putBE l0 c 2 (if v = 0 ∧ p = 17 then 65535 else v)

/-- The length fields of a layer changed by the net change of the header (LEN_FIX). -/
def fixLen (l : List Byte) (y : Layer) (net : Int) : List Byte :=
  let add (l : List Byte) (i : Nat) : List Byte := putBE l i 2 (uint 16 ((getBE l i 2 : Nat) + net))
  let l1 := add l (if y.v6 then y.l3 + 4 else y.l3 + 2)
  match y.l4 with
  | some o => if layerProto l y = 17 then add l1 (o + 4) else l1
  | none => l1

/-- The frame a rewrite helper emits, without its FCS (R24): header edits, length and checksum finalisation, header joined to payload.
[DESIGN CHOICE, log 125] -/
def rewrite (m hdr : SMap Byte) (len : Nat) (data : List Byte) : List Byte :=
  let wl := min 256 len
  let st := eStart m
  let win := (List.range 320).filterMap fun (i : Nat) =>
    let o : Int := (i : Int) - 64
    if st ≤ o ∧ o < wl ∧ ¬ (eCutLen m ≠ 0 ∧ (eCutOff m : Int) ≤ o ∧ o < (eCutOff m : Int) + eCutLen m)
    then some (smGet byte0 hdr i) else none
  let all := win ++ (data.drop 256).take (len - wl)
  let l0 := all.take (all.length - 4)
  let net : Int := -st - (eCutLen m : Nat)
  let e := ctxWord m 6
  let oL := outerLayer m
  let iL := innerLayer m
  let out := match oL with | some y => some y | none => iL
  let l1 := match out with
    | some y => if e.testBit 17 then fixLen l0 y net else l0
    | none => l0
  let l2 := match out with
    | some y => let a := if e.testBit 21 then finL3 l1 y else l1
                if e.testBit 20 ∧ ¬ (e.testBit 18 ∧ iL.isSome) then finL4 a y else a
    | none => l1
  match iL with
  | some y =>
    let a := if e.testBit 19 then finL3 l2 y else l2
    let b := if e.testBit 18 then finL4 a y else a
    match oL with
    | some z => if e.testBit 20 ∧ e.testBit 18 then finL4 b z else b
    | none => b
  | none => l2

/-- PTP edits of the MAC (R50): a Sync's originTimestamp, or the residence time added to correctionField; then the UDP checksum. -/
def ptpEdit (m : SMap Byte) (stamp : Nat) (l : List Byte) : List Byte :=
  let pres := ctxF m 3 63 32
  if ¬ pres.testBit 14 ∨ ¬ (ePtp m = 1 ∨ ePtp m = 2) then l
  else
    let udp := pres.testBit 17
    let o := emitIdx m (if udp then ctxF m 2 23 16 + 8 else ctxF m 2 15 8)
    let ns := stamp / nsU
    let l1 := if ePtp m = 1 then putBE (putBE l (o + 34) 6 (ns / 1000000000)) (o + 40) 4 (ns % 1000000000)
      else
        let r := ctxWord m 1
        let rx16 := (bits r 63 48 * 1000000000 + bits r 47 16) * 65536 + bits r 15 0
        let tx16 := stamp / 2 ^ 32
        let span := 65536 * 1000000000 * 65536
        let res := (tx16 % span + span - rx16 % span) % span
        putBE l (o + 8) 8 ((getBE l (o + 8) 8 + res) % 2 ^ 64)
    match outerLayer m with
    | some y => if udp then finL4 l1 y else l1
    | none => l1

/-- The FCS of a frame, as sent (R48). -/
def fcs (l : List Byte) : List Byte := bytesLE 4 (crc polyCrc32 0xFFFFFFFF l ^^^ 0xFFFFFFFF).toNat
def fcsInv (l : List Byte) : List Byte := (fcs l).map fun b => ~~~b

/-! ### Transmit selection (R365, R376) -/

/-- The length a frame is tested with, if known: its emitted length. -/
def State.knownLen (s : State) (k : Nat) : Option Nat :=
  let q := s.pkt k
  let n := if q.bad then (if cLenKnown q.ctx then some (cFrmLen q.ctx) else none) else some q.len
  n.map fun l => ((l : Int) - eStart q.ctx - (eCutLen q.ctx : Nat)).toNat

/-- Whether a head can never fit its gate (R376). -/
def State.tooBig (s : State) (x c k : Nat) : Bool :=
  match s.maxWin x c with
  | none => false
  | some w => decide (w * modeRate (s.pMode x) < s.wireBits x (s.knownLen k))

/-- Whether the frame as emitted is longer than the largest the port sends (R48). [DESIGN CHOICE, log 130] -/
def State.overMax (s : State) (x k : Nat) : Bool :=
  let q := s.pkt k
  decide ((s.fld (R.PORT_CTL x) F.PORT_CTL_MAXFRM : Int) < (q.len : Int) - eStart q.ctx - (eCutLen q.ctx : Nat))

/-- Heads of a class queue that are dropped there: marked for discard, with a late FCS failure, longer than the port sends, or too big for
their gate (R25, R48, R129, R376). [DESIGN CHOICE, log 130] -/
def State.trimQueue (s : State) (x c : Nat) : Nat → State
  | 0 => s
  | fuel + 1 =>
    match s.txqL x c with
    | [] => s
    | k :: l =>
      let q := s.pkt k
      let gone (s : State) : State := (s.setTxq x c l).giveUp k
      if q.discard then (gone s).trimQueue x c fuel
      else if q.late then (if x < 64 then (gone s).cnt (R.TX_FCS_DROP x) else gone s).trimQueue x c fuel
      else if x < 64 ∧ s.overMax x k then (gone s).trimQueue x c fuel
      else if x < 64 ∧ s.tooBig x c k then (((gone s).cnt (R.TM_TOO_BIG x)).raise (0x910000 + x * 0x1000) 1).trimQueue x c fuel
      else s

def State.trimPort (s : State) (x : Nat) : State := (List.range 8).foldl (fun s c => s.trimQueue x c (s.txqL x c).length) s

/-- Whether a class's head passes the conditions of R365 before the gate test. -/
def State.startableNoGate (s : State) (x c : Nat) : Bool :=
  let exempt := c == s.expClass
  !(s.txqL x c).isEmpty && !(s.paused x c) && (exempt || !(s.shaped x c) || decide (0 ≤ s.cred x c)) && (exempt || s.allows x)

/-- Classes of a port in rank order (R365). -/
def State.ranked (s : State) : List Nat := s.expClass :: ([7, 6, 5, 4, 3, 2, 1, 0].filter (· ≠ s.expClass))

/-- A signed board correction in 2^-48 ns: units of 1/16 ns (R61). -/
def adj16 (v : Nat) : Int := sint 16 v * 2 ^ 44

/-- The recirculation header of a packet (R96). -/
def rcyHeader (m : SMap Byte) : List Byte :=
  [(0x01 : Byte), BitVec.ofNat 8 ((cPass m + 1) % 4 + cView m * 4 + cClass m * 8), BitVec.ofNat 8 (cInPort m), BitVec.ofNat 8 (cInst m)] ++
  bytesLE 8 (ctxWord m 1) ++ bytesLE 4 (cUser m)

/-- A frame that an egress program marks for recirculation leaves its rewrite helper for input 17 (R12, R26). [DEDUCED, log 74] -/
def State.recirculate (s : State) (x k : Nat) : State :=
  let q := s.pkt k
  if cPass q.ctx = 3 then (s.endPkt k).cnt (R.PARSE_RCY_LIM (x / 4))
  else
    let body := rewrite q.ctx q.hdr q.len q.data
    let bytes := body ++ fcs body
    let c := cClass q.ctx
    let s1 := (s.releaseBufs k).setPkt k { s.pkt k with
      data := bytes, len := bytes.length, hdr := [], ptr := noBuf, store := none, ctx := setCtxWord q.ctx 6 0, crossed := false, cells := 0,
      loc := .voq 17, dest := rcyPort (cRecircPipe q.ctx), cls := c }
    s1.setVoq (rcyKey c) (s1.voq (rcyKey c) ++ [{ pkt := k }])

/-- The pipeline whose PARSE page counts a drop at a rewrite helper (R27). -/
def rwPipe (x : Nat) : Nat := if x < 64 then x / 4 else if x = 70 then 8 else 0

/-- The stamp FIFO of a port takes a stamp (R51). -/
def State.stampPush (s : State) (x tag stamp : Nat) : State :=
  let l := smGet (fun _ => []) s.stamps x
  if 32 ≤ l.length then (s.cnt (R.TS_OVF x)).raise (0x80000 + x * 0x1000) 2
  else { s with stamps := smSet (fun _ => []) s.stamps x (l ++ [(tag, stamp / 2 ^ 32)]) }

/-- A selected head goes to the rewrite helper (R24, R26, R51, R365). -/
def State.startTx (s : State) (x c k : Nat) : State :=
  let q := s.pkt k
  let s1 := s.setTxq x c ((s.txqL x c).drop 1)
  let s2 := if x < 64 then s1.cnt64 (R.TM_TX_SEL x) 1 else s1
  if editBad q.ctx then (s2.giveUp k).cnt (R.PARSE_RW_DROP (rwPipe x))
  else if x < 64 ∧ cRecirc q.ctx = true then (if q.crossed then s2.recirculate x k else s)
  else
    let st : Int := s.time.d + (if x < 64 then adj16 (s.fld (R.PORT_TS_ADJ x) F.PORT_TS_ADJ_TX_ADJ) else 0)
    let s3 := s2.setTx x (some { pkt := k, cls := c, stamp := st.toNat })
    if x < 64 ∧ ePtp q.ctx = 3 then s3.stampPush x (eTag q.ctx) st.toNat else s3

/-- TX_SELECT (R365). -/
def execTxSelect (out : AnyPort) (s : State) : Result :=
  let x := out.val
  if ¬ s.mainClk ∨ (s.tx x).isSome then .next s
  else if 64 ≤ x then
    let s1 := s.trimPort x
    match s1.ranked.find? fun c => !(s1.txqL x c).isEmpty with
    | none => .next s1
    | some c => match s1.txqL x c with
      | k :: _ => .next (s1.startTx x c k)
      | [] => .next s1
  else if ¬ s.flag R.TM_CTL F.TM_CTL_RUN ∨ ¬ s.linkUp x ∨ ¬ s.pipeOn (x / 4) then .next s
  else
    let s1 := s.trimPort x
    let ok := s1.ranked.filter fun c => s1.startableNoGate x c
    let fits (c : Nat) : Bool := match s1.txqL x c with
      | k :: _ => s1.gateFits x c (s1.knownLen k)
      | [] => false
    let s2 := if ok.any fun c => !(fits c) then s1.cnt (R.TM_GUARD_HOLD x) else s1
    match ok.find? fits with
    | none => .next s2
    | some c => match s2.txqL x c with
      | k :: _ => .next (s2.startTx x c k)
      | [] => .next s2

/-! ### The end of a transmission -/

/-- The end of a frame advances the virtual time of an entity (R370). -/
def State.entCharge (s : State) (e lw : Nat) : State :=
  let r := s.entRate e
  if r = 0 then s
  else
    let v := s.vt e + lw * 8 * 1000000 * 65536 / r
    (s.setVt e v).whlInsert e v

/-- The egress-side copies of a frame as emitted (R349–R351). -/
def State.mirrorEgress (s : State) (x k : Nat) (frame : List Byte) : State :=
  (List.range 16).foldl (fun s ses =>
    let q := s.pkt k
    let on := s.flag (R.XB_MIR_CFG ses) F.XB_MIR_CFG_EN && s.flag (R.XB_MIR_SRC ses) F.XB_MIR_SRC_EGR &&
      (s.fld (R.XB_MIR_SRC ses) F.XB_MIR_SRC_PORT == x) && !(q.mirs.testBit ses)
    if ¬ on then s
    else
      let n := s.mirLen ses frame.length
      if ¬ s.mirRoom ses n then s.mirDrop ses
      else match s.storeFrame (poolFor (n + 4)) 768 (0xA00 + x) 10240 false (frame.take n ++ [0, 0, 0, 0]) with
        | (.stored p, s1) =>
          let (c, s2) := s1.newPkt { q with
            ctx := s.mirCtx q.ctx ses n, ptr := p, skip := 0, owner := 0xA00 + x, acct := 768, store := none, len := n + 4, hdr := [], data := [],
            cells := 0, crossed := false, mirs := q.mirs ||| 2 ^ ses, copyOf := some ses, loc := .voq 16, fast := false, late := false,
            arrS := s.time.sched, dest := s.fld (R.XB_MIR_CFG ses) F.XB_MIR_CFG_DEST_PORT, cls := s.fld (R.XB_MIR_CFG ses) F.XB_MIR_CFG_CLASS }
          let s3 := match q.view with
            | some v => s2.viewAdd v
            | none => s2
          s3.setVoq (mirKey 16 ses) (s3.voq (mirKey 16 ses) ++ [{ pkt := c }])
        | (_, s1) => s1.mirDrop ses) s

/-- A frame for a host port is staged (R312, R316, R454): its bytes without FCS lie in near buffers; none while it is not admitted.
[DEDUCED, log 73] -/
def State.stage (s : State) (x k : Nat) : Option State :=
  let q := s.pkt k
  let body := rewrite q.ctx q.hdr q.len q.data
  match s.storeFrame (poolFor body.length) (769 + (x - 64)) (0xA00 + x) 10240 true body with
  | (.stored p, s1) =>
    some (s1.setPkt k { q with ptr := p, skip := 0, owner := 0xA00 + x, acct := 769 + (x - 64), store := none, len := body.length, data := [],
                               hdr := [], cells := 0, arrS := s.time.sched, loc := .out (x + 64) })
  | _ => none

/-- Number of a host's frames staged, in order (R454). [DEDUCED, log 73] -/
def State.staged (s : State) (h : Nat) : List Nat := smGet (fun _ => []) s.srcQ (4096 + h)
def State.setStaged (s : State) (h : Nat) (l : List Nat) : State := { s with srcQ := smSet (fun _ => []) s.srcQ (4096 + h) l }

/-- The account a recirculated frame is charged to (R312). -/
def rcyAcct (port cls inst : Nat) : Nat := if port < 64 then port * 8 + cls else if port < 68 then 512 + inst else 768

/-- A frame leaves the rewrite helper of port 69 or 70 for the parser of its target, as from the port that serves it (R26, R96, R312,
R335, R544). [DEDUCED, log 74; DESIGN CHOICE, log 127] -/
def State.toRecirc (s : State) (x k : Nat) : State :=
  let q := s.pkt k
  let p := cRecircPipe q.ctx
  let body := rewrite q.ctx q.hdr q.len q.data
  let bytes := rcyHeader q.ctx ++ body ++ fcs body
  if s.fenced p then (s.endPkt k).cnt R.DEV_FENCE_DROP
  else match s.storeFrame (poolFor bytes.length) (rcyAcct (cInPort q.ctx) (cClass q.ctx) (cInst q.ctx)) (0xA00 + x) 10240 true bytes with
    | (.stored ptr, s1) =>
      let q1 : Pkt := { len := body.length + 4, skip := 16, ptr := ptr, owner := 0xA00 + x,
                        acct := rcyAcct (cInPort q.ctx) (cClass q.ctx) (cInst q.ctx), inPort := rcyPort p, inst := cInst q.ctx, rx := q.rx, view := q.view,
                        mirs := q.mirs, fwd := 0, loc := .src, arrS := s.time.sched }
      let s2 := (s1.setPkt k { s1.pkt k with view := none }).endPkt k
      s2.toParser p q1
    | (.refused, s1) => (s1.endPkt k).cnt R.XB_RCY_DROP
    | (.noRoom, s1) => s1.endPkt k
    | (.cut ptr, s1) => (s1.freeChain ptr (0xA00 + x)).endPkt k

/-! ### The wheel (R371) -/

/-- Entities whose slot has come by slot `now` are released, and overflow entries that have come within the span move to their slots. -/
def State.wheelRun (s : State) (now : Nat) : State :=
  let s1 := { s with wheel := s.wheel.filter (fun e => decide (now < e.2)), slotNow := now }
  if s.slotNow / 4096 = now / 4096 then s1
  else
    let near := s1.ovf.filter fun e => decide (slotOf e.2 - now / 4096 * 4096 < 4096)
    { s1 with ovf := s1.ovf.filter (fun e => decide (4096 ≤ slotOf e.2 - now / 4096 * 4096))
              wheel := near.foldl (fun m e => if slotOf e.2 ≤ now then m else smPut m e.1 (slotOf e.2)) s1.wheel }

/-- WHEEL_SLOT_RELEASE (R371): every slot boundary up to S has passed; those after a step wait for the skipped ones (R78). -/
def execWheelSlotRelease (s : State) : Result :=
  if s.mainClk && s.time.skipFrom.isNone then .next (s.wheelRun (s.s16 / (64 * 65536))) else .next s

/-! ### The egress meter point, and gate list switches (R374, R379) -/

/-- A packet leaves E3: the egress meter point, then its class queue (R364, R379, R381). -/
def State.toTx (s : State) (k : Nat) : State :=
  let q := s.pkt k
  let x := q.dest
  if q.discard then s.setTxq x q.cls (s.txqL x q.cls ++ [k])
  else match s.meterPoint (x / 4) k true with
    | (true, s1) => s1.endPkt k
    | (false, s1) => State.wakes s (s1.setTxq x q.cls (s1.txqL x q.cls ++ [k])) x

/-- TM_GCL_CTL.PEND (R374, R389): the change time is fixed. -/
def State.gclRequest (s : State) (x : Nat) : State :=
  let b := s.timeAt (R.TM_GCL_ADM_BASE_NS x)
  let c := s.fld (R.TM_GCL_ADM_CYCLE x) F.TM_GCL_ADM_CYCLE
  let now := ceilDiv s.time.sched nsU
  let t := if now ≤ b ∨ s.time.reaches (b * nsU) then b else b + ceilDiv (now - b) c * c
  (s.setFld (R.TM_GCL_CTL x) F.TM_GCL_CTL_PEND 1).setTimeAt (R.TM_GCL_CHG_NS x) t

/-- The switch (R374, R376). -/
def State.gclSwitch (s : State) (x : Nat) : State :=
  let c := R.TM_GCL_CTL x
  let g := s.gclAdmin x
  let s1 := (s.setTimeAt (R.TM_GCL_OPER_BASE_NS x) g.base).setReg (R.TM_GCL_OPER_CYCLE x) (BitVec.ofNat 32 g.cycle)
  let s2 := s1.setReg (R.TM_GCL_OPER_LEN x) (BitVec.ofNat 32 (s.fld c F.TM_GCL_CTL_ADMIN_LEN))
  let s3 := ((s2.setFld c F.TM_GCL_CTL_OPER_BANK (1 - s.fld c F.TM_GCL_CTL_OPER_BANK)).setFld c F.TM_GCL_CTL_INSTALLED 1).setFld c F.TM_GCL_CTL_PEND 0
  (((s3.cnt (R.TM_CFG_CHG x)).raise (0x910000 + x * 0x1000) 0).setFld (R.TM_PORT_STAT x) F.TM_PORT_STAT_OPEN (s3.gateSeg x s.sNs).1).trimPort x

/-- GCL_SWITCH (R374): S has reached the change time. -/
def execGclSwitch (port : PortN) (s : State) : Result :=
  if s.mainClk ∧ s.flag (R.TM_GCL_CTL port) F.TM_GCL_CTL_PEND = true ∧ s.timeAt (R.TM_GCL_CHG_NS port) ≤ s.sNs
  then .next (s.gclSwitch port) else .next s

/-! ### Sends and discards (R123) -/

/-- SEND_COMMIT (R123). -/
def execSendCommit (eng : EngN) (s : State) : Result :=
  match s.sendReady eng with
  | some (k, a) => if s.pipeOn (eng / 16) && s.hasRoom eng then .next ((s.commitSend eng k a State.toTx).holdFrom s (eng / 16)) else .next s
  | none => .next s

/-- DISCARD_COMMIT (R123). -/
def execDiscardCommit (eng : EngN) (s : State) : Result :=
  match s.discardReady eng with
  | some k => if s.pipeOn (eng / 16) && s.hasRoom eng then .next ((s.commitDiscard eng k State.toTx).holdFrom s (eng / 16)) else .next s
  | none => .next s

end Sys2Proof.Machine
end

