-- ==== Sys2Proof/Machine/Ports.lean ====
section
/-! DEFINITION. Front ports (R41–R60): reception at the MAC, flow control, link state, and the keep-alive side of Fumarole that takes
frames of designated ports (R504–R506). -/

namespace Sys2Proof.Machine

/-! ### Keep-alive frames (R504–R506) -/

/-- Whether wake sources count: a sleep is ordered or holds (R499, R504). -/
def State.wakeable (s : State) : Bool :=
  decide (s.mode = mSIMMER) || decide (s.mode = mDORMANT) || s.going == some mSIMMER || s.going == some mDORMANT

/-- A wake source fires (R504). [DEDUCED, log 111] -/
def State.wakeFire (s : State) (b : Nat) : State :=
  if s.wakeable ∧ (s.fld R.AON_WAKE F.AON_WAKE_EN).testBit b then
    { s.setReg R.AON_WAKE_STAT (s.reg R.AON_WAKE_STAT ||| BitVec.ofNat 32 (2 ^ b)) with wakePend := s.wakePend ||| 2 ^ b }
  else s

/-- Bytes in the hold buffer. -/
def State.holdBytes (s : State) : Nat := s.hold.foldl (fun n h => n + h.bytes.length) 0

/-- The service that consumes a frame on a keep-alive port, if enabled (R505): LACP, LLDP, PTP requests, ARP requests and neighbour
solicitations, BFD control packets. [DESIGN CHOICE, log 14] -/
def kaService (b : List Byte) : Option Nat :=
  let at_ (i n : Nat) : Nat := valBE ((b.drop i).take n)
  let et := at_ 12 2
  let udp (v6 : Bool) : Option Nat :=
    let o := if v6 then 54 else 14 + at_ 14 1 % 16 * 4
    if (if v6 then at_ 20 1 else at_ 23 1) ≠ 17 then none
    else if at_ (o + 2) 2 = 319 ∧ (at_ (o + 8) 1 % 16 = 1 ∨ at_ (o + 8) 1 % 16 = 2) then some 2
    else if at_ (o + 2) 2 = 3784 ∨ at_ (o + 2) 2 = 4784 then some 4
    else none
  if et = 0x8809 ∧ at_ 14 1 = 1 then some 0
  else if et = 0x88CC then some 1
  else if et = 0x88F7 ∧ (at_ 14 1 % 16 = 1 ∨ at_ 14 1 % 16 = 2) then some 2
  else if et = 0x0806 ∧ at_ 20 2 = 1 then some 3
  else if et = 0x86DD ∧ at_ 20 1 = 58 ∧ at_ 54 1 = 135 then some 3
  else if et = 0x0800 then udp false
  else if et = 0x86DD then udp true
  else none

/-- Whether a frame is the wake frame (R504). -/
def State.isWakeFrame (s : State) (b : List Byte) : Bool :=
  (valBE (b.take 6) == (s.reg R.AON_WAKE_DA_LO).toNat + s.fld R.AON_WAKE_DA_HI F.AON_WAKE_DA_HI_DA * 2 ^ 32) &&
  (valBE ((b.drop 12).take 2) == s.fld R.AON_WAKE_DA_HI F.AON_WAKE_DA_HI_ETYPE)

/-- A frame on a keep-alive port (R504–R506): consumed by a service that knows it, a wake frame, held, or dropped.
[DESIGN CHOICE, log 14] -/
def State.kaFrame (s : State) (slot x : Nat) (b : List Byte) : State :=
  let ans := match kaService b with
    | some svc => if (s.fld R.AON_KA_SVC F.AON_KA_SVC).testBit svc then Config.kaAnswer svc b else none
    | none => none
  match ans with
  | some l =>
    let s1 := s.cnt R.AON_SVC_RX
    if l.isEmpty then s1 else s1.emit (.keepAlive slot l)
  | none =>
    if s.isWakeFrame b ∧ (s.fld R.AON_WAKE F.AON_WAKE_EN).testBit 2 then s.wakeFire 2
    else
      let m := s.fld R.AON_HOLD F.AON_HOLD_MODE
      let uni := !((b.headD 0).getLsbD 0)
      if m = 1 ∨ (m = 2 ∧ uni = true) then
        if s.holdBytes + b.length ≤ 1048576 then
          let s1 := { s with hold := s.hold ++ [{ port := x, stamp := s.time.d, at_ := s.clk, bytes := b }] }
          let wm := s.fld R.AON_HOLD F.AON_HOLD_WM_KB
          if wm ≠ 0 ∧ wm * 1024 ≤ s1.holdBytes then s1.wakeFire 4 else s1
        else (s.cnt R.AON_HOLD_DROP).raise 0xF80000 0
      else s

/-! ### Reception at a MAC (R13, R25, R48, R52, R310) -/

/-- The length estimate of R310 from the first 64 bytes, clamped; none is unknown. [DESIGN CHOICE, log 68] -/
def State.estimate (s : State) (x : Nat) (b : List Byte) : Option Nat :=
  let w : Win := { bs := b.take 64, lim := 64, dend := 2 ^ 20 }
  let rec tags (o : Nat) : Nat → Nat
    | 0 => o
    | n + 1 => if (s.walkCfg (x / 4)).isTag (w.u16 o) then tags (o + 4) n else o
  let o := tags 12 3
  let l3 := o + 2
  let e := if w.u16 o = 0x0800 ∧ l3 + 4 ≤ min 64 b.length then some (l3 + w.u16 (l3 + 2) + 4)
    else if w.u16 o = 0x86DD ∧ l3 + 6 ≤ min 64 b.length then some (l3 + 40 + w.u16 (l3 + 4) + 4)
    else none
  e.map fun n => max 64 (min (s.fld (R.PORT_CTL x) F.PORT_CTL_MAXFRM) n)

/-- The pool of a frame whose length is unknown (R310): SINT_UNK of the port. -/
def State.unkPool (s : State) (x : Nat) : Nat := bits (s.reg (R.SINT_UNK (x / 16))).toNat (2 * (x % 16) + 1) (2 * (x % 16))

/-- The class a MAC charges a frame to (R312): that of R99, from the first 64 bytes. -/
def State.macClass (s : State) (x : Nat) (b : List Byte) : Nat :=
  let w : Win := { bs := b.take 64, lim := min 64 (b.length - 4), dend := b.length - 4 }
  s.classOf (x / 4) (srcIdx x) (headerWalk (s.walkCfg (x / 4)) w)

/-- Pauses the classes of a mask for some quanta; zero quanta end the pause (R53). -/
def State.pauseClass (s : State) (x c q : Nat) : State :=
  let r := R.TM_PORT_STAT x
  let m := s.fld r F.TM_PORT_STAT_PAUSED
  let m1 := if q = 0 then (if m.testBit c then m - 2 ^ c else m) else m ||| 2 ^ c
  { s.setFld r F.TM_PORT_STAT_PAUSED m1 with quanta := smSet (fun _ => 0) s.quanta (x * 8 + c) q }

/-- A MAC control frame is consumed and acted on (R52, R53). [DESIGN CHOICE, log 142] -/
def State.macControl (s : State) (x : Nat) (b : List Byte) (good : Bool) : State :=
  let s1 := s.cnt (R.RX_CTRL x)
  let at_ (i : Nat) : Nat := valBE ((b.drop i).take 2)
  let mode := s.fld (R.PORT_FC x) F.PORT_FC_MODE
  if ¬ good then s1
  else if mode = 1 ∧ at_ 14 = 1 then (List.range 8).foldl (fun s c => s.pauseClass x c (at_ 16)) s1
  else if mode = 2 ∧ at_ 14 = 0x0101 then
    (List.range 8).foldl (fun s c =>
      if (at_ 16).testBit c ∧ (s.fld (R.PORT_FC x) F.PORT_FC_PFC_EN).testBit c then s.pauseClass x c (at_ (18 + 2 * c)) else s) s1
  else s1

/-- Whether a port takes part in MAINTAIN's drain (R495). -/
def State.maintPort (s : State) (x : Nat) : Bool :=
  (decide (s.mode = mMAINTAIN) || s.going == some mMAINTAIN) &&
  (if x < 32 then (s.reg R.DEV_MAINT_PORTS_LO).toNat.testBit x else (s.reg R.DEV_MAINT_PORTS_HI).toNat.testBit (x - 32))

/-- Whether a sleep has stopped ingress (R500). -/
def State.sleeping (s : State) : Bool := decide (s.mode = mSIMMER) || s.going == some mSIMMER || s.going == some mDORMANT

/-- Whether a front port is designated for keep-alive (R59). -/
def State.kaPort (s : State) (x : Nat) : Bool := s.flag (R.PORT_KA x) F.PORT_KA_KA_EN

/-- Whether the MAC of a port can send. -/
def State.macSends (s : State) (x : Nat) : Bool := s.pipeOn (x / 4) && s.linkUp x && s.flag (R.PORT_CTL x) F.PORT_CTL_EN

/-- A frame at the MAC of a front port, FCS included.
[DESIGN CHOICE, log 68; DEDUCED, log 69; DESIGN CHOICE, log 141; DESIGN CHOICE, log 144] -/
def State.macFrame (s : State) (x : Nat) (b : List Byte) : State :=
  let p := x / 4
  if b.isEmpty ∨ ¬ s.flag (R.PORT_CTL x) F.PORT_CTL_EN ∨ ¬ s.linkUp x ∨ ¬ s.pipeOn p then s
  else if s.sleeping then
    if s.kaPort x then s.kaFrame (s.fld (R.PORT_KA x) F.PORT_KA_KA_SLOT) x b else s.cnt R.DEV_SLEEP_DROP
  else if s.maintPort x then s.cnt R.DEV_MAINT_DROP
  else if s.debugHold p then s.cnt (R.DBG_DROP p)
  else
    let n := b.length
    let maxf := s.fld (R.PORT_CTL x) F.PORT_CTL_MAXFRM
    let good := decide (4 ≤ n) && (fcs (b.take (n - 4)) == b.drop (n - 4))
    let s1 := (s.cnt64 (R.RX_FRM x) 1).cnt64 (R.RX_BYTE x) n
    let s2 := if good then s1 else s1.cnt (R.RX_FCS x)
    let s3 := if maxf < n then s2.cnt (R.RX_OVERSIZE x) else if n < 64 then s2.cnt (R.RX_RUNT x) else s2
    let bad := !good || decide (maxf < n) || decide (n < 64)
    if valBE ((b.drop 12).take 2) = 0x8808 then s3.macControl x b (!bad)
    else
      let kept := b.take maxf
      let cls := s.macClass x kept
      let acct := x * 8 + cls
      let owner := 0xA00 + x
      let pool := match s.estimate x kept with
        | some e => poolFor e
        | none => s.unkPool x
      let rx : Int := s.time.d + adj16 (s.fld (R.PORT_TS_ADJ x) F.PORT_TS_ADJ_RX_ADJ)
      let q (ptr : Nat) (cut : Bool) : Pkt :=
        { len := kept.length, ptr := ptr, owner := owner, acct := acct, inPort := x, rx := rx.toNat,
          fast := s.pMode x == 10, bad := bad || cut }
      match s3.storeFrame pool acct owner maxf true kept with
      | (.stored ptr, s4) => s4.toParser p (q ptr false)
      | (.cut ptr, s4) => s4.toParser p { q ptr true with len := poolSize (ptrPool ptr) }
      | (.noRoom, s4) | (.refused, s4) => s4

/-! ### The end of a transmission (R370) -/

/-- A frame the MAC sends leaves the port or, in near-end loopback, comes back to its own receiver; in far-end loopback the port sends what
it receives. [PRESUMED, log 131] -/
def State.sendFrame (s : State) (x : Nat) (frame : List Byte) : State :=
  match s.fld (R.PORT_CTL x) F.PORT_CTL_LPBK with
  | 1 => s.macFrame x frame
  | 2 => s
  | _ => s.emit (.frame x frame)

/-- The send slope of a frame of `lw` on-wire bytes, as far as the ticks have not applied it (R367). -/
def State.sendSlope (s : State) (x : Nat) (t : Tx) (lw : Nat) : State :=
  let r := modeRate (s.pMode x)
  if s.shaped x t.cls ∧ r ≠ 0 then
    let v := s.cred x t.cls + ((s.slope x t.cls : Nat) - (r * 1000000 : Nat) : Int) * ((lw * 8 - t.ran * r : Nat) : Int) / (r : Int)
    s.setCred x t.cls (s.clampCred x t.cls v)
  else s

/-- FRAME_TX_END (R370): the last byte has left a MAC or a rewrite helper. -/
def execFrameTxEnd (out : AnyPort) (s : State) : Result :=
  let x := out.val
  match s.tx x with
  | none => .next s
  | some t =>
    let k := t.pkt
    let q := s.pkt k
    if ¬ s.mainClk ∨ ¬ q.crossed ∨ q.bad then .next s
    else
      let s0 := s.setTx x none
      if x < 64 then
        let body := ptpEdit q.ctx t.stamp (rewrite q.ctx q.hdr q.len q.data)
        let frame := body ++ (if t.stomp then fcsInv body else fcs body)
        let lw := frame.length + s.fld (R.TM_PORT_CTL x) F.TM_PORT_CTL_OVHD
        let s1 := (s0.sendSlope x t lw).mirrorEgress x k body
        let s2 := match s1.groupOf x with
          | some g => (s1.entCharge x lw).entCharge g lw
          | none => s1.entCharge x lw
        let s3 := ((s2.endPkt k).cnt64 (R.TX_FRM x) 1).cnt64 (R.TX_BYTE x) frame.length
        .next ((if t.stomp then s3.cnt (R.TX_STOMP x) else s3).sendFrame x frame)
      else if x < 68 then
        match s0.stage x k with
        | some s1 => .next ((s1.setStaged (x - 64) (s1.staged (x - 64) ++ [k])).mirrorEgress x k (rewrite q.ctx q.hdr q.len q.data))
        | none => .next s
      else if x = 69 ∨ x = 70 then .next (s0.toRecirc x k)
      else
        let body := rewrite q.ctx q.hdr q.len q.data
        let learns := x = 68 ∧ s0.flag R.LRN_CFG F.LRN_CFG_RX_EN = true ∧ valBE ((body.drop 12).take 2) = 0x88B5
        .next ((if learns then { s0 with lrnIn := s0.lrnIn ++ [body] } else s0.emit (.toCore x body)).endPkt k)

/-- A frame that arrives on the lanes of a port: in far-end loopback it is sent back, and in near-end loopback it is not heard.
[PRESUMED, log 131] -/
def State.lanesFrame (s : State) (x : Nat) (b : List Byte) : State :=
  match s.fld (R.PORT_CTL x) F.PORT_CTL_LPBK with
  | 1 => s
  | 2 => if s.macSends x then s.emit (.frame x b) else s
  | _ => s.macFrame x b

/-- What the FEC of a port counts of the codewords a frame came in, where its mode has one and it hears its lanes; an uncorrectable codeword
raises the cause (R43, R61). [DESIGN CHOICE, log 68] -/
def State.fecWords (s : State) (x corr unc : Nat) : State :=
  if s.pMode x < 3 ∨ ¬ s.flag (R.PORT_CTL x) F.PORT_CTL_EN ∨ s.fld (R.PORT_CTL x) F.PORT_CTL_LPBK = 1 ∨ ¬ s.linkUp x ∨ ¬ s.pipeOn (x / 4) ∨ s.sleeping then s
  else
    let s1 := (s.cntN (R.FEC_CORR x) corr).cntN (R.FEC_UNCORR x) unc
    if unc = 0 then s1 else s1.raise (0x80000 + x * 0x1000) 1

/-- FRAME_RECEIVE (R12). -/
def execFrameReceive (port : PortN) (frame : LineFrame) (s : State) : Result :=
  .next ((s.fecWords port frame.corr frame.unc).lanesFrame port frame.bytes)

/-- MAC_CONTROL_FRAME_RECEIVE (R52): a frame of Ethertype 0x8808. -/
def execMacControlFrameReceive (port : PortN) (bytes : List Byte) (s : State) : Result :=
  .next (if valBE ((bytes.drop 12).take 2) = 0x8808 then s.lanesFrame port bytes else s)

/-- PAUSE_QUANTA_EXPIRE (R53). -/
def execPauseQuantaExpire (port : PortN) (cls : ClassN) (s : State) : Result :=
  .next (if s.paused port cls then s.pauseClass port cls 0 else s)

/-! ### Pause and PFC frames sent (R54) -/

def State.sentX (s : State) (x : Nat) : Nat := smGet (fun _ => 0) s.pfcSent x

/-- The flow-control frame for classes, with a quanta (R54). [DESIGN CHOICE, log 144] -/
def State.sendFlow (s : State) (x classes quanta : Nat) : State :=
  if s.fld (R.PORT_FC x) F.PORT_FC_MODE = 1 then s.emit (.flow x false 255 quanta) else s.emit (.flow x true classes quanta)

/-- PFC_FRAME_SEND (R54): XOFF of new classes is sent with QUANTA, XON of classes with zero quanta. -/
def execPfcFrameSend (port : PortN) (s : State) : Result :=
  let x := port.val
  let now := s.xoffClasses x
  let old := s.sentX x
  let s0 := { s with pfcSent := smSet (fun _ => 0) s.pfcSent x now }
  let q := s.fld (R.PORT_FC x) F.PORT_FC_QUANTA
  if ¬ s.macSends x ∨ now = old then .next s
  else if s.fld (R.PORT_FC x) F.PORT_FC_MODE = 1 then
    .next (if old = 0 then s0.sendFlow x 255 q else if now = 0 then s0.sendFlow x 255 0 else s0)
  else
    let gone := old &&& (255 - now)
    let come := now &&& (255 - old)
    let s1 := if gone ≠ 0 then s0.sendFlow x gone 0 else s0
    .next (if come ≠ 0 then s1.sendFlow x now q else s1)

/-- PFC_REPEAT_EXPIRE (R54): QUANTA ÷ 2 quanta after the last frame, while XOFF holds. -/
def execPfcRepeatExpire (port : PortN) (s : State) : Result :=
  let x := port.val
  let now := s.sentX x &&& s.xoffClasses x
  .next (if s.macSends x ∧ now ≠ 0 then s.sendFlow x now (s.fld (R.PORT_FC x) F.PORT_FC_QUANTA) else s)

/-! ### Link state (R56–R58) -/

/-- The frame being transmitted stops, and the frames being received fail (R58). -/
def State.cutPort (s : State) (x : Nat) : State :=
  let s1 := match s.tx x with
    | some t =>
      let s1 := (s.setTx x none).cnt (R.TX_CUT x)
      s1.giveUp t.pkt
    | none => s
  (s1.pkts.filter fun e => e.2.bad && e.2.inPort == x).foldl (fun s e => s.fcsFail e.1) s1

/-- A down transition with its reason (R56–R58). -/
def State.linkGoesDown (s : State) (x reason : Nat) : State :=
  let r := R.PORT_LINK x
  let s1 := (((s.setFld r F.PORT_LINK_UP 0).setFld r F.PORT_LINK_AN_DONE 0).setFld r F.PORT_LINK_LT_DONE 0).setFld r F.PORT_LINK_REASON reason
  let s2 := (if s.linkUp x then (s1.cnt (R.LINK_DOWN x)).cutPort x else s1).raise (0x80000 + x * 0x1000) 0
  { s2 with linkReps := s2.linkReps ++ [{ port := x, up := false, reason := reason, time := s.time.d }] }

/-- Whether a port's MAC or keep-alive MAC is in service. -/
def State.portLive (s : State) (x : Nat) : Bool :=
  s.flag (R.PORT_CTL x) F.PORT_CTL_EN &&
  (s.pipeOn (x / 4) || (decide (s.mode = mSIMMER) && s.kaPort x) ||
   (decide (s.mode = mDORMANT) && s.kaPort x && decide (s.fld (R.PORT_KA x) F.PORT_KA_KA_SLOT = 0)))

/-- LINK_DOWN (R56): a condition has persisted for DOWN_US. On a keep-alive port asleep it is a wake source (R504). -/
def execLinkDown (port : PortN) (reason : BitVec 4) (s : State) : Result :=
  let x := port.val
  if ¬ s.portLive x ∨ ¬ s.linkUp x ∨ reason = 0 ∨ reason = 6 ∨ 7 < reason.toNat then .next s
  else
    let s1 := s.linkGoesDown x reason.toNat
    .next (if s.kaPort x ∧ s.wakeable then (s1.raise 0xF80000 1).wakeFire 3 else s1)

/-- LINK_UP (R56): every condition has been absent for UP_US. [DESIGN CHOICE, log 145] -/
def execLinkUp (port : PortN) (s : State) : Result :=
  let x := port.val
  let r := R.PORT_LINK x
  if ¬ s.portLive x ∨ s.linkUp x ∨ s.pMode x = 0 then .next s
  else
    let s1 := ((s.setFld r F.PORT_LINK_UP 1).setFld r F.PORT_LINK_AN_DONE (s.fld (R.PORT_MODE x) F.PORT_MODE_AN)).setFld r
      F.PORT_LINK_LT_DONE (s.fld (R.PORT_MODE x) F.PORT_MODE_LT)
    let s2 := s1.raise (0x80000 + x * 0x1000) 0
    let s3 := if s.mode = mSIMMER ∨ s.mode = mDORMANT then s2.raise 0xF80000 1 else s2
    .next { s3 with linkReps := s3.linkReps ++ [{ port := x, up := true, reason := s.fld r F.PORT_LINK_REASON, time := s.time.d }] }

/-- LT_RESTART (R47): training has not completed within its limit. -/
def execLtRestart (port : PortN) (s : State) : Result :=
  let x := port.val
  .next (if s.portLive x ∧ s.flag (R.PORT_MODE x) F.PORT_MODE_LT = true ∧ ¬ s.linkUp x then s.cnt (R.LT_RESTART x) else s)

/-- PORT_CTL.EN cleared: the transition is reported with reason 0x6, without debounce (R57). [DESIGN CHOICE, log 146] -/
def State.portOff (s : State) (x : Nat) : State :=
  ({ s.linkGoesDown x 6 with quanta := s.quanta.filter (fun e => e.1 / 8 != x), pfcSent := smErase s.pfcSent x }).setFld
    (R.TM_PORT_STAT x) F.TM_PORT_STAT_PAUSED 0

/-! ### What port registers accept (R42, R45, R46, R59, R61) -/

/-- Lanes of a mode (R43). -/
def modeLanes (m : Nat) : Nat := [0, 1, 1, 1, 1, 4, 2, 1, 4, 2, 4].getD m 0

/-- Whether a mode of port `x` satisfies R45 with the other ports of its pipeline. -/
def State.modeOk (s : State) (x m : Nat) : Bool :=
  let j := x % 4
  let w (k : Nat) : Nat := if k = j then modeLanes m else modeLanes (s.pMode (x / 4 * 4 + k))
  decide (m ≤ 10) && (modeLanes m != 2 || j == 0 || j == 2) && (modeLanes m != 4 || j == 0) &&
  ([0, 1, 2, 3].all fun k => [0, 1, 2, 3].all fun l => k == l || w l == 0 || !(decide (k < l) && decide (l < k + w k)))

/-- Whether the front ports of a macro are all disabled (R42). -/
def State.macroOff (s : State) (m : Nat) : Bool := (List.range 8).all fun i => !(s.flag (R.PORT_CTL (8 * m + i)) F.PORT_CTL_EN)

/-- Whether a lane map is a permutation (R42). -/
def isPerm8 (v : Nat) : Bool := (List.range 8).all fun l => (List.range 8).any fun k => bits v (3 * k + 2) (3 * k) == l

end Sys2Proof.Machine
end

