-- ==== Sys2Proof/Machine/Hif.lean ====
section
/-! DEFINITION. Hosts and instances (R440–R466): links, the states of instances, their resources, mailboxes, rings, DMA under the
generation rule, instance resets, staged resizes, and MSI-X messages. -/

namespace Sys2Proof.Machine

/-! ### MSI-X vectors (R429, R455) -/

/-- A message is sent to a vector, or its pending bit is set while the vector is masked. [DEDUCED, log 52] -/
def State.msixSend (s : State) (v : Nat) : State :=
  if smGet (fun _ => false) s.vecOpen v then s.emit (.msix v)
  else { s with vecPend := smSet (fun _ => false) s.vecPend v true, vecMsg := smSet (fun _ => false) s.vecMsg v true }

/-! ### Instances -/

def iABSENT : Nat := 0
def iINACTIVE : Nat := 1
def iACTIVE : Nat := 2

def instPg (i : Nat) : Nat := 0x10000000 + i * 0x1000
/-- The common header of a doorbell page, at a model address of its own. [DESIGN CHOICE, log 1] -/
def dbPg (i : Nat) : Nat := 0x13000000 + i * 0x1000
def State.iState (s : State) (i : Nat) : Nat := s.fld (R.HIF_INST_STAT i) F.HIF_INST_STAT_STATE
def State.iGen (s : State) (i : Nat) : Nat := s.fld (R.HIF_INST_STAT i) F.HIF_INST_STAT_GEN
def State.setIState (s : State) (i x : Nat) : State := s.setFld (R.HIF_INST_STAT i) F.HIF_INST_STAT_STATE x
def State.rstBusy (s : State) (i : Nat) : Bool := s.flag (R.HIF_INST_STAT i) F.HIF_INST_STAT_RST_BUSY

/-- Hosts of the bifurcation (R440). [DESIGN CHOICE, log 143] -/
def State.hosts (s : State) : Nat := match s.fld R.HIF_CTL F.HIF_CTL_BIF with | 0 => 1 | 1 => 2 | 2 => 4 | _ => 1

/-- The host whose PF or VF an instance is (R443). -/
def State.hostOf (s : State) (i : Nat) : Option Nat :=
  if i < 4 then (if i < s.hosts then some i else none)
  else (List.range s.hosts).find? fun h =>
    decide (s.fld (R.HIF_PF_CFG h) F.HIF_PF_CFG_FIRST ≤ i) &&
    decide (i < s.fld (R.HIF_PF_CFG h) F.HIF_PF_CFG_FIRST + s.fld (R.HIF_PF_CFG h) F.HIF_PF_CFG_NUM)

/-- Instances of a host: its PF and its VFs. -/
def State.instsOf (s : State) (h : Nat) : List Nat :=
  h :: (List.range (s.fld (R.HIF_PF_CFG h) F.HIF_PF_CFG_NUM)).map fun k => s.fld (R.HIF_PF_CFG h) F.HIF_PF_CFG_FIRST + k

/-- Whether a link is up. -/
def State.linkHUp (s : State) (h : Nat) : Bool := s.flag (R.HIF_LINK h) F.HIF_LINK_UP

/-- Whether the function of an instance is enabled (R445): its link is up and, for a VF, VF Enable is set. [DEDUCED, log 113] -/
def State.fnOn (s : State) (i : Nat) : Bool :=
  match s.hostOf i with
  | some h => s.linkHUp h && (decide (i < 4) || smGet (fun _ => false) s.vfEn h)
  | none => false

/-- Offsets of the parameter registers of an instance page, in order (R466). -/
def paramOffs : List Nat := [0x50, 0x54, 0x58, 0x60, 0x64, 0x68, 0x6C, 0x70, 0x74, 0x78, 0x7C, 0x80]

/-- The parameter registers of an instance. -/
def State.params (s : State) (i : Nat) : List W32 := paramOffs.map fun o => s.reg (instPg i + o)

/-- The resources in force (R446); an instance that is not created has none. -/
def State.res (s : State) (i : Nat) : List W32 := (smGet (fun _ => none) s.instRes i).getD []
def word (l : List W32) (k : Nat) : Nat := (l.getD k 0).toNat

def qpFirst (l : List W32) : Nat := bits (word l 0) 27 16
def qpNum (l : List W32) : Nat := bits (word l 0) 8 0
def vecFirst (l : List W32) : Nat := bits (word l 1) 26 16
def vecNum (l : List W32) : Nat := bits (word l 1) 11 0
def tq (l : List W32) : Nat := bits (word l 2) 23 0
def bufMin (l : List W32) : Nat := bits (word l 6) 16 0
def lrnLim (l : List W32) : Nat := bits (word l 7) 23 0
def pvis (l : List W32) (x : Nat) : Bool := (word l (8 + x / 32)).testBit (x % 32)
def clsMask (l : List W32) (c : Nat) : Bool := (word l 11).testBit c

/-- Whether two ranges overlap. -/
def overlap (f1 n1 f2 n2 : Nat) : Bool := decide (0 < n1) && decide (0 < n2) && decide (f1 < f2 + n2) && decide (f2 < f1 + n1)

/-- Whether a parameter set lies in the pools (R446). -/
def inPools (l : List W32) : Bool :=
  decide (qpNum l ≤ 256) && decide (qpFirst l + qpNum l ≤ 4096) && decide (vecNum l ≤ 2048) && decide (vecFirst l + vecNum l ≤ 2048) &&
  decide (word l 3 + word l 4 ≤ 2 ^ 24) && decide (bits (word l 5) 23 16 + bits (word l 5) 7 0 ≤ 256)

/-- Whether two parameter sets share a resource. -/
def sharesRes (a b : List W32) : Bool :=
  overlap (qpFirst a) (qpNum a) (qpFirst b) (qpNum b) || overlap (vecFirst a) (vecNum a) (vecFirst b) (vecNum b) ||
  overlap (word a 3) (word a 4) (word b 3) (word b 4) ||
  overlap (bits (word a 5) 23 16) (bits (word a 5) 7 0) (bits (word b 5) 23 16) (bits (word b 5) 7 0)

/-- Whether a set for instance `i` overlaps a created or staged set of another (R446, R459). -/
def State.clashes (s : State) (i : Nat) (l : List W32) : Bool :=
  (s.instRes ++ s.instStg).any fun e => e.1 != i && (match e.2 with | some m => sharesRes l m | none => false)

/-- The register of a ring (R466). [DESIGN CHOICE, log 1] -/
def ringReg (r off : Nat) : Nat := 0x11000000 + r * 0x100 + off
def State.ring (s : State) (r : Nat) : Ring := smGet (fun _ => {}) s.rings r
def State.setRing (s : State) (r : Nat) (g : Ring) : State := { s with rings := smSet (fun _ => {}) s.rings r g }
def State.ringCtl (s : State) (r : Nat) : W32 := s.reg (ringReg r 0x84)
def State.txEn (s : State) (r : Nat) : Bool := (s.ringCtl r).getLsbD 31
def State.rxEn (s : State) (r : Nat) : Bool := (s.ringCtl r).getLsbD 30
def State.ringInst (s : State) (r : Nat) : Nat := getF (s.ringCtl r) F.HIF_RING_CTL_INST
def State.ringSize (s : State) (r : Nat) : Nat := 2 ^ getF (s.ringCtl r) F.HIF_RING_CTL_LOG2
def State.txBase (s : State) (r : Nat) : Nat := (s.reg (ringReg r 0x88)).toNat / 4096 * 4096 + (s.reg (ringReg r 0x8C)).toNat * 2 ^ 32
def State.rxBase (s : State) (r : Nat) : Nat := (s.reg (ringReg r 0x90)).toNat / 4096 * 4096 + (s.reg (ringReg r 0x94)).toNat * 2 ^ 32
def State.txCi (s : State) (r : Nat) : Nat := bits (s.reg (ringReg r 0xA0)).toNat 31 16
def State.rxCi (s : State) (r : Nat) : Nat := bits (s.reg (ringReg r 0xA0)).toNat 15 0
def State.setCi (s : State) (r tx rx : Nat) : State := s.setReg (ringReg r 0xA0) (BitVec.ofNat 32 (tx % 65536 * 65536 + rx % 65536))

/-- Rings of an instance, in range order. -/
def ringsOf (l : List W32) : List Nat := (List.range (qpNum l)).map fun k => qpFirst l + k

/-- Whether a ring enable is allowed (R451, R459, R466): the ring in INST's range, PIPE with a front port visible, and neither staged for
removal; a ring has 2^6 to 2^16 descriptors (R452). [DESIGN CHOICE, log 137] -/
def State.ringOk (s : State) (r : Nat) (v : W32) : Bool :=
  let i := getF v F.HIF_RING_CTL_INST
  let l := s.res i
  let p := getF v F.HIF_RING_CTL_PIPE
  decide (6 ≤ getF v F.HIF_RING_CTL_LOG2) && decide (getF v F.HIF_RING_CTL_LOG2 ≤ 16) && (ringsOf l).contains r && ([0, 1, 2, 3].any fun k => pvis l (4 * p + k)) &&
  (match smGet (fun _ => none) s.instStg i with | some m => (ringsOf m).contains r | none => true)

/-! ### DMA (R453–R456) -/

/-- A length in parts of at most `n`: offset and length of each (R441). -/
def partsOf (n len : Nat) : List (Nat × Nat) := (List.range ((len + n - 1) / n)).map fun k => (k * n, min n (len - k * n))

/-- The requests of a read, at most 4,096 bytes each, tagged with the generation of the instance, are queued for the link.
[DESIGN CHOICE, log 89] -/
def State.dmaRead (s : State) (d : Dma) (addr len : Nat) : State :=
  { s with dmaQ := s.dmaQ ++ (partsOf 4096 len).map fun p => .read { d with off := p.1 } (addr + p.1) p.2 }

/-- The posted writes of an instance, at most 512 bytes each, are queued for the link. [DESIGN CHOICE, log 89] -/
def State.dmaWrite (s : State) (i addr : Nat) (bs : List Byte) : State :=
  { s with dmaQ := s.dmaQ ++ (partsOf 512 bs.length).map fun p => .write i (s.iGen i) (addr + p.1) ((bs.drop p.1).take p.2) }

/-- The reads that are outstanding or waiting. -/
def DmaOp.req : DmaOp → Option Dma
  | .read d _ _ => some d
  | .write _ _ _ _ => none
def State.reqs (s : State) : List Dma := s.dmas.filterMap Prod.snd ++ s.dmaQ.filterMap DmaOp.req

/-- Whether a request of a kind is outstanding or waiting for a ring in its instance's generation. -/
def State.asked (s : State) (r : Nat) (tx : Bool) : Bool :=
  s.reqs.any fun d => d.ring == r && d.gen == s.iGen d.inst && (match d.kind with | .txDesc => tx | .txData _ _ => tx | .rxDesc _ => !tx)

/-- Whether two requests are parts of one data read. -/
def Dma.mate (d e : Dma) : Bool := d.chain.isSome && (d.kind == e.kind) && (d.ring == e.ring) && (d.gen == e.gen) && (d.inst == e.inst)

/-- A request has gone, stale or lost: with the last part of a data read, the buffers it had allocated are freed (R456). -/
def State.dmaDrop (s : State) (d : Dma) : State :=
  match d.chain with
  | some p => if s.reqs.any d.mate then s else s.freeChain p (0x900 + d.inst)
  | none => s

/-- The instance and the tag of an operation, and whether the tag is of an old generation (R456). -/
def DmaOp.tag : DmaOp → Nat × Nat
  | .read d _ _ => (d.inst, d.gen)
  | .write i g _ _ => (i, g)
def State.staleOp (s : State) (op : DmaOp) : Bool := decide (op.tag.2 ≠ s.iGen op.tag.1)

/-- Stale operations are discarded before they are issued, `n` of them at most, and counted (R456). -/
def State.dropStale (s : State) : Nat → State
  | 0 => s
  | n + 1 => match s.dmaQ.find? s.staleOp with
    | none => s
    | some op =>
      let s1 := ({ s with dmaQ := s.dmaQ.erase op } : State).cnt (R.HIF_STALE op.tag.1)
      (match op.req with
       | some d => s1.dmaDrop d
       | none => s1).dropStale n

def State.linkOf (s : State) (i : Nat) : Nat := (s.hostOf i).getD 0

/-- Non-posted requests outstanding on a link (R441). -/
def State.npOut (s : State) (h : Nat) : Nat := ((s.dmas.filterMap Prod.snd).filter fun d => s.linkOf d.inst == h).length

/-- An operation is issued to its link; a read waits on while 1,024 are outstanding there (R441). -/
def State.dmaIssue (s : State) (op : DmaOp) : State :=
  match op with
  | .write i _ addr bs => s.emit (.hostWrite (s.linkOf i) addr bs)
  | .read d addr len =>
    let h := s.linkOf d.inst
    if 1024 ≤ s.npOut h then { s with dmaQ := s.dmaQ ++ [op] }
    else ({ s with dmas := smPut s.dmas s.nextId (some d), nextId := s.nextId + 1 }).emit (.hostRead h addr len s.nextId)

/-- What a tick issues: every operation that waits, in order, once its tag has been compared with GEN (R456). [DESIGN CHOICE, log 89] -/
def State.issueDmas (s : State) : State :=
  let s1 := s.dropStale s.dmaQ.length
  s1.dmaQ.foldl State.dmaIssue { s1 with dmaQ := [] }

/-- The next transmit descriptor is read, if there is one and none is held. [DESIGN CHOICE, log 89] -/
def State.txFetch (s : State) (r : Nat) : State :=
  let g := s.ring r
  let i := s.ringInst r
  if s.txEn r ∧ g.txPi ≠ s.txCi r ∧ g.txD.isNone = true ∧ ¬ s.asked r true then
    s.dmaRead { inst := i, gen := s.iGen i, ring := r, kind := .txDesc } (s.txBase r + s.txCi r % s.ringSize r * 16) 16
  else s

/-- The next receive descriptor is read, if there is one. [DESIGN CHOICE, log 89] -/
def State.rxFetch (s : State) (r : Nat) : State :=
  let g := s.ring r
  let i := s.ringInst r
  if s.rxEn r ∧ g.rxPi ≠ g.rxNext ∧ ¬ s.asked r false then
    (s.setRing r { g with rxNext := (g.rxNext + 1) % 65536 }).dmaRead
      { inst := i, gen := s.iGen i, ring := r, kind := .rxDesc (g.rxNext % s.ringSize r) } (s.rxBase r + g.rxNext % s.ringSize r * 32) 32
  else s

/-- Whether a vector is one of an instance's (R446, R455). -/
def vecIn (l : List W32) (v : Nat) : Bool := decide (vecFirst l ≤ v) && decide (v < vecFirst l + vecNum l)

/-- An MSI-X message of a ring, under its moderation (R455). [DEDUCED, log 90] -/
def State.ringMsg (s : State) (r : Nat) (tx : Bool) : State :=
  let v := (s.reg (ringReg r 0x98)).toNat
  let l := s.res (s.ringInst r)
  let vec := bits v 26 16
  let g := s.ring r
  if ¬ (if tx then v.testBit 31 else v.testBit 30) ∨ ¬ vecIn l vec then s
  else if g.mod_ = 0 then (if bits v 15 0 = 0 then s else s.setRing r { g with mod_ := 1 }).msixSend vec
  else s.setRing r { g with mod_ := 2 }

/-- RING_MOD_EXPIRE (R455): MOD_US after a message. -/
def execRingModExpire (ring : RingN) (s : State) : Result :=
  let r := ring.val
  let g := s.ring r
  let v := (s.reg (ringReg r 0x98)).toNat
  let s1 := s.setRing r { g with mod_ := 1 }
  if g.mod_ = 2 then .next (if vecIn (s.res (s.ringInst r)) (bits v 26 16) then s1.msixSend (bits v 26 16) else s1)
  else .next (s.setRing r { g with mod_ := 0 })

/-- The write-back of a transmit descriptor: bytes 10–15, with the next descriptor read (R453). -/
def State.txBack (s : State) (r st : Nat) : State :=
  let i := s.ringInst r
  let s1 := s.dmaWrite i (s.txBase r + s.txCi r % s.ringSize r * 16 + 10) ([(1 : Byte), BitVec.ofNat 8 (s.iGen i)] ++ bytesLE 4 st)
  let s2 := (s1.setRing r { s1.ring r with txD := none }).setCi r (s1.txCi r + 1) (s1.rxCi r)
  (s2.ringMsg r true).txFetch r

/-- A doorbell that is applied (R452). -/
def State.doorbell (s : State) (tx : Bool) (i n pi : Nat) : State :=
  let l := s.res i
  let bad (s : State) : State := (s.viol (dbPg i) (0x900 + i) 3 0 (n * 8 + (if tx then 0 else 4))).cnt (R.HIF_DB_BAD i)
  if qpNum l ≤ n then bad s
  else
    let r := qpFirst l + n
    let en := if tx then s.txEn r else s.rxEn r
    let ci := if tx then s.txCi r else s.rxCi r
    if ¬ en ∨ s.rstBusy i ∨ s.iState i ≠ iACTIVE ∨ s.ringInst r ≠ i ∨ s.ringSize r < (pi + 65536 - ci) % 65536 then bad s
    else if tx then (s.setRing r { s.ring r with txPi := pi }).txFetch r
    else (s.setRing r { s.ring r with rxPi := pi }).rxFetch r

/-- A doorbell write: held while a transition to sleep holds ingress (R500), and in SIMMER an access to a page that cannot be reached (R589).
[DEDUCED, log 82] -/
def State.doorbellWrite (s : State) (tx : Bool) (i n pi : Nat) : State :=
  if s.mode = mDORMANT ∨ ¬ s.mainOn ∨ ¬ s.fnOn i then s
  else if s.mode = mSIMMER then s.viol 0 (0x900 + i) 6 0 (n * 8 + (if tx then 0 else 4))
  else if s.sleeping then { s with dbHeld := s.dbHeld ++ [(tx, i, n, pi)] } else s.doorbell tx i n pi

/-- TX_DOORBELL and RX_DOORBELL (R452). -/
def execTxDoorbell (inst : InstN) (n : Fin 512) (pi : BitVec 16) (s : State) : Result := .next (s.doorbellWrite true inst n pi.toNat)
def execRxDoorbell (inst : InstN) (n : Fin 512) (pi : BitVec 16) (s : State) : Result := .next (s.doorbellWrite false inst n pi.toNat)

/-- Held doorbells are applied (R500, R502). [DEDUCED, log 82] -/
def State.applyHeld (s : State) : State :=
  s.dbHeld.foldl (fun s d => s.doorbell d.1 d.2.1 d.2.2.1 d.2.2.2) { s with dbHeld := [] }

/-- A step on an empty queue: a tick, in which the operations that wait in the HIF come to their links. [DESIGN CHOICE, log 3] -/
def State.idle (s : State) : State :=
  let s1 := s.pace
  if s1.mainClk then s1.issueDmas else s1

/-- TX_DESCRIPTOR_PROCESS (R453): the descriptor read is checked, buffers are allocated, and the frame is read. -/
def execTxDescriptorProcess (ring : RingN) (s : State) : Result :=
  let r := ring.val
  let g := s.ring r
  let i := s.ringInst r
  match g.txD with
  | none => .next s
  | some d =>
    let addr := bits d 63 0
    let len := bits d 77 64
    if ¬ s.txEn r ∨ ¬ s.mainClk then .next s
    else if len < 14 ∨ 9212 < len then .next (s.txBack r 2)
    else if s.fenced (getF (s.ringCtl r) F.HIF_RING_CTL_PIPE) then .next ((s.cnt R.DEV_FENCE_DROP).txBack r 1)
    else
      match s.storeFrame (poolFor (len + 4)) (512 + i) (0x900 + i) 9216 true (List.replicate (len + 4) 0) with
      | (.stored p, s1) =>
        let s2 := s1.setRing r { g with txD := none }
        .next (s2.dmaRead { inst := i, gen := s.iGen i, ring := r, kind := .txData p len } addr len)
      | (.cut p, s1) => .next ((s1.freeChain p (0x900 + i)).txBack r 1)
      | (.noRoom, s1) | (.refused, s1) => .next (s1.txBack r 1)

/-- DMA_COMPLETION (R456): the data of a read returns. -/
def execDmaCompletion (id : Nat) (data : List Byte) (s : State) : Result :=
  match smGet (fun _ => none) s.dmas id with
  | none => .next s
  | some d =>
    let s1 := { s with dmas := smErase s.dmas id }
    let r := d.ring
    let g := s1.ring r
    if d.gen ≠ s.iGen d.inst then .next ((s1.dmaDrop d).cnt (R.HIF_STALE d.inst))
    else match d.kind with
      | .txDesc => .next (s1.setRing r { g with txD := some (valLE (data.take 16)) })
      | .rxDesc slot => .next ((s1.setRing r { g with rxD := g.rxD ++ [(slot, valLE (data.take 8))] }).rxFetch r)
      | .txData p len =>
        let n := min 4096 (len - d.off)
        let s2 := s1.chainWrite p d.off ((data ++ List.replicate n 0).take n)
        let pipe := getF (s.ringCtl r) F.HIF_RING_CTL_PIPE
        let dropped := s2.fenced pipe
        -- the frame is whole with the last of its parts
        if s2.reqs.any d.mate then .next s2
        else if d.lost then .next ((s2.dmaDrop d).txBack r 3)
        else
          let s3 := s2.chainWrite p len (fcs (s2.chainRead p 0 len))
          let q : Pkt := { len := len + 4, ptr := p, owner := 0x900 + d.inst, acct := 512 + d.inst, inPort := 64 + (s.hostOf d.inst).getD 0,
                           inst := d.inst, rx := s.time.d }
          .next ((s3.toParser pipe q).txBack r (if dropped then 1 else 0))

/-- A part of a data read is lost: those of it that wait are withdrawn, and those that are outstanding end it with an error. -/
def State.lose (s : State) (d : Dma) : State :=
  let s1 : State := { s with
    dmas := s.dmas.map fun e => (e.1, e.2.map fun x => if d.mate x then { x with lost := true } else x),
    dmaQ := s.dmaQ.filter fun op => !(op.req.any d.mate) }
  s1.dmaDrop d

/-- CPL_TIMEOUT (R442): a read has no completion within CPL_TMO_MS. -/
def execCplTimeout (id : Nat) (s : State) : Result :=
  match smGet (fun _ => none) s.dmas id with
  | none => .next s
  | some d =>
    let s1 := (({ s with dmas := smErase s.dmas id }).lose d).cnt (R.HIF_CPL_TMO d.inst)
    if d.gen ≠ s.iGen d.inst then .next s1
    else match d.kind with
      | .txDesc => .next (s1.txBack d.ring 3)
      | .txData _ _ => .next (if s1.reqs.any d.mate then s1 else s1.txBack d.ring 3)
      | .rxDesc _ => .next (s1.rxFetch d.ring)

/-! ### Receive delivery (R454) -/

/-- What becomes of a staged frame: no ring for it, a ring without a descriptor, or a ring with one. -/
inductive RxFate where
  | noRing
  | wait
  | ring (r slot addr : Nat)
  deriving DecidableEq, Repr

def State.rxFate (s : State) (h k : Nat) : RxFate :=
  let m := (s.pkt k).ctx
  let i := cInst m
  let l := s.res i
  let rs := (ringsOf l).filter fun r => s.rxEn r && s.ringInst r == i && (getF (s.ringCtl r) F.HIF_RING_CTL_RX_CLASS == cClass m)
  if s.iState i ≠ iACTIVE ∨ s.hostOf i ≠ some h ∨ ¬ (64 ≤ cInPort m ∨ pvis l (cInPort m) = true) ∨ ¬ clsMask l (cClass m) then .noRing
  else match rs with
    | [] => .noRing
    | r0 :: _ =>
      let r := rs.getD (bits (ctxWord m 5) 31 0 % rs.length) r0
      match (s.ring r).rxD with
      | (slot, addr) :: _ => .ring r slot addr
      | [] => .wait

/-- A staged frame leaves its staging. -/
def State.unstage (s : State) (h k : Nat) : State := (s.setStaged h ((s.staged h).filter (· ≠ k))).endPkt k

/-- RX_DELIVERY (R454): the first staged frame of a host that does not wait for a descriptor is delivered or dropped. -/
def execRxDelivery (host : Fin 4) (s : State) : Result :=
  let h := host.val
  match (s.staged h).find? fun k => s.rxFate h k != .wait with
  | none => .next s
  | some k =>
    let q := s.pkt k
    match s.rxFate h k with
    | .wait => .next s
    | .noRing => .next ((s.unstage h k).cnt (R.HIF_RX_NORING (cInst q.ctx)))
    | .ring r slot addr =>
      let i := s.ringInst r
      let sz := getF (s.reg (ringReg r 0x9C)) F.HIF_RING_BUF_BUF_SZ
      let cut := decide (sz < q.len)
      let wb := bytesLE 8 (ctxWord q.ctx 1) ++ bytesLE 2 q.len ++ [BitVec.ofNat 8 (1 + 2 * b2n cut), BitVec.ofNat 8 (s.iGen i)] ++
        bytesLE 4 (bits (ctxWord q.ctx 5) 31 0) ++ bytesLE 4 (cUser q.ctx + cInPort q.ctx * 2 ^ 25) ++ List.replicate 12 0
      let s1 := (s.dmaWrite i addr (s.chainRead q.ptr 0 (min sz q.len))).dmaWrite i (s.rxBase r + slot * 32) wb
      let s2 := (s1.setRing r { s1.ring r with rxD := (s1.ring r).rxD.drop 1 }).setCi r (s1.txCi r) (s1.rxCi r + 1)
      .next ((s2.unstage h k).ringMsg r false)

/-- RX_STAGING_TIMEOUT (R454): the oldest frame that waits for a descriptor has waited HIF_RX_HOLD_US. -/
def execRxStagingTimeout (host : Fin 4) (s : State) : Result :=
  let h := host.val
  match (s.staged h).find? fun k => s.rxFate h k == .wait with
  | none => .next s
  | some k => .next ((s.unstage h k).cnt (R.HIF_RX_NORING (cInst (s.pkt k).ctx)))

/-! ### Mailboxes (R450) -/

/-- The mailbox request ends with a result. [DEDUCED, log 90] -/
def State.mbxEnd (s : State) (i res : Nat) : State :=
  (s.setFld (R.HIF_MBX_CTL i) F.HIF_MBX_CTL_BUSY 0).setFld (R.HIF_MBX_CTL i) F.HIF_MBX_CTL_RES res

/-- MBX_TIMEOUT (R450): MBX_TMO_MS after SEND. -/
def execMbxTimeout (inst : InstN) (s : State) : Result :=
  .next (if s.flag (R.HIF_MBX_CTL inst) F.HIF_MBX_CTL_BUSY then s.mbxEnd inst 2 else s)

/-- SEND of the own view (R450). [DEDUCED, log 32] -/
def State.mbxSend (s : State) (i : Nat) : State :=
  ((s.setFld (R.HIF_MBX_CTL i) F.HIF_MBX_CTL_BUSY 1).setFld (R.HIF_MBX_CTL i) F.HIF_MBX_CTL_RES 0).raise (instPg i) 0

/-- DONE of the manager view (R450). [DEDUCED, log 32] -/
def State.mbxDone (s : State) (i : Nat) : State :=
  if s.flag (R.HIF_MBX_CTL i) F.HIF_MBX_CTL_BUSY then
    let l := s.res i
    let v := s.fld (R.HIF_MBX_CTL i) F.HIF_MBX_CTL_MBX_VEC
    let s1 := s.mbxEnd i 1
    if vecIn l v then s1.msixSend v else s1
  else s.cnt (R.HIF_MBX_LATE i)

/-! ### Instance resets (R457, R458) -/

/-- A ring of an instance is disabled. -/
def State.ringOff (s : State) (r : Nat) : State :=
  (s.setReg (ringReg r 0x84) (s.ringCtl r &&& 0x3FFFFFFF)).setRing r
    { s.ring r with txD := none, rxD := [], rxNext := s.rxCi r, mod_ := 0 }

/-- The start of a reset: steps 1 to 4 of R457. [DESIGN CHOICE, log 37] -/
def State.instResetStart (s : State) (i : Nat) : State :=
  let r := R.HIF_INST_STAT i
  let s1 := (((s.setFld r F.HIF_INST_STAT_GEN (s.iGen i + 1)).setFld r F.HIF_INST_STAT_RST_BUSY 1).setFld r F.HIF_INST_STAT_DRAIN_TO 0).setIState i iINACTIVE
  let s2 := (ringsOf (s.res i)).foldl (fun s q => if s.ringInst q = i then s.ringOff q else s) s1
  let s3 := s2.abandonAgent (0x900 + i)
  let s4 := [0, 1, 2, 3].foldl (fun s h => ((s.staged h).filter fun k => cInst (s.pkt k).ctx == i).foldl
    (fun s k => (s.unstage h k).cnt (R.HIF_RX_NORING i)) s) s3
  if s.flag (R.HIF_MBX_CTL i) F.HIF_MBX_CTL_BUSY then s4.mbxEnd i 2 else s4

/-- A reset is ordered (R445, R458). [DEDUCED, log 90] -/
def State.instReset (s : State) (i : Nat) : State :=
  if s.iState i = iABSENT then s
  else if s.rstBusy i then { s with rstHeld := smSet (fun _ => false) s.rstHeld i true } else s.instResetStart i

/-- INST_RESET_DRAIN_END (R457): no request of an old generation is left, or the drain limit has passed. -/
def execInstResetDrainEnd (inst : InstN) (s : State) : Result :=
  let i := inst.val
  if ¬ s.rstBusy i then .next s
  else
    let r := R.HIF_INST_STAT i
    let left := s.dmas.any fun e => match e.2 with | some d => d.inst == i | none => false
    let s1 := ((s.setFld r F.HIF_INST_STAT_RST_BUSY 0).setFld r F.HIF_INST_STAT_DRAIN_TO (b2n left)).raise (instPg i) 1
    let s2 := if s1.fnOn i then s1.setIState i iACTIVE else s1
    .next (if smGet (fun _ => false) s.rstHeld i
      then ({ s2 with rstHeld := smSet (fun _ => false) s2.rstHeld i false }).instResetStart i else s2)

/-- Masks of the vectors of an instance are set again, as by a function reset (R441). [DEDUCED, log 52] -/
def State.maskVecs (s : State) (i : Nat) : State :=
  let l := s.res i
  let off (m : SMap Bool) : SMap Bool := smClear m (vecFirst l) (vecFirst l + vecNum l)
  { s with vecOpen := off s.vecOpen, vecPend := off s.vecPend, vecMsg := off s.vecMsg }

/-- A function level reset of one instance. [DEDUCED, log 91] -/
def State.flr1 (s : State) (i : Nat) : State := if s.iState i = iABSENT then s else ((s.maskVecs i).instReset i).raise (instPg i) 2

/-- FLR (R445): of a VF its instance, of a PF its instance and those of its VFs. -/
def execFlr (inst : InstN) (s : State) : Result :=
  let i := inst.val
  .next (match s.hostOf i with
    | none => s
    | some h => if ¬ s.linkHUp h then s else if i < 4 then (s.instsOf i).foldl State.flr1 s else s.flr1 i)

/-- VF_ENABLE_CLEAR (R445). -/
def execVfEnableClear (host : Fin 4) (s : State) : Result :=
  let h := host.val
  if ¬ smGet (fun _ => false) s.vfEn h then .next s
  else
    let s1 := { s with vfEn := smSet (fun _ => false) s.vfEn h false }
    .next (((s1.instsOf h).drop 1).foldl State.flr1 s1)

/-- Instances whose function is enabled and that are not in reset become ACTIVE (R445). -/
def State.activate (s : State) (l : List Nat) : State :=
  l.foldl (fun s i => if s.iState i = iINACTIVE ∧ s.fnOn i = true ∧ ¬ s.rstBusy i then s.setIState i iACTIVE else s) s

/-- VF_ENABLE_SET (R445). -/
def execVfEnableSet (host : Fin 4) (s : State) : Result :=
  let h := host.val
  if ¬ s.linkHUp h ∨ smGet (fun _ => false) s.vfEn h = true then .next s
  else
    let s1 := ({ s with vfEn := smSet (fun _ => false) s.vfEn h true }).activate ((s.instsOf h).drop 1)
    .next (((s.instsOf h).drop 1).foldl (fun s i => if s.iState i = iABSENT then s else s.raise (instPg i) 2) s1)

/-- A PCIe link goes down (R445): its PF and VF instances are reset. [DEDUCED, log 91] -/
def State.pcieDown (s : State) (h : Nat) : State :=
  if ¬ s.linkHUp h then s
  else
    let r := R.HIF_LINK h
    let s1 := ((s.setFld r F.HIF_LINK_UP 0).setFld r F.HIF_LINK_RATE 0).setFld r F.HIF_LINK_WIDTH 0
    (s1.instsOf h).foldl (fun s i => s.instReset i) s1

def execPcieLinkDown (host : Fin 4) (s : State) : Result := .next (s.pcieDown host)

/-- PERST (R606): the reset of a link takes it down; its release lets it train. -/
def execPerst (host : Fin 4) (low : Bool) (s : State) : Result :=
  .next (if low then { s.pcieDown host with vfEn := smSet (fun _ => false) (s.pcieDown host).vfEn host false } else s)

/-- PCIE_LINK_UP (R440): a link of the bifurcation has trained on no more lanes than it has, once the configuration record has been applied (R606). -/
def execPcieLinkUp (host : Fin 4) (rate : BitVec 3) (width : BitVec 5) (s : State) : Result :=
  let h := host.val
  let r := R.HIF_LINK h
  if ¬ s.mainClk ∨ s.mode = mBOOT ∨ s.hosts ≤ h ∨ s.linkHUp h = true ∨ ¬ s.domOn (18 + h) ∨ 5 < rate.toNat ∨ width = 0 ∨ 16 < width.toNat * s.hosts then .next s
  else .next ((((s.setFld r F.HIF_LINK_UP 1).setFld r F.HIF_LINK_RATE rate.toNat).setFld r F.HIF_LINK_WIDTH width.toNat).activate
    (h :: ((s.instsOf h).drop 1)))

/-- CONFIGURATION_REQUEST (R606). -/
def execConfigurationRequest (host : Fin 4) (s : State) : Result :=
  .next (if s.linkHUp host then s.emit (.cfgStatus host (!s.cfgReady)) else s)

/-! ### Commands of the manager (R446–R448, R459, R460) -/

/-- A parameter set comes into force: Sinter's minimum and the learn limit are written (R446). -/
def State.applyRes (s : State) (i : Nat) (l : List W32) : State :=
  (({ s with instRes := smSet (fun _ => none) s.instRes i (some l) }).setFld (R.A_CFG (512 + i)) F.A_CFG_MIN (bufMin l)).setFld
    (R.LRN_INST i) F.LRN_INST_LIMIT (lrnLim l)

/-- Whether the buffer minimum of a set leaves SH at or above 0 (R314, R446). -/
def State.minFits (s : State) (i : Nat) (l : List W32) : Bool :=
  let s1 := s.setFld (R.A_CFG (512 + i)) F.A_CFG_MIN (bufMin l)
  decide (s1.reserved ≤ s1.poolBytes)

/-- HIF_INST_CMD with its OP on the selected instance: status and state. [DESIGN CHOICE, log 37; DEDUCED, log 92] -/
def State.instCmd (s : State) (op i : Nat) : Nat × State :=
  let l := s.params i
  let st := s.iState i
  let enabled := (ringsOf (s.res i)).filter fun r => s.ringInst r == i && (s.txEn r || s.rxEn r)
  if op = 1 then
    if st ≠ iABSENT then (1, s)
    else if ¬ inPools l ∨ s.clashes i l ∨ ¬ s.minFits i l then (2, s)
    else (0, ((s.applyRes i l).setIState i iINACTIVE).activate [i])
  else if op = 2 then
    if st = iABSENT then (1, s)
    else if ¬ enabled.isEmpty ∨ s.rstBusy i ∨ s.fld (R.HIF_INST_TCNT i) F.HIF_INST_TCNT ≠ 0 ∨ (s.acct (512 + i)).r + (s.acct (512 + i)).sh + (s.acct (512 + i)).h ≠ 0
    then (4, s)
    else (0, { (s.setIState i iABSENT).setFld (R.HIF_INST_STAT i) F.HIF_INST_STAT_STAGED 0 with
      instRes := smSet (fun _ => none) s.instRes i none, instStg := smSet (fun _ => none) s.instStg i none })
  else if op = 3 then (if st = iABSENT then (1, s) else (0, s.instReset i))
  else if op = 4 then
    if s.mode ≠ mCOMPAT then (5, s)
    else if st ≠ iACTIVE then (1, s)
    else if ¬ inPools l ∨ s.clashes i l ∨ ¬ s.minFits i l then (2, s)
    else if enabled.any fun r => !((ringsOf l).contains r) then (4, s)
    else (0, ({ s with instStg := smSet (fun _ => none) s.instStg i (some l) }).setFld (R.HIF_INST_STAT i) F.HIF_INST_STAT_STAGED 1)
  else (3, s)

/-- HIF_INST_CMD.GO: the command runs and completes. [DEDUCED, log 108] -/
def State.instGo (s : State) : State :=
  let (st, s1) := s.instCmd (s.fld R.HIF_INST_CMD F.HIF_INST_CMD_OP) (s.fld R.HIF_INST_SEL F.HIF_INST_SEL)
  (s1.setFld R.HIF_INST_CMD F.HIF_INST_CMD_GO 0).setReg R.HIF_INST_CMD_STAT (BitVec.ofNat 32 st)

/-- Every staged set is applied, in cycle F of a commit (R460). -/
def State.applyStaged (s : State) : State :=
  s.instStg.foldl (fun s e => match e.2 with
    | some l => { (s.applyRes e.1 l).setFld (R.HIF_INST_STAT e.1) F.HIF_INST_STAT_STAGED 0 with
                    instStg := smSet (fun _ => none) s.instStg e.1 none }
    | none => s) s

end Sys2Proof.Machine
end

