-- ==== Sys2Proof/Machine/Modes.lean ====
section
/-! DEFINITION. The modes of R10 and their transitions (R493–R508): requests and their preconditions, MAINTAIN, SIMMER, DORMANT, wakes,
and the replay of held frames (R506). -/

namespace Sys2Proof.Machine

/-- Multicast behaviour follows the mode (R346): 0 is fan-out splitting, 1 is stored copies. [DEDUCED, log 110] -/
def mcMode (m old : Nat) : Nat := if m = 4 ∨ m = 5 ∨ m = 6 ∨ m = 8 then 0 else if m = 3 ∨ m = 7 ∨ m = 9 then 1 else old

/-- A held frame enters the parser of its port's pipeline as port 71, or is discarded for its age (R506). -/
def State.replay1 (s : State) (h : Held) : State :=
  let age := s.fld R.AON_HOLD F.AON_HOLD_MAX_AGE
  if age ≠ 0 ∧ age * 50000000 < s.clk - h.at_ then s.cnt R.AON_HOLD_STALE
  else
    let s1 := s.cnt R.AON_HOLD_REPLAY
    match s1.storeFrame (poolFor h.bytes.length) 768 0xA47 10240 true h.bytes with
    | (.stored p, s2) => s2.toParser (h.port / 4) { len := h.bytes.length, ptr := p, owner := 0xA47, acct := 768, inPort := 71, user := h.port,
                                                    rx := h.stamp }
    | (.cut p, s2) => s2.freeChain p 0xA47
    | (.noRoom, s2) | (.refused, s2) => s2

/-- The hold buffer is replayed in order (R506). -/
def State.replayAll (s : State) : State := s.hold.foldl State.replay1 { s with hold := [], replay := false }

/-- The completion point of a transition (R493). [DEDUCED, log 110] -/
def State.enterMode (s : State) (t : Nat) : State :=
  let s1 := ((s.setFld R.DEV_MODE F.DEV_MODE_PREV s.mode).setFld R.DEV_MODE F.DEV_MODE_MODE t).cnt R.DEV_MODE_CHG
  let s2 : State := { s1.raise 0 0 with cfgReady := s1.cfgReady || t == mCONFIGURE }
  let s3 := s2.setFld R.XB_STAT F.XB_STAT_MC_MODE (mcMode t (s.fld R.XB_STAT F.XB_STAT_MC_MODE))
  if (t = mFORWARD ∨ t = mCOMPAT) ∧ s3.replay = true then s3.replayAll else s3

/-- DEV_MODE_REQ.STATUS (R493). -/
def State.setStatus (s : State) (n : Nat) : State := s.setFld R.DEV_MODE_REQ F.DEV_MODE_REQ_STATUS n
def State.reqStatus (s : State) : Nat := s.fld R.DEV_MODE_REQ F.DEV_MODE_REQ_STATUS

/-- A requested transition completes. [DEDUCED, log 79] -/
def State.completeMode (s : State) (t : Nat) : State :=
  ({ s.enterMode t with going := none, goCommit := false }).setStatus 2

/-- A running transition ends without its target. [DEDUCED, log 79] -/
def State.endMode (s : State) (status : Nat) : State := (({ s with going := none, goCommit := false }).setStatus status).raise 0 0

/-- Whether R494 has a requested transition; MAINTAIN returns to the mode it came from. [DEDUCED, log 88] -/
def State.modeAllowed (s : State) (t : Nat) : Bool :=
  match s.mode with
  | 3 => [4, 5, 7, 9, 10, 11].contains t
  | 4 => [5, 6, 8, 9, 10, 11].contains t
  | 5 => [4, 6, 8, 9, 10, 11].contains t
  | 6 => t == s.fld R.DEV_MODE F.DEV_MODE_PREV || t == 8 || t == 9
  | 7 => t == 3
  | 8 => [4, 5, 9].contains t
  | 9 => [3, 4, 5, 8].contains t
  | 10 => t == 11
  | _ => false

/-- Whether a test of R547 runs, and whether it is disruptive. -/
def State.testRuns (s : State) : Bool := s.fld R.RAS_TEST_CTL F.RAS_TEST_CTL_STATE == 1
def State.disruptive (s : State) : Bool := s.testRuns && (s.fld R.RAS_TEST_CTL F.RAS_TEST_CTL_TEST != 8)

/-- No packet is in flight in either view. -/
def State.noneInFlight (s : State) : Bool := (s.reg (inflReg 0) == 0) && (s.reg (inflReg 1) == 0)

/-- The precondition of R494 for an allowed transition. [DEDUCED, log 80] -/
def State.modeCond (s : State) (t : Nat) : Bool :=
  let fence := decide (s.reg R.DEV_FENCE ≠ 0)
  let ready := s.flag R.HBM_CTL F.HBM_CTL_TRAINED && s.flag R.XB_CTL F.XB_CTL_RUN && s.flag R.TM_CTL F.TM_CTL_RUN
  match s.mode, t with
  | 3, 4 | 3, 5 => ready
  | 3, 7 => ((List.range 64).all fun x => !(s.flag (R.PORT_CTL x) F.PORT_CTL_EN)) && s.noneInFlight
  | 5, 4 => (List.range 256).all fun i => !(s.flag (R.HIF_INST_STAT i) F.HIF_INST_STAT_STAGED)
  | 7, 3 => !s.testRuns
  | 8, 4 | 8, 5 => !fence
  | 9, 4 | 9, 5 => ready && !fence
  | 9, 3 => !fence
  | 6, 9 => true
  | 6, 8 => fence
  | 6, _ => !s.disruptive
  | _, 8 => fence
  | _, _ => true

/-- A transition that is allowed and whose precondition holds begins, and in SIMMER a wake not yet served is kept; all but MAINTAIN, SIMMER and DORMANT complete at once.
[DEDUCED, log 79] -/
def State.startMode (s : State) (t : Nat) : State :=
  if t = mMAINTAIN ∧ s.mode ≠ mRECOVER then ({ s with going := some t, goCommit := false }).setStatus 1
  else if t = mSIMMER ∨ t = mDORMANT then ({ s with going := some t, goCommit := false, wakePend := if s.mode = mSIMMER then s.wakePend else 0 }).setStatus 1
  else s.completeMode t

/-- The primary PF's agent (R444). -/
def State.primary (s : State) : Nat := 0x900 + s.fld R.HIF_CTL F.HIF_CTL_PRIMARY

/-- DEV_MODE_REQ.GO by an agent that may order it, while none runs (R493). -/
def State.requestMode (s : State) (t : Nat) : State :=
  if ¬ s.modeAllowed t then s.setStatus 3
  else if ¬ s.modeCond t then s.setStatus 4
  else s.startMode t

/-! ### Keep-alive handover (R60) -/

/-- Whether the handover of a port is hitless. -/
def State.hitless (s : State) (x : Nat) : Bool :=
  let k := s.fld (R.PORT_KA x) F.PORT_KA_KA_MODE
  (s.pMode x == 1 && k == 0) || (s.pMode x == 2 && k == 1)

def State.enPorts (s : State) : List Nat := (List.range 64).filter fun x => s.flag (R.PORT_CTL x) F.PORT_CTL_EN

/-- A keep-alive port changes its MAC, in either direction (R60). -/
def State.handover (s : State) (x : Nat) : State := if s.hitless x then s.cutPort x else s.linkGoesDown x 7

/-- Keep-alive ports go back to their front-port MACs. -/
def State.handBack (s : State) : State := (s.enPorts.filter fun x => s.kaPort x).foldl State.handover s

/-- Step 3 of R500: handovers, and the links of the other ports down. -/
def State.handOver (s : State) : State := s.enPorts.foldl (fun s x => if s.kaPort x then s.handover x else s.linkGoesDown x 6) s

/-- Whether entry `k` of the watch list is enabled and its source asserted (R432); in DORMANT only the AON domain and the GPIO inputs have power.
[DEDUCED, log 51] -/
def State.watched (s : State) (k : Nat) : Bool := s.flag (R.IRQ_WAKE k) F.IRQ_WAKE_EN && s.asserted (s.fld (R.IRQ_WAKE k) F.IRQ_WAKE_SRC)

/-- The watcher starts the exit and records the source. -/
def State.watchFire (s : State) (k : Nat) : State :=
  (s.setReg R.IRQ_WAKE_STAT (BitVec.ofNat 32 (2 ^ 31 + s.fld (R.IRQ_WAKE k) F.IRQ_WAKE_SRC))).wakeFire 0

/-- Wake sources that hold as levels at a commit point (R499, R504): watched sources, GPIO inputs, the hold watermark.
[DEDUCED, log 80] -/
def State.sampleWakes (s : State) : State :=
  let irq := (List.range 32).find? s.watched
  let gpio := (List.range 32).any fun n => s.flag (R.AON_GPIO_CFG n) F.AON_GPIO_CFG_WAKE && s.gpioAsserted n
  let wm := s.fld R.AON_HOLD F.AON_HOLD_WM_KB
  let s1 := match irq with
    | some k => s.watchFire k
    | none => s
  let s2 := if gpio then s1.wakeFire 1 else s1
  if wm ≠ 0 ∧ wm * 1024 ≤ s2.holdBytes then s2.wakeFire 4 else s2

/-- A running transition gives way to one ordered by RAS (R508): it is undone as at its cancellation. [DEDUCED, log 79] -/
def State.undoMode (s : State) : State :=
  match s.going with
  | none => s
  | some t =>
    let s1 := if (t = mSIMMER ∨ t = mDORMANT) ∧ s.mode ≠ mSIMMER then (if s.goCommit then s.handBack else s).applyHeld else s
    ({ s1 with going := none, goCommit := false }).setStatus 4

/-- A transition ordered by RAS (R508, R543). -/
def State.orderMode (s : State) (t : Nat) : State :=
  let s1 := s.undoMode
  if s1.modeAllowed t ∧ s1.modeCond t = true then s1.completeMode t else s1

/-! ### MAINTAIN (R495) -/

/-- Whether no VOQ, deep part or class queue holds a frame for a port. -/
def State.portEmpty (s : State) (x : Nat) : Bool :=
  (s.voqs.all fun e => e.2.all fun v => s.entDest e.1 v != x) && (s.txq.all fun e => e.1 / 8 != x)

/-- MAINTAIN_ENTRY. -/
def execMaintainEntry (s : State) : Result :=
  .next (if s.going = some mMAINTAIN ∧ ((List.range 64).all fun x => !(s.maintPort x) || s.portEmpty x) = true then s.completeMode mMAINTAIN else s)

/-- MAINTAIN_DRAIN_TIMEOUT: the ports are flushed and the transition completes. -/
def execMaintainDrainTimeout (s : State) : Result :=
  .next (if s.going = some mMAINTAIN then
      ((List.range 64).foldl (fun s x => if s.maintPort x then s.flushPort x else s) s).completeMode mMAINTAIN
    else s)

/-! ### SIMMER (R500, R502) -/

def State.sleepGoing (s : State) : Bool := (s.going == some mSIMMER || s.going == some mDORMANT) && decide (s.mode ≠ mSIMMER)

/-- SIMMER_ENTRY: the drain of step 2 has ended, and step 3 hands the ports over. -/
def execSimmerEntry (s : State) : Result :=
  .next (if s.sleepGoing ∧ ¬ s.goCommit ∧ s.noneInFlight = true ∧ s.dmas.isEmpty = true ∧ s.dmaQ.isEmpty = true
    then { s.handOver with goCommit := true } else s)

/-- SLEEP_DRAIN_TIMEOUT: ingress resumes and held doorbells are applied. -/
def execSleepDrainTimeout (s : State) : Result := .next (if s.sleepGoing ∧ ¬ s.goCommit then (s.endMode 5).applyHeld else s)

/-- Self-refresh of every HBM channel (R476). -/
def State.allSr (s : State) (b : Nat) : State :=
  (List.range 64).foldl (fun s p => s.setFld (R.HBM_PC_STAT (p / 2) (p % 2)) F.HBM_PC_STAT_SR b) s

/-- SIMMER_COMMIT: the wake sources are sampled (R499). -/
def execSimmerCommit (s : State) : Result :=
  if ¬ s.sleepGoing ∨ ¬ s.goCommit then .next s
  else
    let s1 := s.sampleWakes
    if s1.wakePend ≠ 0 then .next ((s1.handBack.endMode 6).applyHeld)
    else
      let s2 := (s1.setFld R.AON_WAKE F.AON_WAKE_RET s.mode).allSr 1
      if s.going = some mSIMMER then .next (s2.completeMode mSIMMER)
      else .next { s2.enterMode mSIMMER with goCommit := false }

/-- Retrains deferred to the exit from self-refresh begin their pause (R482). -/
def State.dueRetrains (s : State) : State :=
  s.rtDue.foldl (fun s e => s.setFld (R.HBM_PC_STAT (e.1 / 2) (e.1 % 2)) F.HBM_PC_STAT_PAUSE 1) { s with rtDue := [] }

/-- A wake is served: WOKE, the count, and a replay to come (R504, R506). [DEDUCED, log 81; DEDUCED, log 111] -/
def State.woken (s : State) : State :=
  { (s.setFld R.AON_WAKE_STAT F.AON_WAKE_STAT_WOKE 1).cnt R.AON_WAKE_CNT with wakePend := 0, replay := true }

/-- SIMMER_WAKE (R502). -/
def execSimmerWake (s : State) : Result :=
  if s.mode ≠ mSIMMER ∨ s.wakePend = 0 ∨ s.going.isSome = true then .next s
  else
    let s1 := (s.woken.allSr 0).dueRetrains.handBack
    .next ((s1.enterMode (s.fld R.AON_WAKE F.AON_WAKE_RET)).raise 0 1).applyHeld

/-! ### Losing state: resets and DORMANT (R494, R501, R503) -/

/-- Whether a register is kept while the main rails are off: the AON and TIME pages, the watch list and the record of Fumarole's wake
watcher (R432), and, with `dev`, the DEV page and what the keep-alive ports of Fumarole need. [DEDUCED, log 83] -/
def State.keepReg (s : State) (dev : Bool) (a : Nat) : Bool :=
  decide (a / 0x1000 = 0xF80) || decide (a / 0x1000 = 0x10) || (decide (0x20100 ≤ a) && decide (a < 0x20200)) ||
  (dev && (decide (a < 0x1000) ||
    (decide (0x80000 ≤ a) && decide (a < 0xC0000) && s.kaPort ((a - 0x80000) / 0x1000) && [0x40, 0x44, 0x48, 0x6C].contains (a % 0x1000))))

/-- The state with everything reset but Fumarole, the time unit, the fuses, the flash and the pins (R494); `dev` keeps the DEV page.
[DEDUCED, log 83] -/
def State.loseMain (s : State) (dev : Bool) : State :=
  { State.reset with
    pending := s.pending, clk := s.clk, freeCtr := s.freeCtr, rdata := s.rdata, outs := s.outs, time := s.time,
    nextId := s.nextId,
    regs := s.regs.filter fun e => s.keepReg dev e.1
    thrs := s.thrs.filter fun e => e.1 == 0x810
    mem := s.mem.filter fun e => decide (0x2100000000 ≤ e.1) && decide (e.1 < 0x2100080000)
    cycBase := (List.range 17).foldl (fun m d => smSet (fun _ => 0) m d s.clk) s.cycBase
    hold := s.hold, replay := s.replay, wakePend := s.wakePend, pins := s.pins, fuses := s.fuses, flash := s.flash,
    fumEntry := s.fumEntry, bootSvn := s.bootSvn, mbx := s.mbx, bsr := s.bsr }

/-! ### DORMANT (R501, R503) -/

/-- DORMANT_AUTO_EXPIRE: SIMMER has lasted AUTO_S seconds. -/
def execDormantAutoExpire (s : State) : Result :=
  .next (if s.mode = mSIMMER ∧ s.going = none ∧ s.fld R.AON_DORMANT F.AON_DORMANT_AUTO_S ≠ 0
    then ({ s with going := some mDORMANT, goCommit := false }).setStatus 1 else s)

/-- DORMANT_ENTRY from SIMMER: slot 0 retrains, the commit point, and the main rails go. -/
def execDormantEntry (s : State) : Result :=
  if s.mode ≠ mSIMMER ∨ s.going ≠ some mDORMANT then .next s
  else
    let s1 := (s.enPorts.filter fun x => s.kaPort x && s.fld (R.PORT_KA x) F.PORT_KA_KA_SLOT == 0).foldl (fun s x => s.linkGoesDown x 7) s
    let s2 := s1.sampleWakes
    if s2.wakePend ≠ 0 then .next (s2.endMode 6)
    else .next ({ s2.loseMain true with pins := { s2.pins with enMain := false, enHbm := false, pgMain := false, pgHbm := false } }.completeMode mDORMANT)

/-- DORMANT_WAKE (R503): the rail enables rise; when the rails are valid every domain but AON is reset and boot begins. -/
def execDormantWake (s : State) : Result :=
  if s.mode ≠ mDORMANT ∨ s.wakePend = 0 then .next s
  else if s.pins.pgMain ∧ s.pins.pgHbm then
    .next (((s.woken.loseMain false).setFld R.DEV_MODE F.DEV_MODE_MODE mDORMANT).enterMode mBOOT)
  else if s.pins.retry then .next s
  else .next { s with pins := { s.pins with enMain := true } }

/-! ### Wake sources (R504) -/

/-- WAKE_TIMER_EXPIRE: AON_WAKE_TMR reaches 0. -/
def execWakeTimerExpire (s : State) : Result :=
  .next (if (s.mode = mSIMMER ∨ s.mode = mDORMANT) ∧ s.reg R.AON_WAKE_TMR ≠ 0 then (s.setReg R.AON_WAKE_TMR 0).wakeFire 6 else s)

/-- GPIO_INPUT_CHANGE: the filtered level, the edge latch, and the wake. -/
def execGpioInputChange (n : Fin 32) (level : Bool) (s : State) : Result :=
  let bit : W32 := BitVec.ofNat 32 (2 ^ n.val)
  let old := (s.reg R.AON_GPIO_IN).toNat.testBit n
  if s.mode = mOFF ∨ old = level then .next s
  else
    let s1 := s.setReg R.AON_GPIO_IN (if level then s.reg R.AON_GPIO_IN ||| bit else s.reg R.AON_GPIO_IN &&& ~~~bit)
    let m := s.fld (R.AON_GPIO_CFG n) F.AON_GPIO_CFG_MODE
    let edge := (m = 2 ∧ level = true) ∨ (m = 3 ∧ level = false) ∨ m = 4
    let s2 := if edge then s1.setReg R.AON_GPIO_LATCH (s1.reg R.AON_GPIO_LATCH ||| bit) else s1
    .next (if s.flag (R.AON_GPIO_CFG n) F.AON_GPIO_CFG_WAKE ∧ s2.gpioAsserted n = true then s2.wakeFire 1 else s2)

/-- WAKE_WATCHER_TRIGGER (R432): a watched source is asserted. -/
def execWakeWatcherTrigger (k : Fin 32) (s : State) : Result :=
  .next (if s.wakeable ∧ s.watched k = true then s.watchFire k else s)

/-- Keep-alive slot of a running keep-alive MAC (R59). -/
def State.slotPort (s : State) (slot : Nat) : Option Nat :=
  if s.mode = mSIMMER ∨ (s.mode = mDORMANT ∧ slot = 0) then
    s.enPorts.find? fun x => s.kaPort x && (s.fld (R.PORT_KA x) F.PORT_KA_KA_SLOT == slot) && s.linkUp x
  else none

/-- KEEPALIVE_FRAME_RECEIVE (R505). -/
def execKeepaliveFrameReceive (slot : Fin 4) (bytes : List Byte) (s : State) : Result :=
  match s.slotPort slot with
  | none => .next s
  | some x =>
    let n := bytes.length
    .next (if 64 ≤ n ∧ fcs (bytes.take (n - 4)) = bytes.drop (n - 4) then s.kaFrame slot x bytes else s)

def KaSvc.bit : KaSvc → Nat
  | .lacp => 0 | .lldp => 1 | .ptp => 2 | .bfd => 4

/-- KEEPALIVE_SERVICE_SEND (R505): a service sends at its interval. -/
def execKeepaliveServiceSend (slot : Fin 4) (svc : KaSvc) (bytes : List Byte) (s : State) : Result :=
  .next (if (s.slotPort slot).isSome ∧ (s.fld R.AON_KA_SVC F.AON_KA_SVC).testBit (KaSvc.bit svc) = true then s.emit (.keepAlive slot bytes) else s)

end Sys2Proof.Machine
end

