-- ==== Sys2Proof/Machine/Recovery.lean ====
section
/-! DEFINITION. Faults and recovery: pipeline and half fences (R544), the automatic actions of RAS (R543), self-tests (R547–R549), the
error log (R540), and the HBM controller's errors, retrains, self-refresh, scrub and fence (R471–R481). -/

namespace Sys2Proof.Machine

/-! ### Fences (R544) -/

/-- A pipeline is fenced, in one step. -/
def State.fencePipe (s : State) (p : Nat) : State :=
  let s1 := (List.range 16).foldl (fun s i => s.setFld (R.ENG_CTL (16 * p + i)) F.ENG_CTL_RUN 0) s
  let s2 := [0, 1, 2, 3].foldl (fun s k =>
    let c := R.PORT_CTL (4 * p + k)
    if s.flag c F.PORT_CTL_EN then (s.setFld c F.PORT_CTL_EN 0).portOff (4 * p + k) else s) s1
  let s3 := (s2.voqs.filter fun e => e.1 / 1024 == p).foldl (fun s e =>
    (s.voq e.1).foldl (fun s v => ((s.freeDeep e.1 v).dropEnt v).cnt R.XB_FLUSH_DROP) (s.setVoq e.1 [])) s2
  ((s3.srcQ.filter fun e => e.1 / 128 == p && decide (e.1 < 4096) && decide (64 ≤ e.1 % 128)).foldl (fun s e =>
    (s.src p (e.1 % 128)).foldl (fun s k => (s.endPkt k).cnt R.DEV_FENCE_DROP) (s.setSrc p (e.1 % 128) [])) s3)

/-- DEV_FENCE takes a value; the units it newly names are fenced (R544). [DEDUCED, log 35] -/
def State.setFence (s : State) (v : W32) : State :=
  let old := s.reg R.DEV_FENCE
  (List.range 16).foldl (fun s p => if v.toNat.testBit p ∧ ¬ old.toNat.testBit p then s.fencePipe p else s) (s.setReg R.DEV_FENCE v)

/-- Whether a half is fenced. -/
def State.halfFenced (s : State) (h : Nat) : Bool := (s.reg R.DEV_FENCE).toNat.testBit (16 + h)

/-! ### Automatic actions (R543) -/

/-- An automatic action: the log entry and the cause. [DEDUCED, log 86] -/
def State.autoAct (s : State) (block inst code loc : Nat) : State := (s.logErr 4 block inst code loc).raise 0xE00000 3

/-- Events kept of a list: those within one second of the model's clock. -/
def State.lastSecond (s : State) (l : List Nat) : List Nat := s.clk :: l.filter fun t => decide (s.clk - t < 500000000)

/-- A test that loses to a fence is aborted (R553). -/
def State.abortTest (s : State) : State :=
  let c := R.RAS_TEST_CTL
  if s.testRuns then
    (((s.setFld c F.RAS_TEST_CTL_STATE 3).setFld c F.RAS_TEST_CTL_ABORT_ST 1).setFld R.RAS_TEST_STAT F.RAS_TEST_STAT_BUSY 0).raise 0xE00000 1
  else s

/-- A watchdog expiry with action 0b10 on a pipeline (R543). -/
def State.wdogFence (s : State) (p : Nat) : State :=
  let l := s.lastSecond (smGet (fun _ => []) s.wdogAt p)
  let s1 := { s with wdogAt := smSet (fun _ => []) s.wdogAt p l }
  if s.flag R.RAS_CFG F.RAS_CFG_AF_WDOG ∧ s.fld R.RAS_CFG F.RAS_CFG_WDOG_LIM ≤ l.length ∧ ¬ s.fenced p then
    let s2 := { s1 with wdogAt := smSet (fun _ => []) s1.wdogAt p [] }
    ((s2.abortTest.setFence (s.reg R.DEV_FENCE ||| BitVec.ofNat 32 (2 ^ p))).autoAct 0x10 p 0x20 p).orderMode mDEGRADED
  else s1

/-- STAGE_WATCHDOG_EXPIRE (R128): OLDEST of an engine has not committed within LIMIT. -/
def execStageWatchdogExpire (eng : EngN) (s : State) : Result :=
  let e := eng.val
  if ¬ s.wdogCounts e then .next s
  else
    let s1 := s.wdogExpire e
    .next (if s.fld (R.ENG_WDOG e) F.ENG_WDOG_ACT = 2 then s1.wdogFence (e / 16) else s1)

/-! ### Self-tests (R547–R549) -/

/-- Whether a TARGET is in the range of a test. -/
def testTarget (t v : Nat) : Bool :=
  match t with
  | 1 | 2 => decide (v < 512) && decide (v % 256 < 8)
  | 3 | 4 => decide (v = 0) || decide (v = 256)
  | 5 => decide (v < 16)
  | 7 | 8 => decide (v < 64)
  | 6 | 9 => decide (v = 0)
  | _ => false

/-- Whether a test may run in the mode. [DEDUCED, log 88] -/
def State.testMode (s : State) (t v : Nat) : Bool :=
  let m := s.mode
  match t with
  | 1 | 2 | 3 => decide (m = 6) || decide (m = 7)
  | 5 => decide (m = 7) || (decide (m = 8) && s.fenced v)
  | 7 => decide (m ≠ 10) && decide (m ≠ 11) && !(s.flag (R.PORT_CTL v) F.PORT_CTL_EN)
  | 8 => decide (m = 4) || decide (m = 5) || decide (m = 6) || decide (m = 8) || decide (m = 7)
  | _ => decide (m = 7)

/-- A test is requested (R547). [DEDUCED, log 88] -/
def State.testReq (s : State) (t v : Nat) : State :=
  let c := R.RAS_TEST_CTL
  let stat (s : State) (n : Nat) : State := s.setFld R.RAS_TEST_STAT F.RAS_TEST_STAT_STATUS n
  let refuse (s : State) : State := (stat s 2).cnt R.RAS_TEST_REFUSED
  if s.testRuns then refuse s
  else if ¬ testTarget t v then stat s 3
  else if ¬ s.testMode t v ∨ ((t = 1 ∨ t = 2 ∨ t = 3 ∨ t = 4) ∧ s.halfFenced (1 - v / 256) = true) then refuse s
  else
    ((((s.setFld c F.RAS_TEST_CTL_TEST t).setFld c F.RAS_TEST_CTL_TARGET v).setFld c F.RAS_TEST_CTL_STATE 1).setFld c
      F.RAS_TEST_CTL_ABORT_ST 0).setReg R.RAS_TEST_STAT 0x80000000

/-- RAS_TEST_CTL.ABORT: it ends a test that runs, and in the cycle of the completion point it is too late (R549). [DEDUCED, log 87] -/
def State.testAbort (s : State) : State := if s.testRuns then s.abortTest else s.lateAbort R.RAS_TEST_CTL F.RAS_TEST_CTL_ABORT_ST

/-- RAS_TEST_COMPLETE (R548): the completion point, with what the test found. -/
def execRasTestComplete (pass : Bool) (res : W32) (s : State) : Result :=
  let c := R.RAS_TEST_CTL
  if ¬ s.testRuns then .next s
  else
    let s1 := ((s.setFld c F.RAS_TEST_CTL_STATE 2).setReg R.RAS_TEST_STAT (if pass then 0 else 1)).point c
    .next ((s1.setReg R.RAS_TEST_RES (if pass ∧ s.fld c F.RAS_TEST_CTL_TEST ≠ 8 then 0 else res)).raise 0xE00000 1)

/-! ### HBM errors and fences (R477–R480) -/

/-- A pseudo-channel is fenced, unless one already is (R479, R480). [DEDUCED, log 85] -/
def State.hbmFence (s : State) (pc cause : Nat) : State :=
  if s.flag R.HBM_FENCE F.HBM_FENCE_FENCED then
    if s.fld R.HBM_FENCE F.HBM_FENCE_PC = pc then s else s.raise 0xC00000 3
  else
    let s1 := (((s.hbmForget pc).setReg R.HBM_FENCE (BitVec.ofNat 32 (2 ^ 31 + cause * 2 ^ 24 + pc))).setFld (R.HBM_PC_STAT (pc / 2) (pc % 2))
      F.HBM_PC_STAT_FENCE 1).raise 0xC00000 0
    let s2 := { s1 with hbmFill := true, refilled := [], bcache := [] }
    let t := R.HBM_TRAIN
    let s3 := if s2.fld t F.HBM_TRAIN_STATE = 1 ∧ s2.fld t F.HBM_TRAIN_PC = pc then (s2.setFld t F.HBM_TRAIN_STATE 4).raise 0xC00000 1 else s2
    let s4 := s3.setFld (R.HBM_PC_STAT (pc / 2) (pc % 2)) F.HBM_PC_STAT_PAUSE 0
    if s4.flag R.RAS_CFG F.RAS_CFG_AR_HBM then (s4.autoAct 0xC0 0 0x21 pc).orderMode mRECOVER else s4

/-- A correctable error met at an address: corrected and written back (R477). -/
def State.hbmCe (s : State) (a : Nat) : State :=
  let pc := hbmPc a
  ((s.cnt R.HBM_CE).cnt (R.HBM_PC_CE (pc / 2) (pc % 2))).logErr 1 0xC0 0 5 (a / 64)

/-- An uncorrectable error met at an address: the word becomes a poison word (R477), and the errors of a second may fence (R479). -/
def State.hbmUe (s : State) (a : Nat) : State :=
  let pc := hbmPc a
  let s1 := { s with poison := smSet (fun _ => false) s.poison (a / 64) true }
  let s2 := (((s1.cnt R.HBM_UE).cnt (R.HBM_PC_UE (pc / 2) (pc % 2))).raise 0xC00000 2).raise (0xC10000 + pc / 2 * 0x1000) (pc % 2)
  let l := s.lastSecond (smGet (fun _ => []) s.ueAt pc)
  let s3 := { s2.logErr 3 0xC0 0 5 (a / 64) with ueAt := smSet (fun _ => []) s2.ueAt pc l }
  let c := R.HBM_FENCE_CFG
  if s.flag c F.HBM_FENCE_CFG_AUTO ∧ s.fld c F.HBM_FENCE_CFG_UE_LIM ≤ l.length then s3.hbmFence pc 1 else s3

/-- Whether the HBM controller serves. -/
def State.hbmOn (s : State) : Bool := s.mainClk && s.flag R.HBM_CTL F.HBM_CTL_TRAINED

/-- What the ECC of one access finds. [DESIGN CHOICE, log 120] -/
def State.hbmEcc (s : State) (a : Nat) (ecc : HbmEcc) : State :=
  match (if s.poisoned a then HbmEcc.uncorrectable else ecc) with
  | .clean => s
  | .correctable => s.hbmCe a
  | .uncorrectable => s.hbmUe a

/-- Whether an HBM word can be accessed at all. [DEDUCED, log 84] -/
def State.hbmWord (s : State) (a : Nat) : Bool := decide (hbmBase ≤ a) && decide (a < hbmEnd) && (s.hbmPlace a).isSome

def State.pcStat (s : State) (pc : Nat) (f : Fld) : Bool := s.flag (R.HBM_PC_STAT (pc / 2) (pc % 2)) f
def State.setPcStat (s : State) (pc : Nat) (f : Fld) (x : Nat) : State := s.setFld (R.HBM_PC_STAT (pc / 2) (pc % 2)) f x

/-- Whether a pseudo-channel serves its queues: not in a pause, nor in self-refresh (R474, R476). -/
def State.pcServes (s : State) (pc : Nat) : Bool := s.hbmOn && !(s.pcStat pc F.HBM_PC_STAT_PAUSE) && !(s.pcStat pc F.HBM_PC_STAT_SR)

/-- The oldest request of a bank is served; one that waits takes its entry; a read finds what its ECC gives (R471, R472, R477). -/
def State.serveBank (s : State) (pc b : Nat) (ecc : HbmEcc) : State :=
  let k := pc * 32 + b
  match s.bankQ k with
  | [] => s
  | r :: rest =>
    let s1 := ({ s with hbmQ := smSet (fun _ => []) s.hbmQ k rest, hbmLast := smSet (fun _ => 31) s.hbmLast pc b } : State).hbmAdmit k
    if r.wr then s1.cnt64 R.HBM_WR_BYTES 64 else (s1.cnt64 R.HBM_RD_BYTES 64).hbmEcc (64 * r.word) ecc

/-- HBM_BANK_ISSUE (R471, R477): a pseudo-channel issues to the next of the banks that are ready. -/
def execHbmBankIssue (turn : BankTurn) (ecc : HbmEcc) (s : State) : Result :=
  .next (if s.pcServes turn.pc then match s.nextBank turn.pc turn.ready with
    | some b => s.serveBank turn.pc b ecc
    | none => s
    else s)

/-- HBM_SCRUB_READ (R478). -/
def execHbmScrubRead (addr : BitVec 40) (ecc : HbmEcc) (s : State) : Result :=
  .next (if s.hbmOn ∧ s.flag R.HBM_CTL F.HBM_CTL_SCRUB_EN = true ∧ s.hbmWord addr.toNat = true ∧ s.fencedPc ≠ some (hbmPc addr.toNat)
    then (s.cnt64 R.HBM_RD_BYTES 64).hbmEcc addr.toNat ecc else s)

/-- The first request of a list that waits for a bank of a pseudo-channel and has not been promoted is promoted. -/
def State.promote (s : State) (pc : Nat) : List HbmReq → List HbmReq
  | [] => []
  | r :: l => if s.reqKey r / 32 = pc ∧ r.top = false then { r with top := true } :: l else r :: s.promote pc l

/-- HBM_PROMOTE (R472): the oldest request that waits for a bank of the pseudo-channel has waited 10 µs. -/
def execHbmPromote (pc : PcN) (s : State) : Result :=
  .next (if s.hbmOn ∧ s.promote pc s.hbmWait ≠ s.hbmWait
    then ({ s with hbmWait := s.promote pc s.hbmWait } : State).cnt R.HBM_PROMOTE else s)

/-- HBM_FENCE (R479): errors or retraining qualify a pseudo-channel while AUTO = 1. -/
def execHbmFence (pc : PcN) (cause : BitVec 4) (s : State) : Result :=
  .next (if s.hbmOn ∧ (cause = 1 ∨ cause = 2) ∧ s.flag R.HBM_FENCE_CFG F.HBM_FENCE_CFG_AUTO = true then s.hbmFence pc cause.toNat else s)

/-- HBM_REMAP_FILL_DONE (R480): the remapped pages are filled with poison words. -/
def execHbmRemapFillDone (s : State) : Result := .next { s with hbmFill := false }

/-- HBM_SPILL_WITHDRAW (R480): the free spill blocks of the fenced pseudo-channel leave the stack. -/
def execHbmSpillWithdraw (s : State) : Result :=
  .next (match s.fencedPc with
    | some f => { s with withdrawn := true, deepStk := s.deepStk.filter fun b => b % 64 != f }
    | none => s)

/-! ### Training and retraining (R474, R475, R481) -/

/-- HBM_CTL.RUN set: every pseudo-channel trains and the memory is written with zeros. [DEDUCED, log 84] -/
def State.hbmRun (s : State) : State :=
  if s.flag R.HBM_CTL F.HBM_CTL_RUN then s
  else { s.setFld R.HBM_CTL F.HBM_CTL_RUN 1 with mem := smClear s.mem hbmBase hbmEnd, poison := [] }

/-- HBM_TRAINED. -/
def execHbmTrained (s : State) : Result :=
  .next (if s.mainClk ∧ s.flag R.HBM_CTL F.HBM_CTL_RUN = true then s.setFld R.HBM_CTL F.HBM_CTL_TRAINED 1 else s)

/-- A retrain pause begins, or is deferred to the exit from self-refresh (R482). -/
def State.pausePc (s : State) (pc : Nat) : State :=
  if s.pcStat pc F.HBM_PC_STAT_SR then { s with rtDue := smSet (fun _ => false) s.rtDue pc true } else s.setPcStat pc F.HBM_PC_STAT_PAUSE 1

/-- HBM_RETRAIN_DUE (R474). -/
def execHbmRetrainDue (pc : PcN) (s : State) : Result :=
  let busy := (List.range 64).any fun p => s.pcStat p F.HBM_PC_STAT_PAUSE
  .next (if s.hbmOn ∧ s.flag R.HBM_CTL F.HBM_CTL_RT_EN = true ∧ ¬ busy ∧ s.fencedPc ≠ some pc.val then s.pausePc pc else s)

/-- HBM_TRAIN.GO (R475). -/
def State.trainGo (s : State) (pc : Nat) : State :=
  let t := R.HBM_TRAIN
  let s1 := ((s.setFld t F.HBM_TRAIN_PC pc).setFld t F.HBM_TRAIN_STATE 1).setFld t F.HBM_TRAIN_ABORT_ST 0
  if s.fencedPc = some pc then (s1.setFld t F.HBM_TRAIN_STATE 4).raise 0xC00000 1 else s1.pausePc pc

/-- HBM_TRAIN.ABORT: before the completion point it ends the pause; in the cycle of the point it is too late (R475, R483, R549).
[DEDUCED, log 87] -/
def State.trainAbort (s : State) : State :=
  let t := R.HBM_TRAIN
  if s.fld t F.HBM_TRAIN_STATE = 1 then
    let pc := s.fld t F.HBM_TRAIN_PC
    let s1 := { s.setPcStat pc F.HBM_PC_STAT_PAUSE 0 with rtDue := smErase s.rtDue pc }
    ((s1.setFld t F.HBM_TRAIN_STATE 3).setFld t F.HBM_TRAIN_ABORT_ST 1).raise 0xC00000 1
  else s.lateAbort t F.HBM_TRAIN_ABORT_ST

/-- HBM_RETRAIN_END (R474, R475): the pause ends, with or without new settings. -/
def execHbmRetrainEnd (pc : PcN) (ok : Bool) (s : State) : Result :=
  let p := pc.val
  let t := R.HBM_TRAIN
  if ¬ s.hbmOn ∨ ¬ s.pcStat p F.HBM_PC_STAT_PAUSE then .next s
  else
    let s1 := s.setPcStat p F.HBM_PC_STAT_PAUSE 0
    let s2 := if s.fld t F.HBM_TRAIN_STATE = 1 ∧ s.fld t F.HBM_TRAIN_PC = p
      then (if ok then (s1.setFld t F.HBM_TRAIN_STATE 2).point t else s1.setFld t F.HBM_TRAIN_STATE 4).raise 0xC00000 1 else s1
    if ok then .next { s2.cnt R.HBM_RT_CNT with rtFails := smSet (fun _ => 0) s2.rtFails p 0 }
    else
      let n := smGet (fun _ => 0) s2.rtFails p + 1
      let s3 := { (s2.cnt R.HBM_RT_FAIL).raise (0xC10000 + p / 2 * 0x1000) 2 with rtFails := smSet (fun _ => 0) s2.rtFails p n }
      .next (if 2 ≤ n ∧ s.flag R.HBM_FENCE_CFG F.HBM_FENCE_CFG_AUTO = true then s3.hbmFence p 2 else s3)

/-- Whether any deep table is enabled (R476). -/
def State.anyDeep (s : State) : Bool :=
  (List.range 256).any fun n => s.flag (R.EM_TBL_CFG 0 n) F.EM_TBL_CFG_EN && s.flag (R.EM_TBL_CFG 0 n) F.EM_TBL_CFG_STORE

/-- HBM_SR_ENTRY (R476): no request for SR_US. -/
def execHbmSrEntry (ch : Fin 32) (s : State) : Result :=
  let c := ch.val
  .next (if s.hbmOn ∧ s.flag R.HBM_CTL F.HBM_CTL_SR_EN = true ∧ ¬ s.anyDeep ∧ ¬ s.pcStat (2 * c) F.HBM_PC_STAT_PAUSE ∧ ¬ s.pcStat (2 * c + 1) F.HBM_PC_STAT_PAUSE ∧
      s.qDepth (2 * c) = 0 ∧ s.qDepth (2 * c + 1) = 0
    then (s.setPcStat (2 * c) F.HBM_PC_STAT_SR 1).setPcStat (2 * c + 1) F.HBM_PC_STAT_SR 1 else s)

/-- HBM_SR_EXIT (R476): a request comes; a retrain that fell due follows (R482). -/
def execHbmSrExit (ch : Fin 32) (s : State) : Result :=
  let c := ch.val
  if ¬ s.hbmOn ∨ ¬ s.pcStat (2 * c) F.HBM_PC_STAT_SR then .next s
  else
    let s1 := (s.setPcStat (2 * c) F.HBM_PC_STAT_SR 0).setPcStat (2 * c + 1) F.HBM_PC_STAT_SR 0
    .next ([2 * c, 2 * c + 1].foldl (fun s p =>
      if smGet (fun _ => false) s.rtDue p then ({ s with rtDue := smErase s.rtDue p }).setPcStat p F.HBM_PC_STAT_PAUSE 1 else s) s1)

end Sys2Proof.Machine
end

