-- ==== Sys2Proof/Machine/Sec.lean ====
section
/-! DEFINITION. SEC: SHA-384, RSASSA-PSS and modular exponentiation, the acceptance of images, measurements, attestation, owner keys,
signed programs, debug unlock and the command unit (R513–R537). -/

namespace Sys2Proof.Machine

/-! ### SHA-384 (FIPS 180-4) -/

/-- The round constants. -/
def shaK : List Word :=
  [0x428A2F98D728AE22, 0x7137449123EF65CD, 0xB5C0FBCFEC4D3B2F, 0xE9B5DBA58189DBBC, 0x3956C25BF348B538, 0x59F111F1B605D019, 0x923F82A4AF194F9B, 0xAB1C5ED5DA6D8118] ++
  [0xD807AA98A3030242, 0x12835B0145706FBE, 0x243185BE4EE4B28C, 0x550C7DC3D5FFB4E2, 0x72BE5D74F27B896F, 0x80DEB1FE3B1696B1, 0x9BDC06A725C71235, 0xC19BF174CF692694] ++
  [0xE49B69C19EF14AD2, 0xEFBE4786384F25E3, 0x0FC19DC68B8CD5B5, 0x240CA1CC77AC9C65, 0x2DE92C6F592B0275, 0x4A7484AA6EA6E483, 0x5CB0A9DCBD41FBD4, 0x76F988DA831153B5] ++
  [0x983E5152EE66DFAB, 0xA831C66D2DB43210, 0xB00327C898FB213F, 0xBF597FC7BEEF0EE4, 0xC6E00BF33DA88FC2, 0xD5A79147930AA725, 0x06CA6351E003826F, 0x142929670A0E6E70] ++
  [0x27B70A8546D22FFC, 0x2E1B21385C26C926, 0x4D2C6DFC5AC42AED, 0x53380D139D95B3DF, 0x650A73548BAF63DE, 0x766A0ABB3C77B2A8, 0x81C2C92E47EDAEE6, 0x92722C851482353B] ++
  [0xA2BFE8A14CF10364, 0xA81A664BBC423001, 0xC24B8B70D0F89791, 0xC76C51A30654BE30, 0xD192E819D6EF5218, 0xD69906245565A910, 0xF40E35855771202A, 0x106AA07032BBD1B8] ++
  [0x19A4C116B8D2D0C8, 0x1E376C085141AB53, 0x2748774CDF8EEB99, 0x34B0BCB5E19B48A8, 0x391C0CB3C5C95A63, 0x4ED8AA4AE3418ACB, 0x5B9CCA4F7763E373, 0x682E6FF3D6B2B8A3] ++
  [0x748F82EE5DEFB2FC, 0x78A5636F43172F60, 0x84C87814A1F0AB72, 0x8CC702081A6439EC, 0x90BEFFFA23631E28, 0xA4506CEBDE82BDE9, 0xBEF9A3F7B2C67915, 0xC67178F2E372532B] ++
  [0xCA273ECEEA26619C, 0xD186B8C721C0C207, 0xEADA7DD6CDE0EB1E, 0xF57D4F7FEE6ED178, 0x06F067AA72176FBA, 0x0A637DC5A2C898A6, 0x113F9804BEF90DAE, 0x1B710B35131C471B] ++
  [0x28DB77F523047D84, 0x32CAAB7B40C72493, 0x3C9EBE0A15C9BEBC, 0x431D67C49C100D4C, 0x4CC5D4BECB3E42B6, 0x597F299CFC657E2A, 0x5FCB6FAB3AD6FAEC, 0x6C44198C4A475817]

/-- The initial hash value. -/
def shaH : List Word :=
  [0xCBBB9D5DC1059ED8, 0x629A292A367CD507, 0x9159015A3070DD17, 0x152FECD8F70E5939, 0x67332667FFC00B31, 0x8EB44A8768581511, 0xDB0C2E0D64F98FA7, 0x47B5481DBEFA4FA4]

/-- A message schedule extended by `n` words; the latest word comes first. -/
def shaSched : Nat → List Word → List Word
  | 0, w => w
  | n + 1, w =>
    let a := w.getD 1 0
    let b := w.getD 14 0
    let s1 := a.rotateRight 19 ^^^ a.rotateRight 61 ^^^ (a >>> 6)
    let s0 := b.rotateRight 1 ^^^ b.rotateRight 8 ^^^ (b >>> 7)
    shaSched n ((s1 + w.getD 6 0 + s0 + w.getD 15 0) :: w)

/-- One round on the eight working variables. -/
def shaRound (v : List Word) (kw : Word) : List Word :=
  match v with
  | [a, b, c, d, e, f, g, h] =>
    let t1 := h + (e.rotateRight 14 ^^^ e.rotateRight 18 ^^^ e.rotateRight 41) + ((e &&& f) ^^^ (~~~e &&& g)) + kw
    let t2 := (a.rotateRight 28 ^^^ a.rotateRight 34 ^^^ a.rotateRight 39) + ((a &&& b) ^^^ (a &&& c) ^^^ (b &&& c))
    [t1 + t2, a, b, c, d + t1, e, f, g]
  | _ => v

/-- A block of 128 bytes compressed into a hash value. -/
def shaBlock (h : List Word) (blk : List Byte) : List Word :=
  let w16 := (List.range 16).map fun i => (BitVec.ofNat 64 (valBE ((blk.drop (8 * i)).take 8)) : Word)
  let w := (shaSched 64 w16.reverse).reverse
  List.zipWith (· + ·) h ((List.zipWith (· + ·) shaK w).foldl shaRound h)

/-- Blocks compressed in order. -/
def shaBlocks : Nat → List Word → List Byte → List Word
  | 0, h, _ => h
  | n + 1, h, m => shaBlocks n (shaBlock h (m.take 128)) (m.drop 128)

/-- SHA-384 of a message: 48 bytes. [DESIGN CHOICE, log 13] -/
def sha384 (m : List Byte) : List Byte :=
  let pad := (128 + 111 - m.length % 128) % 128
  let msg := m ++ [0x80] ++ List.replicate pad 0 ++ bytesBE 16 (8 * m.length)
  (((shaBlocks (msg.length / 128) shaH msg).take 6).map fun w => bytesBE 8 w.toNat).flatten

/-! ### RSA (R515, R516, R530) -/

/-- A power modulo `n`, over `k` bits of the exponent. -/
def powMod (n : Nat) : Nat → Nat → Nat → Nat → Nat
  | 0, _, _, acc => acc % n
  | k + 1, b, e, acc => powMod n k (b * b % n) (e / 2) (if e % 2 = 1 then acc * b % n else acc)

/-- MGF1 with SHA-384. -/
def mgf1 (seed : List Byte) (n : Nat) : List Byte :=
  (((List.range (ceilDiv n 48)).map fun c => sha384 (seed ++ bytesBE 4 c)).flatten).take n

/-- RSASSA-PSS verification with SHA-384 and a salt of 48 bytes, for a modulus of 3,072 bits (RFC 8017). [DESIGN CHOICE, log 13] -/
def rsaVerify (n e : Nat) (msg sig : List Byte) : Bool :=
  let sv := valBE sig
  let em := bytesBE 384 (powMod n 32 (sv % n) e 1)
  let hh := (em.drop 335).take 48
  let db0 := List.zipWith (· ^^^ ·) (em.take 335) (mgf1 hh 335)
  let db := match db0 with
    | b :: bs => (b &&& 0x7F) :: bs
    | [] => []
  n.testBit 3071 && decide (sv < n) && (em.getLast? == some 0xBC) && !((em.headD 0).getLsbD 7) &&
  (db.take 287 == List.replicate 286 0 ++ [1]) && (hh == sha384 (List.replicate 8 0 ++ sha384 msg ++ db.drop 287))

/-! ### Images (R513–R517) -/

/-- N of R514. -/
def Fuses.svn (f : Fuses) : Nat := (List.range 64).foldl (fun n i => n + b2n (f.svnA.testBit i || f.svnB.testBit i)) 0

/-- N after burning up to a target. -/
def Fuses.burn (f : Fuses) (target : Nat) : Fuses :=
  (List.range 64).foldl (fun f i => if f.svn < target ∧ ¬ (f.svnA.testBit i || f.svnB.testBit i)
    then { f with svnA := f.svnA + 2 ^ i, svnB := f.svnB + 2 ^ i } else f) f

/-- Status codes (R532). -/
def sOK : Nat := 0
def sBAD_SIG_RSA : Nat := 1
def sBAD_SIG_SLH : Nat := 2
def sBAD_KEY : Nat := 3
def sROLLBACK : Nat := 4
def sBAD_IMAGE : Nat := 5
def sNOT_ALLOWED : Nat := 6
def sNOT_READY : Nat := 7
def sBUSY_TARGET : Nat := 8
def sFLASH_ERR : Nat := 9
def sBAD_ARG : Nat := 0xA

/-- Bytes of an image from an offset, and a little-endian field. -/
def img (b : List Byte) (o n : Nat) : List Byte := (b.drop o).take n
def imgLE (b : List Byte) (o n : Nat) : Nat := valLE (img b o n)

def imgType (b : List Byte) : Nat := imgLE b 4 1
def imgSvn (b : List Byte) : Nat := imgLE b 5 1
def imgKeyset (b : List Byte) : Nat := imgLE b 6 2
def imgLen (b : List Byte) : Nat := imgLE b 8 4
def imgPayload (b : List Byte) : List Byte := b.drop 0x4800
def allZero (l : List Byte) : Bool := l.all fun x => x == 0

/-- The SHA-384 of the key fields of an image: RSA and SLH-DSA. -/
def imgKeyRsa (b : List Byte) : List Byte := sha384 (img b 0x80 0x184)
def imgKeySlh (b : List Byte) : List Byte := sha384 (img b 0x204 0x30)

/-- The limits of the fields of a stage-1 image (R517). [DEDUCED, log 39] -/
def stage1Ok (b : List Byte) : Bool :=
  let n := imgLen b
  let f := imgLE b 0x40 4
  let c := imgLE b 0x4C 4
  let g := imgLE b 0x58 4
  decide (f ≤ 0x80000) && decide (imgLE b 0x3C 4 + f ≤ n) && decide (2 * imgLE b 0x44 4 < f) && decide (c ≤ 0x800000) &&
  decide (imgLE b 0x48 4 + c ≤ n) && decide (2 * imgLE b 0x50 4 < c) && decide (g ≤ 64) && decide (imgLE b 0x54 4 + 8 * g ≤ n)

/-- The configuration record of a stage-1 image: offsets and values. -/
def imgCfg (b : List Byte) : List (Nat × Nat) :=
  (List.range (imgLE b 0x58 4)).map fun i =>
    let o := imgLE b 0x54 4 + 8 * i
    (imgLE (imgPayload b) o 4, imgLE (imgPayload b) (o + 4) 4)

/-- The pages a configuration record may name. -/
def cfgPage (a : Nat) : Bool := [0, 0x10, 0xB00, 0xF80].contains (a / 0x1000)

/-- Step 1 of R516. -/
def wellFormed (b : List Byte) (types : List Nat) : Bool :=
  let t := imgType b
  decide (imgLE b 0 4 = 0x5A524C49) && types.contains t && decide (b.length = 0x4800 + imgLen b) &&
  (if t = 1 then decide (imgSvn b ≤ 64) && stage1Ok b else decide (imgSvn b = 0)) && (t != 2 || decide (imgLen b ≤ 0x20000)) &&
  (t != 3 || decide (41 ≤ imgLen b)) && (t != 4 || decide (imgKeyset b = 1)) && ((t != 3 && t != 4) || allZero (img b 0x3C 0x44)) &&
  allZero (img b 0x234 0x1CC) && allZero (img b 0x44E0 0x320)

/-- R516 on an image, with the types an operation allows; an enrolment compares its keys with nothing (R525). [DEDUCED, log 97] -/
def State.accept_ (s : State) (b : List Byte) (types : List Nat) (enrol : Bool) : Nat :=
  let f := s.fuses
  let ks := imgKeyset b
  let own (v t : Nat) : Nat := if ks = 1 then t else v
  let keyOk := enrol || ((ks == 0 || (ks == 1 && f.ownEn)) && (valBE (imgKeyRsa b) == own f.vkhRsa f.okhRsa) && (valBE (imgKeySlh b) == own f.vkhSlh f.okhSlh))
  if ¬ wellFormed b types then sBAD_IMAGE
  else if ¬ keyOk then sBAD_KEY
  else if imgType b = 1 ∧ imgSvn b < f.svn then sROLLBACK
  else if ¬ rsaVerify (valBE (img b 0x80 0x180)) (valBE (img b 0x200 4)) (img b 0 0x400) (img b 0x400 0x180) then sBAD_SIG_RSA
  else if ¬ Config.slhVerify (img b 0x204 0x30) (img b 0 0x400) (img b 0x580 0x3F60) then sBAD_SIG_SLH
  else if sha384 (imgPayload b) ≠ img b 0xC 0x30 then sBAD_IMAGE
  else if imgType b = 1 ∧ ¬ (imgCfg b).all (fun e => cfgPage e.1) then sBAD_IMAGE
  else sOK

/-! ### Memory of SEC commands -/

/-- The window of Fumarole SRAM, which no internal address of R152 names. [DESIGN CHOICE, log 1] -/
def fumSram : Nat := 0x2100000000

/-- Whether a range lies in one memory. -/
def secMem (s : State) (a n : Nat) : Bool :=
  (decide (fumSram ≤ a) && decide (a + n ≤ fumSram + 0x80000)) ||
  match regionOf 0x800 a n with
  | some (.reg, _) => false
  | some (.hbm, _) => s.hbmOk a n
  | some _ => true
  | none => false

/-- Bytes of a memory range. -/
def State.secRead (s : State) (a n : Nat) : List Byte := if hbmBase ≤ a then (s.hbmRead a n).1 else s.rdBytes a n

/-- Whether SEC may write a memory range, and the write. -/
def secOut (s : State) (a n : Nat) : Bool := secMem s a n && !(decide (0x1300000000 ≤ a) && decide (a < 0x1400000000)) && (decide (a < hbmBase) || hbmCtlWritable a n)
def State.secWrite (s : State) (a : Nat) (bs : List Byte) : State :=
  if hbmBase ≤ a then s.hbmPut (if hbmTrace ≤ a then cTRACE else cCTL) a bs else s.wrBytes a bs

def State.secAddr (s : State) : Nat := (s.reg R.SEC_CMD_ADDR_LO).toNat + (s.reg R.SEC_CMD_ADDR_HI).toNat % 256 * 2 ^ 32
def State.secOutAddr (s : State) : Nat := (s.reg R.SEC_CMD_OUT_LO).toNat + (s.reg R.SEC_CMD_OUT_HI).toNat % 256 * 2 ^ 32
def State.secArg (s : State) : Nat := (s.reg R.SEC_CMD_ARG).toNat
def State.secLen (s : State) : Nat := (s.reg R.SEC_CMD_LEN).toNat

/-- The image at an address: its bytes, by its own LEN, or what of it lies in memory. -/
def State.secImage (s : State) (a : Nat) : List Byte :=
  if ¬ secMem s a 0x4800 then []
  else
    let n := 0x4800 + imgLen (s.secRead a 0x4800)
    if secMem s a n then s.secRead a n else s.secRead a 0x4800

/-! ### Measurements (R523), nonces (R527) -/

def State.mr (s : State) (k : Nat) : Nat := smGet (fun _ => 0) s.mrs k
/-- MRk extended with a digest. [DEDUCED, log 39] -/
def State.extend (s : State) (k : Nat) (d : List Byte) : State :=
  { s with mrs := smSet (fun _ => 0) s.mrs k (valBE (sha384 (bytesBE 48 (s.mr k) ++ d))) }

/-- A new debug nonce is drawn. [DESIGN CHOICE, log 12] -/
def State.drawNonce (s : State) : State :=
  { (List.range 8).foldl (fun t w =>
      t.setReg (R.SEC_DBG_NONCE w) (BitVec.ofNat 32 ((Config.randomWord (s.freeCtr + w / 2)).toNat / 2 ^ (32 * (w % 2))))) s with freeCtr := s.freeCtr + 4 }
def State.nonce (s : State) : List Byte := ((List.range 8).map fun w => bytesLE 4 (s.reg (R.SEC_DBG_NONCE w)).toNat).flatten

/-- Whether signed programs are required (R526). -/
def State.reqSigned (s : State) : Bool := s.fuses.ownReq || s.flag R.SEC_CTL F.SEC_CTL_REQ_SIGNED

/-! ### Commands (R530) -/

/-- A command ends with a status, at its completion point. -/
def State.secEnd (s : State) (st : Nat) : State :=
  let s1 := (((s.setFld R.SEC_CMD_CTL F.SEC_CMD_CTL_STATE 2).setReg R.SEC_CMD_STAT (BitVec.ofNat 32 st)).point R.SEC_CMD_CTL).raise 0xD00000 0
  if 1 ≤ st ∧ st ≤ 5 then s1.cnt R.SEC_VERIFY_FAIL else s1

/-- The clusters of a PLOAD image. -/
def maskClus (m : Nat) : List Nat := (List.range 64).filter fun c => m.testBit c

/-- Whether an engine of a cluster runs. -/
def State.clusterRuns (s : State) (c : Nat) : Bool := [0, 1, 2, 3].any fun i => s.engRun (4 * c + i)

/-- Whether a PLOAD that runs bars an engine from starting (R526 step 2). -/
def State.ploadBars (s : State) (e : Nat) : Bool :=
  decide (s.fld R.SEC_CMD_CTL F.SEC_CMD_CTL_STATE = 1) && decide (s.fld R.SEC_CMD_CTL F.SEC_CMD_CTL_OP = 2) &&
  (imgLE (s.secRead s.secAddr 0x44) 0x3C 8).testBit (e / 4)

/-- SEC_CMD_CTL.GO with OP. [DEDUCED, log 96] -/
def State.secGo (s : State) (op : Nat) : State :=
  let c := R.SEC_CMD_CTL
  let s1 := (((s.setFld c F.SEC_CMD_CTL_OP op).setFld c F.SEC_CMD_CTL_STATE 1).setFld c F.SEC_CMD_CTL_ABORT_ST 0).setReg R.SEC_CMD_STAT 0x80000000
  if op = 0 ∨ 0xC ≤ op then s1.secEnd sBAD_ARG
  else if op = 2 ∧ (maskClus (imgLE (s.secRead s.secAddr 0x44) 0x3C 8)).any s.clusterRuns = true then s1.secEnd sBUSY_TARGET
  else s1

/-- PLOAD (R526 steps 3 to 5). -/
def State.pload (s : State) : Nat × State :=
  let b := s.secImage s.secAddr
  let st := s.accept_ b [2] false
  if st ≠ sOK then (st, s)
  else
    let mask := imgLE b 0x3C 8
    let pl := imgPayload b
    let s1 := (maskClus mask).foldl (fun s c =>
      { (s.wrBytes (iramAt c) (pl ++ List.replicate (0x20000 - pl.length) 0)) with
        progs := smSet (fun _ => none) s.progs c (some (valBE (img b 0xC 0x30), pl.length)) }) s
    (sOK, s1.extend 4 (sha384 (img b 0 0x400 ++ bytesLE 8 mask)))

/-- The body of an attestation report (R524). -/
def State.report (s : State) (nonce : List Byte) : List Byte :=
  let f := s.fuses
  let flags := b2n f.ownEn + 2 * b2n s.reqSigned + 4 * b2n f.dbgDis + 8 * s.fld R.SEC_STAT F.SEC_STAT_DBG_LVL + 64 * s.fld R.TIME_STAT F.TIME_STAT_VALID
  bytesLE 4 0x5A524C41 ++ bytesLE 8 f.serial ++ nonce ++ bytesLE 6 (s.dNs / 1000000000) ++ bytesLE 4 (s.dNs % 1000000000) ++
  bytesLE 1 s.mode ++ bytesLE 1 f.svn ++ bytesLE 1 flags ++ bytesLE 1 (s.fld R.SEC_STAT F.SEC_STAT_BOOT_RES) ++ List.replicate 6 0 ++
  ((List.range 8).map fun k => bytesBE 48 (s.mr k)).flatten ++ List.replicate 64 0

/-- ATTEST. -/
def State.attest (s : State) : Nat × State :=
  if ¬ s.flag R.SEC_STAT F.SEC_STAT_ID_READY then (sNOT_READY, s)
  else if ¬ secMem s s.secAddr 32 ∨ ¬ secOut s s.secOutAddr 36560 then (sBAD_ARG, s)
  else
    let body := s.report (s.secRead s.secAddr 32)
    let u := s.fuses.uds
    (sOK, s.secWrite s.secOutAddr (body ++ (Config.idSignRsa u body).take 384 ++ (Config.idSignSlh u body).take 35664))

/-- OWN_ENROL (R525). [DEDUCED, log 97] -/
def State.enrol (s : State) : Nat × State :=
  if s.mode ≠ mCONFIGURE ∨ s.fuses.ownEn then (sNOT_ALLOWED, s)
  else
    let b := s.secImage s.secAddr
    let st := s.accept_ b [4] true
    if st ≠ sOK then (st, s)
    else
      let f := { s.fuses with okhRsa := valBE (imgKeyRsa b), okhSlh := valBE (imgKeySlh b), ownEn := true,
                              ownReq := s.fuses.ownReq || (imgPayload b).head? == some 1 }
      (sOK, { s with fuses := f }.extend 5 (sha384 (imgKeyRsa b ++ imgKeySlh b)))

/-- DBG_UNLOCK of the token in `b` (R527, R528). [DEDUCED, log 97] -/
def State.unlock (s : State) (b : List Byte) : Nat × State :=
  let st := s.accept_ b [3] false
  let p := imgPayload b
  let lvl := imgLE p 40 1
  let fits := imgLE p 0 8 = s.fuses.serial ∧ (img p 8 32 = s.nonce) ∧ s.fuses.dbgDis = false ∧ s.mode ≠ mSIMMER ∧ s.mode ≠ mDORMANT ∧
              lvl < 8 ∧ (imgKeyset b = 0 ∨ lvl = 1 ∨ lvl = 3)
  if st ≠ sOK then (st, s.cnt R.SEC_DBG_FAIL)
  else if ¬ fits then (sNOT_ALLOWED, s.cnt R.SEC_DBG_FAIL)
  else (sOK, (((s.setFld R.SEC_STAT F.SEC_STAT_DBG_LVL lvl).drawNonce.extend 6 (sha384 (img b 0 0x400))).raise 0xD00000 2))

/-- An erased byte of flash. [DESIGN CHOICE, log 6] -/
def byteFF : Nat → Byte := fun _ => 0xFF
def State.flashRead (s : State) (a n : Nat) : List Byte := (List.range n).map fun i => smGet byteFF s.flash (a + i)
def State.flashPut (s : State) (a : Nat) : List Byte → State
  | [] => s
  | b :: bs => { s with flash := smSet byteFF s.flash a b }.flashPut (a + 1) bs

/-- Whether a flash range may be written (R531): it keeps clear of the identity area and straddles no slot start.
[DESIGN CHOICE, log 7] -/
def State.flashOk (s : State) (a n : Nat) : Bool :=
  let sb := s.fuses.slotB * 0x100000
  decide (a + n + 0x40000 ≤ Config.flashSize) && !(decide (a < sb) && decide (sb < a + n))

/-- FLASH_WRITE. [DESIGN CHOICE, log 98] -/
def State.flashWrite (s : State) : Nat × State :=
  if ¬ s.flashOk s.secArg s.secLen then (sNOT_ALLOWED, s)
  else if ¬ secMem s s.secAddr s.secLen then (sBAD_ARG, s)
  else (sOK, s.flashPut s.secArg (s.secRead s.secAddr s.secLen))

/-- A FLASH_WRITE that is cut: the header sector is erased, and from the end back a number of bytes that the spec leaves open is written.
[DESIGN CHOICE, log 98] -/
def State.flashCut (s : State) : State :=
  if s.fld R.SEC_CMD_CTL F.SEC_CMD_CTL_STATE = 1 ∧ s.fld R.SEC_CMD_CTL F.SEC_CMD_CTL_OP = 8 ∧ s.flashOk s.secArg s.secLen = true ∧
     secMem s s.secAddr s.secLen = true then
    let n := s.secLen
    let rest := n - min n 0x1000
    let k := (Config.freeValue s.freeCtr).toNat % (rest + 1)
    let s1 := { s with freeCtr := s.freeCtr + 1 }.flashPut s.secArg (List.replicate (min n 0x1000) 0xFF)
    s1.flashPut (s.secArg + n - k) ((s.secRead s.secAddr n).drop (n - k))
  else s

/-- SVN_ADVANCE (R520). [DEDUCED, log 97] -/
def State.svnAdvance (s : State) : Nat × State :=
  let n := s.secArg
  if s.mode ≠ mCONFIGURE ∧ s.mode ≠ mMAINTAIN then (sNOT_ALLOWED, s)
  else if n < s.fuses.svn ∨ 64 < n ∨ s.bootSvn < n then (sBAD_ARG, s)
  else (sOK, { s with fuses := s.fuses.burn n })

/-- MODEXP: the result modulo zero is not stated, and is 384 bytes of free values. [DESIGN CHOICE, log 15] -/
def State.modexp (s : State) : Nat × State :=
  if ¬ secMem s s.secAddr 1152 ∨ ¬ secOut s s.secOutAddr 384 then (sBAD_ARG, s)
  else
    let op (i : Nat) : Nat := valBE (s.secRead (s.secAddr + 384 * i) 384)
    if op 2 = 0 then
      (sOK, { s.secWrite s.secOutAddr ((List.range 48).map fun i => bytesBE 8 (Config.freeValue (s.freeCtr + i)).toNat).flatten with freeCtr := s.freeCtr + 48 })
    else (sOK, s.secWrite s.secOutAddr (bytesBE 384 (powMod (op 2) 3072 (op 0 % op 2) (op 1) 1)))

/-- IREPAIR. -/
def State.irepair (s : State) : Nat × State :=
  let c := s.secArg % 64
  let w := bits s.secArg 30 16
  match smGet (fun _ => none) s.progs c with
  | none => (sNOT_ALLOWED, s)
  | some (h, n) =>
    if ¬ secMem s s.secAddr s.secLen then (sBAD_ARG, s)
    else
      let pl := s.secRead s.secAddr s.secLen
      if s.secLen ≠ n ∨ valBE (sha384 pl) ≠ h then (sBAD_IMAGE, s)
      else (sOK, s.wrBytes (iramAt c + 4 * w) (img (pl ++ List.replicate 0x20004 0) (4 * w) 4))

/-- What a command does, and its status. [DEDUCED, log 96] -/
def State.secRun (s : State) (op : Nat) : Nat × State :=
  match op with
  | 1 => (s.accept_ (s.secImage s.secAddr) [s.secArg] false, s)
  | 2 => s.pload
  | 3 => if s.secArg ≠ 7 ∨ ¬ secMem s s.secAddr 48 then (sBAD_ARG, s) else (sOK, s.extend 7 (s.secRead s.secAddr 48))
  | 4 => s.attest
  | 5 => s.svnAdvance
  | 6 => s.enrol
  | 7 => s.unlock (s.secImage s.secAddr)
  | 8 => s.flashWrite
  | 9 => if ¬ secMem s s.secAddr s.secLen ∨ ¬ secOut s s.secOutAddr 48 then (sBAD_ARG, s)
         else (sOK, s.secWrite s.secOutAddr (sha384 (s.secRead s.secAddr s.secLen)))
  | 0xA => s.modexp
  | 0xB => s.irepair
  | _ => (sBAD_ARG, s)

/-- The mailbox of the debugger holds a token and Fumarole unlocks with it (R558). [DEDUCED, log 99] -/
def State.mbxRun (s : State) : State :=
  let hd := rdMap s.mbx 0 0x4800
  let n := 0x4800 + imgLen hd
  let r := s.unlock (if n ≤ 0x8000 then rdMap s.mbx 0 n else hd)
  r.2.setReg R.DBG_MBX_CTL (BitVec.ofNat 32 r.1)

/-- SEC_CMD_COMPLETE: the running command reaches its completion point and ends; with none running, a token of the mailbox is taken. -/
def execSecCmdComplete (s : State) : Result :=
  if s.fld R.SEC_CMD_CTL F.SEC_CMD_CTL_STATE = 1 then
    let r := s.secRun (s.fld R.SEC_CMD_CTL F.SEC_CMD_CTL_OP)
    .next (r.2.secEnd r.1)
  else if s.flag R.DBG_MBX_CTL F.DBG_MBX_CTL_BUSY then .next s.mbxRun
  else .next s

/-- SEC_CMD_CTL.ABORT: a command that runs has not reached its completion point; in the cycle of the point it is too late (R530, R533,
R549). [DEDUCED, log 87] -/
def State.secAbort (s : State) : State :=
  let c := R.SEC_CMD_CTL
  if s.fld c F.SEC_CMD_CTL_STATE = 1 then
    let s1 := s.flashCut
    ((((s1.setFld c F.SEC_CMD_CTL_STATE 3).setFld c F.SEC_CMD_CTL_ABORT_ST 1).setReg R.SEC_CMD_STAT 0)).raise 0xD00000 0
  else s.lateAbort c F.SEC_CMD_CTL_ABORT_ST

/-- IDENTITY_DERIVE (R521): the identity keys are ready. -/
def execIdentityDerive (s : State) : Result :=
  .next (if s.released ∧ s.mainOn = true ∧ s.mode ≠ mBOOT ∧ ¬ s.flag R.SEC_STAT F.SEC_STAT_ID_READY
    then (s.setFld R.SEC_STAT F.SEC_STAT_ID_READY 1).raise 0xD00000 1 else s)

end Sys2Proof.Machine
end

