-- ==== Sys2Proof/Machine/Power.lean ====
section
/-! DEFINITION. Power domains (R496, R497), resets of cores (R491, R492), the power sequencer, resets of the device and the thermal trip
(R494, R602–R620). -/

namespace Sys2Proof.Machine

/-! ### Core resets (R491, R492) -/

/-- A context starts at an address at supervisor level with D = 1. -/
def State.startCtx (s : State) (a pc : Nat) : State := s.setThr a { pc := pc % pcMod a, fresh := false, halted := (s.thr a).halted }

/-- DEV_CORE_ENTRY. -/
def State.coreEntry (s : State) : Nat := (s.reg R.DEV_CORE_ENTRY_LO).toNat + (s.reg R.DEV_CORE_ENTRY_HI).toNat % 128 * 2 ^ 32

/-- A control-core reset: locks abandoned, tasks ended, registers cleared, and after 64 CTL cycles, 16 ticks of the model,
restart at DEV_CORE_ENTRY. [DEDUCED, log 53] -/
def State.coreReset (s : State) (c : Nat) : State :=
  let s0 := [0, 1, 2, 3].foldl (fun s i => s.dropRequests (0x800 + 4 * c + i)) s
  let s1 := [0, 1, 2, 3].foldl (fun s i =>
    let a := 0x800 + 4 * c + i
    let s2 := ((s.abandonAgent a).abortTask a).startCtx a s.coreEntry
    s2.setThr a { s2.thr a with rstEnd := s.clk + 16 }) (s0.setEng (256 + c) {})
  ({ s1 with coreWakes := s1.coreWakes.filter (· ≠ c) }).setReg (R.DEV_CORE_STAT c) 0

/-- A reset of the Fumarole core alone. -/
def State.fumReset (s : State) : State := (s.abandonAgent 0x810).startCtx 0x810 s.fumEntry

/-! ### Power domains (R496, R497) -/

/-- The state without the entries of a key range in the maps of registers and memories. -/
def State.wipeRegs (s : State) (lo hi : Nat) : State := { s with regs := smClear s.regs lo hi }
def State.wipeMem (s : State) (lo hi : Nat) : State := { s with mem := smClear s.mem lo hi }

/-- The packets that lie in a pipeline: in its engines, before its parser, or waiting for their VOQ. -/
def State.pipePkts (s : State) (p : Nat) : List Nat :=
  ((List.range 16).map fun i => (s.eng (16 * p + i)).q ++ (s.eng (16 * p + i)).held).flatten ++
  ((s.srcQ.filter fun e => e.1 / 128 == p).map Prod.snd).flatten ++ s.voqInL p

/-- A pipeline that is switched off loses its contents. [DESIGN CHOICE, log 5] -/
def State.losePipe (s : State) (p : Nat) : State :=
  let s1 := (List.range 128).foldl (fun s t => (s.abandonAgent (128 * p + t)).abortTask (128 * p + t)) s
  let ks := s1.pipePkts p
  let s2 := ks.foldl State.endPkt { s1 with lkps := s1.lkps.filter fun e => !(ks.contains e.2.pkt) }
  let s3 := ((((s2.wipeRegs (0x200000 + p * 0x10000) (0x210000 + p * 0x10000)).wipeRegs (0x300000 + p * 0x4000) (0x304000 + p * 0x4000)).wipeRegs
    (0x80000 + p * 0x4000) (0x84000 + p * 0x4000)).wipeRegs (0x100000 + p * 0x1000) (0x101000 + p * 0x1000))
  let s4 := (((s3.wipeMem (dataAt (16 * p)) (dataAt (16 * p + 16))).wipeMem (shrAt (4 * p)) (shrAt (4 * p + 4))).wipeMem (stateAt p) (stateAt (p + 1))).wipeMem
    (iramAt (4 * p)) (iramAt (4 * p + 4))
  { s4 with
    thrs := smClear s4.thrs (128 * p) (128 * p + 128), engs := smClear s4.engs (16 * p) (16 * p + 16), srcQ := smClear s4.srcQ (128 * p) (128 * p + 128),
    parsed := smErase s4.parsed p, voqIn := smErase s4.voqIn p, pfcSent := smClear s4.pfcSent (4 * p) (4 * p + 4),
    stamps := smClear s4.stamps (4 * p) (4 * p + 4), quanta := smClear s4.quanta (32 * p) (32 * p + 32), progs := smClear s4.progs (4 * p) (4 * p + 4),
    cycBase := smSet (fun _ => 0) s4.cycBase p s4.clk }

/-- A lookup half that is switched off loses its contents (R496). -/
def State.loseHalf (s : State) (h : Nat) : State :=
  let pg := 0x400000 + h * 0x100000
  let own : List (Nat × Nat) := [(0x601000 + h * 0x1000, 0x602000 + h * 0x1000), (0xA00000 + h * 0x1000, 0xA01000 + h * 0x1000),
    -- what the EM, TC and VIEW pages of a half hold for it alone
    (pg, pg + 0x40), (pg + 0x140, pg + 0x148), (pg + 0x14C, pg + 0x1000), (pg + 0x3000, pg + 0x3040), (pg + 0x3200, pg + 0x4000), (pg + 0x4000, pg + 0x4040)]
  let s1 := own.foldl (fun t r => t.wipeRegs r.1 r.2) s
  let s2 := { s1 with
    meters := smClear s1.meters (h * 131072) (h * 131072 + 131072), ctrs := smClear s1.ctrs (h * 2 ^ 20) (h * 2 ^ 20 + 2 ^ 20),
    bcache := smClear s1.bcache (h * 4096) (h * 4096 + 4096), learnQ := smErase s1.learnQ h, srcChks := smErase s1.srcChks h,
    damps := smClear s1.damps (h * 2 ^ 64) (h * 2 ^ 64 + 2 ^ 64) }
  s2

/-- The tables, which both halves hold, are lost when neither half is on. -/
def State.loseTables (s : State) : State :=
  { s with em := [], tcr := [], dirty := [], mrMoves := [], mrIns := none, emBad := [], tcBad := [] }

/-- What DEV_PWR names: pipelines 0–15, halves 16 and 17, PCIe links 18–21. -/
def State.loseDom (s : State) (d : Nat) : State :=
  if d < 16 then s.losePipe d else if d < 18 then s.loseHalf (d - 16) else s.pcieDown (d - 18)

/-- Whether a pipeline may be switched off: its ports and engines are disabled. -/
def State.pipeIdle (s : State) (p : Nat) : Bool :=
  ([0, 1, 2, 3].all fun j => !(s.flag (R.PORT_CTL (4 * p + j)) F.PORT_CTL_EN)) && ((List.range 16).all fun i => !(s.engRun (16 * p + i)))

/-- Whether a write of DEV_PWR is taken (R497). [DEDUCED, log 93] -/
def State.pwrOk (s : State) (v : Nat) : Bool :=
  let old := (s.reg R.DEV_PWR_STAT).toNat
  let off (d : Nat) : Bool := old.testBit d && !(v.testBit d)
  let fencedOff : Bool := (List.range 22).all fun d => (v.testBit d == old.testBit d) || (off d && decide (d < 18) && (s.reg R.DEV_FENCE).toNat.testBit d)
  (decide (s.mode = 3) || decide (s.mode = 7) || (decide (s.mode = 8) && fencedOff)) && !(s.flag R.DEV_PWR_STAT F.DEV_PWR_STAT_BUSY) &&
  ((List.range 16).all fun p => !(off p) || s.pipeIdle p) &&
  ([0, 1].all fun h => !(off (16 + h)) || ((List.range 8).all fun i => !(v.testBit (8 * h + i))))

/-- A write of DEV_PWR that is taken: the change runs until it completes. [DEDUCED, log 93] -/
def State.pwrWrite (s : State) (v : Nat) : State :=
  (s.setReg R.DEV_PWR (BitVec.ofNat 32 (v % 2 ^ 22))).setFld R.DEV_PWR_STAT F.DEV_PWR_STAT_BUSY 1

/-- The domains on become `w`; the change has ended when they are those of DEV_PWR. [DEDUCED, log 93] -/
def State.pwrReach (s : State) (w : Nat) : State :=
  let s1 := s.setReg R.DEV_PWR_STAT (BitVec.ofNat 32 (2 ^ 31 + w))
  if w = (s.reg R.DEV_PWR).toNat then (s1.setFld R.DEV_PWR_STAT F.DEV_PWR_STAT_BUSY 0).raise 0 3 else s1

/-- DEV_PWR_CHANGE_COMPLETE: every change but the return of a lookup half. -/
def execDevPwrChangeComplete (s : State) : Result :=
  if ¬ s.flag R.DEV_PWR_STAT F.DEV_PWR_STAT_BUSY then .next s
  else
    let old := (s.reg R.DEV_PWR_STAT).toNat % 2 ^ 22
    let new := (s.reg R.DEV_PWR).toNat
    let back := [16, 17].filter fun d => new.testBit d && !(old.testBit d)
    let s1 := ((List.range 22).filter fun d => old.testBit d && !(new.testBit d)).foldl State.loseDom s
    let s2 := if new.testBit 16 || new.testBit 17 then s1 else s1.loseTables
    -- a SerDes macro goes off with the second of its pipelines
    let s3 := ((List.range 8).filter fun m => decide (old / 2 ^ (2 * m) % 4 ≠ 0) && decide (new / 2 ^ (2 * m) % 4 = 0)).foldl
      (fun t m => t.wipeRegs (0xC0000 + m * 0x1000) (0xC1000 + m * 0x1000)) s2
    .next (s3.pwrReach (back.foldl (fun n d => n - 2 ^ d) new))

/-- LKP_HALF_COPY_DONE: a lookup half is back with the entries of the other. -/
def execLkpHalfCopyDone (half : HalfN) (s : State) : Result :=
  let d := 16 + half.val
  let old := (s.reg R.DEV_PWR_STAT).toNat % 2 ^ 22
  .next (if s.flag R.DEV_PWR_STAT F.DEV_PWR_STAT_BUSY ∧ (s.reg R.DEV_PWR).toNat.testBit d = true ∧ ¬ old.testBit d
    then s.pwrReach (old + 2 ^ d) else s)

/-! ### Resets (R494, R603–R608, R619) -/

/-- Whether the rails are valid (R602). [DEDUCED, log 81] -/
def State.railsOk (s : State) : Bool := s.pins.pgMain && s.pins.pgHbm

/-- Everything the part holds is reset; fuses, flash, straps and pins stay, and what the outside has seen.
[DESIGN CHOICE, log 8; DEDUCED, log 95] -/
def State.loseAll (s : State) : State :=
  { State.reset with
    pending := s.pending, clk := s.clk, freeCtr := s.freeCtr, outs := s.outs, pins := s.pins, fuses := s.fuses, flash := s.flash,
    nextId := s.nextId, cycBase := (List.range 18).foldl (fun m d => smSet (fun _ => 0) m d s.clk) [] }

/-- A reset leaves the sequencer raising the rails, unless a thermal trip holds them. [DESIGN CHOICE, log 5; DEDUCED, log 95] -/
def State.railsUp (s : State) : State := { s with pins := { s.pins with enMain := !s.pins.therm } }

/-- POR_RESET: every block is reset, Fumarole and the time unit too. [DEDUCED, log 78; DEDUCED, log 95] -/
def State.porReset (s0 : State) : State :=
  let s := s0.flashCut
  { s.loseAll.railsUp with pins := { s.railsUp.pins with por := true } }

def execPorReset (s : State) : Result := .next (if s.mode = mOFF then s else s.porReset)

/-- SYS_RESET: every block except Fumarole and the time unit; CYCLE of the Fumarole core starts again (R149). -/
def execSysReset (s : State) : Result :=
  .next (if s.mode = mOFF then s
    else { (s.flashCut.loseMain false).railsUp with cycBase := (List.range 18).foldl (fun m d => smSet (fun _ => 0) m d s.clk) [] })

/-- RESET_RELEASE: the straps of a POR_N edge are latched and its thermal trip ends; with the rails valid the device enters BOOT. -/
def execResetRelease (s : State) : Result :=
  if s.mode ≠ mRESET then .next s
  else
    let p := s.pins
    let s1 := if p.por then { s with pins := { p with por := false, therm := false, enMain := true, sscSelL := p.sscSel, sscFmL := p.sscFm } } else s
    .next (if s1.railsOk then s1.enterMode mBOOT else s1)

/-- Whether the sequencer is at work: from OFF, in a reset that found the rails down, or at a wake from DORMANT. [DEDUCED, log 81] -/
def State.sequencing (s : State) : Bool :=
  !s.pins.therm && !(s.railsOk) && (decide (s.mode = mOFF) || decide (s.mode = mRESET) || (decide (s.mode = mDORMANT) && decide (s.wakePend ≠ 0)))

/-- VDD_AON_UP: PWR_EN_MAIN is driven high. -/
def execVddAonUp (s : State) : Result := .next (if s.mode = mOFF then { s with pins := { s.pins with enMain := true } } else s)

/-- PG_MAIN_UP: PWR_EN_HBM is driven high. -/
def execPgMainUp (s : State) : Result :=
  .next (if s.sequencing ∧ s.pins.enMain = true then { s with pins := { s.pins with pgMain := true, enHbm := true } } else s)

/-- RAILS_VALID: OFF ends in RESET. -/
def execRailsValid (s : State) : Result :=
  if s.sequencing ∧ s.pins.enHbm = true then
    let s1 := { s with pins := { s.pins with pgMain := true, pgHbm := true } }
    .next (if s.mode = mOFF then { (s1.setReg R.DEV_MODE 0x11) with pins := { s1.pins with por := true } } else s1)
  else .next s

/-- PG_TIMEOUT: both enables fall, and the sequencer waits. -/
def execPgTimeout (s : State) : Result :=
  .next (if s.sequencing ∧ s.pins.enMain = true
    then { s with pins := { s.pins with enMain := false, enHbm := false, pgMain := false, pgHbm := false, retry := true } } else s)

/-- PWR_SEQ_RETRY: the sequencer starts again. -/
def execPwrSeqRetry (s : State) : Result := .next (if s.pins.retry then { s with pins := { s.pins with retry := false, enMain := true } } else s)

/-- THERMTRIP: as a reset by POR_N, with the rail enables low until POR_N rises. -/
def execThermtrip (s : State) : Result :=
  .next (if s.mode = mOFF then s
    else { s.porReset with pins := { s.pins with por := true, therm := true, retry := false, enMain := false, enHbm := false, pgMain := false, pgHbm := false } })

/-- POWER_LOSS: OFF. Fuses, flash and straps remain. -/
def execPowerLoss (s : State) : Result :=
  let p := s.pins
  let q : Pins := { p with enMain := false, enHbm := false, pgMain := false, pgHbm := false, therm := false, retry := false, por := true }
  .next (({ s.flashCut.loseAll with pins := { q with sscSelL := 0, sscFmL := 0 } } : State).setReg R.DEV_MODE 0x10)

/-- STRAP_CHANGE (R611): filter and slew straps are live; SSC straps count at the next rise of POR_N. -/
def execStrapChange (which : StrapN) (v : BitVec 3) (s : State) : Result :=
  let p := s.pins
  let n := v.toNat
  .next { s with pins := match which with
    | .filtRst => { p with filtRst := n % 4 } | .filtTime => { p with filtTime := n % 4 }
    | .slewIo18 => { p with slewIo18 := n % 4 } | .slewIo33 => { p with slewIo33 := n % 4 }
    | .sscSel => { p with sscSel := n } | .sscFm => { p with sscFm := n % 4 } }

end Sys2Proof.Machine
end

