-- ==== Sys2Proof/Machine/Debug.lean ====
section
/-! DEFINITION. Debug and trace (R555–R573): halts, steps, breakpoints, accesses of the debugger, the mailbox, the readout of the Tephra
ring, and the JTAG port. -/

namespace Sys2Proof.Machine

/-- The agent ID of the debugger (R7). -/
def aDBG : Nat := 0x811

def dOK : Nat := 0
def dDENIED : Nat := 1
def dBAD_ADDR : Nat := 2

def State.dbgLvl (s : State) (b : Nat) : Bool := (s.fld R.SEC_STAT F.SEC_STAT_DBG_LVL).testBit b

/-- Whether a register of the DBG page is open at every level (R556, R559). -/
def dbgOpen (off : Nat) : Bool := off == 0x48 || (decide (0x70 ≤ off) && decide (off < 0x7C)) || (decide (0x300 ≤ off) && decide (off < 0x340))

/-- Whether the level opens a register of the DBG page: level bit 0 for breakpoints, bit 0 or 1 for the rest (R556). [DEDUCED, log 21] -/
def State.dbgMay (s : State) (off : Nat) : Bool :=
  dbgOpen off || s.dbgLvl 0 || (s.dbgLvl 1 && !(decide (0x100 ≤ off) && decide (off < 0x200)))

/-! ### Halt, step and resume (R560–R564) -/

def State.dbgScope (s : State) : Nat := s.fld R.DBG_HALT F.DBG_HALT_SCOPE
def State.dbgId (s : State) : Nat := s.fld R.DBG_HALT F.DBG_HALT_ID

/-- The threads or contexts of the target; none for an ID that the scope does not have. -/
def State.dbgTarget (s : State) : Option (List Nat) :=
  let n := s.dbgId
  match s.dbgScope with
  | 0 => some [n]
  | 1 => if n < 256 then some ((List.range 8).map fun t => 8 * n + t) else none
  | 2 => if n < 16 then some ((List.range 128).map fun t => 128 * n + t) else none
  | _ => if n < 17 then some [0x800 + n] else none

/-- The pipelines of a target. -/
def pipesOf (l : List Nat) : List Nat := (List.range 16).filter fun p => l.any fun a => isEng a && pipeOf a == p

/-- Threads halt before their next issue; a hold that this starts is seen. [DEDUCED, log 101] -/
def State.haltAll (s : State) (l : List Nat) : State :=
  let s1 := l.foldl (fun s a => s.setThr a { s.thr a with halted := true, step := false }) s
  (pipesOf l).foldl (fun t p => t.holdFrom s p) s1

/-- Whether the target is halted. -/
def State.dbgHalted (s : State) : Bool := match s.dbgTarget with
  | some l => l.all fun a => (s.thr a).halted
  | none => false

def State.dbgStatus (s : State) (n : Nat) : State := s.setFld R.DBG_HSTAT F.DBG_HSTAT_STATUS n

/-- Whether the level opens the target: bit 0 for engine threads, bit 1 for contexts. -/
def State.dbgTargetOpen (s : State) : Bool := if s.dbgScope = 3 then s.dbgLvl 1 else s.dbgLvl 0

/-- One command of DBG_HALT, by its bit. -/
def State.dbgCmd (s : State) (b : Nat) : State :=
  if ¬ s.dbgTargetOpen then s.dbgStatus dDENIED
  else match s.dbgTarget with
  | none => s.dbgStatus dBAD_ADDR
  | some l =>
    if (b = 28 ∨ b = 27) ∧ s.dbgScope ≠ 0 then s.dbgStatus dBAD_ADDR
    else
      let s1 := match b with
        | 31 => s.haltAll l
        | 30 => l.foldl (fun s a => s.setThr a { s.thr a with halted := false, step := false }) s
        | 29 => l.foldl (fun s a => if (s.thr a).halted then s.setThr a { s.thr a with step := true } else s) s
        | 28 => l.foldl (fun s a => s.threadReset a false) s
        | _ => l.foldl (fun s a => s.event a 14) s
      s1.dbgStatus dOK

/-- A write of DBG_HALT: the target, then the commands whose bits are set, the highest bit first. [DEDUCED, log 34] -/
def State.dbgHalt (s : State) (v : W32) : State :=
  let s1 := s.setReg R.DBG_HALT (v &&& 0x060007FF)
  [31, 30, 29, 28, 27].foldl (fun s b => if v.toNat.testBit b then s.dbgCmd b else s) s1

/-! ### Breakpoints (R565, R571) -/

/-- BREAKPOINT_HIT: the fetch or access that breakpoint `n` watches, by thread `a`, at a halfword address or offset. -/
def execBreakpointHit (n : Fin 16) (a : EngThr) (addr : BitVec 32) (s : State) : Result :=
  let c := R.DBG_BP_CTL n
  let e := engOf a
  let k := s.fld c F.DBG_BP_CTL_KIND
  let lo := (s.reg (R.DBG_BP_ADDR n)).toNat
  let hi := (s.reg (R.DBG_BP_LIM n)).toNat
  let hit := if k = 1 then decide (addr.toNat = lo % 65536) && decide (s.pc a = addr.toNat) && s.eligible a
             else k ≠ 0 && decide (lo ≤ addr.toNat) && decide (addr.toNat ≤ hi)
  if ¬ s.flag c F.DBG_BP_CTL_EN ∨ s.fld c F.DBG_BP_CTL_ENGINE ≠ e ∨ ¬ (s.fld c F.DBG_BP_CTL_THR).testBit (a.val % 8) ∨ ¬ hit ∨ ¬ s.pipeOn (pipeOf a)
  then .next s
  else
    let l := match s.fld c F.DBG_BP_CTL_ACT with
      | 0 => [a.val]
      | 1 => (List.range 8).map fun t => 8 * e + t
      | _ => (List.range 128).map fun t => 128 * pipeOf a + t
    .next (((s.cnt (R.DBG_BP_HITS n)).raise 0xF00000 0).haltAll l)

/-! ### Accesses (R557) -/

/-- The single halted thread or context that accesses act on, or the status that refuses them. [DESIGN CHOICE, log 31; DEDUCED, log 34] -/
def State.dbgOne (s : State) : Except Nat Nat :=
  if ¬ s.dbgTargetOpen then .error dDENIED
  else match s.dbgTarget with
  | some [a] => if (s.thr a).halted then .ok a else .error dBAD_ADDR
  | _ => .error dBAD_ADDR

/-- A register of the halted target (DBG_TREG_SEL). -/
def State.tregGet (s : State) : Except Nat Word :=
  match s.dbgOne with
  | .error e => .error e
  | .ok a =>
    let n := s.fld R.DBG_TREG_SEL F.DBG_TREG_SEL_NUM
    if s.flag R.DBG_TREG_SEL F.DBG_TREG_SEL_SPECIAL then
      match s.sregGet a n with
      | some v => .ok v
      | none => .error dBAD_ADDR
    else if n < 32 then .ok (s.x a n) else .error dBAD_ADDR

/-- A write of both halves of a register of the halted target. -/
def State.tregSet (s : State) (v : Word) : State :=
  match s.dbgOne with
  | .error e => s.dbgStatus e
  | .ok a =>
    let n := s.fld R.DBG_TREG_SEL F.DBG_TREG_SEL_NUM
    if s.flag R.DBG_TREG_SEL F.DBG_TREG_SEL_SPECIAL then
      if (s.sregGet a n).isNone ∨ sregRO n = true ∨ (isEng a ∧ 0x100 ≤ n) then s.dbgStatus dBAD_ADDR else (s.sregSet a n v).dbgStatus dOK
    else if n < 32 then (s.setX a n v).dbgStatus dOK else s.dbgStatus dBAD_ADDR

/-- Where a memory access of the debugger goes: the local regions of an engine thread, or the internal addresses of R152.
[DEDUCED, log 100] -/
def accRegion (a adr n : Nat) : Option (Region × Nat) :=
  match (if isEng a then regionOf a adr n else none) with
  | some r => some r
  | none => regionOf 0x800 adr n

/-- The place of a memory access of the debugger, or its status. [DEDUCED, log 100] -/
def State.accPlace (s : State) (adr n : Nat) (wr : Bool) : Except Nat Place :=
  match s.dbgOne with
  | .error e => .error e
  | .ok a =>
    match accRegion a adr n with
    | none => .error dBAD_ADDR
    | some (.reg, p) => if n = 4 ∧ p % 4 = 0 then (if s.dbgLvl 1 then .ok (.reg p) else .error dDENIED) else .error dBAD_ADDR
    | some (.sram, p) => if s.dbgLvl 1 then .ok (.mem p) else .error dDENIED
    | some (.hbm, p) =>
      if ¬ s.dbgLvl 1 then .error dDENIED
      else if s.hbmOk p n ∧ (¬ wr ∨ hbmCtlWritable p n = true) then .ok (.hbm p) else .error dBAD_ADDR
    | some (rg, p) =>
      if ¬ s.dbgLvl 0 then .error dDENIED
      else if (wr && rg == .iram) ∨ (match memPipe p with | some q => !(s.domOn q) | none => false) = true then .error dBAD_ADDR
      else .ok (.mem p)

def State.accAddr (s : State) : Nat := (s.reg R.DBG_ACC_ADDR_LO).toNat + (s.reg R.DBG_ACC_ADDR_HI).toNat % 256 * 2 ^ 32

/-- DBG_ACC_CTL takes the form of an access, and its status. -/
def State.accEnd (s : State) (wr sz : Bool) (st : Nat) : State :=
  s.setReg R.DBG_ACC_CTL (BitVec.ofNat 32 (b2n wr * 2 ^ 30 + b2n sz * 2 ^ 29 + st))

/-! ### Mailbox and readout (R558, R568) -/

/-- A word stored in the mailbox buffer; the address advances. [DEDUCED, log 99] -/
def State.mbxWrite (s : State) (v : W32) : State :=
  let w := s.fld R.DBG_MBX_ADDR F.DBG_MBX_ADDR
  { s with mbx := wrMap s.mbx (4 * w) (bytesLE 4 v.toNat) }.setFld R.DBG_MBX_ADDR F.DBG_MBX_ADDR (w + 1)

/-- The record of the slot that DBG_TR_IDX names. -/
def State.trRecord (s : State) : Word := smGet (fun _ => (0 : Word)) s.tephra (s.fld R.DBG_TR_IDX F.DBG_TR_IDX)

/-! ### JTAG (R555) -/

/-- The identification of stepping B0. -/
def idcode : Nat := 0x17464C6F

/-- Bits of a word, the lowest first. -/
def bitsOf (n w : Nat) : List Bool := (List.range w).map fun i => n.testBit i

def execJtagIdcode (s : State) : Result := .next (if s.mode = mOFF then s else s.emit (.tdo (bitsOf idcode 32)))

/-- JTAG_BYPASS: the bypass bit, captured as zero, and then the bit shifted in. -/
def execJtagBypass (tdi : Bool) (s : State) : Result := .next (if s.mode = mOFF then s else s.emit (.tdo [false, tdi]))

/-- JTAG_SAMPLE_PRELOAD: the levels of the balls are captured in the cells and shifted out. -/
def execJtagSamplePreload (pins : List Bool) (s : State) : Result :=
  .next (if s.mode = mOFF then s else { s.emit (.tdo pins) with bsr := pins })

/-- JTAG_EXTEST: the balls are driven from the cells. -/
def execJtagExtest (s : State) : Result := .next (if s.mode = mOFF then s else s.emit (.balls s.bsr))

end Sys2Proof.Machine
end

