-- ==== Sys2Proof/Machine/Lookup.lean ====
section
/-! DEFINITION. The exact-match stores, the deep store and the ternary array as lookups see them (R208–R225, R238–R244): entries and
where they lie, hashing, flow counters, age refresh, and the landing of results. -/

namespace Sys2Proof.Machine

/-! ### Tables and entries (R208–R212) -/

def State.emEn (s : State) (n : Nat) : Bool := s.flag (R.EM_TBL_CFG 0 n) F.EM_TBL_CFG_EN
def State.emDeep (s : State) (n : Nat) : Bool := s.flag (R.EM_TBL_CFG 0 n) F.EM_TBL_CFG_STORE
def State.keyB (s : State) (n : Nat) : Nat := s.fld (R.EM_TBL_CFG 0 n) F.EM_TBL_CFG_KEY_B
def State.dataB (s : State) (n : Nat) : Nat := s.fld (R.EM_TBL_CFG 0 n) F.EM_TBL_CFG_DATA_B

/-- The WIDTH code that holds so many bytes after the header (R209). -/
def wCode (n : Nat) : Nat := if n ≤ 24 then 0 else if n ≤ 56 then 1 else 2

/-- Slots of an entry. -/
def EmEnt.slots (e : EmEnt) : Nat := 2 ^ wCode (e.key.length + e.data.length)

/-- The header of an entry (R210). -/
def EmEnt.hdr (e : EmEnt) : Nat :=
  2 ^ 63 + e.tbl % 256 * 2 ^ 55 + wCode (e.key.length + e.data.length) * 2 ^ 53 + e.view % 4 / 2 * 2 ^ 52 + e.view % 2 * 2 ^ 51 + e.age % 65536 * 2 ^ 35 +
  e.inst % 256 * 2 ^ 27 + b2n e.stat * 2 ^ 26 + b2n e.learned * 2 ^ 25 + b2n e.frozen * 2 ^ 24 + e.ctr % 2 ^ 24

/-- The bytes of an entry: header, key, data, zeros (R211). -/
def EmEnt.bytes (e : EmEnt) : List Byte :=
  let l := bytesLE 8 e.hdr ++ e.key ++ e.data
  l ++ List.replicate (32 * e.slots - l.length) 0

/-- An entry read from its bytes, given the key and data lengths of its table. -/
def emOf (hdr : Nat) (kb db : Nat) (rest : List Byte) : EmEnt :=
  { tbl := bits hdr 62 55, view := bits hdr 52 52 * 2 + bits hdr 51 51, age := bits hdr 50 35, inst := bits hdr 34 27, stat := hdr.testBit 26,
    learned := hdr.testBit 25, frozen := hdr.testBit 24, ctr := bits hdr 23 0, key := rest.take kb, data := (rest.drop kb).take db }

/-! ### Places: on-die bucket × 4 + slot, overflow 2^21 + slot, deep 2^30 + bucket × 4 + slot -/

def ovf0 : Nat := 2 ^ 21
def deep0 : Nat := 2 ^ 30
def ovfSlots : Nat := 32768
def deepAt (b : Nat) : Nat := hbmDeep + b * 128

/-- The bucket of a key (R213): on-die or deep. -/
def State.bucketOf (s : State) (tbl : Nat) (key : List Byte) (deep : Bool) : Nat :=
  (crc polyCrc32c (s.reg (R.EM_SEED 0)) (BitVec.ofNat 8 tbl :: key) ^^^ 0xFFFFFFFF).toNat % (if deep then 2 ^ 25 else 2 ^ 19)

/-- The entries of a deep bucket, from slot `p` on (R212). -/
def State.walkBucket (s : State) (bs : List Byte) (p : Nat) : Nat → List (Nat × EmEnt)
  | 0 => []
  | n + 1 =>
    if 4 ≤ p then []
    else
      let hdr := valLE ((bs.drop (32 * p)).take 8)
      if hdr.testBit 63 then
        let t := bits hdr 62 55
        (p, emOf hdr (s.keyB t) (s.dataB t) (bs.drop (32 * p + 8))) :: s.walkBucket bs (p + 2 ^ bits hdr 54 53) n
      else s.walkBucket bs (p + 1) n

/-- Whether a deep bucket reads as uncorrectable (R477, R480). -/
def State.bucketBad (s : State) (b : Nat) : Bool := (s.hbmRead (deepAt b) 128).2 || !(s.hbmOk (deepAt b) 128)

/-- The entries of a deep bucket in bytes read for it, by place. -/
def State.deepEnts (s : State) (b : Nat) (bs : List Byte) : List (Nat × EmEnt) := (s.walkBucket bs 0 4).map fun e => (deep0 + 4 * b + e.1, e.2)

/-- The entries of a bucket, by place. [DESIGN CHOICE, log 104] -/
def State.bucketEnts (s : State) (deep : Bool) (b : Nat) : List (Nat × EmEnt) :=
  if deep then s.deepEnts b (s.hbmRead (deepAt b) 128).1
  else s.em.filter fun e => decide (4 * b ≤ e.1) && decide (e.1 < 4 * b + 4)

/-- The entries of the overflow store. -/
def State.ovfEnts (s : State) : List (Nat × EmEnt) := s.em.filter fun e => decide (ovf0 ≤ e.1)

/-- Every entry of a table with a key, in its bucket and the overflow store. -/
def State.keyEnts (s : State) (t : Nat) (key : List Byte) : List (Nat × EmEnt) :=
  (s.bucketEnts (s.emDeep t) (s.bucketOf t key (s.emDeep t)) ++ s.ovfEnts).filter fun e => e.2.tbl == t && e.2.key == key

/-- Whether a view bit is set. -/
def EmEnt.inView (e : EmEnt) (v : Nat) : Bool := e.view.testBit v

/-! ### The bucket cache (R220, R221) -/

def State.cacheSet (s : State) (half b : Nat) : List (Nat × List Byte) := smGet (fun _ => []) s.bcache (half * 4096 + b % 4096)
def State.setCache (s : State) (half b : Nat) (l : List (Nat × List Byte)) : State :=
  { s with bcache := smSet (fun _ => []) s.bcache (half * 4096 + b % 4096) l }
/-- The copy of a bucket in the cache of a half. -/
def State.cacheCopy (s : State) (half b : Nat) : Option (List Byte) := ((s.cacheSet half b).find? fun e => e.1 == b).map Prod.snd
def State.cached (s : State) (half b : Nat) : Bool := (s.cacheCopy half b).isSome
/-- A bucket is used, with its bytes: the latest of its set; the least recently used of nine leaves. -/
def State.touchCache (s : State) (half b : Nat) (bs : List Byte) : State :=
  s.setCache half b (((b, bs) :: (s.cacheSet half b).filter (·.1 ≠ b)).take 8)
def State.uncache (s : State) (half b : Nat) : State := s.setCache half b ((s.cacheSet half b).filter (·.1 ≠ b))

/-- Bytes placed in a list at an offset. -/
def patch (bs : List Byte) (o : Nat) (new : List Byte) : List Byte := bs.take o ++ new ++ bs.drop (o + new.length)

/-- The key a lookup compares in its table (R103). -/
def fitKey (n : Nat) (k : List Byte) : List Byte := (k ++ List.replicate n 0).take n
def State.lkpKey (s : State) (l : Lkp) : List Byte := fitKey (s.keyB l.table) l.key
/-- Whether a lookup waits for the fill of a bucket. -/
def State.fills (s : State) (b : Nat) (l : Lkp) : Bool := l.miss && s.bucketOf l.table (s.lkpKey l) true == b

/-- Bytes written to a deep bucket: to HBM first, then to each cache that holds it; a fill outstanding for it is stale (R221). -/
def State.writeBucket (s : State) (b o : Nat) (bs : List Byte) : State :=
  let s1 := s.hbmPut cDEEP (deepAt b + o) bs
  let s2 := [0, 1].foldl (fun t h => if t.cached h b then t.setCache h b ((t.cacheSet h b).map fun e => if e.1 = b then (b, patch e.2 o bs) else e) else t) s1
  { s2 with lkps := s2.lkps.map fun e => if s.fills b e.2 then (e.1, { e.2 with stale := true }) else e }

/-- Slots of the on-die and overflow stores written afresh: what their protection found is over. -/
def State.mendSlots (s : State) (c n : Nat) : State := { s with emBad := smClear s.emBad c (c + n) }

/-- An entry rewritten or written at its place. -/
def State.putEnt (s : State) (c : Nat) (e : EmEnt) : State :=
  if deep0 ≤ c then s.writeBucket ((c - deep0) / 4) ((c - deep0) % 4 * 32) e.bytes else ({ s with em := smPut s.em c e }).mendSlots c e.slots

/-- The slots of an entry freed. -/
def State.freeSlots (s : State) (c n : Nat) : State :=
  if deep0 ≤ c then s.writeBucket ((c - deep0) / 4) ((c - deep0) % 4 * 32) (List.replicate (32 * n) 0)
  else ({ s with em := smErase s.em c }).mendSlots c n

/-! ### Flow counters (R218) -/

def ctrAt (i : Nat) : Nat := hbmCtl + (i - 0x100000) * 16

/-- A counter pair: packets and bytes. [DESIGN CHOICE, log 104] -/
def State.ctrGet (s : State) (half i : Nat) : Nat × Nat :=
  if i < 0x100000 then smGet (fun _ => (0, 0)) s.ctrs (half * 2 ^ 20 + i)
  else (valLE (s.hbmRead (ctrAt i) 8).1, valLE (s.hbmRead (ctrAt i + 8) 8).1)

def State.ctrSet (s : State) (half i : Nat) (v : Nat × Nat) : State :=
  if i < 0x100000 then { s with ctrs := smSet (fun _ => (0, 0)) s.ctrs (half * 2 ^ 20 + i) (v.1 % 2 ^ 64, v.2 % 2 ^ 64) }
  else s.hbmPut cDEEP (ctrAt i) (bytesLE 8 v.1 ++ bytesLE 8 v.2)

/-- A hit counts in the pair of its entry, with the frame length of its packet. -/
def State.ctrHit (s : State) (half i len : Nat) : State :=
  if i = 0 then s
  else
    let (p, b) := s.ctrGet half i
    (if i < 0x100000 then s else s.hbmAsk cDEEP false (ctrAt i) 16).ctrSet half i (p + 1, b + len)

/-! ### Age (R290, R291) -/

/-- The unit of a code, in milliseconds. -/
def ageUnit (c : Nat) : Nat := [1, 10, 100, 1000, 2000, 4000, 8000, 16000, 32000, 64000].getD c 1

/-- The age time of a table. -/
def State.ageNow (s : State) (n : Nat) : Nat := s.sNs / 1000000 / ageUnit (s.fld (R.LRN_AGE n) F.LRN_AGE_UNIT) % 65536

/-- The home half of a bucket (R272). -/
def homeHalf (b : Nat) : Nat := b % 2

/-- A hit of an enabled kind refreshes the age of its entry, unless its bucket took a refresh in the last 32 LKP cycles. -/
def State.refresh (s : State) (c : Nat) (e : EmEnt) (src : Bool) : State :=
  let r := R.LRN_AGE e.tbl
  if s.flag r (if src then F.LRN_AGE_RF_SRC else F.LRN_AGE_RF_LKP) = true ∧ e.age ≠ s.ageNow e.tbl then
    let deep := s.emDeep e.tbl
    let b := s.bucketOf e.tbl e.key deep
    let k := if deep then 2 ^ 20 + b else b
    let soon := match smFind s.rfAt k with
      | some t => decide ((s.clk - t) * 3 < 32)
      | none => false
    if soon then s.cnt (R.LRN_RF_SKIP (homeHalf b))
    else ({ s with rfAt := smPut s.rfAt k s.clk }).putEnt c { e with age := s.ageNow e.tbl }
  else s

/-! ### Ternary search (R238–R242) -/

/-- The 64-bit header of a row (R239). -/
def TcRow.hdr (r : TcRow) : Nat :=
  b2n r.valid * 2 ^ 63 + r.tag % 64 * 2 ^ 57 + r.view % 4 / 2 * 2 ^ 56 + r.view % 2 * 2 ^ 55 + r.prio % 256 * 2 ^ 47 + r.inst % 256 * 2 ^ 39 + r.ctr % 2 ^ 24

def State.tcEn (s : State) (n : Nat) : Bool := decide (n < 64) && s.flag (R.TC_TBL 0 n) F.TC_TBL_EN

/-- The valid rows, in row order. -/
def State.rows (s : State) : List (Nat × TcRow) := s.tcr.filterMap fun e => e.2.bind fun r => if r.valid then some (e.1, r) else none

/-- The row a search finds: the first match (R241). -/
def State.tcSearch (s : State) (tbl key view : Nat) : Option (Nat × TcRow) :=
  s.rows.find? fun e => (e.2.tag == tbl) && e.2.view.testBit view && ((key ^^^ e.2.val) &&& e.2.mask == 0)

/-! ### Landing (R217, R219, R222, R225, R244) -/

/-- The thread that holds a packet. -/
def State.holderOf (s : State) (k : Nat) : Option Nat := (s.thrs.find? fun e => e.2.pkt == some k).map Prod.fst

/-- The context of a packet, wherever it lies. -/
def State.ctxOf (s : State) (k : Nat) : SMap Byte := match s.holderOf k with
  | some a => (s.thr a).slot
  | none => (s.pkt k).ctx

/-- A result lands in its slot, unless a later lookup of the slot is under way; event 1 on the thread that holds the packet.
[DEDUCED, log 105] -/
def State.landSlot (s : State) (id : Nat) (l : Lkp) (status data : Nat) : State :=
  let s1 := { s with lkps := smErase s.lkps id }
  if ¬ s.hasPkt l.pkt ∨ s.lkps.any (fun e => decide (id < e.1) && e.2.pkt == l.pkt && e.2.slot == l.slot) = true then s1
  else
    let put (m : SMap Byte) : SMap Byte := setCtxWord m (8 + l.slot) (slotWord status l.kind l.table data)
    match s1.holderOf l.pkt with
    | some a => (s1.setThr a { s1.thr a with slot := put (s1.thr a).slot }).event a 1
    | none => s1.setPkt l.pkt { s1.pkt l.pkt with ctx := put (s1.pkt l.pkt).ctx }

/-- Whether a test that runs in MAINTAIN takes the memory of a kind of lookup from service in a half (R547, R548). -/
def State.testTakes (s : State) (h k : Nat) : Bool :=
  let c := R.RAS_TEST_CTL
  let n := s.fld c F.RAS_TEST_CTL_TEST
  decide (s.mode = mMAINTAIN) && s.testRuns && (s.fld c F.RAS_TEST_CTL_TARGET / 256 % 2 == h) &&
  ((n == 1 && k == 0) || (n == 2 && k == 2) || (n == 3 && k == 1))

/-- The half that serves a lookup: that of its pipeline, or the other while its own is fenced or under test (R548). [DEDUCED, log 94] -/
def State.servedBy (s : State) (l : Lkp) : Nat := if s.halfFenced l.half || s.testTakes l.half l.kind then 1 - l.half else l.half

/-- The frame length a hit counts. -/
def ctxLen (m : SMap Byte) : Nat := if cLenKnown m then cFrmLen m else 0

/-- An exact-match result, from the entries that were read: the counts of the serving half, the flow counter, the age, and the landing. A
lookup that finds no entry while a slot stays unread is an ERROR (R219). [DEDUCED, log 121] -/
def State.landExact (s : State) (id : Nat) (l : Lkp) (ents : List (Nat × EmEnt)) (bad : Bool) : State :=
  let sv := s.servedBy l
  let key := s.lkpKey l
  let s1 := s.cnt64 (R.EM_LKP sv) 1
  match ents.find? fun e => (e.2.tbl == l.table) && (e.2.key == key) && e.2.inView l.view with
  | some (c, e) =>
    let s2 := (s1.cnt64 (R.EM_HIT sv) 1).ctrHit l.half e.ctr (ctxLen (s.ctxOf l.pkt))
    (s2.refresh c e false).landSlot id l 2 (valBE e.data)
  | none => if bad then ((s1.cnt (R.EM_ERR sv)).raise (0x400000 + sv * 0x100000) 2).landSlot id l 6 0 else s1.landSlot id l 3 0

/-- A ternary result. [DEDUCED, log 121] -/
def State.landTern (s : State) (id : Nat) (l : Lkp) : State :=
  let sv := s.servedBy l
  let s1 := s.cnt64 (R.TC_LKP sv) 1
  let found := s.tcSearch l.table (valBE (fitKey 20 l.key)) l.view
  let before (r : Nat) : Bool := match found with
    | some (n, _) => decide (r < n)
    | none => true
  -- a row of the table that neither array can give and that would come first (R244)
  if s.tcBad.any fun e => before e.1 && (s.rows.any fun x => (x.1 == e.1) && (x.2.tag == l.table)) then
    ((s1.cnt (R.TC_ERR sv)).raise (0x403000 + sv * 0x100000) 1).landSlot id l 6 0
  else match found with
  | some (_, r) => ((s1.cnt64 (R.TC_HIT sv) 1).ctrHit l.half r.ctr (ctxLen (s.ctxOf l.pkt))).landSlot id l 2 r.data
  | none => s1.landSlot id l 3 0

/-- Whether the other half's replica can serve a fallback. -/
def State.otherOk (s : State) (sv : Nat) : Bool := !(s.halfFenced (1 - sv)) && s.domOn (17 - sv)

/-- Whether an entry lies in slots that could be read: `bad` marks the slots of the bucket, and with bit 4 the overflow slots. -/
def readOk (bad : BitVec 5) (e : Nat × EmEnt) : Bool :=
  if ovf0 ≤ e.1 ∧ e.1 < deep0 then !(bad.getLsbD 4) else (List.range e.2.slots).all fun j => !(bad.getLsbD (e.1 % 4 + j))

/-- The bytes of a deep bucket that could be read, and its slots that could not: the slots of a word that reads as uncorrectable. -/
def State.deepBad (s : State) (b : Nat) : BitVec 5 :=
  let w (i : Nat) : Bool := (s.hbmRead (deepAt b + 64 * i) 64).2 || !(s.hbmOk (deepAt b + 64 * i) 64)
  BitVec.ofNat 5 (b2n (w 0) * 3 + b2n (w 1) * 12)

/-- A deep lookup is served: from the copy in the cache of its half, or it waits for a fill, with the others that wait for it. -/
def State.landDeep (s : State) (id : Nat) (l : Lkp) : State :=
  let sv := s.servedBy l
  let b := s.bucketOf l.table (s.lkpKey l) true
  match s.cacheCopy sv b with
  | some bs =>
    (s.touchCache sv b bs).landExact id l (s.deepEnts b bs ++ (if l.unread then [] else s.ovfEnts)) l.unread
  | none =>
    -- the lookups of a half that miss on one bucket wait for one fill
    let waits := s.lkps.filter fun e => s.fills b e.2 && (s.servedBy e.2 == sv)
    let s1 := s.cnt64 (R.EM_DEEP_CMISS sv) 1
    { (if waits.isEmpty then s1.hbmAsk cDEEP false (deepAt b) 128 else s1) with
      lkps := smPut s.lkps id { l with miss := true, stale := waits.any fun e => e.2.stale } }

/-- A lookup with what its memories' protection found. [DEDUCED, log 105; DEDUCED, log 121] -/
def State.land (s : State) (id : Nat) (l : Lkp) (ecc : LkEcc) : State :=
  let sv := s.servedBy l
  let emPg := 0x400000 + sv * 0x100000
  let tcPg := emPg + 0x3000
  -- what neither replica gives
  let lost : Option (BitVec 5) := match ecc with
    | .clean | .corrected => none
    | .uncorrected b => if s.otherOk sv then none else some b
    | .bothReplicas b => some b
  let retry : Bool := match ecc with
    | .uncorrected _ => s.otherOk sv
    | _ => false
  if 3 ≤ l.kind then (s.cnt (R.EM_BADTBL sv)).landSlot id l 5 0
  else if l.kind = 2 then
    if ¬ s.tcEn l.table then (s.cnt (R.TC_BADTBL sv)).landSlot id l 5 0
    else if lost.isSome then (((((s.cnt64 (R.TC_LKP sv) 1).cnt (R.TC_ERR sv)).raise tcPg 1).logErr 3 (0x40 + sv * 0x10) 3 3 0).landSlot id l 6 0)
    else if retry then (((s.cnt (R.TC_RETRY sv)).raise tcPg 2).logErr 2 (0x40 + sv * 0x10) 3 3 0).landTern id l
    else s.landTern id l
  else
    let deep := l.kind == 1
    if ¬ s.emEn l.table ∨ s.emDeep l.table ≠ deep then (s.cnt (R.EM_BADTBL sv)).landSlot id l 5 0
    else
      let b := s.bucketOf l.table (s.lkpKey l) deep
      let log (t : State) (sev : Nat) : State := t.logErr sev (0x40 + sv * 0x10) 0 (if deep then 4 else 1) b
      let s1 := match lost with
        | some m =>
          let t := log s 3
          if deep then t else { t with emBad := (List.range 4).foldl (fun x i => if m.getLsbD i then smSet (fun _ => false) x (4 * b + i) true else x) t.emBad }
        | none =>
          if retry then log ((s.cnt (R.EM_RETRY sv)).raise emPg 3) 2
          else if ecc = LkEcc.corrected then log (s.cnt (R.EM_CORR sv)) (if deep then 2 else 1) else s
      if deep then
        -- a parity error of the cache counts as a miss
        (if ecc = LkEcc.corrected then s1.uncache sv b else s1).landDeep id { l with unread := (lost.getD 0).getLsbD 4 }
      else
        let gone := (lost.getD 0) ||| (if s.emBad.any fun e => decide (4 * b ≤ e.1) && decide (e.1 < 4 * b + 4)
          then BitVec.ofNat 5 ((List.range 4).foldl (fun n i => n + b2n (smGet (fun _ => false) s.emBad (4 * b + i)) * 2 ^ i) 0) else 0)
        s1.landExact id l ((s.keyEnts l.table (s.lkpKey l)).filter (readOk gone)) (gone != 0)

/-- LOOKUP_LAND: a lookup that does not wait for a fill is served. -/
def execLookupLand (id : Nat) (ecc : LkEcc) (s : State) : Result :=
  match smFind s.lkps id with
  | none => .next s
  | some l => .next (if l.miss ∨ ¬ s.mainClk ∨ ¬ s.domOn (16 + s.servedBy l) then s else s.land id l ecc)

/-- DEEP_FILL_ARRIVE: the bucket that a lookup waits for comes from HBM, once its reads have been served; every lookup of the half that
waits for it lands. A stale fill is discarded and the bucket read again (R221, R236). -/
def execDeepFillArrive (half : HalfN) (id : Nat) (bucket : BitVec 25) (s : State) : Result :=
  match smFind s.lkps id with
  | none => .next s
  | some l =>
    let sv := half.val
    let b := s.bucketOf l.table (s.lkpKey l) true
    if ¬ l.miss ∨ bucket.toNat ≠ b ∨ s.servedBy l ≠ sv ∨ ¬ s.mainClk ∨ s.reads cDEEP (deepAt b) 128 = true then .next s
    else
      let mine (m : Lkp) : Bool := s.fills b m && (s.servedBy m == sv)
      if l.stale then
        .next (({ s with lkps := s.lkps.map fun e => if mine e.2 then (e.1, { e.2 with stale := false }) else e } : State).hbmAsk cDEEP false (deepAt b) 128)
      else
        let bs := (s.hbmRead (deepAt b) 128).1
        let gone := s.deepBad b
        let s2 := if gone = 0 then s.touchCache sv b bs else s
        let ents := (s.deepEnts b bs).filter (readOk gone)
        .next ((s.lkps.filter fun e => mine e.2).foldl
          (fun t e => t.landExact e.1 e.2 (ents ++ (if e.2.unread then [] else s.ovfEnts)) (gone != 0 || e.2.unread)) s2)

end Sys2Proof.Machine
end

