-- ==== Sys2Proof/Machine/EmCmd.lean ====
section
/-! DEFINITION. The exact-match command unit (R214, R226–R231, R237, R447) and the dirty map (R253, R259). -/

namespace Sys2Proof.Machine

/-- Status codes (R228). -/
def eOK : Nat := 0
def eEXISTS : Nat := 1
def eNOT_FOUND : Nat := 2
def eFULL : Nat := 3
def eBAD_TABLE : Nat := 4
def eBAD_ARG : Nat := 5
def eERROR : Nat := 6

/-- A cause raised in the pages of both halves (R237, R269). [DESIGN CHOICE, log 25] -/
def State.raise2 (s : State) (page b : Nat) : State := (s.raise page b).raise (page + 0x100000) b

/-! ### Views (R250, R253, R259) -/

def State.active (s : State) : Nat := s.fld (R.VIEW_STAT 0) F.VIEW_STAT_ACTIVE
def State.drained (s : State) : Bool := s.flag (R.VIEW_STAT 0) F.VIEW_STAT_DRAINED
def State.syncNeeded (s : State) : Bool := s.flag (R.VIEW_STAT 0) F.VIEW_STAT_SYNC_NEEDED

/-- The location of the dirty map that an entry's place lies in. -/
def dirtyOf (c : Nat) : Nat :=
  if deep0 ≤ c then 2 ^ 23 + (c - deep0) / 32 else if ovf0 ≤ c then 2 ^ 20 + (c - ovf0) / 4 else c / 4

def State.markDirty (s : State) (loc : Nat) : State := { s with dirty := smSet (fun _ => false) s.dirty loc true }

/-- A software command changes a view bit of the inactive view: before its time, that is EARLY (R259). -/
def State.earlyCheck (s : State) : State :=
  if ¬ s.drained ∨ s.syncNeeded = true then (s.setFld (R.VIEW_STAT 0) F.VIEW_STAT_EARLY 1).raise2 0x404000 4 else s

/-- A software command changes view bits at a location: the map is marked, and a change of the inactive view before its time is EARLY. -/
def State.viewChange (s : State) (loc old new : Nat) : State :=
  if old = new then s
  else
    let s1 := s.markDirty loc
    if old.testBit (1 - s.active) ≠ new.testBit (1 - s.active) then s1.earlyCheck else s1

/-! ### Counts (R237, R447) -/

/-- A count in a register changes by `d`. -/
def State.bump (s : State) (a : Nat) (d : Int) : State := s.setReg a (BitVec.ofInt 32 ((s.reg a).toNat + d))

/-- An entry written by software comes (`d` = 1) or goes (`d` = −1) for its instance. -/
def State.quota (s : State) (inst : Nat) (d : Int) : State := s.bump (R.HIF_INST_TCNT inst) d

/-- The counts of a table, of the deep store and of the instance change by an entry. -/
def State.countEnt (s : State) (c : Nat) (e : EmEnt) (d : Int) : State :=
  let s1 := s.bump (R.EM_TBL_CNT 0 e.tbl) d
  let s2 := if deep0 ≤ c then s1.bump (R.EM_DEEP_USED 0) (d * e.slots) else s1
  if e.sw then s2.quota e.inst d else s2

/-- An entry loses its slots. [DEDUCED, log 112] -/
def State.freeEnt (s : State) (c : Nat) (e : EmEnt) : State := (s.freeSlots c e.slots).countEnt c e (-1)

/-- A new entry at a place. -/
def State.newEnt (s : State) (c : Nat) (e : EmEnt) : State := (s.putEnt c e).countEnt c e 1

/-- Whether the quota of an instance leaves no room for another entry, a ternary INSERT under way counted in (R447). [DEDUCED, log 92] -/
def State.quotaFull (s : State) (inst : Nat) : Bool :=
  let coming := match s.mrIns with
    | some (_, e) => b2n (e.inst == inst)
    | none => 0
  match smGet (fun _ => none) s.instRes inst with
  | some l => decide (tq l ≤ (s.reg (R.HIF_INST_TCNT inst)).toNat + coming)
  | none => false

/-! ### Placement (R214) -/

/-- Whether `n` slots from place `c` on are free of the entries listed. -/
def slotsFree (l : List (Nat × EmEnt)) (c n : Nat) : Bool := l.all fun e => decide (e.1 + e.2.slots ≤ c) || decide (c + n ≤ e.1)

/-- The place of a new entry of `n` slots: its bucket, then the overflow store. -/
def State.placeEnt (s : State) (deep : Bool) (b n : Nat) : Option Nat :=
  let base := (if deep then deep0 else 0) + 4 * b
  match (List.range (4 / n)).find? fun i => slotsFree (s.bucketEnts deep b) (base + i * n) n with
  | some i => some (base + i * n)
  | none => ((List.range (ovfSlots / n)).find? fun i => slotsFree s.ovfEnts (ovf0 + i * n) n).map fun i => ovf0 + i * n

/-! ### Commands (R227) -/

/-- A command with its operands. -/
structure EmCmd where
  op    : Nat
  views : Nat
  tbl   : Nat
  clr   : Bool
  hdr   : Nat
  data  : Nat
  key   : List Byte
  loc   : Nat
  half  : Nat

/-- What a command returns beside its status: location, header, data and key, counters. -/
structure EmRes where
  st   : Nat
  /-- the key is returned too (READ_AT) -/
  keys : Bool := false
  loc  : Option Nat := none
  ent  : Option EmEnt := none
  ctr  : Option (Nat × Nat) := none

/-- EM_CMD_LOC of a place. -/
def locReg (c : Nat) : Nat := if deep0 ≤ c then 2 ^ 31 + (c - deep0) else if ovf0 ≤ c then 2 ^ 30 + (c - ovf0) * 4 else c

/-- The place EM_CMD_LOC names, if it lies in its store (R228). -/
def locPlace (v : Nat) : Option Nat :=
  let i := bits v 26 2
  match bits v 31 30 with
  | 0 => if i < 2 ^ 19 then some (i * 4 + v % 4) else none
  | 1 => if i < ovfSlots ∧ v % 4 = 0 then some (ovf0 + i) else none
  | 2 => some (deep0 + i * 4 + v % 4)
  | _ => none

/-- The entry a command writes. -/
def State.cmdEnt (s : State) (c : EmCmd) (key : List Byte) : EmEnt :=
  { emOf c.hdr 0 0 [] with tbl := c.tbl, view := c.views, key := key, data := bytesBE (s.dataB c.tbl) c.data }

/-- The entry that starts at a place. -/
def State.entAt (s : State) (c : Nat) : Option EmEnt :=
  if deep0 ≤ c then ((s.bucketEnts true ((c - deep0) / 4)).find? fun e => e.1 == c).map Prod.snd else smFind s.em c

/-- Whether an on-die bucket holds a slot that neither replica gives (R219, R228). -/
def State.odieBad (s : State) (b : Nat) : Bool := s.emBad.any fun e => decide (4 * b ≤ e.1) && decide (e.1 < 4 * b + 4)

/-- Whether the buckets of a command's key read as uncorrectable. [DEDUCED, log 102] -/
def State.cmdBad (s : State) (t : Nat) (key : List Byte) : Bool :=
  if s.emDeep t then s.bucketBad (s.bucketOf t key true) else s.odieBad (s.bucketOf t key false)

/-- Whether an entry of a page image is in order: of an enabled deep table with its own width, starting where R212 allows.
[DEDUCED, log 102] -/
def State.imgEntOk (s : State) (bs : List Byte) (e : Nat × EmEnt) : Bool :=
  let w := bits (valLE ((bs.drop (32 * e.1)).take 8)) 54 53
  s.emEn e.2.tbl && s.emDeep e.2.tbl && (w == wCode (s.keyB e.2.tbl + s.dataB e.2.tbl)) && decide (e.1 % 2 ^ w = 0)

/-- WRITE_PAGE (R227). [DEDUCED, log 102] -/
def State.writePage (s : State) (loc : Nat) : Nat × State :=
  let i := bits loc 26 2
  let adr := (s.reg (R.EM_BULK_ADDR_LO 0)).toNat + (s.reg (R.EM_BULK_ADDR_HI 0)).toNat % 256 * 2 ^ 32
  if bits loc 31 30 ≠ 2 ∨ i % 32 ≠ 0 ∨ ¬ (s.mode = 3 ∨ s.mode = 7 ∨ s.mode = 9) ∨ ¬ secMem s adr 4096 then (eBAD_ARG, s)
  else
    let im := s.secRead adr 4096
    let page (j : Nat) : List Byte := (im.drop (128 * j)).take 128
    let ents (j : Nat) : List (Nat × EmEnt) := s.walkBucket (page j) 0 4
    if (List.range 32).any fun j => !((ents j).all (s.imgEntOk (page j))) then (eBAD_TABLE, s)
    else if (List.range 32).any fun j => (ents j).any fun e => e.2.view == 1 || e.2.view == 2 then (eBAD_ARG, s)
    else (eOK, (List.range 32).foldl (fun s j =>
      let b := i + j
      let s1 := if s.bucketBad b then s
        else
          let c (p : Nat) : Nat := deep0 + 4 * b + p
          let was := s.bucketEnts true b
          let now := (ents j).map fun e => (c e.1, e.2)
          let inact (l : List (Nat × EmEnt)) : List (Nat × Nat × List Byte) := (l.filter fun e => e.2.inView (1 - s.active)).map fun e => (e.1, e.2.tbl, e.2.key)
          let t := was.foldl (fun s e => s.countEnt e.1 e.2 (-1)) s
          let u := now.foldl (fun s e => s.countEnt e.1 e.2 1) t
          if inact was ≠ inact now then u.earlyCheck else u
      s1.writeBucket b 0 (page j)) s)

/-- One command: its results, and the state with its effect. [DEDUCED, log 102; DEDUCED, log 112] -/
def State.emRun (s : State) (c : EmCmd) : EmRes × State :=
  let key := c.key.take (s.keyB c.tbl)
  let ents := s.keyEnts c.tbl key
  let hit := ents.filter fun e => e.2.view &&& c.views != 0
  let names := c.op = 1 ∨ c.op = 2 ∨ c.op = 3 ∨ c.op = 4 ∨ c.op = 5
  if names ∧ ¬ s.emEn c.tbl then ({ st := eBAD_TABLE }, s)
  else if names ∧ (c.views = 0 ∨ (c.op = 3 ∧ c.views = 3)) then ({ st := eBAD_ARG }, s)
  else if names ∧ s.cmdBad c.tbl key = true then ({ st := eERROR }, s)
  else match c.op with
  | 0 => ({ st := eOK }, s)
  | 1 =>
    let e := s.cmdEnt c key
    if ¬ hit.isEmpty then ({ st := eEXISTS }, s)
    else if s.quotaFull e.inst then ({ st := eFULL }, s)
    else match s.placeEnt (s.emDeep c.tbl) (s.bucketOf c.tbl key (s.emDeep c.tbl)) e.slots with
      | none => ({ st := eFULL }, s)
      | some p => ({ st := eOK, loc := some p }, (s.newEnt p e).viewChange (dirtyOf p) 0 c.views)
  | 2 =>
    if hit.isEmpty then ({ st := eNOT_FOUND }, s)
    else ({ st := eOK }, hit.foldl (fun s e =>
      let v := e.2.view &&& (3 ^^^ c.views)
      let s1 := if v = 0 then s.freeEnt e.1 e.2 else s.putEnt e.1 { e.2 with view := v }
      s1.viewChange (dirtyOf e.1) e.2.view v) s)
  | 3 => match hit with
    | e :: _ => ({ st := eOK, loc := some e.1, ent := some e.2 }, s)
    | [] => ({ st := eNOT_FOUND }, s)
  | 4 =>
    if hit.isEmpty then ({ st := eNOT_FOUND }, s)
    else ({ st := eOK }, hit.foldl (fun s e =>
      let n := { s.cmdEnt c key with view := e.2.view, sw := e.2.sw }
      let s1 := if e.2.sw then (s.quota e.2.inst (-1)).quota n.inst 1 else s
      s1.putEnt e.1 n) s)
  | 5 => match ents with
    | [] => ({ st := eNOT_FOUND }, s)
    | [e] =>
      let v := e.2.view ||| c.views
      ({ st := eOK }, (s.putEnt e.1 { e.2 with view := v }).viewChange (dirtyOf e.1) e.2.view v)
    | _ => ({ st := eEXISTS }, s)
  | 6 => match locPlace c.loc with
    | none => ({ st := eBAD_ARG }, s)
    | some p =>
      if (deep0 ≤ p ∧ s.bucketBad ((p - deep0) / 4) = true) ∨ (p < ovf0 ∧ s.odieBad (p / 4) = true) then ({ st := eERROR }, s)
      else match s.entAt p with
        | none => ({ st := eNOT_FOUND }, s)
        | some e => ({ st := eOK, ent := some e, keys := true }, s)
  | 7 =>
    let i := c.hdr % 2 ^ 24
    if i = 0 then ({ st := eBAD_ARG }, s)
    else if 0x100000 ≤ i ∧ (s.hbmRead (ctrAt i) 16).2 = true then ({ st := eERROR }, s)
    else
      let a := s.ctrGet 0 i
      let b := if i < 0x100000 then s.ctrGet 1 i else (0, 0)
      ({ st := eOK, ctr := some (a.1 + b.1, a.2 + b.2) },
        if c.clr then (if i < 0x100000 then (s.ctrSet 0 i (0, 0)).ctrSet 1 i (0, 0) else s.ctrSet 0 i (0, 0)) else s)
  | 8 => let r := s.writePage c.loc
         ({ st := r.1 }, r.2)
  | _ => ({ st := eBAD_ARG }, s)

/-! ### The command registers (R237) -/

/-- Key bytes from the key registers: byte 4n in [31:24]. -/
def State.keyRegs (s : State) : List Byte := ((List.range 30).map fun n => bytesBE 4 (s.reg (R.EM_CMD_KEY 0 n)).toNat).flatten

/-- The results of a command in its registers. [DEDUCED, log 103] -/
def State.emReturn (s : State) (r : EmRes) : State :=
  let s1 := match r.loc with
    | some p => s.setReg (R.EM_CMD_LOC 0) (BitVec.ofNat 32 (locReg p))
    | none => s
  let s2 := match r.ent with
    | some e =>
      let k := e.key ++ List.replicate 120 0
      let t := (s1.setReg64 (R.EM_CMD_HDR_LO 0) e.hdr).setReg64 (R.EM_CMD_DATA_LO 0) (valBE e.data)
      if r.keys then (List.range 30).foldl (fun s n => s.setReg (R.EM_CMD_KEY 0 n) (BitVec.ofNat 32 (valBE ((k.drop (4 * n)).take 4)))) t else t
    | none => s1
  match r.ctr with
  | some (p, b) => (s2.setReg64 (R.EM_CMD_CTR_PKT_LO 0) (p % 2 ^ 64)).setReg64 (R.EM_CMD_CTR_BYTE_LO 0) (b % 2 ^ 64)
  | none => s2

/-- EM_CMD_CTL.GO through the page of a half, with the value written: the command runs, and BUSY reads 1 until it completes.
[DEDUCED, log 103] -/
def State.emGo (s : State) (half : Nat) (v : W32) : State :=
  let s1 := s.setReg (R.EM_CMD_CTL 0) (v &&& 0x0FE0FF00)
  let c : EmCmd := { op := getF v F.EM_CMD_CTL_OP, views := getF v F.EM_CMD_CTL_VIEWS, tbl := getF v F.EM_CMD_CTL_TABLE_ID,
                     clr := getF v F.EM_CMD_CTL_CLR ≠ 0, hdr := s.reg64 (R.EM_CMD_HDR_LO 0), data := s.reg64 (R.EM_CMD_DATA_LO 0),
                     key := s.keyRegs, loc := (s.reg (R.EM_CMD_LOC 0)).toNat, half := half }
  let (r, s2) := s1.emRun c
  (s2.emReturn r).setReg (R.EM_CMD_STAT 0) (BitVec.ofNat 32 (2 ^ 31 + r.st))

def State.emBusy (s : State) : Bool := s.flag (R.EM_CMD_STAT 0) F.EM_CMD_STAT_BUSY
def State.bulkRuns (s : State) : Bool := s.fld (R.EM_BULK_CTL 0) F.EM_BULK_CTL_STATE == 1

/-- EM_CMD_COMPLETE (R215, R229): both replicas, or HBM and the caches, are written. -/
def execEmCmdComplete (s : State) : Result :=
  .next (if s.emBusy then (s.setFld (R.EM_CMD_STAT 0) F.EM_CMD_STAT_BUSY 0).raise2 0x400000 0 else s)

/-! ### Bulk loads (R230, R231, R235) -/

/-- A bulk load ends in a state; the end of its last record is its completion point. -/
def State.bulkEnd (s : State) (st : Nat) : State :=
  let t := (s.setFld (R.EM_BULK_CTL 0) F.EM_BULK_CTL_STATE st).raise2 0x400000 1
  if st = 2 then t.point (R.EM_BULK_CTL 0) else t

/-- EM_BULK_CTL.START. -/
def State.bulkStart (s : State) : State :=
  let s1 := (s.setReg (R.EM_BULK_CTL 0) 0x01000000).setReg (R.EM_BULK_FAIL 0) 0
  if s.fld (R.EM_BULK_CNT 0) F.EM_BULK_CNT_CNT = 0 then s1.bulkEnd 2 else s1

/-- EM_BULK_CTL.ABORT: before the completion point, in its cycle, or while no load runs (R231, R235). -/
def State.bulkAbort (s : State) : State :=
  if s.bulkRuns then (s.setFld (R.EM_BULK_CTL 0) F.EM_BULK_CTL_ABORT_ST 1).bulkEnd 3 else s.lateAbort (R.EM_BULK_CTL 0) F.EM_BULK_CTL_ABORT_ST

/-- A record has failed. -/
def State.bulkFail (s : State) (i : Nat) : State :=
  let r := R.EM_BULK_FAIL 0
  let n := s.fld r F.EM_BULK_FAIL_FAIL_CNT
  (if n = 0 then s.setFld r F.EM_BULK_FAIL_FIRST i else s).setFld r F.EM_BULK_FAIL_FAIL_CNT (min 65535 (n + 1))

/-- EM_BULK_RECORD: the next record of the load runs; after the last, the load is complete. -/
def execEmBulkRecord (s : State) : Result :=
  if ¬ s.bulkRuns then .next s
  else
    let i := s.fld (R.EM_BULK_CTL 0) F.EM_BULK_CTL_DONE
    let adr := (s.reg (R.EM_BULK_ADDR_LO 0)).toNat + (s.reg (R.EM_BULK_ADDR_HI 0)).toNat % 256 * 2 ^ 32 + 160 * i
    let ok := secMem s adr 160 && (decide (sramBase ≤ adr))
    let b := s.secRead adr 160
    let v : W32 := BitVec.ofNat 32 (imgLE b 0 4)
    let op := getF v F.EM_CMD_CTL_OP
    let c : EmCmd := { op := op, views := getF v F.EM_CMD_CTL_VIEWS, tbl := getF v F.EM_CMD_CTL_TABLE_ID, clr := false, hdr := imgLE b 8 8,
                       data := imgLE b 16 8, key := img b 24 120, loc := 0, half := 0 }
    let r := if ok ∧ (op = 1 ∨ op = 2 ∨ op = 4 ∨ op = 5) then s.emRun c else ({ st := eBAD_ARG }, s)
    let s1 := if r.1.st = eOK then r.2 else r.2.bulkFail i
    let s2 := s1.setFld (R.EM_BULK_CTL 0) F.EM_BULK_CTL_DONE (i + 1)
    .next (if i + 1 = s.fld (R.EM_BULK_CNT 0) F.EM_BULK_CNT_CNT then s2.bulkEnd 2 else s2)

/-! ### Configuration (R209, R237) -/

/-- Whether a write of EM_TBL_CFG_n is taken. -/
def State.tblCfgOk (s : State) (n : Nat) (v : W32) : Bool :=
  let k := getF v F.EM_TBL_CFG_KEY_B
  let d := getF v F.EM_TBL_CFG_DATA_B
  (s.reg (R.EM_TBL_CNT 0 n) == 0) && decide (1 ≤ k) && decide (d ≤ 6) && decide (k + d ≤ 120)

/-- EM_TBL_CFG_n takes a value, with WIDTH derived. -/
def State.tblCfg (s : State) (n : Nat) (v : W32) : State :=
  s.setReg (R.EM_TBL_CFG 0 n) (setF (v &&& 0xFFFC0000) F.EM_TBL_CFG_WIDTH (wCode (getF v F.EM_TBL_CFG_KEY_B + getF v F.EM_TBL_CFG_DATA_B)))

/-- EM_SEED takes a value, while every table is empty; both bucket caches are emptied. -/
def State.seedOk (s : State) : Bool := (List.range 256).all fun n => s.reg (R.EM_TBL_CNT 0 n) == 0
def State.setSeed (s : State) (v : W32) : State := { s.setReg (R.EM_SEED 0) v with bcache := [] }

/-- Slots used on-die, and in the overflow store. -/
def State.odieUsed (s : State) : Nat := s.em.foldl (fun n e => if e.1 < ovf0 then n + e.2.slots else n) 0
def State.ovfUsed (s : State) : Nat := s.em.foldl (fun n e => if ovf0 ≤ e.1 then n + e.2.slots else n) 0

end Sys2Proof.Machine
end

