-- ==== Sys2Proof/Machine/Tern.lean ====
section
/-! DEFINITION. The ternary command unit and the make-room engine (R245–R249), and table views: commit, drain and SYNC (R250–R259). -/

namespace Sys2Proof.Machine

/-! ### The make-room engine (R245–R247) -/

def rowCount : Nat := 524288

/-- The first free row from `r` on, given the valid rows in rising order. -/
def gapUp : List Nat → Nat → Nat
  | [], r => r
  | k :: ks, r => if k < r then gapUp ks r else if k = r then gapUp ks (r + 1) else r

/-- One more than the last free row below `n`, given the valid rows in falling order; 0 if there is none. -/
def gapDown : List Nat → Nat → Nat
  | [], n => n
  | k :: ks, n => if n ≤ k then gapDown ks n else if k + 1 = n then gapDown ks (n - 1) else n

/-- The first and the last row of a priority. -/
def firstOf (l : List (Nat × TcRow)) (q : Nat) : Nat := ((l.find? fun e => e.2.prio == q).map Prod.fst).getD 0
def lastOf (l : List (Nat × TcRow)) (q : Nat) : Nat := ((l.reverse.find? fun e => e.2.prio == q).map Prod.fst).getD 0
def prioAt (l : List (Nat × TcRow)) (r : Nat) : Nat := ((l.find? fun e => e.1 == r).map fun e => e.2.prio).getD 0

/-- Moves that carry a free row `f` down to `hi`. -/
def movesDown (l : List (Nat × TcRow)) (hi f : Nat) : Nat → List (Nat × Nat)
  | 0 => []
  | n + 1 => if f ≤ hi then [] else
      let g := firstOf l (prioAt l (f - 1))
      (g, f) :: movesDown l hi g n

/-- Moves that carry a free row `f` up to `lo`. -/
def movesUp (l : List (Nat × TcRow)) (lo f : Nat) : Nat → List (Nat × Nat)
  | 0 => []
  | n + 1 => if lo ≤ f then [] else
      let g := lastOf l (prioAt l (f + 1))
      (g, f) :: movesUp l lo g n

/-- Where an INSERT of priority `p` goes and the moves before it; none when the array is full. -/
def makeRoom (l : List (Nat × TcRow)) (p : Nat) : Option (Nat × List (Nat × Nat)) :=
  -- one more than lo, so that −1 is 0
  let lo1 := l.foldl (fun n e => if p ≤ e.2.prio then e.1 + 1 else n) 0
  let hi := ((l.find? fun e => decide (e.2.prio < p)).map Prod.fst).getD rowCount
  if lo1 < hi then some (lo1, [])
  else
    let ks := l.map Prod.fst
    let up := gapUp ks hi
    let dn := gapDown ks.reverse lo1
    if rowCount ≤ up ∧ dn = 0 then none
    else if up < rowCount ∧ (dn = 0 ∨ up - lo1 ≤ lo1 - (dn - 1)) then
      let m := movesDown l hi up 256
      some ((m.getLast?.map Prod.fst).getD up, m)
    else
      let m := movesUp l (lo1 - 1) (dn - 1) 256
      some ((m.getLast?.map Prod.fst).getD (dn - 1), m)

/-! ### Commands (R248, R249) -/

def State.row (s : State) (r : Nat) : Option TcRow := smGet (fun _ => none) s.tcr r
def State.setRow (s : State) (r : Nat) (e : Option TcRow) : State :=
  { s with tcr := smSet (fun _ => none) s.tcr r e, tcBad := smErase s.tcBad r }
/-- A row freed: VALID is cleared and the rest of it stands. -/
def State.freeRow (s : State) (r : Nat) (e : TcRow) : State := s.setRow r (some { e with valid := false })

/-- The counts of a table and of the instance change by a row. -/
def State.countRow (s : State) (e : TcRow) (d : Int) : State := (s.bump (R.TC_TBL 0 e.tag) d).quota e.inst d

def dirtyRow (r : Nat) : Nat := 2 ^ 21 + r

/-- A 160-bit value from five registers: byte 0 in [159:152]. -/
def State.tcWide (s : State) (reg : Nat → Nat) : Nat := [0, 1, 2, 3, 4].foldl (fun n i => n * 2 ^ 32 + (s.reg (reg i)).toNat) 0

/-- Ones in a mask. -/
def popN (n : Nat) : Nat := (List.range 160).foldl (fun c i => c + b2n (n.testBit i)) 0

/-- The header of a command or row from its register pair. -/
def State.tcHdr (s : State) : Nat := s.reg64 (R.TC_CMD_HDR_LO 0)

/-- Results: status, row with its number, moves. -/
structure TcRes where
  st    : Nat
  loc   : Option Nat := none
  row   : Option TcRow := none
  moves : Option Nat := none

/-- A row removed or rewritten with other view bits. -/
def State.setRowView (s : State) (r : Nat) (e : TcRow) (v : Nat) : State :=
  (if v = 0 then (s.freeRow r { e with view := 0 }).countRow e (-1) else s.setRow r (some { e with view := v })).viewChange (dirtyRow r) e.view v

/-- One command. [DEDUCED, log 102] -/
def State.tcRun (s : State) (v : W32) : TcRes × State :=
  let op := getF v F.TC_CMD_CTL_OP
  let views := getF v F.TC_CMD_CTL_VIEWS
  let tbl := getF v F.TC_CMD_CTL_TABLE_ID
  let mask := s.tcWide (R.TC_CMD_MASK 0)
  let val := s.tcWide (R.TC_CMD_VAL 0)
  let data := s.reg64 (R.TC_CMD_DATA_LO 0) % 2 ^ 48
  let same := s.rows.filter fun e => (e.2.tag == tbl) && (e.2.mask == mask) && (e.2.val == (val &&& mask))
  let hit := same.filter fun e => e.2.view &&& views != 0
  let e0 : TcRow := { tag := tbl, view := views, prio := if getF v F.TC_CMD_CTL_AUTO_P ≠ 0 then popN mask else getF v F.TC_CMD_CTL_P,
                      inst := bits s.tcHdr 46 39, ctr := bits s.tcHdr 23 0, val := val &&& mask, mask := mask, data := data }
  let uses := op = 1 ∨ op = 2 ∨ op = 3 ∨ op = 4 ∨ op = 5 ∨ op = 8
  if op = 7 ∨ 9 ≤ op then ({ st := eBAD_ARG }, s)
  else if uses ∧ ¬ s.tcEn tbl then ({ st := eBAD_TABLE }, s)
  else if uses ∧ (views = 0 ∨ ((op = 3 ∨ op = 8) ∧ views = 3)) then ({ st := eBAD_ARG }, s)
  else match op with
  | 1 =>
    if ¬ hit.isEmpty then ({ st := eEXISTS, moves := some 0 }, s)
    else if s.quotaFull e0.inst then ({ st := eFULL, moves := some 0 }, s)
    else match makeRoom s.rows e0.prio with
      | none => ({ st := eFULL, moves := some 0 }, s)
      | some (r, m) => ({ st := eOK, loc := some r, moves := some m.length }, { s with mrMoves := m, mrIns := some (r, e0) })
  | 2 => match hit with
    | [] => ({ st := eNOT_FOUND }, s)
    | _ => ({ st := eOK }, hit.foldl (fun s e => s.setRowView e.1 e.2 (e.2.view &&& (3 ^^^ views))) s)
  | 3 => match hit with
    | e :: _ => ({ st := eOK, loc := some e.1, row := some e.2 }, s)
    | [] => ({ st := eNOT_FOUND }, s)
  | 4 => match hit with
    | [] => ({ st := eNOT_FOUND }, s)
    | _ => ({ st := eOK }, hit.foldl (fun s e =>
        ((s.quota e.2.inst (-1)).quota e0.inst 1).setRow e.1 (some { e.2 with data := data, inst := e0.inst, ctr := e0.ctr })) s)
  | 5 => match same with
    | [] => ({ st := eNOT_FOUND }, s)
    | [e] => ({ st := eOK }, s.setRowView e.1 e.2 (e.2.view ||| views))
    | _ => ({ st := eEXISTS }, s)
  | 6 =>
    let r := s.fld (R.TC_CMD_LOC 0) F.TC_CMD_LOC_ROW
    if smGet (fun _ => false) s.tcBad r then ({ st := eERROR }, s)
    else ({ st := eOK, row := some ((s.row r).getD { valid := false, tag := 0, view := 0, prio := 0, inst := 0, ctr := 0, val := 0, mask := 0, data := 0 }) }, s)
  | 8 => match s.tcSearch tbl val (if views = 2 then 1 else 0) with
    | some (r, e) => ({ st := eOK, loc := some r, row := some e }, s)
    | none => ({ st := eNOT_FOUND }, s)
  | _ => ({ st := eOK }, s)

/-- A 160-bit value into five registers. -/
def State.putWide (s : State) (reg : Nat → Nat) (n : Nat) : State :=
  [0, 1, 2, 3, 4].foldl (fun s i => s.setReg (reg i) (BitVec.ofNat 32 (n / 2 ^ (32 * (4 - i))))) s

/-- The results of a command in its registers; a free row reads with VALID = 0. [DEDUCED, log 103] -/
def State.tcReturn (s : State) (op : Nat) (r : TcRes) : State :=
  let s1 := match r.loc with
    | some p => s.setReg (R.TC_CMD_LOC 0) (BitVec.ofNat 32 p)
    | none => s
  match r.row with
  | some e =>
    let s2 := (s1.setReg64 (R.TC_CMD_HDR_LO 0) e.hdr).setReg64 (R.TC_CMD_DATA_LO 0) e.data
    if op = 6 then (s2.putWide (R.TC_CMD_VAL 0) e.val).putWide (R.TC_CMD_MASK 0) e.mask else s2
  | none => s1

def State.tcBusy (s : State) : Bool := s.flag (R.TC_CMD_STAT 0) F.TC_CMD_STAT_BUSY

/-- TC_CMD_CTL.GO. [DEDUCED, log 103] -/
def State.tcGo (s : State) (v : W32) : State :=
  let s1 := s.setReg (R.TC_CMD_CTL 0) (v &&& 0x4FC0FFFF)
  let (r, s2) := s1.tcRun v
  let mv := r.moves.getD (s.fld (R.TC_CMD_STAT 0) F.TC_CMD_STAT_MOVES)
  (s2.tcReturn (getF v F.TC_CMD_CTL_OP) r).setReg (R.TC_CMD_STAT 0) (BitVec.ofNat 32 (2 ^ 31 + mv % 256 * 256 + r.st))

/-- MAKE_ROOM_MOVE (R246): the next move of the running INSERT; its destination is dirty when the view bits differ (R253). -/
def execMakeRoomMove (s : State) : Result :=
  match s.mrMoves with
  | [] => .next s
  | (f, g) :: rest =>
    let s1 := { s with mrMoves := rest }
    match s.rows.find? fun x => x.1 == f with
    | none => .next s1
    | some (_, e) =>
      let s2 := (s1.setRow g (some e)).freeRow f e
      let s3 := (s2.cnt64 (R.TC_MOVES 0) 1).cnt64 (R.TC_MOVES 1) 1
      .next (if e.view = 1 ∨ e.view = 2 then s3.markDirty (dirtyRow g) else s3)

/-- TC_CMD_COMPLETE: after the last move of an INSERT its entry is written; the command ends. -/
def execTcCmdComplete (s : State) : Result :=
  if ¬ s.tcBusy ∨ s.mrMoves ≠ [] then .next s
  else
    let s1 := match s.mrIns with
      | some (r, e) => ({ ((s.setRow r (some e)).countRow e 1) with mrIns := none } : State).viewChange (dirtyRow r) 0 e.view
      | none => s
    .next ((s1.setFld (R.TC_CMD_STAT 0) F.TC_CMD_STAT_BUSY 0).raise2 0x403000 0)

/-- TC_SWEEP_VISIT (R244): a parity error in a row is repaired from the other array; with none to repair it from, the row is lost until it is
written. -/
def execTcSweepVisit (half : HalfN) (row : Fin 524288) (err : Bool) (s : State) : Result :=
  let h := half.val
  .next (if err ∧ s.mainClk ∧ s.domOn (16 + h) = true then
      let s1 := (s.cnt (R.TC_PAR h)).logErr (if s.otherOk h then 2 else 3) (0x40 + h * 0x10) 3 3 row.val
      if s.otherOk h then s1 else { s1 with tcBad := smSet (fun _ => false) s1.tcBad row.val true }
    else s)

/-! ### Commit (R254, R255) -/

def vs : Nat := R.VIEW_STAT 0
def State.setVs (s : State) (f : Fld) (n : Nat) : State := s.setFld vs f n

/-- A refusal of a commit or SYNC records its reason. [DEDUCED, log 106] -/
def State.viewRefuse (s : State) (reason : Nat) : State := (s.setVs F.VIEW_STAT_REASON reason).cnt (R.VIEW_REFUSED 0)

/-- VIEW_CTL.COMMIT. [DEDUCED, log 106] -/
def State.viewCommit (s : State) : State :=
  let reason := if ¬ s.drained then 1 else if s.syncNeeded then 2 else if s.fld vs F.VIEW_STAT_S_STATE = 1 then 3
                else if s.bulkRuns then 4 else if s.commitPend then 5 else 0
  if reason ≠ 0 then ((s.viewRefuse reason).setVs F.VIEW_STAT_C_STATE 4).raise2 0x404000 0
  else { (s.setVs F.VIEW_STAT_C_STATE 1).setVs F.VIEW_STAT_C_ABORT 0 with commitPend := true }

/-- VIEW_FLIP: cycle F of a pending commit, once the commands in progress are complete. -/
def execViewFlip (s : State) : Result :=
  if ¬ s.commitPend ∨ s.emBusy ∨ s.tcBusy then .next s
  else
    let old := s.active
    let s1 := ({ (s.setVs F.VIEW_STAT_ACTIVE (1 - old)) with commitPend := false }).setTimeAt (R.VIEW_FLIP_NS 0) s.dNs
    let s2 := ((s1.bump (R.VIEW_CNT 0) 1).setVs F.VIEW_STAT_SYNC_NEEDED 1).setVs F.VIEW_STAT_C_STATE 2
    let empty := s.reg (inflReg old) == 0
    let s3 := ((s2.setVs F.VIEW_STAT_DRAINED (b2n empty)).applyStaged.raise2 0x404000 0).point vs
    .next (if empty then s3.raise2 0x404000 1 else s3)

/-- VIEW_CTL.ABORT: a pending commit or a running SYNC stops; in the cycle of its completion point either has completed (R255, R258, R262).
The point of a SYNC stands beside that of the commit. -/
def State.viewAbort (s : State) : State :=
  let s1 := if s.commitPend then
      (({ s with commitPend := false }.setVs F.VIEW_STAT_C_STATE 3).setVs F.VIEW_STAT_C_ABORT 1).raise2 0x404000 0
    else s.lateAbort vs F.VIEW_STAT_C_ABORT
  if s1.fld vs F.VIEW_STAT_S_STATE = 1 then ((s1.setVs F.VIEW_STAT_S_STATE 3).setVs F.VIEW_STAT_S_ABORT 1).raise2 0x404000 3
  else if s1.atPoint (vs + 1) then s1.setVs F.VIEW_STAT_S_ABORT 2 else s1

/-! ### Drain (R256, R257) -/

/-- A forced drain of a view: every packet of it no cell of which has been matched, in a queue or on its way there, is counted once. -/
def State.forceDrain (s0 : State) (v : Nat) : State :=
  let mine (x : VEnt) : Bool := (s0.pkt x.pkt).view == some v && !(s0.pkt x.pkt).matched
  let s := s0.cntN (R.VIEW_FORCE_DROP 0) ((s0.voqs.map fun e => (e.2.filter mine).map VEnt.pkt).flatten.eraseDups).length
  let s1 := s.voqs.foldl (fun s e =>
    let out := (s.voq e.1).filter mine
    if out.isEmpty then s
    else out.foldl (fun s x => (s.freeDeep e.1 x).dropEnt x)
      (s.setVoqU e.1 ((s.voq e.1).filter fun x => !(out.contains x)) true)) s
  s1.pkts.foldl (fun s e =>
    match e.2.loc with
    | .src | .ing _ => if e.2.view = some v ∧ ¬ e.2.discard then (s.markDiscard e.1).cnt (R.VIEW_FORCE_DROP 0) else s
    | _ => s) s1

/-- VIEW_DRAIN_LIMIT_EXPIRE. -/
def execViewDrainLimitExpire (s : State) : Result :=
  if s.drained ∨ s.fld (R.VIEW_CTL 0) F.VIEW_CTL_DRAIN_LIMIT = 0 then .next s
  else
    let s1 := (s.setVs F.VIEW_STAT_DRAIN_TO 1).raise2 0x404000 2
    .next (if s.flag (R.VIEW_CTL 0) F.VIEW_CTL_FORCE then s1.forceDrain (1 - s.active) else s1)

/-! ### SYNC (R258) -/

/-- The last dirty bit is clear. [DEDUCED, log 107] -/
def State.syncEnd (s : State) : State := (((s.setVs F.VIEW_STAT_SYNC_NEEDED 0).setVs F.VIEW_STAT_S_STATE 2).raise2 0x404000 3).point (vs + 1)

/-- VIEW_CTL.SYNC. [DEDUCED, log 106] -/
def State.viewSync (s : State) : State :=
  if s.fld vs F.VIEW_STAT_S_STATE = 1 then s.viewRefuse 3
  else
    let reason := if ¬ s.drained then 1 else if s.bulkRuns then 4 else if s.commitPend then 5 else 0
    if reason ≠ 0 then ((s.viewRefuse reason).setVs F.VIEW_STAT_S_STATE 4).raise2 0x404000 3
    else
      let s1 := (s.setVs F.VIEW_STAT_S_STATE 1).setVs F.VIEW_STAT_S_ABORT 0
      if s1.dirty.isEmpty then s1.syncEnd else s1

/-- The inactive view bit made equal to the active one. -/
def eqView (act v : Nat) : Nat := if v.testBit act then 3 else 0

/-- An exact-match entry of a dirty location. [DEDUCED, log 107] -/
def State.syncEnt (s : State) (e : Nat × EmEnt) : State :=
  let v := eqView s.active e.2.view
  if v = e.2.view then s else if v = 0 then s.freeEnt e.1 e.2 else s.putEnt e.1 { e.2 with view := v }

/-- The entries that start at a location of the dirty map. [DEDUCED, log 107] -/
def State.dirtyEnts (s : State) (loc : Nat) : List (Nat × EmEnt) :=
  if 2 ^ 23 ≤ loc then ((List.range 8).map fun i =>
      let b := (loc - 2 ^ 23) * 8 + i
      if s.bucketBad b then [] else s.bucketEnts true b).flatten
  else if loc < 2 ^ 20 then s.bucketEnts false loc
  else s.ovfEnts.filter fun e => dirtyOf e.1 == loc

/-- VIEW_SYNC_LOCATION: the next dirty location of a running SYNC. -/
def execViewSyncLocation (s : State) : Result :=
  if s.fld vs F.VIEW_STAT_S_STATE ≠ 1 then .next s
  else match s.dirty with
    | [] => .next s.syncEnd
    | (loc, _) :: rest =>
      let s1 := if 2 ^ 21 ≤ loc ∧ loc < 2 ^ 23 then
          match s.row (loc - 2 ^ 21) with
          | some e =>
            let v := eqView s.active e.view
            if ¬ e.valid then s else if v = 0 then (s.freeRow (loc - 2 ^ 21) { e with view := 0 }).countRow e (-1) else s.setRow (loc - 2 ^ 21) (some { e with view := v })
          | none => s
        else (s.dirtyEnts loc).foldl State.syncEnt s
      let s2 : State := { s1 with dirty := rest }
      .next (if rest.isEmpty then s2.syncEnd else s2)

/-- VIEW_CTL takes a value: FORCE and DRAIN_LIMIT are kept, and the orders run. [DESIGN CHOICE, log 31] -/
def State.viewCtl (s : State) (v : W32) : State :=
  let s1 := s.setReg (R.VIEW_CTL 0) (v &&& 0x1000FFFF)
  let s2 := if v.getLsbD 31 then s1.viewCommit else s1
  let s3 := if v.getLsbD 30 then s2.viewAbort else s2
  if v.getLsbD 29 then s3.viewSync else s3

end Sys2Proof.Machine
end

