-- ==== Sys2Proof/Machine/Learn.lean ====
section
/-! DEFINITION. Learning, the learning domain and ageing (R270–R304). -/

namespace Sys2Proof.Machine

/-! ### The learn table (R270–R272) -/

def State.lrnTbl (s : State) : Nat := s.fld R.LRN_CFG F.LRN_CFG_TABLE_ID
def State.ownDev (s : State) : Nat := s.fld R.LRN_DOM F.LRN_DOM_DEVICE_ID

/-- Whether the named table can be the learn table (R270). [DEDUCED, log 62] -/
def State.lrnOk (s : State) : Bool :=
  s.emEn s.lrnTbl && !(s.emDeep s.lrnTbl) && (s.keyB s.lrnTbl == 8) && (s.dataB s.lrnTbl == 6)

def learnKey (bd mac : Nat) : List Byte := bytesBE 2 bd ++ bytesBE 6 mac
def learnData (port dev lts : Nat) : List Byte := bytesBE 6 (port % 128 * 2 ^ 41 + dev % 2 ^ 14 * 2 ^ 27 + lts % 2 ^ 27)

/-- Fields of the data of a learn-table entry (R271). -/
def EmEnt.lPort (e : EmEnt) : Nat := bits (valBE e.data) 47 41
def EmEnt.lDev (e : EmEnt) : Nat := bits (valBE e.data) 40 27
def EmEnt.lts (e : EmEnt) : Nat := valBE e.data % 2 ^ 27

/-- The bucket of an address, and its home half. -/
def State.lrnBucket (s : State) (bd mac : Nat) : Nat := s.bucketOf s.lrnTbl (learnKey bd mac) false
def State.lrnHome (s : State) (bd mac : Nat) : Nat := homeHalf (s.lrnBucket bd mac)

/-- The entry of an address, in either view. -/
def State.lrnFind (s : State) (bd mac : Nat) : Option (Nat × EmEnt) := (s.keyEnts s.lrnTbl (learnKey bd mac)).head?

/-- Every entry of the learn table, in address order. -/
def State.lrnEnts (s : State) : List (Nat × EmEnt) := if s.lrnOk then s.em.filter fun e => e.2.tbl == s.lrnTbl else []

/-- D in whole microseconds. -/
def State.dUs (s : State) : Nat := s.dNs / 1000

/-- Whether the learn engine and ager of a half run (R544). -/
def State.lrnRun (s : State) (h : Nat) : Bool := s.mainClk && s.domOn (16 + h) && !(s.halfFenced h)

/-! ### The event ring (R295) -/

/-- A record for the event ring: type, table, port or peer, location, key bytes. [DEDUCED, log 60] -/
def State.ringEvent (s : State) (type tbl port loc : Nat) (key : List Byte) : State :=
  let sz := (s.reg R.LRN_RING_SZ).toNat % 65536
  let pi := (s.reg R.LRN_RING_PI).toNat
  if sz = 0 ∨ ¬ (s.reg R.LRN_RING_MASK).toNat.testBit type then s
  else if (pi + 1) % sz = (s.reg R.LRN_RING_CI).toNat % sz then s.cnt R.LRN_RING_OVF
  else
    let adr := (s.reg R.LRN_RING_LO).toNat / 16 * 16 + (s.reg R.LRN_RING_HI).toNat % 256 * 2 ^ 32 + 16 * pi
    let rec_ := BitVec.ofNat 8 type :: BitVec.ofNat 8 tbl :: bytesLE 2 port ++ bytesLE 4 loc ++ (key ++ List.replicate 8 0).take 8
    (if secOut s adr 16 then s.secWrite adr rec_ else s).setReg R.LRN_RING_PI (BitVec.ofNat 32 ((pi + 1) % sz))

/-- A record about the learn table. [DEDUCED, log 60] -/
def State.lrnEvent (s : State) (type port loc : Nat) (key : List Byte) : State := s.ringEvent type s.lrnTbl port loc key

/-! ### Counts and limits (R276, R277) -/

/-- The count of a port: own learned entries and reservations. [DEDUCED, log 59] -/
def State.portCnt (s : State) (n : Nat) : Nat :=
  (s.lrnEnts.filter fun e => e.2.learned && (e.2.lDev == s.ownDev) && (e.2.lPort == n)).length +
  (s.learnQ.foldl (fun m q => m + (q.2.filter fun l => l.port == n).length) 0)

/-- The count of an instance: the learn-table entries with that INST, and the reservations. [DEDUCED, log 59] -/
def State.instCnt (s : State) (i : Nat) : Nat :=
  (s.lrnEnts.filter fun e => e.2.inst == i).length +
  (s.learnQ.foldl (fun m q => m + (q.2.filter fun l => l.inst == i).length) 0)

/-- A learn event raised by a source check: the limits, the reservation and the queue of the home half (R274, R276). -/
def State.learnEvent (s : State) (c : SrcChk) : State :=
  let h := s.lrnHome c.bd c.mac
  let lp := s.fld (R.LRN_PORT c.port) F.LRN_PORT_LIMIT
  let li := s.fld (R.LRN_INST c.inst) F.LRN_INST_LIMIT
  if lp = 0 ∨ li = 0 then s
  else if lp < s.portCnt c.port + 1 ∨ li < s.instCnt c.inst + 1 then
    let s1 := s.lrnEvent 6 c.port 0 (learnKey c.bd c.mac)
    if s.flag (R.LRN_PORT c.port) F.LRN_PORT_ACT then s1.cnt (R.LRN_LIMIT_FWD h)
    else (if s1.hasPkt c.pkt then s1.markDiscard c.pkt else s1).cnt (R.LRN_LIMIT_DROP h)
  else
    let q := smGet (fun _ => []) s.learnQ h
    if 4096 ≤ q.length then s.cnt (R.LRN_Q_DROP h)
    else { s with learnQ := smSet (fun _ => []) s.learnQ h (q ++ [{ bd := c.bd, mac := c.mac, port := c.port, inst := c.inst }]) }

/-- A source check (R273). [DEDUCED, log 58; DEDUCED, log 59] -/
def State.sourceCheck (s : State) (half : Nat) (c : SrcChk) : State :=
  if ¬ s.flag R.LRN_CFG F.LRN_CFG_EN ∨ 68 ≤ c.port then s
  else if ¬ s.lrnOk then s.cnt R.LRN_CFG_BAD
  else
    let h := s.lrnHome c.bd c.mac
    let fenced := s.halfFenced half
    match (s.keyEnts s.lrnTbl (learnKey c.bd c.mac)).find? fun e => e.2.inView c.view with
    | none => if fenced then s else s.learnEvent c
    | some (p, e) =>
      if e.lDev = s.ownDev ∧ e.lPort = c.port then s.refresh p e true
      else if e.stat then s.cnt (R.LRN_STATIC_MISM h)
      else if e.frozen then s.cnt (R.LRN_FROZEN h)
      else if fenced then s else s.learnEvent c

/-- SOURCE_CHECK (R273). -/
def execSourceCheck (half : HalfN) (s : State) : Result :=
  let h := half.val
  match smGet (fun _ => []) s.srcChks h with
  | [] => .next s
  | c :: rest =>
    if ¬ s.mainClk then .next s
    else .next (({ s with srcChks := smSet (fun _ => []) s.srcChks h rest } : State).sourceCheck h c)

/-! ### Learn records and frames (R284, R285) -/

/-- A record joins the open frame. [DEDUCED, log 62] -/
def State.sendRec (s : State) (r : LrnRec) : State := if s.flag R.LRN_CFG F.LRN_CFG_TX_EN then { s with lrnOpen := s.lrnOpen ++ [r] } else s

/-- A record about an entry of the learn table. -/
def State.entRec (s : State) (op : Nat) (e : EmEnt) (ts : Nat) : LrnRec :=
  { op := op, bd := valBE (e.key.take 2), mac := valBE (e.key.drop 2), dev := s.ownDev, port := e.lPort, ts := ts % 2 ^ 32 }

def LrnRec.bytes (r : LrnRec) : List Byte :=
  bytesBE 2 r.bd ++ bytesBE 6 r.mac ++ bytesBE 1 r.port ++ bytesBE 1 r.op ++ bytesBE 2 0 ++ bytesBE 4 r.ts

/-- A learn frame with the first `n` records of the open frame is injected at port 68. -/
def State.sendLearn (s : State) (n : Nat) : State :=
  let rs := s.lrnOpen.take n
  let mac (lo hi : Nat) : List Byte := bytesBE 6 ((s.reg lo).toNat + (s.reg hi).toNat % 65536 * 2 ^ 32)
  let body := mac R.LRN_DA_LO R.LRN_DA_HI ++ mac R.LRN_SA_LO R.LRN_SA_HI ++ bytesBE 2 0x88B5 ++ bytesBE 1 1 ++ bytesBE 1 1 ++ bytesBE 1 rs.length ++
    bytesBE 1 0 ++ bytesBE 2 (s.fld R.LRN_DOM F.LRN_DOM_DOMAIN_ID) ++ bytesBE 2 s.ownDev ++ bytesBE 4 (s.reg R.LRN_SEQ).toNat ++ (rs.map LrnRec.bytes).flatten
  let frame := body ++ fcs body
  let s1 : State := { s with lrnOpen := s.lrnOpen.drop n }
  let s2 := s1.setReg R.LRN_SEQ (s.reg R.LRN_SEQ + BitVec.ofNat 32 rs.length)
  match s2.storeFrame (poolFor frame.length) 768 0xA44 10240 true frame with
  | (.stored p, s3) => s3.toParser (s.fld R.LRN_TX F.LRN_TX_PIPE) { len := frame.length, ptr := p, owner := 0xA44, acct := 768, inPort := 68, rx := s.time.d,
                                                                    clsFix := some (s.fld R.LRN_TX F.LRN_TX_CLASS) }
  | (.cut p, s3) => s3.freeChain p 0xA44
  | (.noRoom, s3) | (.refused, s3) => s3

def State.lrnTx (s : State) : Bool := s.mainClk && s.flag R.LRN_CFG F.LRN_CFG_TX_EN

/-- LEARN_FRAME_SEND (R285): the open frame holds 20 records. -/
def execLearnFrameSend (s : State) : Result := .next (if s.lrnTx && decide (20 ≤ s.lrnOpen.length) then s.sendLearn 20 else s)

/-- LEARN_FLUSH_TIMER_EXPIRE (R285). -/
def execLearnFlushTimerExpire (s : State) : Result := .next (if s.lrnTx && !s.lrnOpen.isEmpty then s.sendLearn 20 else s)

/-- LEARN_HELLO_EXPIRE (R285): a frame without records. -/
def execLearnHelloExpire (s : State) : Result := .next (if s.lrnTx then s.sendLearn 0 else s)

/-! ### Arbitration (R278, R279) and damping (R281, R282) -/

/-- Whether timestamp `a` is later than `b` (R278). [DEDUCED, log 66] -/
def tsLater (a b : Nat) : Bool :=
  let d := (a % 2 ^ 27 + 2 ^ 27 - b % 2 ^ 27) % 2 ^ 27
  decide (1 ≤ d) && decide (d ≤ 2 ^ 26 - 1)

/-- A move of an address at a place is tracked by its half; too many within the window freeze it. -/
def State.trackMove (s : State) (h p : Nat) (e : EmEnt) : State :=
  let k := h * 2 ^ 64 + valBE e.key
  let win := s.fld R.LRN_DAMP F.LRN_DAMP_WIN_MS * 500000
  let mine := s.damps.filter fun d => d.1 / 2 ^ 64 == h
  let old := (s.damps.find? fun d => d.1 == k).map Prod.snd
  let others := s.damps.filter fun d => d.1 != k
  let victim := (mine.reverse.find? fun d => !d.2.frozen).map Prod.fst
  let room : Option (List (Nat × Damp)) :=
    if old.isSome ∨ mine.length < 4096 then some others
    else victim.map fun v => others.filter fun d => d.1 != v
  match room with
  | none => s.cnt (R.LRN_DAMP_FULL h)
  | some l =>
    let o := old.getD { moves := [], frozen := false }
    let mv := s.clk :: o.moves.filter fun t => decide (s.clk - t ≤ win)
    let fr := !o.frozen && decide (s.fld R.LRN_DAMP F.LRN_DAMP_MOVES < mv.length)
    let s1 : State := { s with damps := (k, { moves := mv, frozen := o.frozen || fr, since := if fr then s.clk else o.since }) :: l }
    if fr then ((s1.putEnt p { e with frozen := true }).raise 0x600000 1).lrnEvent 4 e.lPort (locReg p) e.key else s1

/-- A learn is arbitrated at the bucket port (R279): whether it was applied, and the state after. [DEDUCED, log 63] -/
def State.applyLearn (s : State) (bd mac dev port ts inst : Nat) (loc : Bool) : Bool × State :=
  let t := s.lrnTbl
  let key := learnKey bd mac
  let h := s.lrnHome bd mac
  match s.lrnFind bd mac with
  | none => match s.placeEnt false (s.lrnBucket bd mac) 1 with
    | none => (false, s.cnt (R.LRN_FULL h))
    | some p => (true, s.newEnt p { tbl := t, view := 3, age := s.ageNow t, inst := inst, stat := false, learned := true, frozen := false, ctr := 0,
                                    key := key, data := learnData port dev ts, sw := false })
  | some (p, e) =>
    if e.stat ∨ (e.frozen ∧ loc) then (false, s)
    else if tsLater ts e.lts ∨ (ts % 2 ^ 27 = e.lts ∧ (e.lDev < dev ∨ (e.lDev = dev ∧ e.lPort < port))) then
      let e1 := { e with data := learnData port dev ts, age := s.ageNow t }
      let s1 := s.putEnt p e1
      if dev = e.lDev ∧ port = e.lPort then (true, s1)
      else (true, ((s1.cnt (R.LRN_MOVES h)).lrnEvent 2 port (locReg p) key).trackMove h p e1)
    else (false, s.cnt (R.LRN_LOST h))

/-- A queued local learn is applied. [DEDUCED, log 60] -/
def State.applyLocal (s : State) (l : Learn) : State :=
  let ts := s.dUs
  match s.applyLearn l.bd l.mac s.ownDev l.port ts l.inst true with
  | (false, s1) => s1
  | (true, s1) =>
    let p := ((s1.lrnFind l.bd l.mac).map fun e => locReg e.1).getD 0
    ((s1.cnt64 (R.LRN_LOCAL (s.lrnHome l.bd l.mac)) 1).lrnEvent 1 l.port p (learnKey l.bd l.mac)).sendRec
      { op := 1, bd := l.bd, mac := l.mac, dev := s.ownDev, port := l.port, ts := ts % 2 ^ 32 }

/-- LEARN_APPLY (R279). -/
def execLearnApply (half : HalfN) (s : State) : Result :=
  let h := half.val
  match smGet (fun _ => []) s.learnQ h with
  | [] => .next s
  | l :: rest =>
    if ¬ s.lrnRun h then .next s
    else
      let s1 : State := { s with learnQ := smSet (fun _ => []) s.learnQ h rest }
      .next (if s.lrnOk then s1.applyLocal l else s1)

/-- The address of a list of frozen ones whose hold began first. -/
def oldestFreeze (l : List (Nat × Damp)) : Option Nat :=
  (l.foldl (fun (m : Option (Nat × Nat)) d => match m with
    | some (t, k) => if d.2.since < t then some (d.2.since, d.1) else some (t, k)
    | none => some (d.2.since, d.1)) none).map Prod.snd

/-- FREEZE_EXPIRE (R282): the address of the half frozen longest thaws, and its tracked moves are forgotten. -/
def execFreezeExpire (half : HalfN) (s : State) : Result :=
  let h := half.val
  match oldestFreeze (s.damps.filter fun d => d.2.frozen && (d.1 / 2 ^ 64 == h)) with
  | none => .next s
  | some k =>
    if ¬ s.lrnRun h then .next s
    else
      let s1 : State := { s with damps := s.damps.filter fun d => d.1 != k }
      match s.lrnFind (k / 2 ^ 48 % 65536) (k % 2 ^ 48) with
      | some (p, e) => .next ((s1.putEnt p { e with frozen := false }).lrnEvent 5 e.lPort (locReg p) e.key)
      | none => .next s1

/-! ### Received frames (R286, R287) -/

def State.peer (s : State) (d : Nat) : Peer := smGet (fun _ => {}) s.peers d
def State.setPeer (s : State) (d : Nat) (p : Peer) : State := { s with peers := smSet (fun _ => {}) s.peers d p }

/-- Whether serial number `a` is later than `b`. -/
def serialLater (a b : Nat) : Bool :=
  let d := (a % 2 ^ 32 + 2 ^ 32 - b % 2 ^ 32) % 2 ^ 32
  decide (1 ≤ d) && decide (d < 2 ^ 31)

/-- A frame of a peer is sequenced (R287). -/
def State.sequence (s : State) (dev seq n : Nat) : State :=
  let p := s.peer dev
  let nxt := (seq + n) % 2 ^ 32
  if ¬ p.known then s.setPeer dev { p with known := true, exp := nxt, at_ := s.clk }
  else if seq = p.exp then s.setPeer dev { p with exp := nxt, at_ := s.clk }
  else if serialLater seq p.exp then
    (((s.setPeer dev { p with sync := true, exp := nxt, at_ := s.clk }).cnt R.LRN_SEQ_GAP).raise 0x600000 2).lrnEvent 8 dev 0 []
  else (s.setPeer dev { p with at_ := s.clk }).cnt R.LRN_SEQ_OLD

/-- Records of a frame body, `i` of them to come. [DEDUCED, log 61] -/
def recsOf (dev : Nat) (b : List Byte) : Nat → List LrnRec
  | 0 => []
  | n + 1 => { op := (b.getD 9 0).toNat, bd := valBE (b.take 2), mac := valBE ((b.drop 2).take 6), dev := dev, port := (b.getD 8 0).toNat,
               ts := valBE ((b.drop 12).take 4) } :: recsOf dev (b.drop 16) n

/-- A received learn frame is checked, sequenced and split (R286). [DEDUCED, log 61; DEDUCED, log 62] -/
def State.learnFrame (s : State) (b : List Byte) : State :=
  let n := (b.getD 16 0).toNat
  let dev := valBE ((b.drop 20).take 2) % 2 ^ 14
  if b.length < 26 ∨ b.getD 14 0 ≠ 1 ∨ b.getD 15 0 ≠ 1 ∨ 20 < n ∨ b.length ≠ 26 + 16 * n
      ∨ valBE ((b.drop 18).take 2) ≠ s.fld R.LRN_DOM F.LRN_DOM_DOMAIN_ID then s.cnt R.LRN_BAD_FRAME
  else if dev = s.ownDev then s.cnt R.LRN_LOOP
  else
    let s1 := s.sequence dev (valBE ((b.drop 22).take 4)) n
    let rs := recsOf dev (b.drop 26) n
    let ok (r : LrnRec) : Bool := decide (1 ≤ r.op) && decide (r.op ≤ 3)
    ({ s1 with lrnRecs := s1.lrnRecs ++ rs.filter ok } : State).cntN R.LRN_BAD_FRAME (rs.filter fun r => !(ok r)).length

/-- LEARN_FRAME_RECEIVE (R286). -/
def execLearnFrameReceive (s : State) : Result :=
  match s.lrnIn with
  | [] => .next s
  | b :: rest => .next (if s.mainClk then ({ s with lrnIn := rest } : State).learnFrame b else s)

/-- The oldest record whose home half runs is handled, if it has the operation. [DEDUCED, log 61] -/
def State.withRec (s : State) (op : Nat) (f : State → LrnRec → State) : State :=
  match s.lrnRecs.find? fun r => s.lrnRun (s.lrnHome r.bd r.mac) with
  | none => s
  | some r =>
    if r.op = op then
      let s1 : State := { s with lrnRecs := s.lrnRecs.erase r }
      if s.lrnOk then f s1 r else s1
    else s

/-- LEARN_RECORD_LEARN (R286). -/
def execLearnRecordLearn (s : State) : Result :=
  .next (s.withRec 1 fun s r =>
    let behind := (s.dUs % 2 ^ 32 + 2 ^ 32 - r.ts) % 2 ^ 32
    if s.fld R.LRN_STALE F.LRN_STALE_STALE_US < behind ∧ behind < 2 ^ 31 then s.cnt R.LRN_STALE_CNT
    else match s.applyLearn r.bd r.mac r.dev r.port r.ts (s.fld R.LRN_CFG F.LRN_CFG_REMOTE_INST) false with
      | (true, s1) => s1.cnt64 (R.LRN_REMOTE (s.lrnHome r.bd r.mac)) 1
      | (false, s1) => s1)

/-- LEARN_RECORD_WITHDRAW (R286). -/
def execLearnRecordWithdraw (s : State) : Result :=
  .next (s.withRec 2 fun s r =>
    match s.lrnFind r.bd r.mac with
    | some (p, e) =>
      if e.lDev = r.dev ∧ e.lPort = r.port ∧ tsLater r.ts e.lts = true
      then (s.freeEnt p e).cnt64 (R.LRN_REMOTE (s.lrnHome r.bd r.mac)) 1 else s
    | none => s)

/-- LEARN_RECORD_REPLAY (R286). -/
def execLearnRecordReplay (s : State) : Result :=
  .next (s.withRec 3 fun s r =>
    if (s.lrnFind r.bd r.mac).isSome then s
    else match s.applyLearn r.bd r.mac r.dev r.port r.ts (s.fld R.LRN_CFG F.LRN_CFG_REMOTE_INST) false with
      | (true, s1) => s1.cnt64 (R.LRN_REMOTE (s.lrnHome r.bd r.mac)) 1
      | (false, s1) => s1)

/-- PEER_LOST (R288). -/
def execPeerLost (dev : Fin 16384) (s : State) : Result :=
  let d := dev.val
  if ¬ (s.peer d).known ∨ ¬ s.mainClk then .next s
  else
    let s1 := s.setPeer d { s.peer d with known := false }
    let s2 := (s.lrnEnts.filter fun e => e.2.lDev == d).foldl (fun s e => s.freeEnt e.1 e.2) s1
    .next ((s2.raise 0x600000 3).lrnEvent 7 d 0 [])

/-! ### The stamp sweep and the agers (R280, R292) -/

/-- The entries an engine of a half meets at a home bucket: of the bucket (deep buckets follow the 2^19 on-die ones), and of the overflow store
whose bucket it is. -/
def State.visitEnts (s : State) (bucket : Nat) : List (Nat × EmEnt) :=
  let deep := decide (2 ^ 19 ≤ bucket)
  let b := if deep then bucket - 2 ^ 19 else bucket
  s.bucketEnts deep b ++ s.ovfEnts.filter fun e => (s.emDeep e.2.tbl == deep) && (s.bucketOf e.2.tbl e.2.key deep == b)

/-- Whether a visit happens: the bucket exists, is home to the half, and the engine runs. [DESIGN CHOICE, log 64] -/
def State.visits (s : State) (h bucket : Nat) : Bool :=
  s.lrnRun h && (bucket % 2 == h) && decide (bucket < 2 ^ 19 + 2 ^ 25) && !(decide (2 ^ 19 ≤ bucket) && s.bucketBad (bucket - 2 ^ 19))

/-- STAMP_SWEEP_VISIT (R280). -/
def execStampSweepVisit (half : HalfN) (bucket : Nat) (s : State) : Result :=
  if s.visits half bucket && s.lrnOk && decide (bucket < 2 ^ 19) then
    .next ((s.visitEnts bucket).foldl (fun s e =>
      let d := (s.dUs % 2 ^ 27 + 2 ^ 27 - e.2.lts) % 2 ^ 27
      if e.2.tbl = s.lrnTbl ∧ 2 ^ 24 < d ∧ d < 2 ^ 26
      then s.putEnt e.1 { e.2 with data := learnData e.2.lPort e.2.lDev (s.dUs + 2 ^ 27 - 2 ^ 24) } else s) s)
  else .next s

/-- An entry ages out at the bucket port. [DEDUCED, log 63] -/
def State.ageOut (s : State) (h p : Nat) (e : EmEnt) : State :=
  let own := s.lrnOk && (e.tbl == s.lrnTbl)
  let s1 := ((s.freeEnt p e).cnt64 (R.LRN_AGED h) 1).ringEvent 3 e.tbl (if own then e.lPort else 0) (locReg p) e.key
  if own then s1.sendRec (s.entRec 2 e s.dUs) else s1

/-- AGER_VISIT (R292). -/
def execAgerVisit (half : HalfN) (bucket : Nat) (s : State) : Result :=
  if s.visits half bucket then
    .next ((s.visitEnts bucket).foldl (fun s e =>
      let n := e.2.tbl
      let r := R.LRN_AGE n
      if ¬ s.flag r F.LRN_AGE_EN ∨ e.2.stat = true ∨ (s.lrnOk = true ∧ n = s.lrnTbl ∧ e.2.lDev ≠ s.ownDev) then s
      else if s.fld r F.LRN_AGE_MAXAGE ≤ (s.ageNow n + 65536 - e.2.age) % 65536 then s.ageOut half e.1 e.2 else s) s)
  else .next s

/-- The units of time of an age code, in microseconds; P of R292 in units of a quarter of a nanosecond is not needed: eight times P in
microseconds is enough for the checks of R293. -/
def ageP8 (s : State) : Option Nat :=
  (List.range 256).foldl (fun m n =>
    let r := R.LRN_AGE n
    if s.flag r F.LRN_AGE_EN then
      let x := s.fld r F.LRN_AGE_MAXAGE * ageUnit (s.fld r F.LRN_AGE_UNIT) * 1000
      some (min x (m.getD x))
    else m) none

/-- LRN_AGE_STAT: P in microseconds. -/
def State.ageP (s : State) : Nat := ((ageP8 s).getD 0) / 8

/-- Whether a write of LRN_AGE_n is taken: its fields, and the P it would make (R293). [DEDUCED, log 65] -/
def State.ageOk (s : State) (n : Nat) (v : W32) : Bool :=
  let s1 := s.setReg (R.LRN_AGE n) (v &&& 0xFE007FFF)
  let m := getF v F.LRN_AGE_MAXAGE
  let deep := (List.range 256).any fun k => s1.flag (R.LRN_AGE k) F.LRN_AGE_EN && s1.emEn k && s1.emDeep k
  decide (64 ≤ m) && decide (m ≤ 16384) && decide (getF v F.LRN_AGE_UNIT ≤ 9) &&
  (match ageP8 s1 with
   | none => true
   | some p => decide (8 * 262144 ≤ p * 100) && (!deep || decide (8 * 16777216 ≤ p * 10)))

/-! ### Flush and dump (R289) -/

/-- LRN_FLUSH.START with the value written. -/
def State.flushStart (s : State) (v : W32) : State :=
  ({ s with lrnPos := 0 } : State).setReg R.LRN_FLUSH (BitVec.ofNat 32 (2 ^ 24 + getF v F.LRN_FLUSH_SEL * 2 ^ 22 + getF v F.LRN_FLUSH_ARG * 2 ^ 8))

/-- LRN_DUMP.START. -/
def State.dumpStart (s : State) : State := ({ s with dumpPos := 0 } : State).setReg R.LRN_DUMP 0x01000000

def lrnOp (dump : Bool) : Nat := if dump then R.LRN_DUMP else R.LRN_FLUSH
def State.lrnState (s : State) (dump : Bool) : Nat := s.fld (lrnOp dump) F.LRN_FLUSH_STATE

/-- ABORT of a flush or dump: before its completion point it stops; in the cycle of the point it is too late; while it does not run,
nothing happens (R289, R303, R549). [DEDUCED, log 66; DEDUCED, log 87] -/
def State.lrnAbort (s : State) (dump : Bool) : State :=
  let r := lrnOp dump
  if s.lrnState dump = 1 then ((s.setFld r F.LRN_FLUSH_STATE 3).setFld r F.LRN_FLUSH_ABORT_ST 1).raise 0x600000 0 else s.lateAbort r F.LRN_FLUSH_ABORT_ST

/-- Whether a flush deletes an entry. -/
def State.flushes (s : State) (e : EmEnt) : Bool :=
  let arg := s.fld R.LRN_FLUSH F.LRN_FLUSH_ARG
  e.learned && (match s.fld R.LRN_FLUSH F.LRN_FLUSH_SEL with
    | 0 => true
    | 1 => (e.lPort == arg) && (e.lDev == s.ownDev)
    | 2 => e.lDev == arg
    | _ => e.inst == arg)

/-- The bucket position of a place: on-die buckets in order, then the overflow entries. [DESIGN CHOICE, log 64] -/
def posOf (p : Nat) : Nat := if p < ovf0 then p / 4 else p

/-- One bucket of a running flush or dump: the next that holds entries of the learn table; the operation completes with the last.
[DESIGN CHOICE, log 64] -/
def State.bulkBucket (s : State) (dump : Bool) : State :=
  let pos := if dump then s.dumpPos else s.lrnPos
  let fin (s : State) : State := ((s.setFld (lrnOp dump) F.LRN_FLUSH_STATE 2).point (lrnOp dump)).raise 0x600000 0
  match s.lrnEnts.find? fun e => decide (pos ≤ posOf e.1) with
  | none => fin s
  | some (p, e0) =>
    if ¬ s.lrnRun (homeHalf (if p < ovf0 then p / 4 else s.bucketOf e0.tbl e0.key false)) then s
    else
      let here := s.lrnEnts.filter fun e => posOf e.1 == posOf p
      let s1 := here.foldl (fun s e =>
        if dump then
          if e.2.lDev = s.ownDev then s.sendRec (s.entRec 3 e.2 (s.dUs + 2 ^ 32 - (s.dUs % 2 ^ 27 + 2 ^ 27 - e.2.lts) % 2 ^ 27)) else s
        else if s.flushes e.2 then
          let s2 := s.freeEnt e.1 e.2
          if e.2.lDev = s.ownDev then s2.sendRec (s.entRec 2 e.2 s.dUs) else s2
        else s) s
      let s2 : State := if dump then { s1 with dumpPos := posOf p + 1 } else { s1 with lrnPos := posOf p + 1 }
      if s2.lrnEnts.any fun e => decide (posOf p < posOf e.1) then s2 else fin s2

/-- LRN_BULK_BUCKET (R289): a running flush goes on, else a running dump. -/
def execLrnBulkBucket (s : State) : Result :=
  .next (if ¬ s.mainClk then s
    else if s.lrnState false = 1 then s.bulkBucket false
    else if s.lrnState true = 1 then s.bulkBucket true else s)

end Sys2Proof.Machine
end

