-- ==== Sys2Proof/Machine/VelkorControl.lean ====
section
/-! DEFINITION. Control transfers, system instructions and special registers (R146, R149, R156–R159, R162, R171–R177, R489), and the
events of threads that stand beside them (R117–R119, R178, R489). -/

namespace Sys2Proof.Machine

/-- The target of a branch: halfwords from the address of the branch itself (R156). The pc has passed the branch. -/
def State.branchTo (s : State) (a len : Nat) (off : Int) : State :=
  s.setPc a (((s.pc a : Int) - len + off) % (pcMod a : Nat)).toNat

/-- What a mispredicted conditional branch squashes: an issue down the wrong path counts, and a unit instruction in it is killed
(R162, R200). -/
def State.squash (s : State) (a : Nat) (w : WrongPath) : State :=
  if ¬ isEng a then s
  else match w with
  | .nothing => s
  | .plain => s.cnt64 (R.ENG_ISSUE (engOf a)) 1
  | .fused => (s.cnt64 (R.ENG_ISSUE (engOf a)) 1).cnt (R.FU_KILL (engOf a))

/-- A conditional branch: long forms predict by H, short forms predict taken when the offset is negative (R162). -/
def State.branchIf (s : State) (a : Nat) (lg h : Bool) (off : Int) (taken : Bool) (w : WrongPath) : State :=
  let predicted := if lg then h else decide (off < 0)
  let s1 := if predicted = taken then s else s.squash a w
  if taken then s1.branchTo a (ilen lg) off else s1

/-- A control transfer, SEND, WFE or SIG: second of a pair or alone; and what always issues alone (R160). -/
def kTail : Kind := { tail := true }
def kAlone : Kind := { alone := true }

/-- BC (R171). -/
def execBc (a : Agent) (lg : Bool) (cond : Cond) (h : Bool) (off : BitVec 20) (wrong : WrongPath) (s : State) : Result :=
  s.instr a (ilen lg) [] { tail := true, readsF := true, isBc := true } fun s =>
    if cond = 0xF then s.undef a (2 ^ 31 + 0x28 * 2 ^ 25 + 0xF * 2 ^ 21 + b2n h * 2 ^ 20 + off.toNat) true 0 0
    else s.branchIf a lg h off.toInt (condHolds cond (s.flg a)) wrong

/-- BRZ (R171). -/
def execBrz (a : Agent) (lg : Bool) (rs : Reg) (h : Bool) (off : BitVec 18) (wrong : WrongPath) (s : State) : Result :=
  s.instr a (ilen lg) [rs.val] kTail fun s => s.branchIf a lg h off.toInt (s.x a rs == 0) wrong

/-- BRNZ (R171). -/
def execBrnz (a : Agent) (lg : Bool) (rs : Reg) (h : Bool) (off : BitVec 18) (wrong : WrongPath) (s : State) : Result :=
  s.instr a (ilen lg) [rs.val] kTail fun s => s.branchIf a lg h off.toInt (s.x a rs != 0) wrong

/-- J (R171). -/
def execJ (a : Agent) (lg : Bool) (off : BitVec 25) (s : State) : Result :=
  s.instr a (ilen lg) [] kTail fun s => s.branchTo a (ilen lg) off.toInt

/-- Every register: what an instruction that moves the window or names registers at run time may need (R160, R190). -/
def allRegs : List Nat := List.range 32

/-- Whether an agent has a unit result in flight: it then waits before the window moves. -/
def State.instrAll (s : State) (a len : Nat) (k : Kind) (f : State → State) : Result :=
  if (s.thr a).fu.isEmpty then s.instr a len [] k f else .next s

/-- CALL (R146, R147). -/
def execCall (a : Agent) (off : BitVec 25) (s : State) : Result :=
  s.instrAll a 2 kTail fun s => s.callTo a (((s.pc a : Int) - 2 + off.toInt) % (pcMod a : Nat)).toNat

/-- JR (R171). -/
def execJr (a : Agent) (lg : Bool) (rs1 : Reg) (s : State) : Result :=
  s.instr a (ilen lg) [rs1.val] kTail fun s => s.setPc a (s.x a rs1).toNat

/-- CALLR (R146, R147). -/
def execCallr (a : Agent) (lg : Bool) (rs1 : Reg) (s : State) : Result :=
  s.instrAll a (ilen lg) kTail fun s => s.callTo a (s.x a rs1).toNat

/-- RET (R146, R147). -/
def execRet (a : Agent) (lg : Bool) (s : State) : Result := s.instrAll a (ilen lg) kTail fun s => s.retFrom a

/-- ERET (R176); with EXL = 0 it raises STATE (R174). -/
def execEret (a : Agent) (s : State) : Result :=
  s.instr a 2 [] kAlone fun s =>
    if (s.thr a).status.getLsbD 2 then s.eretTo a
    else s.excpAt a 2 5 (BitVec.ofNat 64 (encLR 0x2C 0 0 0 0x030))

/-- NOP (R171). -/
def execNop (a : Agent) (lg : Bool) (s : State) : Result := s.instr a (ilen lg) [] {} fun s => s

/-- The encoding of a system instruction of OPC 0x30 or its short form. -/
def encSysOp (lg : Bool) (sf lf r : Nat) : Nat := if lg then encLR 0x30 0 r 0 (lf * 16) else encSys sf r

/-- SEND (R123, R171): the send slot is final and the thread waits for its turn; it is absent from the full profile, and without a
packet it raises STATE. -/
def execSend (a : Agent) (lg : Bool) (s : State) : Result :=
  s.instr a (ilen lg) [] kTail fun s =>
    let enc := encSysOp lg 1 1 0
    if ¬ isEng a then s.undef a enc lg 0 0
    else if (s.thr a).pkt.isNone then s.excpAt a (ilen lg) 5 (BitVec.ofNat 64 enc)
    else s.setThr a { s.thr a with wait := .sendWait }

/-- The pending events that a WFE of a mask returns: those of the mask, and 14 and 15 (R118). -/
def wfeEvents (pend mask : BitVec 16) : BitVec 16 := pend &&& (mask ||| 0xC000)

/-- WFE (R118): it returns the pending events of its mask and clears them, or waits. -/
def execWfe (a : Agent) (lg : Bool) (rd rs1 : Reg) (s : State) : Result :=
  s.instr a (ilen lg) [rd, rs1] { tail := true, writes := [rd.val] } fun s =>
    let mask : BitVec 16 := (s.x a rs1).truncate 16
    let t := s.thr a
    let ev := wfeEvents t.evPend mask
    if ev = 0 then s.setThr a { t with evMask := mask, wait := .wfe mask (t.phys rd) (ilen lg) }
    else s.setThr a { t.set rd (ev.zeroExtend 64) with evMask := mask, evPend := t.evPend &&& ~~~ev }

/-- The first sibling of an agent and their number: eight threads of an engine, four contexts of a core, the Fumarole core alone.
[DEDUCED, log 43] -/
def siblings (a : Nat) : Nat × Nat := if a < 0x800 then (a / 8 * 8, 8) else if a < 0x810 then (a / 4 * 4, 4) else (a, 1)

/-- SIG (R117, R171): event 6 + own number on each sibling named. -/
def execSig (a : Agent) (lg : Bool) (rs1 : Reg) (s : State) : Result :=
  s.instr a (ilen lg) [rs1.val] kTail fun s =>
    let (b, n) := siblings a
    let m := s.x a rs1
    (List.range n).foldl (fun s t => if m.getLsbD t then s.event (b + t) (6 + (a.val - b)) else s) s

/-- TMR (R119, R171): the timer is armed for rs1[30:0] cycles; 0 disarms it. -/
def execTmr (a : Agent) (lg : Bool) (rs1 : Reg) (s : State) : Result :=
  s.instr a (ilen lg) [rs1.val] {} fun s =>
    let n := (s.x a rs1).toNat % 2 ^ 31
    s.setThr a { s.thr a with tmr := if n = 0 then none else some (s.cycles a + n) }

/-- The core of a context, 4 for the Fumarole core. -/
def coreOf (a : Nat) : Nat := (a - 0x800) / 4

/-- The agents of a core. -/
def coreAgents (c : Nat) : List Nat := if c < 4 then [0x800 + c * 4, 0x801 + c * 4, 0x802 + c * 4, 0x803 + c * 4] else [0x810]

/-- Whether a core wake is pending (R489, R499): a source routed to the core is asserted with EN = 1, Geyser asks for a dispatch or a
switch on one of its contexts, a lock grant has not been seen, or a wake has been signalled. -/
def State.wakePending (s : State) (c : Nat) : Bool :=
  s.coreSource c || s.coreWakes.contains c ||
  (coreAgents c).any fun b =>
    s.switchReq b || ((s.thr b).task.isNone && (s.bestTask b 0).isSome) || (s.thr b).evPend.getLsbD 4

/-- SLP_RES of a context recorded in DEV_CORE_STAT (R489, R499). [DESIGN CHOICE, log 28] -/
def State.slpRes (s : State) (a r : Nat) : State :=
  if a < 0x810 then
    let n := (a - 0x800) % 4
    s.setFld (R.DEV_CORE_STAT (coreOf a)) ⟨2 * n + 1, 2 * n⟩ r
  else s

/-- SLEEP (R489, R499): absent from engines, privileged; a wake pending at the commit point cancels it. -/
def execSleep (a : Agent) (s : State) : Result :=
  s.instr a 2 [] kAlone fun s =>
    let enc := encLR 0x30 0 0 0 0x050
    if isEng a then s.undef a enc true 0 0
    else if s.userMode a then s.excpAt a 2 2 (einfo enc true 0 0)
    else if s.wakePending (coreOf a) then s.slpRes a 2
    else (s.setThr a { s.thr a with wait := .sleep }).slpRes a 1

/-- FENCE (R173): every store and atomic of the model is visible at once, so there is nothing to wait for. -/
def execFence (a : Agent) (s : State) : Result := s.instr a 2 [] kAlone fun s => s

/-- BRK (R564, R174): with a debugger attached the thread halts before its next issue, else exception BRK. -/
def execBrk (a : Agent) (lg : Bool) (s : State) : Result :=
  s.instr a (ilen lg) [] kAlone fun s =>
    if s.flag R.DBG_CTL F.DBG_CTL_ATTACH then
      let s1 := (s.setThr a { s.thr a with halted := true }).raise 0xF00000 0
      if isEng a then s1.holdFrom s (pipeOf a) else s1
    else s.excpAt a (ilen lg) 3 0

/-- RGET (R171): rd := register number rs1[4:0]. -/
def execRget (a : Agent) (rd rs1 : Reg) (s : State) : Result :=
  s.instrAll a 2 { writes := [rd.val], also := allRegs } fun s => s.setX a rd (s.x a ((s.x a rs1).toNat % 32))

/-- RPUT (R171): register number rs1[4:0] := rs2. -/
def execRput (a : Agent) (rs1 rs2 : Reg) (s : State) : Result :=
  s.instrAll a 2 kAlone fun s => s.setX a ((s.x a rs1).toNat % 32) (s.x a rs2)

/-- TRAP (R174): EPC names the next instruction. -/
def execTrap (a : Agent) (code : BitVec 15) (s : State) : Result :=
  s.instr a 2 [] kAlone fun s => s.excp a 4 (s.pc a) (code.zeroExtend 64)

/-- MFS (R149). -/
def execMfs (a : Agent) (rd : Reg) (sreg : BitVec 12) (s : State) : Result :=
  s.instr a 2 [rd.val] { writes := [rd.val], readsF := sreg == 1, slow := sreg == 0x00C || sreg == 0x00D } fun s =>
    match s.sregGet a sreg.toNat with
    | some v => s.setX a rd v
    | none => (s.sregViol a sreg.toNat 1).setX a rd 0

/-- Whether a write of a special register raises PRIV (R149). -/
def State.sregPriv (s : State) (a n : Nat) : Bool := s.userMode a && sregS n

/-- MTS (R149). -/
def execMts (a : Agent) (sreg : BitVec 12) (rs : Reg) (s : State) : Result :=
  s.instr a 2 [rs.val] kAlone fun s =>
    if s.sregPriv a sreg.toNat then s.excpAt a 2 2 (einfo (encLS 0x33 rs sreg) true 0 0)
    else s.sregWrite a sreg.toNat (s.x a rs)

/-- XCHS (R149): rd takes the old value, zero where the number is not defined. -/
def execXchs (a : Agent) (rd : Reg) (sreg : BitVec 12) (s : State) : Result :=
  s.instr a 2 [rd.val] kAlone fun s =>
    if s.sregPriv a sreg.toNat then s.excpAt a 2 2 (einfo (encLS 0x34 rd sreg) true 0 0)
    else
      let v := s.x a rd
      (s.sregWrite a sreg.toNat v).setX a rd ((s.sregGet a sreg.toNat).getD 0)

/-! ### Undefined instructions (R157–R159) -/

/-- Whether a short form is assigned in a profile, with its zero fields zero. -/
def shortOk (eng : Bool) (h : Nat) : Bool :=
  let f := bits h 10 7
  let r := bits h 6 3
  let z := bits h 2 0 == 0
  match bits h 14 11 with
  | 0x0 => h != 0
  | 0xC =>
    match f with
    | 0 | 2 | 8 => (r == 0) && z
    | 1 => eng && (r == 0) && z
    | 3 | 4 | 5 | 6 | 7 => z
    | _ => false
  | 0xD => bits h 1 0 == 0
  | 0xE | 0xF => false
  | _ => true

/-- What is wrong with a long form: none, or the source unit and refusal code of UNDEF (R159, R174). -/
def longBad (eng : Bool) (w : Nat) : Option (Nat × Nat) :=
  let rd := bits w 24 20
  let rs1 := bits w 19 15
  let rs2 := bits w 14 10
  let sel := bits w 9 4
  let f0 := bits w 3 0
  let ok (b : Bool) : Option (Nat × Nat) := if b then none else some (0, 0)
  let fu (unit : Nat) : Option (Nat × Nat) :=
    let op := bits w 14 13
    let p : BitVec 13 := BitVec.ofNat 13 w
    if op = 3 then some (0, 0)
    else if ¬ eng then some (unit, 0xFF)
    else if ¬ fuZeroOk unit op p then some (0, 0)
    else if fuRefusal unit op p ≠ 0 then some (unit, fuRefusal unit op p)
    else none
  match bits w 30 25 with
  | 0x00 =>
    if sel ≤ 0x14 then ok (f0 == 0)
    else if sel = 0x15 ∨ sel = 0x16 then ok ((rd == 0) && (f0 == 0))
    else if sel = 0x17 then ok (f0 != 0xF)
    else if sel = 0x18 then ok ((rs1 == 0) && (rs2 == 0) && (f0 != 0xF))
    else ok false
  | 0x01 =>
    let sz := bits w 1 0
    if rs2 ≠ 0 ∨ bits w 3 2 ≠ 0 then ok false
    else if sel ≤ 0x05 then ok (sz == 0)
    else if sel = 0x06 then ok (sz != 0)
    else if sel = 0x07 ∨ sel = 0x08 then ok (sz != 3)
    else ok false
  | 0x02 | 0x03 | 0x04 | 0x05 => none
  | 0x06 => ok ((bits w 14 8 == 0) && (bits w 7 6 != 3))
  | 0x07 => ok (rd == 0)
  | 0x08 => ok (bits w 17 16 != 3)
  | 0x21 | 0x22 | 0x23 => ok (bits w 4 0 == 0)
  | 0x24 => ok (eng && (bits w 9 0 == 0))
  | 0x25 =>
    if sel = 0 then ok ((rs2 == 0) && (f0 == 0))
    else if sel = 1 ∨ sel = 2 then ok ((rd == 0) && (rs2 == 0) && (f0 == 0))
    else ok false
  | 0x28 => ok (bits w 24 21 != 0xF)
  | 0x29 | 0x2A | 0x2B => none
  | 0x2C =>
    if sel ≤ 1 then ok ((rd == 0) && (rs2 == 0) && (f0 == 0))
    else if sel ≤ 3 then ok ((rd == 0) && (rs1 == 0) && (rs2 == 0) && (f0 == 0))
    else ok false
  | 0x30 =>
    if f0 ≠ 0 then ok false
    else if sel = 0 ∨ sel = 6 ∨ sel = 7 then ok ((rd == 0) && (rs1 == 0) && (rs2 == 0))
    else if sel = 1 then ok (eng && (rd == 0) && (rs1 == 0) && (rs2 == 0))
    else if sel = 2 ∨ sel = 8 then ok (rs2 == 0)
    else if sel = 3 ∨ sel = 4 then ok ((rd == 0) && (rs2 == 0))
    else if sel = 5 then ok (!eng && (rd == 0) && (rs1 == 0) && (rs2 == 0))
    else if sel = 9 then ok (rd == 0)
    else ok false
  | 0x31 => ok ((rd == 0) && (rs1 == 0))
  | 0x32 | 0x33 | 0x34 => ok (bits w 7 0 == 0)
  | 0x38 => fu uFLD
  | 0x39 => fu uHSH
  | 0x3A => fu uCKS
  | opc => ok (decide (0x10 ≤ opc) && decide (opc ≤ 0x20))

/-- UNDEFINED_INSTRUCTION (R159): what is fetched at the pc is undefined, and UNDEF is raised; where it is defined, this command is
none of the thread's and nothing happens. -/
def execUndefinedInstruction (a : Agent) (s : State) : Result :=
  if ¬ s.canIssue a (namedRegs (s.peek a (s.pc a)) (s.peek a ((s.pc a + 1) % pcMod a))) then .next s
  else
    let (h, s1) := s.fetch a (s.pc a)
    if h < 0x8000 then
      if shortOk (isEng a) h then .next s else .next ((s1.issued a 1 {}).undefPair a h false 0 0)
    else
      let (l, s2) := s1.fetch a ((s.pc a + 1) % pcMod a)
      match longBad (isEng a) (h * 65536 + l) with
      | none => .next s
      | some (src, code) =>
        let s3 := if src ≠ 0 ∧ isEng a then s2.cnt (R.FU_REFUSE (engOf a)) else s2
        .next ((s3.issued a 2 { unit := src != 0 }).undefPair a (h * 65536 + l) true src code)

/-! ### Events of threads -/

/-- WFE_WAKE (R118): an event of the mask, 14 or 15 is pending, and WFE returns. -/
def execWfeWake (a : Agent) (s : State) : Result :=
  let t := s.thr a
  match t.wait with
  | .wfe mask rd _ =>
    let ev := wfeEvents t.evPend mask
    if ev = 0 then .next s
    else .next (s.setThr a { t with wait := .run, evPend := t.evPend &&& ~~~ev,
                                    rf := smSet (fun _ => (0 : Word)) t.rf rd (ev.zeroExtend 64) })
  | _ => .next s

/-- THREAD_TIMER_EXPIRE (R119): the timer of a thread reaches zero, raises event 3 and is disarmed. -/
def execThreadTimerExpire (a : Agent) (s : State) : Result :=
  match (s.thr a).tmr with
  | none => .next s
  | some _ => .next ((s.setThr a { s.thr a with tmr := none }).event a 3)

/-- INTERRUPT_TAKE (R178): the interrupt input is taken between two issues while IE = 1 and EXL = 0. A thread in WFE takes it with EPC at
the WFE. -/
def execInterruptTake (a : Agent) (s : State) : Result :=
  let t := s.thr a
  let ready := match t.wait with
    | .run => s.eligible a
    | .wfe _ _ _ => (s.setThr a { t with wait := .run }).eligible a
    | _ => false
  if ready && !t.halted && t.status.getLsbD 0 && !(t.status.getLsbD 2) && s.irqInput a then
    .next ((s.setThr a { t with wait := .run, pc := t.savePc }).excp a 0x10 t.savePc 0)
  else .next s

/-- CORE_WAKE (R489): a wake resumes every sleeping context of a core. -/
def execCoreWake (core : Fin 5) (s : State) : Result :=
  if s.wakePending core then
    .next ((coreAgents core).foldl (fun s b => if (s.thr b).wait = .sleep then s.setThr b { s.thr b with wait := .run } else s)
      { s with coreWakes := s.coreWakes.filter (· ≠ core.val) })
  else .next s

end Sys2Proof.Machine
end

