-- ==== Sys2Proof/Machine/Sched.lean ====
section
/-! DEFINITION. Geyser, locks and interrupts as events and instructions: port commands, dispatch, preemption, ticks and timeouts
(R397–R404), LKA, LKQ, LKR (R169, R409, R410), LKUP (R170), and the delivery of interrupt sources (R426, R429). -/

namespace Sys2Proof.Machine

/-! ### Port commands (R400, R401) -/

/-- Whether an agent can give a command through its port slot: a service thread while the port is on, or a control context. -/
def State.portOk (s : State) (a : Nat) : Bool :=
  s.eligible a && (if a < 0x800 then (s.role a == rService) && s.flag R.TSK_CTL F.TSK_CTL_PORT_EN else decide (a < 0x810))

/-- TASK_YIELD (R401). -/
def execTaskYield (a : Agent) (s : State) : Result := .next (if s.portOk a then s.portCommand a 1 0 0 else s)

/-- TASK_WAIT (R401). -/
def execTaskWait (a : Agent) (arg : W32) (s : State) : Result := .next (if s.portOk a then s.portCommand a 2 0 arg.toNat else s)

/-- TASK_DELAY (R401). -/
def execTaskDelay (a : Agent) (arg : W32) (s : State) : Result := .next (if s.portOk a then s.portCommand a 3 0 arg.toNat else s)

/-- TASK_RELEASE (R401). -/
def execTaskRelease (a : Agent) (task : TaskN) (s : State) : Result := .next (if s.portOk a then s.portCommand a 4 task 0 else s)

/-- TASK_EXIT (R401). -/
def execTaskExit (a : Agent) (s : State) : Result := .next (if s.portOk a then s.portCommand a 5 0 0 else s)

/-! ### Dispatch and preemption (R398, R399) -/

/-- Whether an agent waits at its idle point in a WFE whose mask has bit 5. -/
def State.atIdle (s : State) (a : Nat) : Bool :=
  let t := s.thr a
  t.task.isNone && !t.halted && !t.dead &&
  (match t.wait with
   | .wfe m _ _ => m.getLsbD 5 && (s.setThr a { t with wait := .run }).eligible a
   | _ => false)

/-- TASK_DISPATCH (R398). [DEDUCED, log 49] -/
def execTaskDispatch (a : Agent) (s : State) : Result :=
  match s.bestTask a 0 with
  | some k =>
    if s.atIdle a then
      let s1 := (s.settle a).loadTask a k 6
      .next (s1.event a 5)
    else .next s
  | none => .next s

/-- Whether an agent can be switched between two issues: it runs, or waits in WFE (R178, R397). An interrupt that can be taken comes
first (R437). -/
def State.switchable (s : State) (a : Nat) : Bool :=
  let t := s.thr a
  s.canSwitch a && !(s.irqInput a) && (match t.wait with
    | .run => s.eligible a
    | .wfe _ _ _ => (s.setThr a { t with wait := .run }).eligible a
    | _ => false)

/-- TASK_PREEMPT (R399, R407). -/
def execTaskPreempt (a : Agent) (s : State) : Result :=
  let t := s.thr a
  match t.task with
  | none => .next s
  | some k =>
    if ¬ s.switchReq a ∨ ¬ s.switchable a then .next s
    else if t.stopReq then .next ((s.cnt64 R.TSK_PREEMPT 1).nextTask a)
    else match s.bestTask a ((s.task k).eprio + 1) with
      | none => .next s
      | some j => .next (((((s.settle a).saveTask a k).makeReady k 7 3 true).loadTask a j 6).cnt64 R.TSK_PREEMPT 1)

/-! ### Ticks and timeouts (R402–R404) -/

/-- GROUP_TICK (R403): no tick passes during a backward step (R404), nor before the events that a step skipped are released (R78). -/
def execGroupTick (g : Fin 16) (s : State) : Result :=
  let c := R.TSK_GRP_CFG g
  .next (if s.mainClk && s.flag c F.TSK_GRP_CFG_EN && !(s.flag c F.TSK_GRP_CFG_MODE) && s.time.w.isNone && s.time.skipFrom.isNone then s.groupTicks g 1 else s)

/-- TIMEOUT_EXPIRE (R402): S has reached the deadline of a task. -/
def execTimeoutExpire (task : TaskN) (s : State) : Result :=
  match s.tmouts.find? fun e => e.2 == task.val with
  | none => .next s
  | some (dl, _) =>
    if ¬ s.mainClk ∨ s.time.sched < dl ∨ s.time.skipFrom.isSome = true then .next s
    else .next (({ s with tmouts := s.tmouts.filter fun e => e.2 != task.val } : State).timeUp task)

/-! ### Locks (R409, R410) -/

/-- The page and offset that name a lock in a capture: its word in its lock page (register at `base`).
[DEDUCED, log 36; DEDUCED, log 45] -/
def lockViol (s : State) (a n base type : Nat) : State := s.viol (0x41000 + n / 256 * 0x1000) a type 0 (base + n % 256 * 4)

/-- LKA (R169, R409). -/
def execLka (a : Agent) (rd rs1 : Reg) (s : State) : Result :=
  s.instr a 2 [rd, rs1] (kLoad rd) fun s =>
    let (v, s1) := s.lockAcquire a ((s.x a rs1).toNat % 1024)
    s1.setX a rd (BitVec.ofNat 64 v)

/-- LKQ (R410): only engine threads and control contexts queue, one request each. -/
def execLkq (a : Agent) (rs1 : Reg) (s : State) : Result :=
  s.instr a 2 [rs1] kStore fun s =>
    let n := (s.x a rs1).toNat % 1024
    if 0x810 ≤ a.val then lockViol s a n 0x400 4
    else if (s.thr a).lockReq.isSome then lockViol s a n 0x400 3
    else s.lockQueue a n

/-- LKR (R410). -/
def execLkr (a : Agent) (rs1 : Reg) (s : State) : Result :=
  s.instr a 2 [rs1] kStore fun s =>
    let n := (s.x a rs1).toNat % 1024
    if s.holds a n then s.lockRelease n else lockViol s a n 0x800 4

/-! ### LKUP (R18, R170, R225) -/

/-- The key bytes of consecutive registers, the first in network order. -/
def State.keyOfRegs (s : State) (a rs1 : Nat) : Nat → List Byte
  | 0 => []
  | n + 1 => bytesBE 8 (s.x a rs1).toNat ++ s.keyOfRegs a (rs1 + 1) n

/-- The effect of LKUP on a thread with a packet, with the parameters in `p`. [DESIGN CHOICE, log 138; DESIGN CHOICE, log 139] -/
def State.lkup (s : State) (a k rd rs1 : Nat) (p : Nat) : State :=
  let nreg := bits p 23 20
  let tbl := bits p 19 12
  let kind := bits p 11 10
  let slot := bits p 9 7
  let dstg := bits p 6 3
  let st := engOf a % 16
  let last := if st < 12 then 11 else 15
  let t := s.thr a
  let put (s : State) (code : Nat) : State :=
    (s.setThr a { s.thr a with slot := setCtxWord (s.thr a).slot (8 + slot) (slotWord code kind tbl 0) }).setX a rd (BitVec.ofNat 64 code)
  if ctxWord t.slot (8 + slot) / 2 ^ 60 = 1 then (s.setX a rd 4).cnt (R.EM_SLOT_BUSY (pipeOf a / 8))
  else if 4 ≤ (s.pkt k).fwd ∨ dstg < st + 2 ∨ last < dstg then (put s 4).cnt (R.PARSE_LKP_REFUSE (pipeOf a))
  else if nreg = 0 ∨ kind = 3 ∨ 32 < rs1 + nreg then put s 5
  else
    let s1 := (put s 1).issueLkp { pkt := k, slot := slot, stage := dstg, kind := kind, table := tbl, key := s.keyOfRegs a rs1 nreg,
                                   half := pipeOf a / 8, view := cView t.slot, fwd := true }
    s1.setPkt k { s1.pkt k with fwd := (s1.pkt k).fwd + 1 }

/-- LKUP (R170): absent from the full profile; without a packet it raises STATE. -/
def execLkup (a : Agent) (rd rs1 rs2 : Reg) (s : State) : Result :=
  let n := bits (s.x a rs2).toNat 23 20
  s.instr a 2 ([rd.val, rs2.val] ++ (List.range (min n (32 - rs1))).map (fun i => rs1.val + i))
    { writes := [rd.val], mem := true, also := (List.range (min 15 (32 - rs1))).map (fun i => rs1.val + i) } fun s =>
    let enc := encLR 0x24 rd rs1 rs2 0
    if ¬ isEng a then s.undef a enc true 0 0
    else match (s.thr a).pkt with
      | none => (s.killPartner a enc true).excpAt a 2 5 (BitVec.ofNat 64 enc)
      | some k => s.lkup a k rd rs1 (s.x a rs2).toNat

/-! ### Interrupt sources (R426, R429, R431) -/

/-- IRQ_SOURCE_ASSERT (R426, R431): that a source is asserted, pending, and above the bar of its target is read off the pages; what an assertion
adds is the wake of a sleeping core it is routed to. -/
def execIrqSourceAssert (src : Fin 1024) (s : State) : Result :=
  let n := src.val
  .next (if s.asserted n && s.srcEn n && decide (s.srcTgt n < 4) then s.wakeCore (0x800 + 4 * s.srcTgt n) else s)

/-- A pending host-routed source sends its message, or its vector's mask holds it: it stays pending and the vector's pending bit is set (R429).
[DEDUCED, log 52] -/
def State.msixSource (s : State) (n : Nat) : State :=
  if ¬ s.flag R.IRQ_CTL F.IRQ_CTL_EN ∨ s.srcTgt n ≠ 5 ∨ ¬ s.srcPending n then s
  else
    let v := s.srcVec n
    if smGet (fun _ => false) s.vecOpen v then ((s.emit (.msix v)).serve n).cnt64 R.IRQ_MSI_SENT 1
    else ({ s with vecPend := smSet (fun _ => false) s.vecPend v true } : State).cnt R.IRQ_MSI_MASKED

/-- MSIX_SEND (R429). -/
def execMsixSend (src : Fin 1024) (s : State) : Result := .next (if s.mainClk then s.msixSource src else s)

/-- Whether a vector is in the MSI-X table of an instance that exists (R446). -/
def State.vecOwned (s : State) (v : Nat) : Bool := s.instRes.any fun e => match e.2 with
  | some l => vecIn l v
  | none => false

/-- MSIX_VECTOR_UNMASK (R429): a message of a ring or mailbox that the mask held, and those of the sources still pending. A vector that no
instance's table holds has no mask bit to clear (R446). -/
def execMsixVectorUnmask (vec : Fin 2048) (s : State) : Result :=
  let v := vec.val
  if ¬ s.vecOwned v then .next s
  else
    let held := smGet (fun _ => false) s.vecMsg v
    let s1 : State := { s with vecOpen := smSet (fun _ => false) s.vecOpen v true, vecPend := smSet (fun _ => false) s.vecPend v false,
                               vecMsg := smSet (fun _ => false) s.vecMsg v false }
    let srcs := s.configured.filter fun n => (s.srcTgt n == 5) && (s.srcVec n == v)
    .next (srcs.foldl State.msixSource (if held then s1.emit (.msix v) else s1))

end Sys2Proof.Machine
end

