-- ==== Sys2Proof/Machine/TimeStep.lean ====
section
/-! DEFINITION. Forced steps of domain time and the events they skip (R76–R80, R84, R404). -/

namespace Sys2Proof.Machine

/-- The nanoseconds of a tick of a group. [DEDUCED, log 114] -/
def State.tickNs (s : State) (g : Nat) : Nat := s.fld (R.TSK_GRP_CFG g) F.TSK_GRP_CFG_TICK_US * 1000

/-- Whether a group ticks: it is enabled and in the tick mode. -/
def State.ticks (s : State) (g : Nat) : Bool := s.flag (R.TSK_GRP_CFG g) F.TSK_GRP_CFG_EN && !(s.flag (R.TSK_GRP_CFG g) F.TSK_GRP_CFG_MODE)

/-- Ticks of a group in an interval of S, in nanoseconds. -/
def State.ticksIn (s : State) (g old new : Nat) : Nat := new / s.tickNs g - old / s.tickNs g

/-- The delays of a list due within `n` ticks, by tick, and the rest of the list. -/
def dueList : Nat → Nat → List (Nat × Nat) → List (Nat × Nat) × List (Nat × Nat)
  | _, _, [] => ([], [])
  | n, at_, (d, k) :: l =>
    if at_ + d ≤ n then
      let r := dueList n (at_ + d) l
      ((at_ + d, k) :: r.1, r.2)
    else ([], (at_ + d - n, k) :: l)

/-- An event of due time `t` in a list in order of due time, behind those of the same time. -/
def insertDue (t k : Nat) : List (Nat × Nat) → List (Nat × Nat)
  | [] => [(t, k)]
  | (u, j) :: l => if t < u then (t, k) :: (u, j) :: l else (u, j) :: insertDue t k l

/-- Delays and timeouts due in an interval of S, in order of due time. -/
def State.geyserDue (s : State) (old new : Nat) : List (Nat × Nat) :=
  let ticks := ((List.range 16).map fun g =>
    if s.ticks g then (dueList (s.ticksIn g old new) 0 (s.delayL g)).1.map fun e => ((old / s.tickNs g + e.1) * s.tickNs g, e.2) else []).flatten
  let tmo := (s.tmouts.filter fun e => decide (e.1 ≤ new * nsU)).map fun e => (e.1 / nsU, e.2)
  (ticks ++ tmo).foldl (fun l e => insertDue e.1 e.2 l) []

/-- Geyser's part of the release: the tick counts advance by the whole ticks skipped, and what is due is released once, in order (R404).
[DEDUCED, log 50] -/
def State.geyserSkip (s : State) (old new : Nat) : State :=
  let due := s.geyserDue old new
  let s1 := (List.range 16).foldl (fun s g =>
    if s.ticks g then
      let n := s.ticksIn g old new
      (s.setReg (R.TSK_GRP_TICK g) (s.reg (R.TSK_GRP_TICK g) + BitVec.ofNat 32 n)).setDelayL g (dueList n 0 (s.delayL g)).2
    else s) s
  due.foldl (fun s e => s.timeUp e.2) { s1 with tmouts := s1.tmouts.filter fun e => decide (new * nsU < e.1) }

/-- Armed triggers reached by a time in nanoseconds, oldest first. -/
def State.trigsDue (s : State) (now : Nat) : List (Nat × Nat) :=
  ((List.range 8).filter fun t => s.flag (R.TIME_TRIG_CTL t) F.TIME_TRIG_CTL_ARM && decide (s.trigNs t ≤ now)).foldl
    (fun l t => insertDue (s.trigNs t) t l) []

/-- Whether a forward step to the present S skipped an event (R76). -/
def State.skips (s : State) (old : Nat) : Bool :=
  !(s.trigsDue s.sNs).isEmpty ||
  (s.mainClk && (!(s.geyserDue old s.sNs).isEmpty ||
    s.wheel.any (fun e => decide (e.2 ≤ s.s16 / (64 * 65536))) || s.ovf.any (fun e => decide (slotOf e.2 ≤ s.s16 / (64 * 65536)))))

/-- A forced step is complete (R76). -/
def State.stepDone (s : State) : State := ((s.setTime { s.time with skipFrom := none }).setFld R.TIME_STEP F.TIME_STEP_BUSY 0).raise 0x10000 1

/-- The time a forced step sets, in 2^-48 ns: TIME_SET, or what AUTOSET makes of the edge it was ordered for (R67, R76).
[DEDUCED, log 149] -/
def State.stepTarget (s : State) : Nat :=
  match s.time.target with
  | some (secs, at_) => secs * 1000000000 * nsU + (s.time.run - at_)
  | none => s.timeAt R.TIME_SET_NS * nsU

/-- Ports whose pending switch of gate lists is reached: it takes effect in the tick of the step (R80). -/
def State.gclSkip (s : State) : State :=
  if s.mainClk then
    (List.range 64).foldl (fun s x =>
      if s.flag (R.TM_GCL_CTL x) F.TM_GCL_CTL_PEND ∧ s.timeAt (R.TM_GCL_CHG_NS x) ≤ s.sNs then s.gclSwitch x else s) s
  else s

/-- Events already due in the tick of a step fire before it, on the old time (R84). -/
def State.fireDue (s : State) : State :=
  let s1 := (s.trigsDue s.sNs).foldl (fun s e => s.trigFire e.2 false) s
  if s1.mainClk then
    let s2 := (s1.wheelRun (s1.s16 / (64 * 65536))).gclSkip
    (s2.tmouts.filter fun e => decide (e.1 ≤ s.time.sched)).foldl (fun s e => s.timeUp e.2)
      { s2 with tmouts := s2.tmouts.filter fun e => decide (s.time.sched < e.1) }
  else s1

/-- FORCED_STEP (R76, R77, R84): an ordered step takes effect. -/
def execForcedStep (s0 : State) : Result :=
  if ¬ s0.time.ordered ∨ s0.mode = mOFF then .next s0
  else
    let s := s0.fireDue
    let old := s.time.sched
    let d := s.stepTarget
    let w := if d < old then some old else none
    let t : TimeSt := { s.time with d := d, inc := 0, w := w, slew := 0, ordered := false, target := none, stepTick := some s.clk }
    let s1 := (((s.setTime t).cnt R.STEP_CNT).setFld R.TIME_STAT F.TIME_STAT_VALID 1).setFld R.TIME_STAT F.TIME_STAT_SLEWING 0
    if d < s.time.d then .next s1.stepDone
    else
      let s2 := s1.gclSkip
      if s2.skips (old / nsU) then .next (s2.setTime { s2.time with skipFrom := some (old, s2.time.sched) })
      else .next (if s2.mainClk then (s2.geyserSkip (old / nsU) s2.sNs).stepDone else s2.stepDone)

/-- SKIPPED_EVENT_RELEASE (R78): every block releases what the step skipped, up to the new time of the step. -/
def execSkippedEventRelease (s : State) : Result :=
  match s.time.skipFrom with
  | none => .next s
  | some (old, new) =>
    let s1 := (s.trigsDue (new / nsU)).foldl (fun s e => s.trigFire e.2 true) s
    .next (if s1.mainClk then ((s1.wheelRun (new / 2 ^ 32 / (64 * 65536))).geyserSkip (old / nsU) (new / nsU)).stepDone else s1.stepDone)

end Sys2Proof.Machine
end

