-- ==== Sys2Proof/Machine/BusRead.lean ====
section
/-! DEFINITION. Reads of registers (R574–R593): who reaches which register, what each register reads as, and what a read does.
A register that shows state the model keeps elsewhere (a queue's length, a thread's state, a fuse) is computed here; every other
register reads as `State.reg` holds it. -/

namespace Sys2Proof.Machine

/-! ### Where an access lands (R444, R466, R587, R589) -/

/-- A register reached: its address in the register space of the model, the address whose page captures violations and gives its
descriptor, whether it is the manager's view of an instance page, whether it is an own view, and whether the reader may only
read (R588). -/
structure Hit where
  at_   : Nat
  cap   : Nat
  mgr   : Bool := false
  own   : Bool := false
  quiet : Bool := false
  deriving DecidableEq, Repr

/-- What an access meets: nobody who could make it, a violation of a type captured at a page and offset, a doorbell page, or a
register. -/
inductive Reach where
  | gone
  | viol (page type off : Nat)
  | bell (inst off : Nat)
  | reg (h : Hit)
  deriving DecidableEq, Repr

/-- The storage of a register of the lookup pages: their command and configuration registers are device-wide (R237, R269).
[DESIGN CHOICE, log 25] -/
def aliasOf (a : Nat) : Nat :=
  let n := a / 0x1000
  let o := a % 0x1000
  if n < 0x500 ∨ 0x504 < n ∨ o < 0x40 then a
  else if n = 0x500 ∧ 0x140 ≤ o ∧ o ≠ 0x148 then a
  else if n = 0x503 ∧ 0x200 ≤ o then a
  else a - 0x100000

/-- The storage of a register that a selector names: the rings (R466). -/
def State.selected (s : State) (a : Nat) : Nat :=
  if 0xB00084 ≤ a ∧ a < 0xB000A4 then ringReg (s.fld R.HIF_RING_SEL F.HIF_RING_SEL) (a % 0x1000) else aliasOf a

/-- The modes in which a requester reaches only the DEV and AON pages (R496, R500, R589); the debugger also the DBG page. -/
def State.sleepMap (s : State) (who a : Nat) : Bool :=
  (decide (s.mode = mSIMMER) || decide (s.mode = mDORMANT)) &&
  !(decide (a / 0x1000 = 0) || decide (a / 0x1000 = 0xF80) || (decide (who = aDBG) && decide (a / 0x1000 = 0xF00)))

/-- A register of the map, once the requester may reach its page. -/
def State.landReg (s : State) (who a : Nat) (h : Hit) : Reach :=
  if s.sleepMap who a then .viol 0 6 (a % 0x1000)
  else if (pageOf h.cap).isNone then .viol 0 1 (a % 0x1000)
  else if ¬ s.pageOn h.cap then .viol 0 6 (a % 0x1000)
  else .reg h

/-- The page in which an access that ACC does not allow is captured (R585). -/
def State.denied (s : State) (who a : Nat) : Reach :=
  if a / 0x1000 = 0xB01 ∧ ¬ s.sleepMap who a then .viol (instPg (s.fld R.HIF_INST_SEL F.HIF_INST_SEL)) 4 (a % 0x1000)
  else match s.landReg who a { at_ := a, cap := a } with
  | .reg _ => .viol (a / 0x1000 * 0x1000) 4 (a % 0x1000)
  | r => r

/-- The own pages of an instance (R466): offset in the two pages. [DEDUCED, log 113] -/
def State.ownPage (s : State) (who i o : Nat) : Reach :=
  if s.sleepMap who 0xB02000 then .viol 0 6 (o % 0x1000)
  else if o < 0x1000 then .reg { at_ := instPg i + o, cap := instPg i + o, own := true }
  else .bell i (o - 0x1000)

/-- The whole map, as a requester with full access reaches it. -/
def State.wholeMap (s : State) (who a : Nat) : Reach :=
  if a / 0x1000 = 0xB01 ∧ ¬ s.sleepMap who a then
    let g := instPg (s.fld R.HIF_INST_SEL F.HIF_INST_SEL) + a % 0x1000
    .reg { at_ := g, cap := g, mgr := true }
  else s.landReg who a { at_ := s.selected a, cap := a }

/-- Where an access of a requester lands (R587). [DEDUCED, log 22; DEDUCED, log 113] -/
def State.reach (s : State) (who a : Nat) (wr : Bool) : Reach :=
  if s.mode = mOFF ∨ s.mode = mRESET then .gone
  else if 0x800 ≤ who ∧ who ≤ 0x810 then s.wholeMap who a
  else if who = aDBG then (if a / 0x1000 = 0xF00 ∨ s.dbgLvl 1 = true then s.wholeMap who a else s.denied who a)
  else if who < 0x900 ∨ 0xA00 ≤ who then .gone
  else
    let i := who - 0x900
    if s.mode = mDORMANT ∨ ¬ s.fnOn i then .gone
    else if 4 ≤ i then (if a < 0x2000 then s.ownPage who i a else .gone)
    else if a / 0x1000 = 0xB02 ∨ a / 0x1000 = 0xB03 then s.ownPage who i (a - 0xB02000)
    else if who = s.primary then s.wholeMap who a
    else match s.fld (R.HIF_PF_CFG i) F.HIF_PF_CFG_ACC with
      | 1 => if wr then s.denied who a
             else match s.wholeMap who a with
               | .reg h => .reg { h with quiet := true }
               | r => r
      | 2 => s.wholeMap who a
      | _ => s.denied who a

/-! ### What registers show -/

def w32 (n : Nat) : W32 := BitVec.ofNat 32 n

/-- Bits counted from a test. -/
def bitsIf (n : Nat) (p : Nat → Bool) : Nat := (List.range n).foldl (fun m i => m + b2n (p i) * 2 ^ i) 0

/-- State code of a thread (R141). [DEDUCED, log 55] -/
def State.thrCode (s : State) (a : Nat) : Nat :=
  let t := s.thr a
  if t.halted then 7
  else if s.inReset a then 6
  else if s.role a = rOff then 0
  else if (s.role a = rPacket ∧ t.pkt.isNone) ∨ (s.role a = rService ∧ t.task.isNone) then 1
  else match t.wait with | .wfe _ _ _ => 3 | .sendWait => 4 | _ => if s.moving a || s.stalled a then 5 else 2

/-- ENG_STAT. [DEDUCED, log 55] -/
def State.engStat (s : State) (e : Nat) : Nat :=
  let th (t : Nat) : Thr := s.thr (e * 8 + t)
  let own : Option Nat := match s.oldest e with
    | some k => (s.holder e k).map fun a => a % 8
    | none => none
  bitsIf 8 (fun t => (th t).pkt.isSome) * 2 ^ 24 +
  bitsIf 8 (fun t => match (th t).wait with | .wfe _ _ _ => true | _ => false) * 2 ^ 16 +
  b2n (s.debugHold (e / 16) || !(s.engRun e)) * 2 ^ 15 + b2n (s.boost e) * 2 ^ 14 + own.getD 0 * 2 ^ 11 + b2n own.isSome * 2 ^ 10 +
  min 16 (s.eng e).q.length * 2 ^ 5

/-- Per-thread registers of an ENG page, by their place in the group. -/
def State.thrReg (s : State) (a k : Nat) : Nat :=
  let t := s.thr a
  match k with
  | 0 => t.evMask.toNat
  | 4 => t.evPend.toNat
  | 8 => match t.tmr with
    | some x => 2 ^ 31 + (x - s.cycles a) % 2 ^ 31
    | none => 0
  | _ => s.thrCode a * 2 ^ 29 + t.pc % 65536

/-- The word of the key store that ENG_HKEY_SEL names (R207). -/
def State.hkey (s : State) (e : Nat) : Word := smGet (fun _ => (0 : Word)) (s.eng e).keys (s.fld (R.ENG_HKEY_SEL e) F.ENG_HKEY_SEL_IDX)

/-- The oldest stamp of a port: tag, fraction, nanoseconds, seconds (R61). -/
def State.stampL (s : State) (x : Nat) : List (Nat × Nat) := smGet (fun _ => []) s.stamps x
def State.stampReg (s : State) (x k : Nat) : Nat :=
  match s.stampL x with
  | [] => 0
  | (tag, st) :: l =>
    let ns := st / 65536
    match k with
    | 0x58 => 2 ^ 31 + (l.length + 1)
    | 0x5C => st % 65536 * 65536 + tag
    | 0x60 => ns % 1000000000
    | 0x64 => ns / 1000000000 % 2 ^ 32
    | _ => ns / 1000000000 / 2 ^ 32 % 65536

/-- TIME page registers that show the time unit (R62, R75, R77, R88). -/
def State.timeReg (s : State) (a : Nat) : Option Nat :=
  let d := s.time.d
  let recent (o : Option Nat) : Bool := match o with | some c => decide (s.clk - c < 1000000000) | none => false
  if a = R.TIME_STAT then
    some ((s.reg a).toNat - (s.reg a).toNat / 2 ^ 26 % 4 * 2 ^ 26 - b2n (s.flag a F.TIME_STAT_LAGGING) * 2 ^ 29 +
      b2n (decide (d < s.time.sched)) * 2 ^ 29 + b2n (recent s.time.sampleAt) * 2 ^ 27 + b2n (recent s.time.todAt) * 2 ^ 26)
  else if a = R.TIME_NOW_FRAC then some (d / 2 ^ 32 % 65536)
  else if a = R.TIME_NOW_NS then some (s.dNs % 1000000000)
  else if a = R.TIME_NOW_SEC_LO then some (s.dNs / 1000000000 % 2 ^ 32)
  else if a = R.TIME_NOW_SEC_HI then some (s.dNs / 1000000000 / 2 ^ 32 % 65536)
  else if a = R.TIME_ADJ_REM then some (uint 32 (s.time.slew.tdiv nsU))
  else if a = R.TIME_LAG then some (min 0xFFFFFFFF ((s.time.sched - d) / nsU))
  else none

/-- TCE registers of the selected task (R391, R422). -/
def State.tceReg (s : State) (o : Nat) : Option W32 :=
  let t := s.task (s.fld R.TSK_SEL F.TSK_SEL)
  match o with
  | 0x48 => some t.cfg
  | 0x4C => some t.tcbLo
  | 0x50 => some t.tcbHi
  | 0x54 => some (w32 (t.st.code * 2 ^ 29 + t.eprio * 2 ^ 20 + t.pend * 2 ^ 8 + b2n t.grant * 2 ^ 7 + b2n t.tmo * 2 ^ 6))
  | 0x58 => some t.entryLo
  | 0x5C => some t.entryHi
  | _ => none

/-- TSK page registers that show Geyser. -/
def State.tskReg (s : State) (o : Nat) : Option W32 :=
  if 0x200 ≤ o ∧ o < 0x300 then
    let a := 0x800 + (o - 0x200) / 0x10
    match o % 0x10 with
    | 8 => some (w32 (s.portStatus a / 2 ^ 32))
    | 0xC => some (setF (s.reg (0x30000 + o)) F.TSK_CTX_CFG_STATUS (s.thr a).gstat)
    | _ => none
  else s.tceReg o

/-- LCK_STAT of a lock. -/
def State.lockStat (s : State) (n : Nat) : Nat :=
  let l := s.lock n
  b2n l.held * 2 ^ 31 + b2n l.aband * 2 ^ 30 + b2n (!l.q.isEmpty) * 2 ^ 29 + l.otask % 4096 * 2 ^ 12 + l.owner % 4096

/-- IRQ_TSTAT of a target. -/
def State.tstat (s : State) (t : Nat) : Nat :=
  b2n (s.irqLine t) * 2 ^ 31 + s.serviceLevel t * 2 ^ 16 + (s.topSource t).getD 0x3FF

/-- SINT main page registers that show the pools. -/
def State.sintReg (s : State) (a : Nat) : Option Nat :=
  if R.SINT_POOL_FREE 0 ≤ a ∧ a < R.SINT_POOL_FREE 4 then some (s.pool ((a - R.SINT_POOL_FREE 0) / 4)).free
  else if a = R.SINT_SH then some (s.sh / 256)
  else if a = R.SINT_SU then some (s.su / 256)
  else if a = R.SINT_DEEP_FREE then some s.deepFree
  else if R.SINT_WIN 0 ≤ a ∧ a < R.SINT_WIN 64 then
    match s.winPlace ((a - R.SINT_WIN 0) / 4) with
    | some (p, o) => some (valLE (s.bufRead p o 4))
    | none => some 0
  else none

/-- The queue that XB_VOQ_SEL names. -/
def State.selVoq (s : State) : Nat :=
  let i := s.fld R.XB_VOQ_SEL F.XB_VOQ_SEL_INPUT
  let q := s.fld R.XB_VOQ_SEL F.XB_VOQ_SEL_QUEUE
  let c := s.fld R.XB_VOQ_SEL F.XB_VOQ_SEL_CLASS
  if i = 16 then mirKey 16 q else if i = 17 then rcyKey c else voqKey i q c

/-- The whole milliseconds of a port's hold time that remain, a part counted as one (R353). [DEDUCED, log 56] -/
def State.holdLeft (s : State) (x : Nat) : Nat := ceilDiv (smGet (fun _ => 0) s.holdEnd x - s.clk) 500000

/-- XBAR page registers that show Caldera. -/
def State.xbReg (s : State) (a : Nat) : Option Nat :=
  if a = R.XB_STAT then
    some (s.fld a F.XB_STAT_MC_MODE * 2 ^ 31 + bitsIf 18 (fun o => s.conns.any fun e => e.2.outs.contains o))
  else if a = R.XB_VOQ_FRM then some (s.nearFrames s.selVoq)
  else if a = R.XB_VOQ_BYTES then some (s.nearBytes s.selVoq)
  else if a = R.XB_STORE_USE then some s.copies.length
  else if R.XB_PORT 0 ≤ a ∧ a < R.XB_PORT 72 ∧ a % 4 = 0 ∧ s.flag a F.XB_PORT_HOLD then
    some ((setF (s.reg a) F.XB_PORT_HOLD_REM_MS (s.holdLeft ((a - R.XB_PORT 0) / 4))).toNat)
  else if R.XB_MIR_CFG 0 ≤ a ∧ a < R.XB_MIR_CFG 16 ∧ a % 0x10 = 0xC then some (ceilDiv (s.mirBytes ((a - R.XB_MIR_CFG 0) / 0x10)) 256)
  else none

def State.onWheel (s : State) (e : Nat) : Bool := (smFind s.wheel e).isSome
def State.onOvf (s : State) (e : Nat) : Bool := (smFind s.ovf e).isSome

/-- TM main page registers that show the wheel. [DEDUCED, log 147] -/
def State.tmReg (s : State) (a : Nat) : Option Nat :=
  if a = R.TM_WHL_STAT then some (s.wheel.length * 2 ^ 16 + s.slotNow % 4096)
  else if a = R.TM_OVF_STAT then some s.ovf.length
  else if R.TM_GRP_STAT 0 ≤ a ∧ a < R.TM_GRP_STAT 16 ∧ a % 8 = 4 then
    let g := 64 + (a - R.TM_GRP_STAT 0) / 8
    some (b2n (s.entAllows g && s.hasPorts g) * 2 ^ 31 + b2n (s.onWheel g) * 2 ^ 30 + b2n (s.onOvf g) * 2 ^ 29)
  else none

/-- TM port page registers that show the port's scheduler. -/
def State.tmPortReg (s : State) (x o : Nat) : Option Nat :=
  if o = 0x48 then
    let r := R.TM_PORT_STAT x
    some (s.fld r F.TM_PORT_STAT_VEC * 2 ^ 24 + s.fld r F.TM_PORT_STAT_OPEN * 2 ^ 16 + b2n (s.entAllows x) * 2 ^ 15 + b2n (s.onWheel x) * 2 ^ 14 +
      b2n (s.onOvf x) * 2 ^ 13 + s.fld r F.TM_PORT_STAT_PAUSED)
  else if 0x80 ≤ o ∧ o < 0x100 then
    let c := (o - 0x80) / 0x10
    match o % 0x10 with
    | 8 => some (uint 32 (max (-2147483648) (min 2147483647 ((s.cred x c).fdiv 1000000))))
    | 0xC => some (s.txqL x c).length
    | _ => none
  else if 0x140 ≤ o ∧ o < 0x160 ∧ o % 4 = 0 then some ((s.maxWin x ((o - 0x140) / 4)).getD 0xFFFFFFFF)
  else none

/-- LRN registers that show the learn engines and the ager. -/
def State.lrnReg (s : State) (a : Nat) : Option Nat :=
  let p := s.peer (s.fld R.LRN_PEER_SEL F.LRN_PEER_SEL)
  if a = R.LRN_PEER_SEQ then some p.exp
  else if a = R.LRN_PEER_STAT then
    some (b2n p.known * 2 ^ 31 + b2n p.sync * 2 ^ 30 + (if p.known then min (2 ^ 30 - 1) ((s.clk - p.at_) / 500000) else 0))
  else if a = R.LRN_AGE_STAT then some s.ageP
  else if R.LRN_PCNT 0 ≤ a ∧ a < R.LRN_PCNT 68 then some (s.portCnt ((a - R.LRN_PCNT 0) / 4))
  else if R.LRN_ICNT 0 ≤ a ∧ a < R.LRN_ICNT 256 then some (s.instCnt ((a - R.LRN_ICNT 0) / 4))
  else none

/-- Bytes 4w to 4w + 3 of a digest, byte 4w in [7:0]. [DESIGN CHOICE, log 29] -/
def digestWord (d w : Nat) : Nat := valLE ((bytesBE 48 d).drop (4 * w) |>.take 4)

/-- SEC page registers that show fuses and measurements (R513, R523, R526, R537). [DESIGN CHOICE, log 29] -/
def State.secReg (s : State) (a : Nat) : Option Nat :=
  let f := s.fuses
  if a = R.SEC_STAT then
    some (s.fld a F.SEC_STAT_BOOT_RES * 2 ^ 30 + s.fld a F.SEC_STAT_ID_READY * 2 ^ 29 + b2n f.ownEn * 2 ^ 28 + b2n s.reqSigned * 2 ^ 27 +
      b2n f.dbgDis * 2 ^ 26 + s.fld a F.SEC_STAT_DBG_LVL * 2 ^ 23 + f.svn)
  else if a = R.SEC_SERIAL_LO then some (f.serial % 2 ^ 32)
  else if a = R.SEC_SERIAL_HI then some (f.serial / 2 ^ 32 % 2 ^ 32)
  else if R.SEC_MR 0 ≤ a ∧ a < R.SEC_MR 12 then some (digestWord (s.mr (s.fld R.SEC_MR_SEL F.SEC_MR_SEL)) ((a - R.SEC_MR 0) / 4))
  else if R.SEC_KEYH 0 ≤ a ∧ a < R.SEC_KEYH 48 then
    let w := (a - R.SEC_KEYH 0) / 4
    some (digestWord ([f.vkhRsa, f.vkhSlh, f.okhRsa, f.okhSlh].getD (w / 12) 0) (w % 12))
  else none

/-- DBG page registers that show the target, the ring and the copies of R559. -/
def State.dbgReg (s : State) (a : Nat) : Option Nat :=
  let treg : Nat := match s.tregGet with | .ok v => v.toNat | .error _ => 0
  if a = R.DBG_HSTAT then
    some (bitsIf 16 s.debugHold * 2 ^ 16 + b2n s.dbgHalted * 2 ^ 15 + s.fld a F.DBG_HSTAT_STATUS)
  else if a = R.DBG_TREG_LO then some (treg % 2 ^ 32)
  else if a = R.DBG_TREG_HI then some (treg / 2 ^ 32)
  else if a = R.DBG_TR_LO then some (s.trRecord.toNat % 2 ^ 32)
  else if a = R.DBG_TR_HI then some (s.trRecord.toNat / 2 ^ 32)
  else if a = R.DBG_SEC_STAT then s.secReg R.SEC_STAT
  else if a = R.DBG_SERIAL_LO then s.secReg R.SEC_SERIAL_LO
  else if a = R.DBG_SERIAL_HI then s.secReg R.SEC_SERIAL_HI
  else if R.DBG_NONCE 0 ≤ a ∧ a < R.DBG_NONCE 8 then some (s.reg (R.SEC_DBG_NONCE ((a - R.DBG_NONCE 0) / 4))).toNat
  else none

/-- RAS page registers that show the log (R540). -/
def State.rasReg (s : State) (a : Nat) : Option Nat :=
  if a = R.RAS_LOG_STAT then some (b2n (decide (512 ≤ s.rasLog.length)) * 2 ^ 31 + s.rasLog.length)
  else if R.RAS_LOG_W 0 ≤ a ∧ a < R.RAS_LOG_W 4 then
    some ((s.rasLog.getD (s.fld R.RAS_LOG_SEL F.RAS_LOG_SEL) 0) / 2 ^ (32 * ((a - R.RAS_LOG_W 0) / 4)) % 2 ^ 32)
  else none

/-- Whether the reset of a core still runs (R491). -/
def State.coreInReset (s : State) (c : Nat) : Bool := (List.range 4).any fun i => s.inReset (0x800 + 4 * c + i)

/-- DEV_CORE_STAT of a core (R489, R490, R512). [DESIGN CHOICE, log 28] -/
def State.coreStat (s : State) (c : Nat) : Nat :=
  let t (i : Nat) : Thr := s.thr (0x800 + 4 * c + i)
  let slp (i : Nat) : Bool := (t i).wait == .sleep
  bitsIf 4 slp * 2 ^ 28 + bitsIf 4 (fun i => (t i).dead) * 2 ^ 24 + b2n ((List.range 4).all slp) * 2 ^ 23 +
  b2n (s.coreInReset c) * 2 ^ 22 +
  s.fld (R.DEV_CORE_STAT c) F.DEV_CORE_STAT_SLP_RES

/-- The word of instruction RAM or shared RAM that a cluster's address register names (R141, R142). -/
def State.cluAddr (s : State) (c o : Nat) : Nat :=
  if o = 0x44 then iramAt c + s.fld (R.CLU_IRAM_ADDR c) F.CLU_IRAM_ADDR_ADDR * 4
  else if o = 0x4C then shrAt c + s.fld (R.CLU_SHR_ADDR c) F.CLU_SHR_ADDR_ADDR * 4
  else iramAt c + s.fld (R.CLU_IRAM_FIX_ADDR c) F.CLU_IRAM_FIX_ADDR_ADDR * 4

/-- What a register shows, where the model computes it. -/
def State.shown (s : State) (h : Hit) : Option W32 :=
  let a := h.at_
  let o := h.cap % 0x1000
  match pageOf h.cap with
  | some (.dev, _) => if 0x70 ≤ o ∧ o < 0x80 then some (w32 (s.coreStat ((o - 0x70) / 4)))
    else if o = 0x60 then some (w32 (bitsIf 4 s.coreInReset)) else none
  | some (.aon, _) => if a = R.AON_HOLD_STAT then some (w32 s.holdBytes) else none
  | some (.time, _) => (s.timeReg a).map w32
  | some (.irqMain, _) =>
    if 0x80 ≤ o ∧ o < 0xD0 ∧ o % 0x10 = 0xC then some (w32 (s.tstat ((o - 0x80) / 0x10))) else none
  | some (.irqSrc, k) =>
    if 0x800 ≤ o ∧ o < 0x820 then
      let w := (o - 0x800) / 4
      some (w32 (bitsIf 32 fun b => s.asserted (256 * k + 32 * w + b)))
    else none
  | some (.tsk, _) => s.tskReg o
  | some (.lckPage, k) => if 0xC00 ≤ o then some (w32 (s.lockStat (256 * k + (o - 0xC00) / 4))) else none
  | some (.port, x) => if 0x58 ≤ o ∧ o < 0x6C then some (w32 (s.stampReg x o)) else none
  | some (.parse, _) => if o = 0x50 then some (w32 s.active) else none
  | some (.eng, e) =>
    if o = 0x50 then some (w32 (bitsIf 8 fun t => s.inReset (e * 8 + t)))
    else if o = 0x54 then some (w32 (s.engStat e))
    else if o = 0x64 then some (w32 (s.hkey e).toNat)
    else if o = 0x68 then some (w32 ((s.hkey e).toNat / 2 ^ 32))
    else if 0x80 ≤ o ∧ o < 0x100 then some (w32 (s.thrReg (e * 8 + (o - 0x80) / 0x10) (o % 0x10)))
    else none
  | some (.clu, c) => if o = 0x44 ∨ o = 0x4C ∨ o = 0x54 then some (w32 (s.rdLE (s.cluAddr c o) 4)) else none
  | some (.em, _) => if o = 0x140 then some (w32 s.odieUsed) else if o = 0x144 then some (w32 s.ovfUsed) else none
  | some (.tc, _) => if o = 0x200 then some (w32 s.rows.length) else none
  | some (.view, _) => if o = 0x60 then some (w32 s.dirty.length) else none
  | some (.lrnDev, _) | some (.lrnAge, _) | some (.lrnLim, _) => (s.lrnReg a).map w32
  | some (.sintMain, _) => (s.sintReg a).map w32
  | some (.sintAcc, k) =>
    if 0x800 ≤ o ∧ o < 0xC00 then
      let c := s.acct (256 * k + (o - 0x800) / 4)
      some (w32 (b2n c.xoff * 2 ^ 31 + c.h / 256 * 2 ^ 19 + (c.r + c.sh + c.h) / 256))
    else none
  | some (.xbar, _) => (s.xbReg a).map w32
  | some (.tmMain, _) => (s.tmReg a).map w32
  | some (.tmPort, x) => (s.tmPortReg x o).map w32
  | some (.hbmCh, ch) => if o = 0x40 ∨ o = 0x44 then some (s.reg a ||| w32 (s.qDepth (2 * ch + (o - 0x40) / 4))) else none
  | some (.sec, _) => (s.secReg a).map w32
  | some (.ras, _) => (s.rasReg a).map w32
  | some (.dbg, _) => (s.dbgReg a).map w32
  | _ => none

/-- The bits of INT_RAW that a page names (R576 and the register tables of the chapters). -/
def intMask : PageKind → Nat
  | .dev | .em | .lrnDev | .sintMain | .xbar | .hbmMain | .ras => 0xF
  | .aon | .parse | .eng | .tmPort => 3
  | .time => 0xFF1F
  | .tsk | .port | .tc | .inst | .hbmCh | .sec | .dbg => 7
  | .lckMain | .mtr => 1
  | .view => 0x1F
  | _ => 0

/-- What a register reads as: WO fields and reserved bits are 0 (R579). -/
def State.value (s : State) (h : Hit) : W32 :=
  let o := h.cap % 0x1000
  if o = 0x18 then s.intStat (h.cap - 0x18)
  else if o < 0x40 then (if 0x20 ≤ o then 0 else s.reg h.cap)
  else match s.shown h with
    | some v => v
    | none =>
      match descOf h.cap with
      | some r => if r.flds.all fun f => f.ty == .wo then 0 else s.reg h.at_
      | none => 0

/-! ### What a read does (R579, R582, R588) -/

/-- The key of a latch. [DEDUCED, log 26; DESIGN CHOICE, log 27] -/
def latchKey (who a : Nat) : Nat := who * 2 ^ 32 + a
def State.latched (s : State) (who a : Nat) : Option W32 := smGet (fun _ => none) s.latches (latchKey who a)
def State.setLatch (s : State) (who a : Nat) (v : Option W32) : State :=
  { s with latches := smSet (fun _ => none) s.latches (latchKey who a) v }

/-- The latches that a read of a latching register makes for its reader: the rest of its group, or the high word. [DEDUCED, log 26] -/
def State.latchGroup (s : State) (who : Nat) (h : Hit) : State :=
  match descOf h.cap with
  | none => s
  | some r =>
    if isHigh h.cap then s
    else (if r.wide then [4] else if h.at_ = R.RAS_LOG_W 0 then [4, 8, 12] else r.latch).foldl (fun t d =>
      t.setLatch who (h.at_ + d) (some (s.value { h with at_ := h.at_ + d, cap := h.cap + d }))) s

/-- RC fields of the register read are cleared: a low word clears all 64 bits, a high word nothing. [DEDUCED, log 23] -/
def State.clearRead (s : State) (h : Hit) : State :=
  match descOf h.cap with
  | none => s
  | some r =>
    if h.quiet ∨ isHigh h.cap then s
    else
      let rc := r.flds.filter fun f => f.ty == .rc
      if rc.isEmpty then s
      else
        let s1 := s.setReg h.at_ (rc.foldl (fun v f => setF v f.fld 0) (s.reg h.at_))
        if r.wide then s1.setReg (h.at_ + 4) 0 else s1

/-- A read of VIOL_CAP clears it and VOVF (R584). -/
def State.clearViol (s : State) (h : Hit) : State :=
  if h.quiet then s else (s.setReg h.cap 0).setReg (h.cap - 0x10) (s.reg (h.cap - 0x10) &&& 0xDFFFFFFF)

/-- A read of a register that nothing forbids: the latched value if there is one, else the value, with the latches and clears it
causes. -/
def State.plainRead (s : State) (who : Nat) (h : Hit) : W32 × State :=
  match s.latched who h.at_ with
  | some v => (v, s.setLatch who h.at_ none)
  | none => (s.value h, (s.latchGroup who h).clearRead h)

/-- The target of a claim by a requester: its own core, or Fumarole (R427). -/
def mayClaim (who t : Nat) : Bool := (decide (0x800 ≤ who) && decide (who < 0x810) && decide ((who - 0x800) / 4 = t)) || (decide (who = 0x810) && decide (t = 4))

/-- IRQ_CLAIM (R427). -/
def State.claim (s : State) (who t : Nat) (h : Hit) : W32 × State :=
  if ¬ mayClaim who t then (0, s.violAt who 4 h.cap)
  else match s.topSource t with
    | some n => (w32 n, s.serve n)
    | none => (0x3FF, s.cnt (R.IRQ_NULL t))

/-- ENG_HKEY_HI: the latched half or the current one, and IDX advances (R207). -/
def State.hkeyNext (s : State) (e : Nat) : State :=
  s.setFld (R.ENG_HKEY_SEL e) F.ENG_HKEY_SEL_IDX (s.fld (R.ENG_HKEY_SEL e) F.ENG_HKEY_SEL_IDX + 1)

/-- The address of a cluster's data register advances and wraps. -/
def State.cluNext (s : State) (c o : Nat) : State :=
  if o = 0x44 then s.setFld (R.CLU_IRAM_ADDR c) F.CLU_IRAM_ADDR_ADDR (s.fld (R.CLU_IRAM_ADDR c) F.CLU_IRAM_ADDR_ADDR + 1)
  else if o = 0x4C then s.setFld (R.CLU_SHR_ADDR c) F.CLU_SHR_ADDR_ADDR (s.fld (R.CLU_SHR_ADDR c) F.CLU_SHR_ADDR_ADDR + 1)
  else s

/-- A read of a register. A register of the DBG page that the debug level does not open reads as zero under the violation rule (R529, R556).
[DEDUCED, log 21; DEDUCED, log 23; DEDUCED, log 24] -/
def State.readHit (s : State) (who : Nat) (h : Hit) : W32 × State :=
  let o := h.cap % 0x1000
  if o = 0x1C then (s.reg h.cap, s.clearViol h)
  else if o < 0x40 then (s.value h, s)
  else if (descOf h.cap).isNone then (0, s.violAt who 1 h.cap)
  else match pageOf h.cap with
  | some (.irqMain, _) => if 0x80 ≤ o ∧ o < 0xD0 ∧ o % 0x10 = 0 then s.claim who ((o - 0x80) / 0x10) h else s.plainRead who h
  | some (.lckPage, k) =>
    if 0x400 ≤ o ∧ o < 0x800 then
      let r := s.lockAcquire who (256 * k + (o - 0x400) / 4)
      (w32 r.1, r.2)
    else s.plainRead who h
  | some (.port, x) =>
    if o = 0x5C then (if (s.stampL x).isEmpty then (0, s) else s.plainRead who h)
    else if o = 0x68 then
      let r := s.plainRead who h
      (r.1, if (s.latched who h.at_).isSome then { r.2 with stamps := smSet (fun _ => []) s.stamps x ((s.stampL x).drop 1) } else r.2)
    else s.plainRead who h
  | some (.eng, e) =>
    if o = 0x68 then
      let r := s.plainRead who h
      (r.1, r.2.hkeyNext e)
    else s.plainRead who h
  | some (.clu, c) =>
    let r := s.plainRead who h
    (r.1, r.2.cluNext c o)
  | some (.sintMain, _) =>
    if R.SINT_WIN 0 ≤ h.at_ ∧ (s.winPlace ((h.at_ - R.SINT_WIN 0) / 4)).isNone then (0, s.violAt who 3 h.cap) else s.plainRead who h
  | some (.dbg, _) =>
    if ¬ s.dbgMay o then (0, s.violAt who 4 h.cap)
    else if o = 0x50 ∨ o = 0x54 then
      match s.latched who h.at_, s.tregGet with
      | none, .error e => (0, s.dbgStatus e)
      | _, _ => let r := s.plainRead who h
                (r.1, r.2.dbgStatus dOK)
    else s.plainRead who h
  | _ => s.plainRead who h

/-- A read of the doorbell page (R578). -/
def State.bellRead (s : State) (who i o : Nat) : W32 × State :=
  let v (w : W32) : W32 × State := (w, s)
  if o = 0 then v (w32 (0xB2 * 0x10000 + i * 0x100 + 1))
  else if o = 4 then v (w32 (pageCount .db * 0x10000))
  else if o = 8 then v 0x80000000
  else if o = 0xC then v (s.reg (dbPg i + 0xC))
  else if o = 0x1C then (s.reg (dbPg i + 0x1C), s.clearViol { at_ := dbPg i + 0x1C, cap := dbPg i + 0x1C })
  else if o < 0x800 then v 0
  else (0, s.viol (dbPg i) who 1 0 o)

/-- A read of a register by a requester: the data it receives, and the state after it. [DEDUCED, log 22] -/
def State.busRead (s : State) (who a : Nat) : W32 × State :=
  match s.reach who a false with
  | .gone => (0, s)
  | .viol page type off => (0, s.viol page who type 0 off)
  | .bell i o => if o % 4 ≠ 0 then (0, s.viol (dbPg i) who 5 0 o) else s.bellRead who i o
  | .reg h => if h.cap % 4 ≠ 0 then (0, s.violAt who 5 h.cap) else s.readHit who h

end Sys2Proof.Machine
end

