-- ==== Sys2Proof/Machine/BusWrite.lean ====
section
/-! DEFINITION. Writes of registers (R574–R594): a write stores the writable fields of its register (R579) and performs what the register
tables of the chapters order; a value or a state that a chapter does not allow makes the write, or the fields it names, follow the
violation rule (R583). -/

namespace Sys2Proof.Machine

/-! ### Storing fields (R579, R583) -/

/-- What a register holds after a write of `v`: RW fields take it, W1C bits written 1 are cleared, every other bit stays. -/
def mergeW (flds : List FieldD) (old v : W32) : W32 :=
  flds.foldl (fun w f => match f.ty with
    | .rw => setF w f.fld (getF v f.fld)
    | .w1c => setF w f.fld (getF (w &&& ~~~v) f.fld)
    | _ => w) old

/-- Whether a register has a field that a write acts on. -/
def RegD.writable (r : RegD) : Bool := r.flds.any fun f => f.ty == .rw || f.ty == .wo || f.ty == .w1c || f.ty == .w1s

/-- The descriptor's fields of the register hit. -/
def Hit.flds (h : Hit) : List FieldD := ((descOf h.cap).map RegD.flds).getD []

/-- The writable fields of a register take a value. -/
def State.putW (s : State) (h : Hit) (v : W32) : State := s.setReg h.at_ (mergeW h.flds (s.reg h.at_) v)

/-- The whole write follows the violation rule, refused by a state, value or busy condition (TYPE 0x3). [DEDUCED, log 20] -/
def State.refuse (s : State) (who : Nat) (h : Hit) : State := s.violAt who 3 h.cap

/-- The fields in `bad` follow the violation rule, the other fields take effect (R583). -/
def State.putF (s : State) (who : Nat) (h : Hit) (v : W32) (bad : List Fld) : State :=
  let s1 := s.putW h (bad.foldl (fun x f => setF x f (s.fld h.at_ f)) v)
  if bad.isEmpty then s1 else s1.refuse who h

/-- A write that is stored where `ok`, and refused whole otherwise. [DEDUCED, log 20] -/
def State.putIf (s : State) (who : Nat) (h : Hit) (v : W32) (ok : Bool) : State := if ok then s.putW h v else s.refuse who h

/-- A header image of a command: only the bits of `m` are written (R237, R269). -/
def State.putBits (s : State) (who : Nat) (h : Hit) (v m : W32) (ok : Bool) : State :=
  s.putIf who h ((s.reg h.at_ &&& ~~~m) ||| (v &&& m)) ok

/-- A field, where a test of it fails. [DEDUCED, log 20] -/
def badIf (b : Bool) (f : Fld) : List Fld := if b then [f] else []

/-! ### The common header (R576, R577, R594) -/

def State.writeHdr (s : State) (who : Nat) (h : Hit) (v : W32) (k : PageKind) (i : Nat) : State :=
  let a := h.cap
  let m : W32 := w32 (intMask k)
  match a % 0x1000 with
  | 8 =>
    if v.getLsbD 30 then
      if k = .eng then ((s.setReg a (v &&& 0x80000000)).engineReset i).point a else s.refuse who h
    else s.setReg a (v &&& 0x80000000)
  | 0xC => s.setReg a (s.reg a &&& ~~~(v &&& 0x40000000))
  | 0x10 => if intMask k = 0 then s.violAt who 2 a else s.setReg a (s.reg a &&& ~~~(v &&& m))
  | 0x14 => if intMask k = 0 then s.violAt who 2 a else s.setReg a (v &&& m)
  | _ => s.violAt who 2 a

/-! ### DEV and AON (R493, R497, R504, R512) -/

def isCtl (who : Nat) : Bool := decide (0x800 ≤ who) && decide (who ≤ 0x810)

def State.writeDev (s : State) (who : Nat) (h : Hit) (v : W32) : State :=
  match h.cap % 0x1000 with
  | 0x44 =>
    if ¬ v.getLsbD 31 then s.putW h v
    else if ¬ isCtl who ∧ who ≠ s.primary then s.violAt who 4 h.cap
    else if s.reqStatus = 1 then s.refuse who h
    else (s.putW h v).requestMode (getF v F.DEV_MODE_REQ_TARGET)
  | 0x54 =>
    let n : W32 := v &&& 0x3FFFF
    s.setFence (if s.mode = mRECOVER ∨ s.mode = mDEGRADED then n else n ||| s.reg R.DEV_FENCE)
  | 0x58 => if s.pwrOk (v.toNat % 2 ^ 22) then s.pwrWrite (v.toNat % 2 ^ 22) else s.refuse who h
  | 0x60 =>
    let l := [0, 1, 2, 3].filter fun c => v.toNat.testBit c
    let s0 := l.foldl (fun s c => [0, 1, 2, 3].foldl (fun s i => s.dropRequests (0x800 + 4 * c + i)) s) s
    let s1 := l.foldl State.coreReset s0
    if v.getLsbD 4 then s1.fumReset else s1
  | 0x84 => if v.getLsbD 31 ∧ s.mode ≠ mDORMANT then s.wakeFire 5 else s
  | _ => s.putW h v

def State.writeAon (s : State) (who : Nat) (h : Hit) (v : W32) : State :=
  let o := h.cap % 0x1000
  if 0x200 ≤ o ∧ o < 0x280 then s.putF who h v (badIf (4 < getF v F.AON_GPIO_CFG_MODE) F.AON_GPIO_CFG_MODE) else s.putW h v

/-! ### TIME (R64–R88) -/

/-- A write of TIME_CTL: the source, the reference, and HOLD. [DEDUCED, log 33] -/
def State.timeCtl (s : State) (who : Nat) (h : Hit) (v : W32) : State :=
  let r := getF v F.TIME_CTL_REF
  if getF v F.TIME_CTL_SRC = 3 then s.refuse who h
  else
    let free := s.mode = mBOOT ∨ s.mode = mCONFIGURE ∨ s.mode = mDIAGNOSE ∨ s.mode = mRECOVER
    let s1 := s.putF who h v (badIf (2 ≤ r || (r != s.fld R.TIME_CTL F.TIME_CTL_REF && !(decide free))) F.TIME_CTL_REF)
    let s2 := if s1.fld R.TIME_CTL F.TIME_CTL_REF = s.fld R.TIME_CTL F.TIME_CTL_REF then s1 else s1.setFld R.TIME_STAT F.TIME_STAT_REF_OK 0
    let s3 := if s2.tSrc = s.tSrc then s2 else s2.setTime { s2.time with good := 0, rej := 0 }
    if s3.tSrc = 0 then s3.toServo tFREERUN
    else if s3.flag R.TIME_CTL F.TIME_CTL_HOLD ∧ s3.tState ≠ tHOLDOVER then s3.enterHoldover
    else s3

def State.writeTime (s : State) (who : Nat) (h : Hit) (v : W32) : State :=
  let o := h.cap % 0x1000
  if 0x100 ≤ o ∧ o < 0x180 then
    let t := (o - 0x100) / 0x10
    let was := s.flag (R.TIME_TRIG_CTL t) F.TIME_TRIG_CTL_ARM
    if o % 0x10 ≠ 0xC then s.putIf who h v (!was)
    else if getF v F.TIME_TRIG_CTL_ACT = 3 then s.refuse who h
    else (s.putW h v).trigArmed t was
  else match o with
  | 0x40 => s.timeCtl who h v
  | 0x58 => if s.tSrc = 2 then s.refuse who h else s.setReg h.at_ (clampFreq (s32 v))
  | 0x5C =>
    if s.tSrc = 2 then s.refuse who h
    else
      let s1 := s.addSlew (s32 v)
      if s.tSrc = 1 then s1.sample (-(s32 v)) false else s1
  | 0x64 => let r := getF v F.TIME_SLEW_RATE
            if 1 ≤ r ∧ r ≤ 1000 then s.putW h v else s
  | 0x74 =>
    if ¬ v.getLsbD 31 then s
    else if s.flag R.TIME_STEP F.TIME_STEP_BUSY then s.refuse who h
    else (s.setTime { s.time with ordered := true, target := none }).setFld R.TIME_STEP F.TIME_STEP_BUSY 1
  | _ => s.putW h v

/-! ### Interrupt controller (R424–R430, R439) -/

/-- IRQ_SOFT (R424). -/
def State.irqSoft (s : State) (who : Nat) (h : Hit) (v : W32) : State :=
  let n := getF v F.IRQ_SOFT_S
  if getF v F.IRQ_SOFT_SET = 1 then s.setSoft n true
  else if s.inService (0x380 + n) then s.refuse who h else s.setSoft n false

/-- IRQ_HEOI (R430): a source routed to a vector of the writer's own function. -/
def State.irqHeoi (s : State) (who : Nat) (h : Hit) (n : Nat) : State :=
  let l := s.res (who - 0x900)
  let own := 0x900 ≤ who ∧ who < 0xA00 ∧ s.srcTgt n = 5 ∧ vecFirst l ≤ s.srcVec n ∧ s.srcVec n < vecFirst l + vecNum l
  if n = 0x3FF then s else if own ∧ s.inService n = true then s.setService n false else s.refuse who h

def State.writeIrq (s : State) (who : Nat) (h : Hit) (v : W32) : State :=
  let o := h.cap % 0x1000
  if 0x80 ≤ o ∧ o < 0xD0 ∧ o % 0x10 = 4 then
    let n := getF v F.IRQ_EOI
    if n = 0x3FF then s
    else if s.inService n ∧ s.srcTgt n = (o - 0x80) / 0x10 then s.setService n false else s.refuse who h
  else if o = 0xE0 then s.irqHeoi who h (getF v F.IRQ_HEOI)
  else if o = 0xE4 then s.irqSoft who h v
  else s.putW h v

/-- IRQ_SRC_n (R425). -/
def State.writeSrc (s : State) (who : Nat) (h : Hit) (v : W32) (k : Nat) : State :=
  let n := 256 * k + (h.cap % 0x1000 - 0x400) / 4
  let bad := badIf (5 < getF v F.IRQ_SRC_TGT) F.IRQ_SRC_TGT
  let w := mergeW h.flds (s.reg h.at_) (bad.foldl (fun x f => setF x f (s.fld h.at_ f)) v)
  if n = 0x3FF then s.violAt who 2 h.cap
  else if s.inService n ∧ (getF w F.IRQ_SRC_TGT ≠ s.srcTgt n ∨ getF w F.IRQ_SRC_VEC ≠ s.srcVec n) then s.refuse who h
  else s.putF who h v bad

/-! ### Geyser (R391, R402, R405–R410, R422) -/

/-- A TCE register of the selected task, writable while the task is OFF. -/
def State.writeTce (s : State) (who : Nat) (h : Hit) (v : W32) (o : Nat) : State :=
  let k := s.fld R.TSK_SEL F.TSK_SEL
  let t := s.task k
  let m (old : W32) : W32 := mergeW h.flds old v
  if t.st ≠ .off then s.refuse who h
  else match o with
  | 0x48 => s.setTask k { t with cfg := m t.cfg }
  | 0x4C => s.setTask k { t with tcbLo := m t.tcbLo }
  | 0x50 => s.setTask k { t with tcbHi := m t.tcbHi }
  | 0x58 => s.setTask k { t with entryLo := m t.entryLo }
  | _ => s.setTask k { t with entryHi := m t.entryHi }

/-- TSK_CMD (R407). [DEDUCED, log 36] -/
def State.tskCmd (s : State) (h : Hit) (v : W32) : State :=
  let s1 := s.putW h v
  if v.getLsbD 31 then
    let r := s1.tskCommand (getF v F.TSK_CMD_OP) (getF v F.TSK_CMD_TASK)
    (r.2.setReg R.TSK_CMD_STAT (w32 r.1)).raise 0x30000 0
  else s1

def State.writeTsk (s : State) (who : Nat) (h : Hit) (v : W32) : State :=
  let o := h.cap % 0x1000
  if 0x48 ≤ o ∧ o < 0x60 then s.writeTce who h v o
  else if o = 0x60 then s.tskCmd h v
  else if o = 0x80 then
    let s1 := s.putW h v
    if v.getLsbD 31 ∧ s.flag R.TSK_TR_CTL F.TSK_TR_CTL_EN = false then (s1.setReg R.TSK_TR_WP 0).setFld R.TSK_TR_CTL F.TSK_TR_CTL_FULL 0 else s1
  else if o = 0x8C then s.putIf who h v (v.toNat % 65536 != 0)
  else if 0x100 ≤ o ∧ o < 0x180 then
    let n := getF v F.TSK_GRP_CFG_TICK_US
    let old := s.fld h.at_ F.TSK_GRP_CFG_TICK_US
    s.putF who h v (badIf (n == 0 || decide (1000 < n) || (n != old && s.flag h.at_ F.TSK_GRP_CFG_EN)) F.TSK_GRP_CFG_TICK_US)
  else if 0x200 ≤ o ∧ o < 0x300 ∧ o % 0x10 = 0 then
    let a := 0x800 + (o - 0x200) / 0x10
    let p := (s.reg (h.at_ + 4)).toNat
    if who ≠ a then s.violAt who 4 h.cap else s.portCommand a (bits p 31 28) (bits p 27 16) v.toNat
  else s.putW h v

/-- LCK_REL_j (R410). [DEDUCED, log 36] -/
def State.writeLck (s : State) (who : Nat) (h : Hit) (k : Nat) : State :=
  let n := 256 * k + (h.cap % 0x1000 - 0x800) / 4
  if s.holds who n then s.lockRelease n else s.violAt who 4 h.cap

/-! ### Ports (R42, R45, R46, R57, R59, R61) -/

/-- Whether a keep-alive port takes a slot that another has. -/
def State.kaClash (s : State) (x slot : Nat) : Bool := (List.range 64).any fun y => y != x && s.kaPort y && s.fld (R.PORT_KA y) F.PORT_KA_KA_SLOT == slot

/-- A register of a PORT page (R57, R61). [DESIGN CHOICE, log 143] -/
def State.writePort (s : State) (who : Nat) (h : Hit) (v : W32) (x : Nat) : State :=
  let en := s.flag (R.PORT_CTL x) F.PORT_CTL_EN
  match h.cap % 0x1000 with
  | 0x40 => s.putIf who h v (!en && s.modeOk x (getF v F.PORT_MODE_MODE))
  | 0x44 =>
    let m := getF v F.PORT_CTL_MAXFRM
    let s1 := s.putF who h v (badIf (decide (m < 64) || decide (9216 < m)) F.PORT_CTL_MAXFRM)
    if en ∧ ¬ v.getLsbD 31 then s1.portOff x else s1
  | 0x6C => s.putIf who h v (!(v.getLsbD 31 && s.kaClash x (getF v F.PORT_KA_KA_SLOT)))
  | _ => s.putW h v

def State.writeSds (s : State) (who : Nat) (h : Hit) (v : W32) (m : Nat) : State :=
  s.putIf who h v (s.macroOff m && (h.cap % 0x1000 == 0x48 || isPerm8 (v.toNat % 2 ^ 24)))

/-! ### Pipelines (R99, R104, R132–R134, R141, R142, R186, R207) -/

/-- PKEY_CTL: DSTG at most 11, and no SLOT twice among the enabled entries of a profile. -/
def State.pkeyOk (s : State) (h : Hit) (v : W32) : Bool :=
  let o := h.cap % 0x1000 - 0x400
  let base := h.at_ - o % 0x80
  let me := o % 0x80 / 0x20
  decide (getF v F.PKEY_CTL_DSTG ≤ 11) &&
  (!(v.getLsbD 31) || (List.range 4).all fun j => j == me || !(s.flag (base + 0x20 * j) F.PKEY_CTL_EN) ||
    s.fld (base + 0x20 * j) F.PKEY_CTL_SLOT != getF v F.PKEY_CTL_SLOT)

def State.writeParse (s : State) (who : Nat) (h : Hit) (v : W32) : State :=
  let o := h.cap % 0x1000
  if 0x54 ≤ o ∧ o < 0x68 then s.putF who h v (badIf (getF v F.PARSE_PORT_CFG_CLS_SRC == 3) F.PARSE_PORT_CFG_CLS_SRC)
  else if 0x400 ≤ o ∧ o < 0xC00 ∧ o % 0x20 = 0 then
    if s.pkeyOk h v then s.putF who h v (badIf (getF v F.PKEY_CTL_KIND == 3) F.PKEY_CTL_KIND) else s.refuse who h
  else s.putW h v

/-- The key word that ENG_HKEY_SEL names takes both halves. -/
def State.setHkey (s : State) (e : Nat) (v : W32) : State :=
  let g := s.eng e
  let w : Word := BitVec.ofNat 64 (v.toNat * 2 ^ 32 + (s.reg (R.ENG_HKEY_LO e)).toNat)
  s.setEng e { g with keys := smSet (fun _ => (0 : Word)) g.keys (s.fld (R.ENG_HKEY_SEL e) F.ENG_HKEY_SEL_IDX) w }

def State.writeEng (s : State) (who : Nat) (h : Hit) (v : W32) (e : Nat) : State :=
  match h.cap % 0x1000 with
  | 0x40 => if v.getLsbD 31 && s.ploadBars e then s.refuse who h else s.engCtl e who v
  | 0x44 => s.engThrCfg e who v
  | 0x48 => s.putIf who h v (!(s.engRun e))
  | 0x4C =>
    -- the reserved ACT code is written as 0b00 (R128)
    let w := if getF v F.ENG_WDOG_ACT = 3 then setF v F.ENG_WDOG_ACT 0 else v
    s.putF who h w (badIf (getF v F.ENG_WDOG_LIMIT == 0) F.ENG_WDOG_LIMIT)
  | 0x50 => s.resetThreads e (v.toNat % 256)
  | 0x64 => s.putIf who h v (!(s.engRun e))
  | 0x68 => if s.engRun e then s.refuse who h else (s.setHkey e v).hkeyNext e
  | _ => s.putW h v

def State.writeClu (s : State) (who : Nat) (h : Hit) (v : W32) (c : Nat) : State :=
  let o := h.cap % 0x1000
  let put (s : State) : State := (s.wrLE (s.cluAddr c o) 4 v.toNat).cluNext c o
  if o = 0x44 then (if s.clusterRuns c || s.reqSigned then s.refuse who h else put s)
  else if o = 0x4C then put s
  else if o = 0x54 then (if s.reqSigned then s.refuse who h else put s)
  else if 0x80 ≤ o then s.putIf who h v (!(s.clusterRuns c))
  else s.putW h v

/-! ### Lookup tables and views (R209, R226, R230, R235, R249, R254, R269) -/

def State.writeEm (s : State) (who : Nat) (h : Hit) (v : W32) (half : Nat) : State :=
  let o := h.cap % 0x1000
  if o = 0x40 then (if s.seedOk then s.setSeed v else s.refuse who h)
  else if o = 0x44 then
    if s.emBusy then s.refuse who h
    else if ¬ v.getLsbD 31 then s.putW h v
    else if s.bulkRuns || s.commitPend then s.refuse who h
    else s.emGo half v
  else if o = 0x54 then s.putBits who h v 0x0007FFFF (!(s.emBusy))
  else if o < 0x100 then s.putIf who h v (!(s.emBusy))
  else if o = 0x10C then
    if v.getLsbD 31 && s.bulkRuns then s.refuse who h
    else
      let s1 := if v.getLsbD 31 then s.bulkStart else s
      if v.getLsbD 30 then s1.bulkAbort else s1
  else s.putW h v

/-- EM_TBL_CFG_n through the descriptor page of a half. -/
def State.writeDesc (s : State) (who : Nat) (h : Hit) (v : W32) (k : Nat) : State :=
  let n := k % 2 * 128 + (h.cap % 0x1000 - 0x40) / 16
  if s.tblCfgOk n v then s.tblCfg n v else s.refuse who h

def State.writeTc (s : State) (who : Nat) (h : Hit) (v : W32) : State :=
  let o := h.cap % 0x1000
  if o = 0x40 then
    if s.tcBusy then s.refuse who h
    else if ¬ v.getLsbD 31 then s.putW h v
    else if s.commitPend then s.refuse who h
    else s.tcGo v
  else if o = 0x4C then s.putBits who h v 0x00FFFFFF (!(s.tcBusy))
  else if o = 0x50 then s.putBits who h v 0x00007F80 (!(s.tcBusy))
  else if o < 0xA0 then s.putIf who h v (!(s.tcBusy))
  else if o = 0xA0 then s.putIf who h v (decide (2 ≤ getF v F.TC_MR_GAP))
  else if 0x100 ≤ o ∧ o < 0x200 then s.putIf who h v (s.fld h.at_ F.TC_TBL_CNT == 0)
  else s.putW h v

def State.writeView (s : State) (h : Hit) (v : W32) : State := if h.cap % 0x1000 = 0x40 then s.viewCtl v else s.putW h v

/-! ### Learning and ageing (R289, R293, R304) -/

/-- The fields of LRN_CFG that may change only while EN = 0, where a write would change them. -/
def State.lrnFixed (s : State) (v : W32) : List Fld :=
  if s.flag R.LRN_CFG F.LRN_CFG_EN then
    [F.LRN_CFG_RX_EN, F.LRN_CFG_TX_EN, F.LRN_CFG_TABLE_ID, F.LRN_CFG_REMOTE_INST].filter fun f => getF v f != s.fld R.LRN_CFG f
  else []

/-- A write of LRN_FLUSH or LRN_DUMP. [DEDUCED, log 30] -/
def State.lrnBulk (s : State) (who : Nat) (h : Hit) (v : W32) (dump : Bool) : State :=
  let run := s.lrnState dump = 1
  if v.getLsbD 31 ∧ run then s.refuse who h
  else
    let s1 := if v.getLsbD 31 then (if dump then s.dumpStart else s.flushStart v) else if run then s else s.putW h v
    if v.getLsbD 30 then s1.lrnAbort dump else s1

def State.writeLrn (s : State) (who : Nat) (h : Hit) (v : W32) : State :=
  let en := s.flag R.LRN_CFG F.LRN_CFG_EN
  match h.cap % 0x1000 with
  | 0x40 => s.putF who h v (s.lrnFixed v)
  | 0x44 => s.putIf who h v (!en)
  | 0x48 => if en then s.refuse who h else s.putF who h v (badIf (getF v F.LRN_TX_FLUSH_US == 0) F.LRN_TX_FLUSH_US)
  | 0x60 => s.putIf who h v (decide (getF v F.LRN_STALE_STALE_US ≤ 8000000))
  | 0x6C => s.lrnBulk who h v false
  | 0x70 => s.lrnBulk who h v true
  | 0x7C =>
    let d := s.fld R.LRN_PEER_SEL F.LRN_PEER_SEL
    if v.getLsbD 30 then s.setPeer d { s.peer d with sync := false } else s
  | _ => s.putW h v

def State.writeAge (s : State) (who : Nat) (h : Hit) (v : W32) : State := s.putIf who h v (s.ageOk ((h.cap % 0x1000 - 0x400) / 4) v)

/-! ### Sinter (R306, R314, R320, R321, R323, R333) -/

/-- SINT_AUDIT: a walk that runs keeps its fields. [DEDUCED, log 30] -/
def State.auditCtl (s : State) (who : Nat) (h : Hit) (v : W32) : State :=
  let run := s.fld R.SINT_AUDIT F.SINT_AUDIT_STATE = 1
  if v.getLsbD 31 ∧ run then s.refuse who h
  else
    let s1 := if run then s else s.putW h v
    let s2 := if v.getLsbD 31 then s1.auditStart else s1
    if v.getLsbD 30 then s2.auditAbort else s2

def State.writeSint (s : State) (who : Nat) (h : Hit) (v : W32) : State :=
  let o := h.cap % 0x1000
  if o = 0x44 then
    if ¬ v.getLsbD 31 then s else if s.fld R.SINT_AUDIT F.SINT_AUDIT_STATE = 1 then s.refuse who h else s.poolApply
  else if 0x80 ≤ o ∧ o < 0xA0 then s.putF who h v (badIf (decide (getF v F.SINT_SPILL_SPILL_TH < 16)) F.SINT_SPILL_SPILL_TH)
  else if o = 0x100 then (if v.getLsbD 31 then (s.putW h v).sintGo who else s.putW h v)
  else if o = 0x140 then s.auditCtl who h v
  else if 0x800 ≤ o then
    match s.winPlace ((o - 0x800) / 4) with
    | some (p, i) => s.bufWrite p i (bytesLE 4 v.toNat)
    | none => s.refuse who h
  else s.putW h v

/-- A_CFG_j: SH stays at or above 0. -/
def State.writeAcct (s : State) (who : Nat) (h : Hit) (v : W32) : State :=
  let s1 := s.putW h v
  if s1.reserved ≤ s1.poolBytes then s1 else s.refuse who h

/-! ### Caldera (R344, R355, R363) -/

/-- The MAP registers take the bitmap of the selected group. -/
def State.mcgLoad (s : State) (g : Nat) : State := [0, 1, 2].foldl (fun s i => s.setReg (R.XB_MCG_MAP_0 + 4 * i) (s.reg (mcgReg g i))) s

/-- The selected group takes the bitmap of the MAP registers. -/
def State.mcgStore (s : State) (g : Nat) : State := [0, 1, 2].foldl (fun s i => s.setReg (mcgReg g i) (s.reg (R.XB_MCG_MAP_0 + 4 * i))) s

def State.writeXbar (s : State) (who : Nat) (h : Hit) (v : W32) : State :=
  let o := h.cap % 0x1000
  if o = 0x50 then (s.putW h v).mcgLoad (getF v F.XB_MCG_SEL_GROUP)
  else if o = 0x5C then (s.putW h v).mcgStore (s.fld R.XB_MCG_SEL F.XB_MCG_SEL_GROUP)
  else if 0x80 ≤ o ∧ o < 0xA0 then
    let n := getF v F.XB_AGE_LIMIT_US
    s.putIf who h v (decide (1 ≤ n) && decide (n ≤ 1000000))
  else if 0x100 ≤ o ∧ o < 0x200 ∧ o % 0x10 = 0 then s.putF who h v (badIf (decide (67 < getF v F.XB_MIR_CFG_DEST_PORT)) F.XB_MIR_CFG_DEST_PORT)
  else if 0x200 ≤ o ∧ o < 0x320 then (if v.getLsbD 29 then s.flushPort ((o - 0x200) / 4) else s)
  else s.putW h v

/-! ### Egress scheduling and meters (R365, R368, R372, R374, R390) -/

/-- A rate in kb/s: 0, or 8 to 400,000,000. -/
def rateOk (n : Nat) : Bool := n == 0 || (decide (8 ≤ n) && decide (n ≤ 400000000))

def State.writeTm (s : State) (who : Nat) (h : Hit) (v : W32) : State :=
  if 0x100 ≤ h.cap % 0x1000 then s.putIf who h v (rateOk v.toNat) else s.putW h v

/-- SLOPE of a class: in range, at most the rate of the port, and 0 for the express class. -/
def State.slopeOk (s : State) (x c n : Nat) : Bool :=
  let r := modeRate (s.pMode x) * 1000000
  rateOk n && (r == 0 || decide (n ≤ r)) && (n == 0 || c != s.expClass)

/-- TM_GCL_CTL (R374). -/
def State.gclCtl (s : State) (who : Nat) (h : Hit) (v : W32) (x : Nat) : State :=
  let pend := s.flag (R.TM_GCL_CTL x) F.TM_GCL_CTL_PEND
  let len := getF v F.TM_GCL_CTL_ADMIN_LEN
  let cyc := s.fld (R.TM_GCL_ADM_CYCLE x) F.TM_GCL_ADM_CYCLE
  if v.getLsbD 30 ∧ (pend = true ∨ len = 0 ∨ 256 < len ∨ cyc = 0 ∨ 1000000000 < cyc) then s.refuse who h
  else
    let s1 := s.putF who h v (badIf (pend && len != s.fld (R.TM_GCL_CTL x) F.TM_GCL_CTL_ADMIN_LEN) F.TM_GCL_CTL_ADMIN_LEN)
    let s2 := if v.getLsbD 30 then s1.gclRequest x else s1
    if s2.flag (R.TM_GCL_CTL x) F.TM_GCL_CTL_EN = s.flag (R.TM_GCL_CTL x) F.TM_GCL_CTL_EN then s2
    else s2.setFld (R.TM_PORT_STAT x) F.TM_PORT_STAT_OPEN (s2.gateSeg x s2.sNs).1

def State.writeTmPort (s : State) (who : Nat) (h : Hit) (v : W32) (x : Nat) : State :=
  let o := h.cap % 0x1000
  if o = 0x44 then s.putIf who h v (rateOk v.toNat)
  else if o = 0x40 then State.wakes s (s.putW h v) x
  else if 0x80 ≤ o ∧ o < 0x100 ∧ o % 0x10 = 0 then
    let s1 := s.putIf who h v (s.slopeOk x ((o - 0x80) / 0x10) v.toNat)
    if v = 0 then s1.setCred x ((o - 0x80) / 0x10) 0 else s1
  else if o = 0x100 then s.gclCtl who h v x
  else if 0x104 ≤ o ∧ o < 0x114 then s.putIf who h v (!(s.flag (R.TM_GCL_CTL x) F.TM_GCL_CTL_PEND))
  else if 0x800 ≤ o then s.putIf who h v (s.flag (R.TM_GCL_CTL x) F.TM_GCL_CTL_OPER_BANK == decide (o < 0xC00))
  else s.putW h v

def State.writeMtr (s : State) (h : Hit) (v : W32) (half : Nat) : State :=
  if h.cap % 0x1000 = 0x48 ∧ v.getLsbD 31 = true then (s.putW h v).mtrGo half else s.putW h v

/-! ### Host interface (R440–R466) -/

/-- Whether the VF ranges of the PFs lie in the instances 4–255 and do not overlap (R443). [DESIGN CHOICE, log 137] -/
def State.pfOk (s : State) : Bool :=
  let first (a : Nat) : Nat := s.fld (R.HIF_PF_CFG a) F.HIF_PF_CFG_FIRST
  let num (a : Nat) : Nat := s.fld (R.HIF_PF_CFG a) F.HIF_PF_CFG_NUM
  (List.range 4).all fun a => decide (4 ≤ first a) && decide (first a + num a ≤ 256) && ((List.range 4).all fun b => a == b ||
    !(overlap (first a) (num a) (first b) (num b)))

/-- Whether every completion timeout is at most half the drain limit (R442). -/
def State.cplOk (s : State) : Bool :=
  (List.range 4).all fun i => decide (2 * s.fld (R.HIF_LINK i) F.HIF_LINK_CPL_TMO_MS ≤ s.fld R.HIF_DRAIN F.HIF_DRAIN_LIMIT_MS)

/-- HIF_RING_CTL of a ring (R453): enables are tested; a ring with both cleared is disabled. -/
def State.writeRing (s : State) (who : Nat) (h : Hit) (v : W32) : State :=
  let r := (h.at_ - 0x11000000) / 0x100
  if v.getLsbD 31 || v.getLsbD 30 then s.putIf who h v (s.ringOk r v) else (s.putW h v).ringOff r

def State.writeHif (s : State) (who : Nat) (h : Hit) (v : W32) : State :=
  let o := h.cap % 0x1000
  let s1 := s.putW h v
  if o = 0x40 then s.putF who h v (badIf (!(s.mode == mBOOT && who == 0x810) && getF v F.HIF_CTL_BIF != s.fld R.HIF_CTL F.HIF_CTL_BIF) F.HIF_CTL_BIF)
  else if 0x44 ≤ o ∧ o < 0x54 then (if s1.pfOk then s1 else s.refuse who h)
  else if 0x54 ≤ o ∧ o < 0x68 then (if s1.cplOk && decide (1 ≤ s1.fld R.HIF_DRAIN F.HIF_DRAIN_LIMIT_MS) then s1 else s.refuse who h)
  else if o = 0x6C then (if v.getLsbD 31 then s1.instGo else s1)
  else if o = 0x84 then s.writeRing who h v
  else if o = 0x9C then
    let n := getF v F.HIF_RING_BUF_BUF_SZ
    s.putIf who h v (decide (64 ≤ n) && decide (n ≤ 9216) && n % 64 == 0)
  else s1

/-- A register of an instance page, in the own view or the manager view (R450, R466). [DEDUCED, log 32] -/
def State.writeInst (s : State) (who : Nat) (h : Hit) (v : W32) (i : Nat) : State :=
  let o := h.cap % 0x1000
  let busy := s.flag (R.HIF_MBX_CTL i) F.HIF_MBX_CTL_BUSY
  if o = 0x44 then (if h.mgr then s.violAt who 2 h.cap else if v.getLsbD 31 then s.instReset i else s)
  else if o = 0x48 then
    if h.mgr then (if v.getLsbD 29 then (s.putW h v).mbxDone i else s.putW h v)
    else if ¬ v.getLsbD 31 then s.putW h v
    else if busy then s.refuse who h else (s.putW h v).mbxSend i
  else if 0x50 ≤ o ∧ o < 0x100 then (if h.own then s.violAt who 2 h.cap else s.putW h v)
  else if 0x100 ≤ o ∧ o < 0x140 then (if h.mgr then s.violAt who 2 h.cap else s.putIf who h v (!busy))
  else if 0x140 ≤ o ∧ o < 0x180 then (if h.own then s.violAt who 2 h.cap else s.putW h v)
  else s.putW h v

/-! ### HBM (R474–R479, R487) -/

def State.hbmCtlW (s : State) (who : Nat) (h : Hit) (v : W32) : State :=
  let s1 := s.putF who h (setF v F.HBM_CTL_RUN (s.fld R.HBM_CTL F.HBM_CTL_RUN)) (badIf (getF v F.HBM_CTL_SR_US == 0) F.HBM_CTL_SR_US)
  if v.getLsbD 31 then s1.hbmRun else s1.setFld R.HBM_CTL F.HBM_CTL_RUN 0

/-- HBM_TRAIN: a retraining that runs keeps its pseudo-channel. [DEDUCED, log 30] -/
def State.hbmTrain (s : State) (who : Nat) (h : Hit) (v : W32) : State :=
  let run := s.fld R.HBM_TRAIN F.HBM_TRAIN_STATE = 1
  if v.getLsbD 31 ∧ run then s.refuse who h
  else
    let s1 := if v.getLsbD 31 then s.trainGo (getF v F.HBM_TRAIN_PC) else if run then s else s.putW h v
    if v.getLsbD 30 then s1.trainAbort else s1

def State.writeHbm (s : State) (who : Nat) (h : Hit) (v : W32) : State :=
  match h.cap % 0x1000 with
  | 0x40 => s.hbmCtlW who h v
  | 0x48 => s.putIf who h v (decide (10 ≤ getF v F.HBM_RT_RT_MS) && decide (getF v F.HBM_RT_RT_MS ≤ 1000))
  | 0x58 => s.hbmTrain who h v
  | _ => s.putW h v

def State.writeHbmCh (s : State) (h : Hit) (v : W32) (ch : Nat) : State :=
  let o := h.cap % 0x1000
  if o = 0x40 ∨ o = 0x44 then (if v.getLsbD 31 then s.hbmFence (2 * ch + (o - 0x40) / 4) 3 else s) else s.putW h v

/-! ### SEC, RAS and DBG (R526, R530, R540, R547, R554, R556–R573) -/

/-- SEC_CMD_CTL (R530). -/
def State.secCtl (s : State) (who : Nat) (h : Hit) (v : W32) : State :=
  if ¬ isCtl who ∨ s.userMode who = true then s.violAt who 4 h.cap
  else if v.getLsbD 30 ∧ v.getLsbD 31 = false then s.secAbort
  else if s.fld R.SEC_CMD_CTL F.SEC_CMD_CTL_STATE = 1 then s.refuse who h
  else if v.getLsbD 31 then s.secGo (getF v F.SEC_CMD_CTL_OP)
  else s.putW h v

def State.writeSec (s : State) (who : Nat) (h : Hit) (v : W32) : State :=
  match h.cap % 0x1000 with
  | 0x44 => s.secCtl who h v
  | 0x64 => if v.getLsbD 31 then s.setFld R.SEC_CTL F.SEC_CTL_REQ_SIGNED 1 else s
  | _ => s.putW h v

/-- RAS_TEST_CTL: a test that runs keeps its fields. [DEDUCED, log 30] -/
def State.testCtl (s : State) (h : Hit) (v : W32) : State :=
  let s1 := if v.getLsbD 31 then s.testReq (getF v F.RAS_TEST_CTL_TEST) (getF v F.RAS_TEST_CTL_TARGET) else if s.testRuns then s else s.putW h v
  if v.getLsbD 30 then s1.testAbort else s1

def State.writeRas (s : State) (who : Nat) (h : Hit) (v : W32) : State :=
  match h.cap % 0x1000 with
  | 0x40 => s.putF who h v (badIf (getF v F.RAS_CFG_WDOG_LIM == 0) F.RAS_CFG_WDOG_LIM)
  | 0x5C => if v.getLsbD 31 then ({ s with rasLog := [] } : State).setReg R.RAS_LOG_OVF 0 else s
  | 0x80 => s.testCtl h v
  | _ => s.putW h v

/-- Whether a write orders a command of DBG_HALT or DBG_ACC_CTL. -/
def dbgOrder (o : Nat) (v : W32) : Bool := (o == 0x44 && decide (bits v.toNat 31 27 ≠ 0)) || (o == 0x68 && v.getLsbD 31)

def State.writeDbg (s : State) (who : Nat) (h : Hit) (v : W32) : State :=
  let o := h.cap % 0x1000
  if ¬ s.dbgMay o then
    if dbgOrder o v then (if o = 0x44 then s.dbgStatus dDENIED else s.setFld R.DBG_ACC_CTL F.DBG_ACC_CTL_STATUS dDENIED)
    else s.violAt who 4 h.cap
  else if o = 0x44 then s.dbgHalt v
  else if o = 0x54 then s.tregSet (BitVec.ofNat 64 (v.toNat * 2 ^ 32 + (s.reg R.DBG_TREG_LO).toNat))
  else if o = 0x68 ∧ v.getLsbD 31 = true then s.refuse who h
  else if o = 0x74 then s.mbxWrite v
  else if o = 0x78 then (if v.getLsbD 31 then s.setReg R.DBG_MBX_CTL 0x40000000 else s)
  else if 0x100 ≤ o ∧ o < 0x200 ∧ o % 0x10 = 0 then s.putF who h v (badIf (getF v F.DBG_BP_CTL_ACT == 3) F.DBG_BP_CTL_ACT)
  else s.putW h v

/-! ### Any register -/

/-- A write of a register that has a writable field. [DEDUCED, log 20] -/
def State.writeReg (s : State) (who : Nat) (h : Hit) (v : W32) : State :=
  match pageOf h.cap with
  | some (.dev, _) => s.writeDev who h v
  | some (.aon, _) => s.writeAon who h v
  | some (.time, _) => s.writeTime who h v
  | some (.irqMain, _) => s.writeIrq who h v
  | some (.irqSrc, k) => s.writeSrc who h v k
  | some (.tsk, _) => s.writeTsk who h v
  | some (.lckPage, k) => s.writeLck who h k
  | some (.port, x) => s.writePort who h v x
  | some (.sds, m) => s.writeSds who h v m
  | some (.parse, _) => s.writeParse who h v
  | some (.eng, e) => s.writeEng who h v e
  | some (.clu, c) => s.writeClu who h v c
  | some (.em, k) => s.writeEm who h v k
  | some (.emDesc, k) => s.writeDesc who h v k
  | some (.tc, _) => s.writeTc who h v
  | some (.view, _) => s.writeView h v
  | some (.lrnDev, _) => s.writeLrn who h v
  | some (.lrnAge, _) => s.writeAge who h v
  | some (.sintMain, _) => s.writeSint who h v
  | some (.sintAcc, _) => s.writeAcct who h v
  | some (.xbar, _) => s.writeXbar who h v
  | some (.tmMain, _) => s.writeTm who h v
  | some (.tmPort, x) => s.writeTmPort who h v x
  | some (.mtr, k) => s.writeMtr h v k
  | some (.hifMain, _) => s.writeHif who h v
  | some (.inst, i) => s.writeInst who h v i
  | some (.hbmMain, _) => s.writeHbm who h v
  | some (.hbmCh, ch) => s.writeHbmCh h v ch
  | some (.sec, _) => s.writeSec who h v
  | some (.ras, _) => s.writeRas who h v
  | some (.dbg, _) => s.writeDbg who h v
  | some (.lckMain, _) | some (.lrnHalf, _) | some (.lrnLim, _) | some (.db, _) => s.putW h v
  | none => s

/-- Whether the soft reset of the ENG page of `a` was ordered in this cycle (R594). [DESIGN CHOICE, log 124] -/
def State.softNow (s : State) (a : Nat) : Bool :=
  (match pageOf a with | some (.eng, _) => true | _ => false) && s.atPoint (a / 0x1000 * 0x1000 + 8)

/-- A write that reaches a register. -/
def State.writeHit (s : State) (who : Nat) (h : Hit) (v : W32) : State :=
  if s.softNow h.cap then s
  else if h.cap % 4 ≠ 0 then s.violAt who 5 h.cap
  else if h.cap % 0x1000 < 0x40 then
    match pageOf h.cap with
    | some (k, i) => s.writeHdr who h v k i
    | none => s
  else match descOf h.cap with
    | none => s.violAt who 1 h.cap
    | some r => if ¬ r.writable ∨ isHigh h.cap = true then s.violAt who 2 h.cap else s.writeReg who h v

/-- A write of a doorbell page (R452, R578). -/
def State.bellWrite (s : State) (who i o : Nat) (v : W32) : State :=
  if o % 4 ≠ 0 then s.viol (dbPg i) who 5 0 o
  else if o < 0x800 then s.doorbellWrite (o % 8 == 0) i (o / 8) (v.toNat % 65536)
  else s.viol (dbPg i) who 1 0 o

/-- A write of a register by a requester; DBG_ACC_CTL.GO is not an order here. -/
def State.busWrite0 (s : State) (who a : Nat) (v : W32) : State :=
  match s.reach who a true with
  | .gone => s
  | .viol page type off => s.viol page who type 0 off
  | .bell i o => s.bellWrite who i o v
  | .reg h => s.writeHit who h v

/-! ### Accesses of the debugger to memory (R557) -/

/-- The value of DBG_ACC_DATA. -/
def State.accData (s : State) : Nat := s.reg64 R.DBG_ACC_DATA_LO

/-- DBG_ACC_CTL.GO: one access as agent 0x811; four bytes, or eight with SZ = 1. [DEDUCED, log 34] -/
def State.accGo (s : State) (wr sz : Bool) : State :=
  let n := if sz then 8 else 4
  match s.accPlace s.accAddr n wr with
  | .error e => s.accEnd wr sz e
  | .ok p =>
    let s1 : State := match p, wr with
      | .reg a, true => s.busWrite0 aDBG a (s.reg R.DBG_ACC_DATA_LO)
      | .reg a, false => let r := s.busRead aDBG a
                         (r.2.setReg R.DBG_ACC_DATA_LO r.1).setReg R.DBG_ACC_DATA_HI 0
      | p, true => s.placeWrite aDBG p (bytesLE n s.accData)
      | p, false => let r := s.placeRead aDBG p n
                    r.2.setReg64 R.DBG_ACC_DATA_LO (valLE r.1)
    s1.accEnd wr sz dOK

/-- A write of a register by a requester. [DEDUCED, log 19; DEDUCED, log 22] -/
def State.busWrite (s : State) (who a : Nat) (v : W32) : State :=
  match s.reach who a true with
  | .reg h =>
    if h.cap = R.DBG_ACC_CTL ∧ v.getLsbD 31 = true ∧ s.dbgMay 0x68 = true
    then s.accGo (v.getLsbD 30) (v.getLsbD 29) else s.writeHit who h v
  | _ => s.busWrite0 who a v

end Sys2Proof.Machine
end

