-- ==== Sys2Proof/Machine/Boot.lean ====
section
/-! DEFINITION. Boot (R516–R519): the boot ROM reads the stage-1 image of a flash slot, checks it, and installs it. -/

namespace Sys2Proof.Machine

/-- The image of a flash slot, by its own LEN; an image that runs past the flash is cut to its header. -/
def State.slotImage (s : State) (base : Nat) : List Byte :=
  let n := 0x4800 + imgLen (s.flashRead base 0x4800)
  s.flashRead base (if base + n ≤ Config.flashSize then n else 0x4800)

/-- Contexts 1–3 of a control core start in SLEEP, context 0 runs (R518 step 10). -/
def State.startCore (s : State) (c pc : Nat) : State :=
  [0, 1, 2, 3].foldl (fun s i =>
    let a := 0x800 + 4 * c + i
    let s1 := s.startCtx a pc
    if i = 0 then s1 else s1.setThr a { s1.thr a with wait := .sleep }) s

/-- Steps 6 to 10 of R518 with the image of slot 1 (A) or 2 (B). [DEDUCED, log 39; DEDUCED, log 46] -/
def State.install (s : State) (slot : Nat) (b : List Byte) : State :=
  let p := imgPayload b
  let fum := img p (imgLE b 0x3C 4) (imgLE b 0x40 4)
  let ctl := img p (imgLE b 0x48 4) (imgLE b 0x4C 4)
  let cfg := img p (imgLE b 0x54 4) (8 * imgLE b 0x58 4)
  let entry := imgLE b 0x50 4
  let s1 := (imgCfg b).foldl (fun s e => s.busWrite 0x810 e.1 (w32 e.2)) s
  let s2 := (s1.wrBytes fumSram fum).wrBytes sramBase ctl
  let s3 := (((s2.extend 0 (sha384 (img b 0 0x400))).extend 1 (sha384 fum)).extend 2 (sha384 ctl)).extend 3 (sha384 cfg)
  let s4 := ((s3.setFld R.SEC_STAT F.SEC_STAT_BOOT_RES slot).setReg R.DEV_CORE_ENTRY_LO (w32 entry)).setReg R.DEV_CORE_ENTRY_HI 0
  let s5 := { s4 with
    bootSvn := imgSvn b
    fumEntry := imgLE b 0x44 4
    released := true }
  let s6 := [0, 1, 2, 3].foldl (fun s c => s.startCore c entry) (s5.startCtx 0x810 s5.fumEntry)
  s6.enterMode mCONFIGURE

/-- Steps 2 to 10: slot A, then slot B, else both codes on the UART and BOOT_RES 0x3. [DEDUCED, log 38] -/
def State.bootTry (s : State) : State :=
  let a := s.slotImage 0
  let ra := s.accept_ a [1] false
  let s1 := s.setFld R.SEC_BOOT_ERR F.SEC_BOOT_ERR_A ra
  if ra = sOK then s1.install 1 a
  else
    let b := s.slotImage (s.fuses.slotB * 0x100000)
    let rb := s.accept_ b [1] false
    let s2 := s1.setFld R.SEC_BOOT_ERR F.SEC_BOOT_ERR_B rb
    if rb = sOK then s2.install 2 b
    else (s2.setFld R.SEC_STAT F.SEC_STAT_BOOT_RES 3).emit (.uart [BitVec.ofNat 8 ra, BitVec.ofNat 8 rb])

/-- BOOT_SEQUENCE: the boot ROM runs from step 1. -/
def execBootSequence (s : State) : Result :=
  .next (if s.mode = mBOOT ∧ s.fld R.SEC_STAT F.SEC_STAT_BOOT_RES = 0
    then (({ s with mrs := [] } : State).drawNonce).bootTry else s)

/-- BOOT_RETRY: both slots have failed, and 10 s have passed. -/
def execBootRetry (s : State) : Result :=
  .next (if s.mode = mBOOT ∧ s.fld R.SEC_STAT F.SEC_STAT_BOOT_RES = 3 then s.bootTry else s)

end Sys2Proof.Machine
end

