-- ==== Sys2Proof/Machine/Memory.lean ====
section
/-! DEFINITION. Loads, stores and atomics (R151–R155, R168, R169, R400, R414). -/

namespace Sys2Proof.Machine

/-! ### Offsets (R157, R158) -/

/-- The offset of the long forms: rb plus a signed displacement; an rb field of 0 adds zero. -/
def State.longOff (s : State) (a : Nat) (rb : Reg) (disp : BitVec 11) : Nat := ((if rb = 0 then 0 else s.x a rb) + immS disp).toNat

/-- Segment, offset and length of an instruction with short forms. -/
def State.formAt (s : State) (a : Nat) (rb : Reg) : MemForm → Nat × Nat × Nat
  | .long seg disp => (seg, s.longOff a rb disp, 2)
  | .word s3 off => (if s3 then 3 else 2, off.toNat * 8, 1)
  | .s1 => (1, (s.x a rb).toNat, 1)

/-! ### Accesses -/

/-- The bytes a load receives, lowest address first, and the state after it: zeros where the access is a violation. -/
def State.loadBytes (s : State) (a seg off n : Nat) : List Byte × State :=
  match s.place a seg off n .load with
  | .error t => (List.replicate n 0, s.segViol a seg off t)
  | .ok .port => (bytesLE n (s.portStatus a), s)
  | .ok (.reg adr) => let r := s.busRead a adr
                      (bytesLE n r.1.toNat, r.2)
  | .ok p => s.placeRead a p n

/-- The state after a store of bytes; nothing is stored where the access is a violation. -/
def State.storeBytes (s : State) (a seg off : Nat) (bs : List Byte) : State :=
  match s.place a seg off bs.length .store with
  | .error t => s.segViol a seg off t
  | .ok .port => s.portCommand a (valLE bs / 2 ^ 60) (valLE bs / 2 ^ 48 % 4096) (valLE bs % 2 ^ 32)
  | .ok (.reg adr) => s.busWrite a adr (w32 (valLE bs))
  | .ok p => s.placeWrite a p bs

/-- A load of `n` bytes into rd, through what makes a register value of them. -/
def State.load (s : State) (a : Nat) (rd : Reg) (seg off n : Nat) (f : List Byte → Word) : State :=
  let r := s.loadBytes a seg off n
  r.2.setX a rd (f r.1)

/-- Zero-extended, sign-extended and network-order values. -/
def zLE (bs : List Byte) : Word := BitVec.ofNat 64 (valLE bs)
def sLE (bs : List Byte) : Word := BitVec.ofInt 64 (sint (8 * bs.length) (valLE bs))
def zBE (bs : List Byte) : Word := BitVec.ofNat 64 (valBE bs)

/-- The base register of a long form, if it has one, and the registers that a form names beside rd (R158). -/
def baseReg (rb : Reg) : List Nat := if rb = 0 then [] else [rb.val]
def formRegs (rb : Reg) : MemForm → List Nat
  | .long _ _ => baseReg rb
  | .word _ _ => []
  | .s1 => [rb.val]

/-- The load instructions. -/
def State.loadLong (s : State) (a : Agent) (rd : Reg) (seg : SegN) (rb : Reg) (disp : BitVec 11) (n : Nat) (f : List Byte → Word) : Result :=
  s.instr a 2 (rd.val :: baseReg rb) (kLoad rd) fun t => t.load a rd seg (s.longOff a rb disp) n f

def State.loadForm (s : State) (a : Agent) (form : MemForm) (rd rb : Reg) (n : Nat) (f : List Byte → Word) : Result :=
  let p := s.formAt a rb form
  s.instr a p.2.2 (rd.val :: formRegs rb form) (kLoad rd) fun t => t.load a rd p.1 p.2.1 n f

/-- The store instructions: the low `n` bytes of a register, lowest first, or highest first in network order. -/
def State.storeLong (s : State) (a : Agent) (rt : Reg) (seg : SegN) (rb : Reg) (disp : BitVec 11) (n : Nat) (net : Bool) : Result :=
  let v := (s.x a rt).toNat
  s.instr a 2 (rt.val :: baseReg rb) kStore fun t => t.storeBytes a seg (s.longOff a rb disp) (if net then bytesBE n v else bytesLE n v)

def State.storeForm (s : State) (a : Agent) (form : MemForm) (rt rb : Reg) (n : Nat) : Result :=
  let p := s.formAt a rb form
  s.instr a p.2.2 (rt.val :: formRegs rb form) kStore fun t => t.storeBytes a p.1 p.2.1 (bytesLE n (s.x a rt).toNat)

/-! ### Loads (R168) -/

def execLdb (a : Agent) (rd : Reg) (seg : SegN) (rb : Reg) (disp : BitVec 11) (s : State) : Result := s.loadLong a rd seg rb disp 1 zLE
def execLdh (a : Agent) (rd : Reg) (seg : SegN) (rb : Reg) (disp : BitVec 11) (s : State) : Result := s.loadLong a rd seg rb disp 2 zLE
def execLdw (a : Agent) (rd : Reg) (seg : SegN) (rb : Reg) (disp : BitVec 11) (s : State) : Result := s.loadLong a rd seg rb disp 4 zLE
def execLdsb (a : Agent) (rd : Reg) (seg : SegN) (rb : Reg) (disp : BitVec 11) (s : State) : Result := s.loadLong a rd seg rb disp 1 sLE
def execLdsh (a : Agent) (rd : Reg) (seg : SegN) (rb : Reg) (disp : BitVec 11) (s : State) : Result := s.loadLong a rd seg rb disp 2 sLE
def execLdsw (a : Agent) (rd : Reg) (seg : SegN) (rb : Reg) (disp : BitVec 11) (s : State) : Result := s.loadLong a rd seg rb disp 4 sLE
def execLdnd (a : Agent) (rd : Reg) (seg : SegN) (rb : Reg) (disp : BitVec 11) (s : State) : Result := s.loadLong a rd seg rb disp 8 zBE
def execLdd (a : Agent) (form : MemForm) (rd rb : Reg) (s : State) : Result := s.loadForm a form rd rb 8 zLE
def execLdnh (a : Agent) (form : MemForm) (rd rb : Reg) (s : State) : Result := s.loadForm a form rd rb 2 zBE
def execLdnw (a : Agent) (form : MemForm) (rd rb : Reg) (s : State) : Result := s.loadForm a form rd rb 4 zBE

/-! ### Stores (R168) -/

def execStb (a : Agent) (rd : Reg) (seg : SegN) (rb : Reg) (disp : BitVec 11) (s : State) : Result := s.storeLong a rd seg rb disp 1 false
def execSth (a : Agent) (rd : Reg) (seg : SegN) (rb : Reg) (disp : BitVec 11) (s : State) : Result := s.storeLong a rd seg rb disp 2 false
def execStw (a : Agent) (rd : Reg) (seg : SegN) (rb : Reg) (disp : BitVec 11) (s : State) : Result := s.storeLong a rd seg rb disp 4 false
def execStnh (a : Agent) (rd : Reg) (seg : SegN) (rb : Reg) (disp : BitVec 11) (s : State) : Result := s.storeLong a rd seg rb disp 2 true
def execStnw (a : Agent) (rd : Reg) (seg : SegN) (rb : Reg) (disp : BitVec 11) (s : State) : Result := s.storeLong a rd seg rb disp 4 true
def execStnd (a : Agent) (rd : Reg) (seg : SegN) (rb : Reg) (disp : BitVec 11) (s : State) : Result := s.storeLong a rd seg rb disp 8 true
def execStd (a : Agent) (form : MemForm) (rd rb : Reg) (s : State) : Result := s.storeForm a form rd rb 8

/-! ### Atomics (R155, R169, R414) -/

/-- An atomic on a word or a doubleword: rd receives the old value; `f` gives the new one from the old, the low part of rd and that of
rs. A violation returns zero and writes nothing. -/
def State.atomic (s : State) (a : Agent) (rd : Reg) (seg : SegN) (rb rs : Reg) (sz : Bool) (f : Nat → Nat → Nat → Nat) : Result :=
  let n := if sz then 8 else 4
  let off := s.longOff a rb 0
  s.instr a 2 (rd.val :: rs.val :: baseReg rb) (kLoad rd) fun t =>
    match t.place a seg off n .atom with
    | .error e => (t.segViol a seg off e).setX a rd 0
    | .ok (.mem adr) =>
      let m := 2 ^ (8 * n)
      let old := t.rdLE adr n
      (t.wrLE adr n (f old ((s.x a rd).toNat % m) ((s.x a rs).toNat % m))).setX a rd (BitVec.ofNat 64 old)
    | .ok _ => t.setX a rd 0

def execAadd (a : Agent) (rd : Reg) (seg : SegN) (rb rs : Reg) (sz : Bool) (s : State) : Result :=
  s.atomic a rd seg rb rs sz fun old _ r => old + r
def execAsadd (a : Agent) (rd : Reg) (seg : SegN) (rb rs : Reg) (sz : Bool) (s : State) : Result :=
  s.atomic a rd seg rb rs sz fun old _ r => min (2 ^ (if sz then 64 else 32) - 1) (old + r)
def execAcas (a : Agent) (rd : Reg) (seg : SegN) (rb rs : Reg) (sz : Bool) (s : State) : Result :=
  s.atomic a rd seg rb rs sz fun old d r => if old = d then r else old

end Sys2Proof.Machine
end

