-- ==== Sys2Proof/Machine/RegCmds.lean ====
section
/-! DEFINITION. The commands that are one access to a register: each is the read or the write of its register by its requester, as
BusRead and BusWrite carry it out (R574–R594). A read leaves its data in `rdata`. Where a command names an order (an OP, a GO bit), the
value written holds that order and no other. -/

namespace Sys2Proof.Machine

/-- A read by a requester: the data it receives stands in `rdata`. [DESIGN CHOICE, log 2] -/
def State.regRead (s : State) (who : Req) (a : Nat) : Result :=
  let r := s.busRead who.toNat a
  .next { r.2 with rdata := r.1 }

/-- A write by a requester. -/
def State.regWrite (s : State) (who : Req) (a : Nat) (v : W32) : Result := .next (s.busWrite who.toNat a v)

/-- A read or a write. [DESIGN CHOICE, log 2] -/
def State.regAcc (s : State) (who : Req) (a : Nat) : RegAcc → Result
  | .read => s.regRead who a
  | .write v => s.regWrite who a v

/-- GO with an operation in [27:24]. -/
def goOp (op : Nat) (v : W32) : W32 := (v &&& 0x40FFFFFF) ||| w32 (2 ^ 31 + op * 2 ^ 24)

/-- One bit. -/
def bitW (b : Nat) : W32 := w32 (2 ^ b)

/-- The RW fields of a register as they stand, with order bits added. [DEDUCED, log 30] -/
def State.keepRW (s : State) (a : Nat) (orders : W32) : W32 :=
  let flds := ((descOf a).map RegD.flds).getD []
  flds.foldl (fun w f => if f.ty = .rw then setF w f.fld (getF (s.reg (aliasOf a)) f.fld) else w) orders

/-- The address of a register of an instance's own page, for a PF and for a VF (R466, R587). -/
def ownAddr (i o : Nat) : Nat := if i < 4 then 0xB02000 + o else o


/-! ### Ports, lanes and stamps -/

def execPortModeWrite (who : Req) (port : PortN) (v : W32) (s : State) : Result := s.regWrite who (R.PORT_MODE port) v
def execPortDisable (who : Req) (port : PortN) (v : W32) (s : State) : Result := s.regWrite who (R.PORT_CTL port) (v &&& 0x7FFFFFFF)
def execSdsLaneMapWrite (who : Req) (mac : Fin 8) (which : LaneReg) (v : W32) (s : State) : Result := s.regWrite who (match which with
  | .mapTx => R.SDS_LANE_MAP_TX mac
  | .mapRx => R.SDS_LANE_MAP_RX mac
  | .pol => R.SDS_LANE_POL mac) v
def execPortTsTagRead (who : Req) (port : PortN) (s : State) : Result := s.regRead who (R.PORT_TS_TAG port)
def execPortTsSecHiRead (who : Req) (port : PortN) (s : State) : Result := s.regRead who (R.PORT_TS_SEC_HI port)

/-! ### Switch core, scheduling and meters -/

def execXbPortFlush (who : Req) (port : AnyPort) (s : State) : Result := s.regWrite who (R.XB_PORT port) (bitW 29)
def execGclSwitchRequest (who : Req) (port : PortN) (v : W32) (s : State) : Result := s.regWrite who (R.TM_GCL_CTL port) (v ||| bitW 30)
def execMtrNop (who : Req) (half : HalfN) (idx : Fin 131072) (s : State) : Result := s.regWrite who (R.MTR_CMD_CTL half) (goOp 0 (w32 idx))
def execMtrWrite (who : Req) (half : HalfN) (idx : Fin 131072) (s : State) : Result := s.regWrite who (R.MTR_CMD_CTL half) (goOp 1 (w32 idx))
def execMtrRead (who : Req) (half : HalfN) (idx : Fin 131072) (s : State) : Result := s.regWrite who (R.MTR_CMD_CTL half) (goOp 2 (w32 idx))
def execMtrFill (who : Req) (half : HalfN) (idx : Fin 131072) (s : State) : Result := s.regWrite who (R.MTR_CMD_CTL half) (goOp 3 (w32 idx))
def execXbMcgSelWrite (who : Req) (v : W32) (s : State) : Result := s.regWrite who R.XB_MCG_SEL v
def execXbMcgMap2Write (who : Req) (v : W32) (s : State) : Result := s.regWrite who R.XB_MCG_MAP_2 v

/-! ### Time -/

def execTimeAdjNsWrite (who : Req) (v : W32) (s : State) : Result := s.regWrite who R.TIME_ADJ_NS v
def execTimeStepGo (who : Req) (s : State) : Result := s.regWrite who R.TIME_STEP (bitW 31)
def execTimeNowFracRead (who : Req) (s : State) : Result := s.regRead who R.TIME_NOW_FRAC
def execTimeCtlWrite (who : Req) (v : W32) (s : State) : Result := s.regWrite who R.TIME_CTL v

/-! ### Engines and clusters -/

def execThreadReset (who : Req) (a : EngThr) (s : State) : Result := s.regWrite who (R.ENG_THR_RST (a / 8)) (bitW (a % 8))
/-- PAGE_CTL.SRST of an ENG page; EN is written as it stands. -/
def execEngineReset (who : Req) (eng : EngN) (s : State) : Result := s.regWrite who (0x200008 + eng * 0x1000) ((s.reg (0x200008 + eng * 0x1000) &&& 0x80000000) ||| bitW 30)
def execEngCtlWrite (who : Req) (eng : EngN) (v : W32) (s : State) : Result := s.regWrite who (R.ENG_CTL eng) v
def execEngThrCfgWrite (who : Req) (eng : EngN) (v : W32) (s : State) : Result := s.regWrite who (R.ENG_THR_CFG eng) v
def execCluIramDataAccess (who : Req) (clu : CluN) (acc : RegAcc) (s : State) : Result := s.regAcc who (R.CLU_IRAM_DATA clu) acc
def execCluShrDataAccess (who : Req) (clu : CluN) (acc : RegAcc) (s : State) : Result := s.regAcc who (R.CLU_SHR_DATA clu) acc
def execCluIramFixDataWrite (who : Req) (clu : CluN) (v : W32) (s : State) : Result := s.regWrite who (R.CLU_IRAM_FIX_DATA clu) v
def execEngHkeyLoRead (who : Req) (eng : EngN) (s : State) : Result := s.regRead who (R.ENG_HKEY_LO eng)
def execEngHkeyHiAccess (who : Req) (eng : EngN) (acc : RegAcc) (s : State) : Result := s.regAcc who (R.ENG_HKEY_HI eng) acc

/-! ### Exact-match tables -/

def execEmNop (who : Req) (half : HalfN) (s : State) : Result := s.regWrite who (R.EM_CMD_CTL half) (goOp 0 0)
def execEmInsert (who : Req) (half : HalfN) (v : W32) (s : State) : Result := s.regWrite who (R.EM_CMD_CTL half) (goOp 1 v)
def execEmDelete (who : Req) (half : HalfN) (v : W32) (s : State) : Result := s.regWrite who (R.EM_CMD_CTL half) (goOp 2 v)
def execEmSearch (who : Req) (half : HalfN) (v : W32) (s : State) : Result := s.regWrite who (R.EM_CMD_CTL half) (goOp 3 v)
def execEmModify (who : Req) (half : HalfN) (v : W32) (s : State) : Result := s.regWrite who (R.EM_CMD_CTL half) (goOp 4 v)
def execEmViewAdd (who : Req) (half : HalfN) (v : W32) (s : State) : Result := s.regWrite who (R.EM_CMD_CTL half) (goOp 5 v)
def execEmReadAt (who : Req) (half : HalfN) (v : W32) (s : State) : Result := s.regWrite who (R.EM_CMD_CTL half) (goOp 6 v)
def execEmCtrRead (who : Req) (half : HalfN) (v : W32) (s : State) : Result := s.regWrite who (R.EM_CMD_CTL half) (goOp 7 v)
def execEmWritePage (who : Req) (half : HalfN) (v : W32) (s : State) : Result := s.regWrite who (R.EM_CMD_CTL half) (goOp 8 v)
def execEmBulkStart (who : Req) (half : HalfN) (s : State) : Result := s.regWrite who (R.EM_BULK_CTL half) (bitW 31)
def execEmBulkAbort (who : Req) (half : HalfN) (s : State) : Result := s.regWrite who (R.EM_BULK_CTL half) (bitW 30)
def execEmSeedWrite (who : Req) (half : HalfN) (v : W32) (s : State) : Result := s.regWrite who (R.EM_SEED half) v
def execEmTblCfgWrite (who : Req) (half : HalfN) (n : Fin 256) (v : W32) (s : State) : Result := s.regWrite who (R.EM_TBL_CFG half n) v

/-! ### Ternary tables and views -/

def execTcNop (who : Req) (half : HalfN) (s : State) : Result := s.regWrite who (R.TC_CMD_CTL half) (goOp 0 0)
def execTcInsert (who : Req) (half : HalfN) (v : W32) (s : State) : Result := s.regWrite who (R.TC_CMD_CTL half) (goOp 1 v)
def execTcDelete (who : Req) (half : HalfN) (v : W32) (s : State) : Result := s.regWrite who (R.TC_CMD_CTL half) (goOp 2 v)
def execTcSearch (who : Req) (half : HalfN) (v : W32) (s : State) : Result := s.regWrite who (R.TC_CMD_CTL half) (goOp 3 v)
def execTcModify (who : Req) (half : HalfN) (v : W32) (s : State) : Result := s.regWrite who (R.TC_CMD_CTL half) (goOp 4 v)
def execTcViewAdd (who : Req) (half : HalfN) (v : W32) (s : State) : Result := s.regWrite who (R.TC_CMD_CTL half) (goOp 5 v)
def execTcReadAt (who : Req) (half : HalfN) (v : W32) (s : State) : Result := s.regWrite who (R.TC_CMD_CTL half) (goOp 6 v)
def execTcMatch (who : Req) (half : HalfN) (v : W32) (s : State) : Result := s.regWrite who (R.TC_CMD_CTL half) (goOp 8 v)
def execViewCommit (who : Req) (v : W32) (s : State) : Result := s.regWrite who (R.VIEW_CTL 0) ((v &&& 0x1000FFFF) ||| bitW 31)
def execViewAbort (who : Req) (s : State) : Result := s.regWrite who (R.VIEW_CTL 0) (s.keepRW (R.VIEW_CTL 0) (bitW 30))
def execViewSync (who : Req) (s : State) : Result := s.regWrite who (R.VIEW_CTL 0) (s.keepRW (R.VIEW_CTL 0) (bitW 29))

/-! ### Learning -/

def execLrnFlush (who : Req) (v : W32) (s : State) : Result := s.regWrite who R.LRN_FLUSH ((v &&& 0x00FFFF00) ||| bitW 31)
def execLrnDump (who : Req) (s : State) : Result := s.regWrite who R.LRN_DUMP (bitW 31)
def execLrnBulkAbort (who : Req) (dump : Bool) (s : State) : Result := if dump then s.regWrite who R.LRN_DUMP (bitW 30) else s.regWrite who R.LRN_FLUSH (s.keepRW R.LRN_FLUSH (bitW 30))

/-! ### Sinter -/

def execSintNop (who : Req) (v : W32) (s : State) : Result := s.regWrite who R.SINT_CMD_CTL (goOp 0 (v &&& 0x00FFFFFF))
def execSintAlloc (who : Req) (v : W32) (s : State) : Result := s.regWrite who R.SINT_CMD_CTL (goOp 1 (v &&& 0x00FFFFFF))
def execSintHandover (who : Req) (v : W32) (s : State) : Result := s.regWrite who R.SINT_CMD_CTL (goOp 2 (v &&& 0x00FFFFFF))
def execSintFree (who : Req) (v : W32) (s : State) : Result := s.regWrite who R.SINT_CMD_CTL (goOp 3 (v &&& 0x00FFFFFF))
def execSintInject (who : Req) (v : W32) (s : State) : Result := s.regWrite who R.SINT_CMD_CTL (goOp 4 (v &&& 0x00FFFFFF))
def execSintRead (who : Req) (v : W32) (s : State) : Result := s.regWrite who R.SINT_CMD_CTL (goOp 5 (v &&& 0x00FFFFFF))
def execSintPoolApply (who : Req) (s : State) : Result := s.regWrite who R.SINT_POOL_CTL (bitW 31)
def execSintWinAccess (who : Req) (n : Fin 64) (acc : RegAcc) (s : State) : Result := s.regAcc who (R.SINT_WIN n) acc
def execSintAuditStart (who : Req) (v : W32) (s : State) : Result := s.regWrite who R.SINT_AUDIT ((v &&& 0x00F00FFF) ||| bitW 31)
def execSintAuditAbort (who : Req) (s : State) : Result := s.regWrite who R.SINT_AUDIT (s.keepRW R.SINT_AUDIT (bitW 30))

/-! ### Geyser, locks and interrupts -/

def execTskStart (who : Req) (task : TaskN) (s : State) : Result := s.regWrite who R.TSK_CMD (goOp 1 (w32 task))
def execTskRelease (who : Req) (task : TaskN) (s : State) : Result := s.regWrite who R.TSK_CMD (goOp 2 (w32 task))
def execTskStop (who : Req) (task : TaskN) (s : State) : Result := s.regWrite who R.TSK_CMD (goOp 3 (w32 task))
def execLckAcqRead (who : Req) (n : Fin 1024) (s : State) : Result := s.regRead who (R.LCK_ACQ n)
def execLckRelWrite (who : Req) (n : Fin 1024) (s : State) : Result := s.regWrite who (R.LCK_REL n) 0
def execIrqClaim (who : Req) (t : Fin 5) (s : State) : Result := s.regRead who (R.IRQ_CLAIM t)
def execIrqEoi (who : Req) (t : Fin 5) (src : Fin 1024) (s : State) : Result := s.regWrite who (R.IRQ_EOI t) (w32 src)
def execIrqHeoi (who : Req) (src : Fin 1024) (s : State) : Result := s.regWrite who R.IRQ_HEOI (w32 src)
def execIrqSoftSet (who : Req) (n : Fin 64) (s : State) : Result := s.regWrite who R.IRQ_SOFT (bitW 31 ||| w32 n)
def execIrqSoftClear (who : Req) (n : Fin 64) (s : State) : Result := s.regWrite who R.IRQ_SOFT (w32 n)

/-! ### Host interface -/

def execInstCreate (who : Req) (s : State) : Result := s.regWrite who R.HIF_INST_CMD (goOp 1 0)
def execInstDestroy (who : Req) (s : State) : Result := s.regWrite who R.HIF_INST_CMD (goOp 2 0)
def execInstStage (who : Req) (s : State) : Result := s.regWrite who R.HIF_INST_CMD (goOp 4 0)
/-- An instance resets itself through its own page; any other requester selects it and gives the command RESET. -/
def execInstReset (who : Req) (inst : InstN) (s : State) : Result := 
  if who.toNat = 0x900 + inst then s.regWrite who (ownAddr inst 0x44) (bitW 31)
  else (s.busWrite who.toNat R.HIF_INST_SEL (w32 inst)).regWrite who R.HIF_INST_CMD (goOp 3 0)
def execMbxSend (inst : InstN) (s : State) : Result := s.regWrite (BitVec.ofNat 12 (0x900 + inst)) (ownAddr inst 0x48) (s.keepRW (R.HIF_MBX_CTL inst) (bitW 31))
/-- The manager selects the instance and sets DONE in its view. -/
def execMbxDone (who : Req) (inst : InstN) (s : State) : Result := 
 (s.busWrite who.toNat R.HIF_INST_SEL (w32 inst)).regWrite who 0xB01048 (s.keepRW (R.HIF_MBX_CTL inst) (bitW 29))

/-! ### HBM -/

def execHbmTrainGo (who : Req) (pc : PcN) (s : State) : Result := s.regWrite who R.HBM_TRAIN (bitW 31 ||| w32 pc)
def execHbmTrainAbort (who : Req) (s : State) : Result := s.regWrite who R.HBM_TRAIN (s.keepRW R.HBM_TRAIN (bitW 30))
def execHbmPcFenceWrite (who : Req) (pc : PcN) (s : State) : Result := s.regWrite who (R.HBM_PC_STAT (pc / 2) (pc % 2)) (bitW 31)
def execHbmRun (who : Req) (s : State) : Result := s.regWrite who R.HBM_CTL (s.keepRW R.HBM_CTL 0 ||| bitW 31)

/-! ### Modes, resets and power -/

def execDevModeReq (who : Req) (target : BitVec 4) (s : State) : Result := s.regWrite who R.DEV_MODE_REQ (goOp target.toNat 0)
def execDevWakeWrite (who : Req) (s : State) : Result := s.regWrite who R.DEV_WAKE (bitW 31)
def execControlCoreReset (who : Req) (core : Fin 4) (s : State) : Result := s.regWrite who R.DEV_CORE_RST (bitW core)
def execFumaroleReset (who : Req) (s : State) : Result := s.regWrite who R.DEV_CORE_RST (bitW 4)
def execDevPwrWrite (who : Req) (v : W32) (s : State) : Result := s.regWrite who R.DEV_PWR v
def execDevFenceWrite (who : Req) (v : W32) (s : State) : Result := s.regWrite who R.DEV_FENCE v

/-! ### SEC -/

def execSecVerify (who : Req) (s : State) : Result := s.regWrite who R.SEC_CMD_CTL (bitW 31 ||| 1)
def execSecPload (who : Req) (s : State) : Result := s.regWrite who R.SEC_CMD_CTL (bitW 31 ||| 2)
def execSecExtend (who : Req) (s : State) : Result := s.regWrite who R.SEC_CMD_CTL (bitW 31 ||| 3)
def execSecAttest (who : Req) (s : State) : Result := s.regWrite who R.SEC_CMD_CTL (bitW 31 ||| 4)
def execSecSvnAdvance (who : Req) (s : State) : Result := s.regWrite who R.SEC_CMD_CTL (bitW 31 ||| 5)
def execSecOwnEnrol (who : Req) (s : State) : Result := s.regWrite who R.SEC_CMD_CTL (bitW 31 ||| 6)
def execSecDbgUnlock (who : Req) (s : State) : Result := s.regWrite who R.SEC_CMD_CTL (bitW 31 ||| 7)
def execSecFlashWrite (who : Req) (s : State) : Result := s.regWrite who R.SEC_CMD_CTL (bitW 31 ||| 8)
def execSecSha384 (who : Req) (s : State) : Result := s.regWrite who R.SEC_CMD_CTL (bitW 31 ||| 9)
def execSecModexp (who : Req) (s : State) : Result := s.regWrite who R.SEC_CMD_CTL (bitW 31 ||| 10)
def execSecIrepair (who : Req) (s : State) : Result := s.regWrite who R.SEC_CMD_CTL (bitW 31 ||| 11)
def execSecAbort (who : Req) (s : State) : Result := s.regWrite who R.SEC_CMD_CTL (s.keepRW R.SEC_CMD_CTL (bitW 30))
def execSecReqSignedWrite (who : Req) (s : State) : Result := s.regWrite who R.SEC_CTL (bitW 31)

/-! ### RAS -/

def execRasTestEmSlice (who : Req) (target : BitVec 16) (s : State) : Result := s.regWrite who R.RAS_TEST_CTL (w32 (2 ^ 31 + 1 * 2 ^ 16 + target.toNat))
def execRasTestTcSlice (who : Req) (target : BitVec 16) (s : State) : Result := s.regWrite who R.RAS_TEST_CTL (w32 (2 ^ 31 + 2 * 2 ^ 16 + target.toNat))
def execRasTestBucketCache (who : Req) (target : BitVec 16) (s : State) : Result := s.regWrite who R.RAS_TEST_CTL (w32 (2 ^ 31 + 3 * 2 ^ 16 + target.toNat))
def execRasTestMeterCtr (who : Req) (target : BitVec 16) (s : State) : Result := s.regWrite who R.RAS_TEST_CTL (w32 (2 ^ 31 + 4 * 2 ^ 16 + target.toNat))
def execRasTestEngineMem (who : Req) (target : BitVec 16) (s : State) : Result := s.regWrite who R.RAS_TEST_CTL (w32 (2 ^ 31 + 5 * 2 ^ 16 + target.toNat))
def execRasTestSinterMem (who : Req) (target : BitVec 16) (s : State) : Result := s.regWrite who R.RAS_TEST_CTL (w32 (2 ^ 31 + 6 * 2 ^ 16 + target.toNat))
def execRasTestSerdesRecal (who : Req) (target : BitVec 16) (s : State) : Result := s.regWrite who R.RAS_TEST_CTL (w32 (2 ^ 31 + 7 * 2 ^ 16 + target.toNat))
def execRasTestEyeScan (who : Req) (target : BitVec 16) (s : State) : Result := s.regWrite who R.RAS_TEST_CTL (w32 (2 ^ 31 + 8 * 2 ^ 16 + target.toNat))
def execRasTestFull (who : Req) (target : BitVec 16) (s : State) : Result := s.regWrite who R.RAS_TEST_CTL (w32 (2 ^ 31 + 9 * 2 ^ 16 + target.toNat))
def execRasTestAbort (who : Req) (s : State) : Result := s.regWrite who R.RAS_TEST_CTL (s.keepRW R.RAS_TEST_CTL (bitW 30))
def execRasLogClr (who : Req) (s : State) : Result := s.regWrite who R.RAS_LOG_CLR (bitW 31)

/-! ### Debug -/

def execDbgHalt (who : Req) (v : W32) (s : State) : Result := s.regWrite who R.DBG_HALT ((v &&& 0x060007FF) ||| bitW 31)
def execDbgResume (who : Req) (v : W32) (s : State) : Result := s.regWrite who R.DBG_HALT ((v &&& 0x060007FF) ||| bitW 30)
def execDbgStep (who : Req) (v : W32) (s : State) : Result := s.regWrite who R.DBG_HALT ((v &&& 0x060007FF) ||| bitW 29)
def execDbgRst (who : Req) (v : W32) (s : State) : Result := s.regWrite who R.DBG_HALT ((v &&& 0x060007FF) ||| bitW 28)
def execDbgEv14 (who : Req) (v : W32) (s : State) : Result := s.regWrite who R.DBG_HALT ((v &&& 0x060007FF) ||| bitW 27)
def execDbgAccRead (who : Req) (sz : Bool) (s : State) : Result := s.regWrite who R.DBG_ACC_CTL (w32 (2 ^ 31 + b2n sz * 2 ^ 29))
def execDbgAccWrite (who : Req) (sz : Bool) (s : State) : Result := s.regWrite who R.DBG_ACC_CTL (w32 (2 ^ 31 + 2 ^ 30 + b2n sz * 2 ^ 29))
def execDbgTregAccess (who : Req) (hi : Bool) (acc : RegAcc) (s : State) : Result := s.regAcc who (if hi then R.DBG_TREG_HI else R.DBG_TREG_LO) acc
def execDbgMbxDataWrite (who : Req) (v : W32) (s : State) : Result := s.regWrite who R.DBG_MBX_DATA v
def execDbgMbxSubmit (who : Req) (s : State) : Result := s.regWrite who R.DBG_MBX_CTL (bitW 31)
def execDbgTrLoRead (who : Req) (s : State) : Result := s.regRead who R.DBG_TR_LO
/-- DBGREG reaches the DBG page as agent 0x811 (R555, R587). -/
def execJtagDbgreg (off : BitVec 12) (acc : RegAcc) (s : State) : Result := if s.mode = mOFF then .next s else s.regAcc 0x811 (0xF00000 + off.toNat) acc

/-! ### Any register -/

def execViolCapRead (who : Req) (page : Nat) (s : State) : Result := s.regRead who (page % 0x4000 * 0x1000 + 0x1C)
def execLowWordLatchRead (who : Req) (addr : BitVec 26) (s : State) : Result := s.regRead who addr.toNat
def execRegisterWrite (who : Req) (addr : BitVec 26) (v : W32) (s : State) : Result := s.regWrite who addr.toNat v
def execRcRegisterRead (who : Req) (addr : BitVec 26) (s : State) : Result := s.regRead who addr.toNat

end Sys2Proof.Machine
end

