-- ==== Sys2Proof/Machine/VelkorAlu.lean ====
section
/-! DEFINITION. Register arithmetic, unary and immediate instructions (R164–R167). -/

namespace Sys2Proof.Machine

/-- An instruction that writes rd from two registers. -/
def State.alu3 (s : State) (a : Nat) (len rd rs1 rs2 : Nat) (f : Word → Word → Word) (slow : Bool := false) : Result :=
  s.instr a len [rd, rs1, rs2] { writes := [rd], slow := slow } fun s => s.setX a rd (f (s.x a rs1) (s.x a rs2))

/-- An instruction that writes rd from one register. -/
def State.alu2 (s : State) (a : Nat) (len rd rs : Nat) (f : Word → Word) : Result :=
  s.instr a len [rd, rs] { writes := [rd] } fun s => s.setX a rd (f (s.x a rs))

/-- An instruction that sets the flags of two registers. -/
def State.cmp2 (s : State) (a : Nat) (len rs1 rs2 : Nat) (f : Word → Word → BitVec 4) : Result :=
  s.instr a len [rs1, rs2] { setsF := true } fun s => s.setFlg a (f (s.x a rs1) (s.x a rs2))

/-- ADD (R166): rd := rs1 + rs2. -/
def execAdd (a : Agent) (lg : Bool) (rd rs1 rs2 : Reg) (s : State) : Result :=
  s.alu3 a (ilen lg) rd rs1 rs2 (fun x y => x + y)

/-- SUB (R166): rd := rs1 − rs2. -/
def execSub (a : Agent) (lg : Bool) (rd rs1 rs2 : Reg) (s : State) : Result :=
  s.alu3 a (ilen lg) rd rs1 rs2 (fun x y => x - y)

/-- ADDF (R166): as ADD, and the flags are set from the result. -/
def execAddf (a : Agent) (rd rs1 rs2 : Reg) (s : State) : Result :=
  s.instr a 2 [rd, rs1, rs2] { writes := [rd.val], setsF := true } fun s =>
    let x := s.x a rs1
    let y := s.x a rs2
    (s.setX a rd (x + y)).setFlg a (addFlags x y)

/-- SUBF (R166): as SUB, and the flags are set from the result. -/
def execSubf (a : Agent) (rd rs1 rs2 : Reg) (s : State) : Result :=
  s.instr a 2 [rd, rs1, rs2] { writes := [rd.val], setsF := true } fun s =>
    let x := s.x a rs1
    let y := s.x a rs2
    (s.setX a rd (x - y)).setFlg a (subFlags x y)

/-- AND (R166): bitwise AND. -/
def execAnd (a : Agent) (lg : Bool) (rd rs1 rs2 : Reg) (s : State) : Result :=
  s.alu3 a (ilen lg) rd rs1 rs2 (fun x y => x &&& y)

/-- OR (R166): bitwise OR. -/
def execOr (a : Agent) (lg : Bool) (rd rs1 rs2 : Reg) (s : State) : Result :=
  s.alu3 a (ilen lg) rd rs1 rs2 (fun x y => x ||| y)

/-- XOR (R166): bitwise XOR. -/
def execXor (a : Agent) (lg : Bool) (rd rs1 rs2 : Reg) (s : State) : Result :=
  s.alu3 a (ilen lg) rd rs1 rs2 (fun x y => x ^^^ y)

/-- ANDNOT (R166): rs1 AND NOT rs2. -/
def execAndnot (a : Agent) (rd rs1 rs2 : Reg) (s : State) : Result :=
  s.alu3 a 2 rd rs1 rs2 (fun x y => x &&& ~~~y)

/-- ORNOT (R166): rs1 OR NOT rs2. -/
def execOrnot (a : Agent) (rd rs1 rs2 : Reg) (s : State) : Result :=
  s.alu3 a 2 rd rs1 rs2 (fun x y => x ||| ~~~y)

/-- SLL (R166): shift left, the amount modulo 64 (R165). -/
def execSll (a : Agent) (lg : Bool) (rd rs1 rs2 : Reg) (s : State) : Result :=
  s.alu3 a (ilen lg) rd rs1 rs2 (fun x y => x <<< shAmt y)

/-- SRL (R166): logical shift right. -/
def execSrl (a : Agent) (lg : Bool) (rd rs1 rs2 : Reg) (s : State) : Result :=
  s.alu3 a (ilen lg) rd rs1 rs2 (fun x y => x >>> shAmt y)

/-- SRA (R166): arithmetic shift right. -/
def execSra (a : Agent) (lg : Bool) (rd rs1 rs2 : Reg) (s : State) : Result :=
  s.alu3 a (ilen lg) rd rs1 rs2 (fun x y => x.sshiftRight (shAmt y))

/-- ROR (R166): rotate right. -/
def execRor (a : Agent) (rd rs1 rs2 : Reg) (s : State) : Result :=
  s.alu3 a 2 rd rs1 rs2 (fun x y => x.rotateRight (shAmt y))

/-- MUL (R166): low 64 bits of the product. -/
def execMul (a : Agent) (lg : Bool) (rd rs1 rs2 : Reg) (s : State) : Result :=
  s.alu3 a (ilen lg) rd rs1 rs2 (fun x y => x * y) true

/-- MULHI (R166): high 64 bits of the unsigned product. -/
def execMulhi (a : Agent) (rd rs1 rs2 : Reg) (s : State) : Result :=
  s.alu3 a 2 rd rs1 rs2 mulhi true

/-- QUO (R166): unsigned quotient; by zero, all ones (R165). -/
def execQuo (a : Agent) (rd rs1 rs2 : Reg) (s : State) : Result :=
  s.alu3 a 2 rd rs1 rs2 quo true

/-- REM (R166): unsigned remainder; by zero, the dividend (R165). -/
def execRem (a : Agent) (rd rs1 rs2 : Reg) (s : State) : Result :=
  s.alu3 a 2 rd rs1 rs2 rem true

/-- MIN (R166): signed minimum. -/
def execMin (a : Agent) (lg : Bool) (rd rs1 rs2 : Reg) (s : State) : Result :=
  s.alu3 a (ilen lg) rd rs1 rs2 smin

/-- MAX (R166): signed maximum. -/
def execMax (a : Agent) (lg : Bool) (rd rs1 rs2 : Reg) (s : State) : Result :=
  s.alu3 a (ilen lg) rd rs1 rs2 smax

/-- MINU (R166): unsigned minimum. -/
def execMinu (a : Agent) (rd rs1 rs2 : Reg) (s : State) : Result :=
  s.alu3 a 2 rd rs1 rs2 umin

/-- MAXU (R166): unsigned maximum. -/
def execMaxu (a : Agent) (rd rs1 rs2 : Reg) (s : State) : Result :=
  s.alu3 a 2 rd rs1 rs2 umax

/-- CMP (R166): flags of rs1 − rs2. -/
def execCmp (a : Agent) (lg : Bool) (rs1 rs2 : Reg) (s : State) : Result := s.cmp2 a (ilen lg) rs1 rs2 subFlags

/-- TST (R166): flags of rs1 AND rs2, with C and V cleared. -/
def execTst (a : Agent) (lg : Bool) (rs1 rs2 : Reg) (s : State) : Result := s.cmp2 a (ilen lg) rs1 rs2 tstFlags

/-- PICK (R166): rd := rs1 when the condition holds, otherwise rs2; condition 0xF is undefined (R159). -/
def execPick (a : Agent) (rd rs1 rs2 : Reg) (cond : Cond) (s : State) : Result :=
  s.instr a 2 [rd, rs1, rs2] { writes := [rd.val], readsF := true } fun s =>
    if cond = 0xF then s.undefPair a (encLR 0 rd rs1 rs2 (0x17F)) true 0 0
    else s.setX a rd (if condHolds cond (s.flg a) then s.x a rs1 else s.x a rs2)

/-- BOOL (R166): rd := 1 when the condition holds, otherwise 0; condition 0xF is undefined (R159). -/
def execBool (a : Agent) (rd : Reg) (cond : Cond) (s : State) : Result :=
  s.instr a 2 [rd.val] { writes := [rd.val], readsF := true } fun s =>
    if cond = 0xF then s.undefPair a (encLR 0 rd 0 0 (0x18F)) true 0 0
    else s.setX a rd (if condHolds cond (s.flg a) then 1 else 0)

/-- MOV (R167): rd := rs, or rd := imm7 sign-extended. The short form with both fields 0 is the halfword 0x0000, which is
undefined (R159). -/
def execMov (a : Agent) (form : MovForm) (rd : Reg) (s : State) : Result :=
  match form with
  | .regShort rs =>
    if rd = 0 ∧ rs = 0 then s.instr a 1 [] { writes := [0] } fun s => s.undefPair a 0 false 0 0 else s.alu2 a 1 rd rs fun x => x
  | .regLong rs => s.alu2 a 2 rd rs fun x => x
  | .imm7 i => s.instr a 1 [rd.val] { writes := [rd.val] } fun s => s.setX a rd (immS i)

/-- NEG (R167): rd := 0 − rs. -/
def execNeg (a : Agent) (lg : Bool) (rd rs : Reg) (s : State) : Result := s.alu2 a (ilen lg) rd rs fun x => 0 - x

/-- NOT (R167): rd := NOT rs. -/
def execNot (a : Agent) (lg : Bool) (rd rs : Reg) (s : State) : Result := s.alu2 a (ilen lg) rd rs fun x => ~~~x

/-- CLZ (R167): leading zero bits, 0–64. -/
def execClz (a : Agent) (rd rs : Reg) (s : State) : Result := s.alu2 a 2 rd rs fun x => BitVec.ofNat 64 (clz64 x)

/-- CTZ (R167): trailing zero bits, 0–64. -/
def execCtz (a : Agent) (rd rs : Reg) (s : State) : Result := s.alu2 a 2 rd rs fun x => BitVec.ofNat 64 (ctz64 x)

/-- POPC (R167): bits set. -/
def execPopc (a : Agent) (rd rs : Reg) (s : State) : Result := s.alu2 a 2 rd rs fun x => BitVec.ofNat 64 (popc64 x)

/-- BSWAP (R167): the low 2, 4 or 8 bytes reversed; SZ 0b00 is undefined. -/
def execBswap (a : Agent) (rd rs : Reg) (sz : BitVec 2) (s : State) : Result :=
  s.instr a 2 [rd, rs] { writes := [rd.val] } fun s =>
    if sz = 0 then s.undefPair a (encLR 1 rd rs 0 0x060) true 0 0
    else s.setX a rd (bswapN (2 ^ sz.toNat) (s.x a rs))

/-- ZEXT (R167): the low byte, halfword or word zero-extended; SZ 0b11 is undefined. -/
def execZext (a : Agent) (rd rs : Reg) (sz : BitVec 2) (s : State) : Result :=
  s.instr a 2 [rd, rs] { writes := [rd.val] } fun s =>
    if sz = 3 then s.undefPair a (encLR 1 rd rs 0 0x073) true 0 0
    else s.setX a rd (zextN (8 * 2 ^ sz.toNat) (s.x a rs))

/-- SEXT (R167): the low byte, halfword or word sign-extended; SZ 0b11 is undefined. -/
def execSext (a : Agent) (rd rs : Reg) (sz : BitVec 2) (s : State) : Result :=
  s.instr a 2 [rd, rs] { writes := [rd.val] } fun s =>
    if sz = 3 then s.undefPair a (encLR 1 rd rs 0 0x083) true 0 0
    else s.setX a rd (sextN (8 * 2 ^ sz.toNat) (s.x a rs))

/-- ADDI (R157, R167): rd := rs1 + imm. -/
def execAddi (a : Agent) (lg : Bool) (rd rs1 : Reg) (imm : BitVec 15) (s : State) : Result :=
  s.alu2 a (ilen lg) rd rs1 fun x => x + immSL lg imm

/-- ANDI (R167): AND with imm15 zero-extended. -/
def execAndi (a : Agent) (rd rs1 : Reg) (imm : BitVec 15) (s : State) : Result := s.alu2 a 2 rd rs1 fun x => x &&& immZ imm

/-- ORI (R167): OR with imm15 zero-extended. -/
def execOri (a : Agent) (rd rs1 : Reg) (imm : BitVec 15) (s : State) : Result := s.alu2 a 2 rd rs1 fun x => x ||| immZ imm

/-- XORI (R167): XOR with imm15 zero-extended. -/
def execXori (a : Agent) (rd rs1 : Reg) (imm : BitVec 15) (s : State) : Result := s.alu2 a 2 rd rs1 fun x => x ^^^ immZ imm

/-- SLLI (R167): shift left by n. -/
def execSlli (a : Agent) (lg : Bool) (rd rs1 : Reg) (n : BitVec 6) (s : State) : Result :=
  s.alu2 a (ilen lg) rd rs1 fun x => x <<< n.toNat

/-- SRLI (R167): logical shift right by n. -/
def execSrli (a : Agent) (lg : Bool) (rd rs1 : Reg) (n : BitVec 6) (s : State) : Result :=
  s.alu2 a (ilen lg) rd rs1 fun x => x >>> n.toNat

/-- SRAI (R167): arithmetic shift right by n. -/
def execSrai (a : Agent) (rd rs1 : Reg) (n : BitVec 6) (s : State) : Result :=
  s.alu2 a 2 rd rs1 fun x => x.sshiftRight n.toNat

/-- CMPI (R157, R167): flags of rs1 − imm. -/
def execCmpi (a : Agent) (lg : Bool) (rs1 : Reg) (imm : BitVec 15) (s : State) : Result :=
  s.instr a (ilen lg) [rs1.val] { setsF := true } fun s => s.setFlg a (subFlags (s.x a rs1) (immSL lg imm))

/-- LDIZ (R167): imm16 in one lane, every other lane zero. -/
def execLdiz (a : Agent) (rd : Reg) (lane : Fin 4) (imm : BitVec 16) (s : State) : Result :=
  s.instr a 2 [rd.val] { writes := [rd.val] } fun s => s.setX a rd (immZ imm <<< (16 * lane.val))

/-- LDIK (R167): imm16 in one lane, the others kept. -/
def execLdik (a : Agent) (rd : Reg) (lane : Fin 4) (imm : BitVec 16) (s : State) : Result :=
  s.instr a 2 [rd.val] { writes := [rd.val] } fun s => s.setX a rd (setLane (s.x a rd) lane imm)

/-- LDIS (R167): imm16 sign-extended and shifted to a lane. -/
def execLdis (a : Agent) (rd : Reg) (lane : Fin 4) (imm : BitVec 16) (s : State) : Result :=
  s.instr a 2 [rd.val] { writes := [rd.val] } fun s => s.setX a rd (immS imm <<< (16 * lane.val))

end Sys2Proof.Machine
end

