-- ==== Sys2Proof/Machine/Dispatch.lean ====
section
/-! DEFINITION. What each command does: one arm per constructor, each one call of that command's meaning. -/

namespace Sys2Proof.Machine

def exec (i : Instr) (s : State) : Host.Outcome State Fault Refusal :=
  match i with
  | .frameReceive port frame => Sys2Proof.Machine.execFrameReceive port frame s
  | .fcsFailure pkt => Sys2Proof.Machine.execFcsFailure pkt s
  | .macControlFrameReceive port bytes => Sys2Proof.Machine.execMacControlFrameReceive port bytes s
  | .pauseQuantaExpire port cls => Sys2Proof.Machine.execPauseQuantaExpire port cls s
  | .sintXoffEval => Sys2Proof.Machine.execSintXoffEval s
  | .pfcFrameSend port => Sys2Proof.Machine.execPfcFrameSend port s
  | .pfcRepeatExpire port => Sys2Proof.Machine.execPfcRepeatExpire port s
  | .linkDown port reason => Sys2Proof.Machine.execLinkDown port reason s
  | .linkUp port => Sys2Proof.Machine.execLinkUp port s
  | .ltRestart port => Sys2Proof.Machine.execLtRestart port s
  | .portModeWrite who port v => Sys2Proof.Machine.execPortModeWrite who port v s
  | .portDisable who port v => Sys2Proof.Machine.execPortDisable who port v s
  | .sdsLaneMapWrite who mac which v => Sys2Proof.Machine.execSdsLaneMapWrite who mac which v s
  | .portTsTagRead who port => Sys2Proof.Machine.execPortTsTagRead who port s
  | .portTsSecHiRead who port => Sys2Proof.Machine.execPortTsSecHiRead who port s
  | .linkDownReport port reason => Sys2Proof.Machine.execLinkDownReport port reason s
  | .linkUpReport port => Sys2Proof.Machine.execLinkUpReport port s
  | .holdTimerExpire port => Sys2Proof.Machine.execHoldTimerExpire port s
  | .xbPortFlush who port => Sys2Proof.Machine.execXbPortFlush who port s
  | .parseStart pipe => Sys2Proof.Machine.execParseStart pipe s
  | .packetDelivery eng => Sys2Proof.Machine.execPacketDelivery eng s
  | .sendCommit eng => Sys2Proof.Machine.execSendCommit eng s
  | .discardCommit eng => Sys2Proof.Machine.execDiscardCommit eng s
  | .voqEnqueue pipe => Sys2Proof.Machine.execVoqEnqueue pipe s
  | .spillWrite pipe port cls => Sys2Proof.Machine.execSpillWrite pipe port cls s
  | .deepRefill pipe port cls => Sys2Proof.Machine.execDeepRefill pipe port cls s
  | .xbarMatchingRound => Sys2Proof.Machine.execXbarMatchingRound s
  | .cellTransfer input => Sys2Proof.Machine.execCellTransfer input s
  | .eligibilityVectorPublish port => Sys2Proof.Machine.execEligibilityVectorPublish port s
  | .txSelect out => Sys2Proof.Machine.execTxSelect out s
  | .frameTxEnd out => Sys2Proof.Machine.execFrameTxEnd out s
  | .wheelSlotRelease => Sys2Proof.Machine.execWheelSlotRelease s
  | .gateChange port => Sys2Proof.Machine.execGateChange port s
  | .gclSwitchRequest who port v => Sys2Proof.Machine.execGclSwitchRequest who port v s
  | .gclSwitch port => Sys2Proof.Machine.execGclSwitch port s
  | .mtrNop who half idx => Sys2Proof.Machine.execMtrNop who half idx s
  | .mtrWrite who half idx => Sys2Proof.Machine.execMtrWrite who half idx s
  | .mtrRead who half idx => Sys2Proof.Machine.execMtrRead who half idx s
  | .mtrFill who half idx => Sys2Proof.Machine.execMtrFill who half idx s
  | .ppsEdge => Sys2Proof.Machine.execPpsEdge s
  | .todMessage first rest => Sys2Proof.Machine.execTodMessage first rest s
  | .holdoverTimeout => Sys2Proof.Machine.execHoldoverTimeout s
  | .timeAdjNsWrite who v => Sys2Proof.Machine.execTimeAdjNsWrite who v s
  | .timeStepGo who => Sys2Proof.Machine.execTimeStepGo who s
  | .forcedStep => Sys2Proof.Machine.execForcedStep s
  | .skippedEventRelease => Sys2Proof.Machine.execSkippedEventRelease s
  | .watermarkReached => Sys2Proof.Machine.execWatermarkReached s
  | .timeTriggerFire t => Sys2Proof.Machine.execTimeTriggerFire t s
  | .timeNowFracRead who => Sys2Proof.Machine.execTimeNowFracRead who s
  | .timeCtlWrite who v => Sys2Proof.Machine.execTimeCtlWrite who v s
  | .timePllLock => Sys2Proof.Machine.execTimePllLock s
  | .timeDistBroadcast disagrees => Sys2Proof.Machine.execTimeDistBroadcast disagrees s
  | .ppsOutEdge => Sys2Proof.Machine.execPpsOutEdge s
  | .todOutSend => Sys2Proof.Machine.execTodOutSend s
  | .wfeWake a => Sys2Proof.Machine.execWfeWake a s
  | .threadTimerExpire a => Sys2Proof.Machine.execThreadTimerExpire a s
  | .stageWatchdogExpire eng => Sys2Proof.Machine.execStageWatchdogExpire eng s
  | .eventDeadlock eng => Sys2Proof.Machine.execEventDeadlock eng s
  | .threadReset who a => Sys2Proof.Machine.execThreadReset who a s
  | .engineReset who eng => Sys2Proof.Machine.execEngineReset who eng s
  | .engCtlWrite who eng v => Sys2Proof.Machine.execEngCtlWrite who eng v s
  | .engThrCfgWrite who eng v => Sys2Proof.Machine.execEngThrCfgWrite who eng v s
  | .cluIramDataAccess who clu acc => Sys2Proof.Machine.execCluIramDataAccess who clu acc s
  | .cluShrDataAccess who clu acc => Sys2Proof.Machine.execCluShrDataAccess who clu acc s
  | .cluIramFixDataWrite who clu v => Sys2Proof.Machine.execCluIramFixDataWrite who clu v s
  | .engHkeyLoRead who eng => Sys2Proof.Machine.execEngHkeyLoRead who eng s
  | .engHkeyHiAccess who eng acc => Sys2Proof.Machine.execEngHkeyHiAccess who eng acc s
  | .fuWriteback a => Sys2Proof.Machine.execFuWriteback a s
  | .interruptTake a => Sys2Proof.Machine.execInterruptTake a s
  | .add a lg rd rs1 rs2 => Sys2Proof.Machine.execAdd a lg rd rs1 rs2 s
  | .sub a lg rd rs1 rs2 => Sys2Proof.Machine.execSub a lg rd rs1 rs2 s
  | .addf a rd rs1 rs2 => Sys2Proof.Machine.execAddf a rd rs1 rs2 s
  | .subf a rd rs1 rs2 => Sys2Proof.Machine.execSubf a rd rs1 rs2 s
  | .and a lg rd rs1 rs2 => Sys2Proof.Machine.execAnd a lg rd rs1 rs2 s
  | .or a lg rd rs1 rs2 => Sys2Proof.Machine.execOr a lg rd rs1 rs2 s
  | .xor a lg rd rs1 rs2 => Sys2Proof.Machine.execXor a lg rd rs1 rs2 s
  | .andnot a rd rs1 rs2 => Sys2Proof.Machine.execAndnot a rd rs1 rs2 s
  | .ornot a rd rs1 rs2 => Sys2Proof.Machine.execOrnot a rd rs1 rs2 s
  | .sll a lg rd rs1 rs2 => Sys2Proof.Machine.execSll a lg rd rs1 rs2 s
  | .srl a lg rd rs1 rs2 => Sys2Proof.Machine.execSrl a lg rd rs1 rs2 s
  | .sra a lg rd rs1 rs2 => Sys2Proof.Machine.execSra a lg rd rs1 rs2 s
  | .ror a rd rs1 rs2 => Sys2Proof.Machine.execRor a rd rs1 rs2 s
  | .mul a lg rd rs1 rs2 => Sys2Proof.Machine.execMul a lg rd rs1 rs2 s
  | .mulhi a rd rs1 rs2 => Sys2Proof.Machine.execMulhi a rd rs1 rs2 s
  | .quo a rd rs1 rs2 => Sys2Proof.Machine.execQuo a rd rs1 rs2 s
  | .rem a rd rs1 rs2 => Sys2Proof.Machine.execRem a rd rs1 rs2 s
  | .min a lg rd rs1 rs2 => Sys2Proof.Machine.execMin a lg rd rs1 rs2 s
  | .max a lg rd rs1 rs2 => Sys2Proof.Machine.execMax a lg rd rs1 rs2 s
  | .minu a rd rs1 rs2 => Sys2Proof.Machine.execMinu a rd rs1 rs2 s
  | .maxu a rd rs1 rs2 => Sys2Proof.Machine.execMaxu a rd rs1 rs2 s
  | .cmp a lg rs1 rs2 => Sys2Proof.Machine.execCmp a lg rs1 rs2 s
  | .tst a lg rs1 rs2 => Sys2Proof.Machine.execTst a lg rs1 rs2 s
  | .pick a rd rs1 rs2 cond => Sys2Proof.Machine.execPick a rd rs1 rs2 cond s
  | .bool a rd cond => Sys2Proof.Machine.execBool a rd cond s
  | .mov a form rd => Sys2Proof.Machine.execMov a form rd s
  | .neg a lg rd rs => Sys2Proof.Machine.execNeg a lg rd rs s
  | .not a lg rd rs => Sys2Proof.Machine.execNot a lg rd rs s
  | .clz a rd rs => Sys2Proof.Machine.execClz a rd rs s
  | .ctz a rd rs => Sys2Proof.Machine.execCtz a rd rs s
  | .popc a rd rs => Sys2Proof.Machine.execPopc a rd rs s
  | .bswap a rd rs sz => Sys2Proof.Machine.execBswap a rd rs sz s
  | .zext a rd rs sz => Sys2Proof.Machine.execZext a rd rs sz s
  | .sext a rd rs sz => Sys2Proof.Machine.execSext a rd rs sz s
  | .addi a lg rd rs1 imm => Sys2Proof.Machine.execAddi a lg rd rs1 imm s
  | .andi a rd rs1 imm => Sys2Proof.Machine.execAndi a rd rs1 imm s
  | .ori a rd rs1 imm => Sys2Proof.Machine.execOri a rd rs1 imm s
  | .xori a rd rs1 imm => Sys2Proof.Machine.execXori a rd rs1 imm s
  | .slli a lg rd rs1 n => Sys2Proof.Machine.execSlli a lg rd rs1 n s
  | .srli a lg rd rs1 n => Sys2Proof.Machine.execSrli a lg rd rs1 n s
  | .srai a rd rs1 n => Sys2Proof.Machine.execSrai a rd rs1 n s
  | .cmpi a lg rs1 imm => Sys2Proof.Machine.execCmpi a lg rs1 imm s
  | .ldiz a rd lane imm => Sys2Proof.Machine.execLdiz a rd lane imm s
  | .ldik a rd lane imm => Sys2Proof.Machine.execLdik a rd lane imm s
  | .ldis a rd lane imm => Sys2Proof.Machine.execLdis a rd lane imm s
  | .ldb a rd seg rb disp => Sys2Proof.Machine.execLdb a rd seg rb disp s
  | .ldh a rd seg rb disp => Sys2Proof.Machine.execLdh a rd seg rb disp s
  | .ldw a rd seg rb disp => Sys2Proof.Machine.execLdw a rd seg rb disp s
  | .ldd a form rd rb => Sys2Proof.Machine.execLdd a form rd rb s
  | .ldsb a rd seg rb disp => Sys2Proof.Machine.execLdsb a rd seg rb disp s
  | .ldsh a rd seg rb disp => Sys2Proof.Machine.execLdsh a rd seg rb disp s
  | .ldsw a rd seg rb disp => Sys2Proof.Machine.execLdsw a rd seg rb disp s
  | .ldnh a form rd rb => Sys2Proof.Machine.execLdnh a form rd rb s
  | .ldnw a form rd rb => Sys2Proof.Machine.execLdnw a form rd rb s
  | .ldnd a rd seg rb disp => Sys2Proof.Machine.execLdnd a rd seg rb disp s
  | .stb a rd seg rb disp => Sys2Proof.Machine.execStb a rd seg rb disp s
  | .sth a rd seg rb disp => Sys2Proof.Machine.execSth a rd seg rb disp s
  | .stw a rd seg rb disp => Sys2Proof.Machine.execStw a rd seg rb disp s
  | .std a form rd rb => Sys2Proof.Machine.execStd a form rd rb s
  | .stnh a rd seg rb disp => Sys2Proof.Machine.execStnh a rd seg rb disp s
  | .stnw a rd seg rb disp => Sys2Proof.Machine.execStnw a rd seg rb disp s
  | .stnd a rd seg rb disp => Sys2Proof.Machine.execStnd a rd seg rb disp s
  | .aadd a rd seg rb rs sz => Sys2Proof.Machine.execAadd a rd seg rb rs sz s
  | .asadd a rd seg rb rs sz => Sys2Proof.Machine.execAsadd a rd seg rb rs sz s
  | .acas a rd seg rb rs sz => Sys2Proof.Machine.execAcas a rd seg rb rs sz s
  | .lkup a rd rs1 rs2 => Sys2Proof.Machine.execLkup a rd rs1 rs2 s
  | .lka a rd rs1 => Sys2Proof.Machine.execLka a rd rs1 s
  | .lkq a rs1 => Sys2Proof.Machine.execLkq a rs1 s
  | .lkr a rs1 => Sys2Proof.Machine.execLkr a rs1 s
  | .bc a lg cond h off wrong => Sys2Proof.Machine.execBc a lg cond h off wrong s
  | .brz a lg rs h off wrong => Sys2Proof.Machine.execBrz a lg rs h off wrong s
  | .brnz a lg rs h off wrong => Sys2Proof.Machine.execBrnz a lg rs h off wrong s
  | .j a lg off => Sys2Proof.Machine.execJ a lg off s
  | .call a off => Sys2Proof.Machine.execCall a off s
  | .jr a lg rs1 => Sys2Proof.Machine.execJr a lg rs1 s
  | .callr a lg rs1 => Sys2Proof.Machine.execCallr a lg rs1 s
  | .ret a lg => Sys2Proof.Machine.execRet a lg s
  | .eret a => Sys2Proof.Machine.execEret a s
  | .nop a lg => Sys2Proof.Machine.execNop a lg s
  | .send a lg => Sys2Proof.Machine.execSend a lg s
  | .wfe a lg rd rs1 => Sys2Proof.Machine.execWfe a lg rd rs1 s
  | .sig a lg rs1 => Sys2Proof.Machine.execSig a lg rs1 s
  | .tmr a lg rs1 => Sys2Proof.Machine.execTmr a lg rs1 s
  | .sleep a => Sys2Proof.Machine.execSleep a s
  | .fence a => Sys2Proof.Machine.execFence a s
  | .brk a lg => Sys2Proof.Machine.execBrk a lg s
  | .rget a rd rs1 => Sys2Proof.Machine.execRget a rd rs1 s
  | .rput a rs1 rs2 => Sys2Proof.Machine.execRput a rs1 rs2 s
  | .trap a code => Sys2Proof.Machine.execTrap a code s
  | .mfs a rd sreg => Sys2Proof.Machine.execMfs a rd sreg s
  | .mts a sreg rs => Sys2Proof.Machine.execMts a sreg rs s
  | .xchs a rd sreg => Sys2Proof.Machine.execXchs a rd sreg s
  | .fext a rd rs1 param => Sys2Proof.Machine.execFext a rd rs1 param s
  | .fins a rd rs1 param => Sys2Proof.Machine.execFins a rd rs1 param s
  | .fscn a rd rs1 param => Sys2Proof.Machine.execFscn a rd rs1 param s
  | .hcrc a rd rs1 param => Sys2Proof.Machine.execHcrc a rd rs1 param s
  | .htoe a rd rs1 param => Sys2Proof.Machine.execHtoe a rd rs1 param s
  | .hvndHash a rd rs1 param => Sys2Proof.Machine.execHvndHash a rd rs1 param s
  | .hvndKeyWrite a rd rs1 param => Sys2Proof.Machine.execHvndKeyWrite a rd rs1 param s
  | .hvndKeyRead a rd rs1 param => Sys2Proof.Machine.execHvndKeyRead a rd rs1 param s
  | .cksa a rd rs1 param => Sys2Proof.Machine.execCksa a rd rs1 param s
  | .cksu a rd rs1 param => Sys2Proof.Machine.execCksu a rd rs1 param s
  | .cksf a rd rs1 param => Sys2Proof.Machine.execCksf a rd rs1 param s
  | .lookupLand id ecc => Sys2Proof.Machine.execLookupLand id ecc s
  | .deepFillArrive half id bucket => Sys2Proof.Machine.execDeepFillArrive half id bucket s
  | .emNop who half => Sys2Proof.Machine.execEmNop who half s
  | .emInsert who half v => Sys2Proof.Machine.execEmInsert who half v s
  | .emDelete who half v => Sys2Proof.Machine.execEmDelete who half v s
  | .emSearch who half v => Sys2Proof.Machine.execEmSearch who half v s
  | .emModify who half v => Sys2Proof.Machine.execEmModify who half v s
  | .emViewAdd who half v => Sys2Proof.Machine.execEmViewAdd who half v s
  | .emReadAt who half v => Sys2Proof.Machine.execEmReadAt who half v s
  | .emCtrRead who half v => Sys2Proof.Machine.execEmCtrRead who half v s
  | .emWritePage who half v => Sys2Proof.Machine.execEmWritePage who half v s
  | .emCmdComplete => Sys2Proof.Machine.execEmCmdComplete s
  | .emBulkStart who half => Sys2Proof.Machine.execEmBulkStart who half s
  | .emBulkRecord => Sys2Proof.Machine.execEmBulkRecord s
  | .emBulkAbort who half => Sys2Proof.Machine.execEmBulkAbort who half s
  | .emSeedWrite who half v => Sys2Proof.Machine.execEmSeedWrite who half v s
  | .emTblCfgWrite who half n v => Sys2Proof.Machine.execEmTblCfgWrite who half n v s
  | .tcNop who half => Sys2Proof.Machine.execTcNop who half s
  | .tcInsert who half v => Sys2Proof.Machine.execTcInsert who half v s
  | .tcDelete who half v => Sys2Proof.Machine.execTcDelete who half v s
  | .tcSearch who half v => Sys2Proof.Machine.execTcSearch who half v s
  | .tcModify who half v => Sys2Proof.Machine.execTcModify who half v s
  | .tcViewAdd who half v => Sys2Proof.Machine.execTcViewAdd who half v s
  | .tcReadAt who half v => Sys2Proof.Machine.execTcReadAt who half v s
  | .tcMatch who half v => Sys2Proof.Machine.execTcMatch who half v s
  | .makeRoomMove => Sys2Proof.Machine.execMakeRoomMove s
  | .tcCmdComplete => Sys2Proof.Machine.execTcCmdComplete s
  | .tcSweepVisit half row err => Sys2Proof.Machine.execTcSweepVisit half row err s
  | .viewCommit who v => Sys2Proof.Machine.execViewCommit who v s
  | .viewFlip => Sys2Proof.Machine.execViewFlip s
  | .viewAbort who => Sys2Proof.Machine.execViewAbort who s
  | .viewDrainLimitExpire => Sys2Proof.Machine.execViewDrainLimitExpire s
  | .viewSync who => Sys2Proof.Machine.execViewSync who s
  | .viewSyncLocation => Sys2Proof.Machine.execViewSyncLocation s
  | .sourceCheck half => Sys2Proof.Machine.execSourceCheck half s
  | .learnApply half => Sys2Proof.Machine.execLearnApply half s
  | .freezeExpire half => Sys2Proof.Machine.execFreezeExpire half s
  | .learnFrameSend => Sys2Proof.Machine.execLearnFrameSend s
  | .learnFlushTimerExpire => Sys2Proof.Machine.execLearnFlushTimerExpire s
  | .learnHelloExpire => Sys2Proof.Machine.execLearnHelloExpire s
  | .learnFrameReceive => Sys2Proof.Machine.execLearnFrameReceive s
  | .learnRecordLearn => Sys2Proof.Machine.execLearnRecordLearn s
  | .learnRecordWithdraw => Sys2Proof.Machine.execLearnRecordWithdraw s
  | .learnRecordReplay => Sys2Proof.Machine.execLearnRecordReplay s
  | .peerLost dev => Sys2Proof.Machine.execPeerLost dev s
  | .stampSweepVisit half bucket => Sys2Proof.Machine.execStampSweepVisit half bucket s
  | .lrnFlush who v => Sys2Proof.Machine.execLrnFlush who v s
  | .lrnDump who => Sys2Proof.Machine.execLrnDump who s
  | .lrnBulkAbort who dump => Sys2Proof.Machine.execLrnBulkAbort who dump s
  | .lrnBulkBucket => Sys2Proof.Machine.execLrnBulkBucket s
  | .agerVisit half bucket => Sys2Proof.Machine.execAgerVisit half bucket s
  | .sintNop who v => Sys2Proof.Machine.execSintNop who v s
  | .sintAlloc who v => Sys2Proof.Machine.execSintAlloc who v s
  | .sintHandover who v => Sys2Proof.Machine.execSintHandover who v s
  | .sintFree who v => Sys2Proof.Machine.execSintFree who v s
  | .sintInject who v => Sys2Proof.Machine.execSintInject who v s
  | .sintRead who v => Sys2Proof.Machine.execSintRead who v s
  | .sintPoolApply who => Sys2Proof.Machine.execSintPoolApply who s
  | .sintWinAccess who n acc => Sys2Proof.Machine.execSintWinAccess who n acc s
  | .sintAuditStart who v => Sys2Proof.Machine.execSintAuditStart who v s
  | .sintAuditAbort who => Sys2Proof.Machine.execSintAuditAbort who s
  | .sintAuditComplete => Sys2Proof.Machine.execSintAuditComplete s
  | .xbMcgSelWrite who v => Sys2Proof.Machine.execXbMcgSelWrite who v s
  | .xbMcgMap2Write who v => Sys2Proof.Machine.execXbMcgMap2Write who v s
  | .tskStart who task => Sys2Proof.Machine.execTskStart who task s
  | .tskRelease who task => Sys2Proof.Machine.execTskRelease who task s
  | .tskStop who task => Sys2Proof.Machine.execTskStop who task s
  | .taskYield a => Sys2Proof.Machine.execTaskYield a s
  | .taskWait a arg => Sys2Proof.Machine.execTaskWait a arg s
  | .taskDelay a arg => Sys2Proof.Machine.execTaskDelay a arg s
  | .taskRelease a task => Sys2Proof.Machine.execTaskRelease a task s
  | .taskExit a => Sys2Proof.Machine.execTaskExit a s
  | .taskDispatch a => Sys2Proof.Machine.execTaskDispatch a s
  | .taskPreempt a => Sys2Proof.Machine.execTaskPreempt a s
  | .groupTick g => Sys2Proof.Machine.execGroupTick g s
  | .timeoutExpire task => Sys2Proof.Machine.execTimeoutExpire task s
  | .lckAcqRead who n => Sys2Proof.Machine.execLckAcqRead who n s
  | .lckRelWrite who n => Sys2Proof.Machine.execLckRelWrite who n s
  | .irqSourceAssert src => Sys2Proof.Machine.execIrqSourceAssert src s
  | .irqClaim who t => Sys2Proof.Machine.execIrqClaim who t s
  | .irqEoi who t src => Sys2Proof.Machine.execIrqEoi who t src s
  | .irqHeoi who src => Sys2Proof.Machine.execIrqHeoi who src s
  | .irqSoftSet who n => Sys2Proof.Machine.execIrqSoftSet who n s
  | .irqSoftClear who n => Sys2Proof.Machine.execIrqSoftClear who n s
  | .msixSend src => Sys2Proof.Machine.execMsixSend src s
  | .msixVectorUnmask vec => Sys2Proof.Machine.execMsixVectorUnmask vec s
  | .coreWake core => Sys2Proof.Machine.execCoreWake core s
  | .wakeWatcherTrigger k => Sys2Proof.Machine.execWakeWatcherTrigger k s
  | .instCreate who => Sys2Proof.Machine.execInstCreate who s
  | .instDestroy who => Sys2Proof.Machine.execInstDestroy who s
  | .instReset who inst => Sys2Proof.Machine.execInstReset who inst s
  | .instStage who => Sys2Proof.Machine.execInstStage who s
  | .instResetDrainEnd inst => Sys2Proof.Machine.execInstResetDrainEnd inst s
  | .flr inst => Sys2Proof.Machine.execFlr inst s
  | .vfEnableClear host => Sys2Proof.Machine.execVfEnableClear host s
  | .pcieLinkDown host => Sys2Proof.Machine.execPcieLinkDown host s
  | .perst host low => Sys2Proof.Machine.execPerst host low s
  | .mbxSend inst => Sys2Proof.Machine.execMbxSend inst s
  | .mbxDone who inst => Sys2Proof.Machine.execMbxDone who inst s
  | .mbxTimeout inst => Sys2Proof.Machine.execMbxTimeout inst s
  | .txDoorbell inst n pi => Sys2Proof.Machine.execTxDoorbell inst n pi s
  | .rxDoorbell inst n pi => Sys2Proof.Machine.execRxDoorbell inst n pi s
  | .txDescriptorProcess ring => Sys2Proof.Machine.execTxDescriptorProcess ring s
  | .dmaCompletion id data => Sys2Proof.Machine.execDmaCompletion id data s
  | .cplTimeout id => Sys2Proof.Machine.execCplTimeout id s
  | .rxDelivery host => Sys2Proof.Machine.execRxDelivery host s
  | .rxStagingTimeout host => Sys2Proof.Machine.execRxStagingTimeout host s
  | .ringModExpire ring => Sys2Proof.Machine.execRingModExpire ring s
  | .hbmBankIssue turn ecc => Sys2Proof.Machine.execHbmBankIssue turn ecc s
  | .hbmPromote pc => Sys2Proof.Machine.execHbmPromote pc s
  | .hbmRetrainDue pc => Sys2Proof.Machine.execHbmRetrainDue pc s
  | .hbmRetrainEnd pc ok => Sys2Proof.Machine.execHbmRetrainEnd pc ok s
  | .hbmTrainGo who pc => Sys2Proof.Machine.execHbmTrainGo who pc s
  | .hbmTrainAbort who => Sys2Proof.Machine.execHbmTrainAbort who s
  | .hbmSrEntry ch => Sys2Proof.Machine.execHbmSrEntry ch s
  | .hbmSrExit ch => Sys2Proof.Machine.execHbmSrExit ch s
  | .hbmScrubRead addr ecc => Sys2Proof.Machine.execHbmScrubRead addr ecc s
  | .hbmFence pc cause => Sys2Proof.Machine.execHbmFence pc cause s
  | .hbmPcFenceWrite who pc => Sys2Proof.Machine.execHbmPcFenceWrite who pc s
  | .hbmRemapFillDone => Sys2Proof.Machine.execHbmRemapFillDone s
  | .hbmSpillWithdraw => Sys2Proof.Machine.execHbmSpillWithdraw s
  | .hbmRun who => Sys2Proof.Machine.execHbmRun who s
  | .hbmTrained => Sys2Proof.Machine.execHbmTrained s
  | .devModeReq who target => Sys2Proof.Machine.execDevModeReq who target s
  | .maintainEntry => Sys2Proof.Machine.execMaintainEntry s
  | .maintainDrainTimeout => Sys2Proof.Machine.execMaintainDrainTimeout s
  | .simmerEntry => Sys2Proof.Machine.execSimmerEntry s
  | .sleepDrainTimeout => Sys2Proof.Machine.execSleepDrainTimeout s
  | .simmerCommit => Sys2Proof.Machine.execSimmerCommit s
  | .dormantEntry => Sys2Proof.Machine.execDormantEntry s
  | .dormantAutoExpire => Sys2Proof.Machine.execDormantAutoExpire s
  | .simmerWake => Sys2Proof.Machine.execSimmerWake s
  | .dormantWake => Sys2Proof.Machine.execDormantWake s
  | .devWakeWrite who => Sys2Proof.Machine.execDevWakeWrite who s
  | .wakeTimerExpire => Sys2Proof.Machine.execWakeTimerExpire s
  | .gpioInputChange n level => Sys2Proof.Machine.execGpioInputChange n level s
  | .keepaliveFrameReceive slot bytes => Sys2Proof.Machine.execKeepaliveFrameReceive slot bytes s
  | .keepaliveServiceSend slot svc bytes => Sys2Proof.Machine.execKeepaliveServiceSend slot svc bytes s
  | .controlCoreReset who core => Sys2Proof.Machine.execControlCoreReset who core s
  | .fumaroleReset who => Sys2Proof.Machine.execFumaroleReset who s
  | .devPwrWrite who v => Sys2Proof.Machine.execDevPwrWrite who v s
  | .lkpHalfCopyDone half => Sys2Proof.Machine.execLkpHalfCopyDone half s
  | .devFenceWrite who v => Sys2Proof.Machine.execDevFenceWrite who v s
  | .railsValid => Sys2Proof.Machine.execRailsValid s
  | .vddAonUp => Sys2Proof.Machine.execVddAonUp s
  | .pgMainUp => Sys2Proof.Machine.execPgMainUp s
  | .pgTimeout => Sys2Proof.Machine.execPgTimeout s
  | .pwrSeqRetry => Sys2Proof.Machine.execPwrSeqRetry s
  | .porReset => Sys2Proof.Machine.execPorReset s
  | .sysReset => Sys2Proof.Machine.execSysReset s
  | .resetRelease => Sys2Proof.Machine.execResetRelease s
  | .thermtrip => Sys2Proof.Machine.execThermtrip s
  | .bootSequence => Sys2Proof.Machine.execBootSequence s
  | .bootRetry => Sys2Proof.Machine.execBootRetry s
  | .identityDerive => Sys2Proof.Machine.execIdentityDerive s
  | .secVerify who => Sys2Proof.Machine.execSecVerify who s
  | .secPload who => Sys2Proof.Machine.execSecPload who s
  | .secExtend who => Sys2Proof.Machine.execSecExtend who s
  | .secAttest who => Sys2Proof.Machine.execSecAttest who s
  | .secSvnAdvance who => Sys2Proof.Machine.execSecSvnAdvance who s
  | .secOwnEnrol who => Sys2Proof.Machine.execSecOwnEnrol who s
  | .secDbgUnlock who => Sys2Proof.Machine.execSecDbgUnlock who s
  | .secFlashWrite who => Sys2Proof.Machine.execSecFlashWrite who s
  | .secSha384 who => Sys2Proof.Machine.execSecSha384 who s
  | .secModexp who => Sys2Proof.Machine.execSecModexp who s
  | .secIrepair who => Sys2Proof.Machine.execSecIrepair who s
  | .secAbort who => Sys2Proof.Machine.execSecAbort who s
  | .secCmdComplete => Sys2Proof.Machine.execSecCmdComplete s
  | .secReqSignedWrite who => Sys2Proof.Machine.execSecReqSignedWrite who s
  | .rasTestEmSlice who target => Sys2Proof.Machine.execRasTestEmSlice who target s
  | .rasTestTcSlice who target => Sys2Proof.Machine.execRasTestTcSlice who target s
  | .rasTestBucketCache who target => Sys2Proof.Machine.execRasTestBucketCache who target s
  | .rasTestMeterCtr who target => Sys2Proof.Machine.execRasTestMeterCtr who target s
  | .rasTestEngineMem who target => Sys2Proof.Machine.execRasTestEngineMem who target s
  | .rasTestSinterMem who target => Sys2Proof.Machine.execRasTestSinterMem who target s
  | .rasTestSerdesRecal who target => Sys2Proof.Machine.execRasTestSerdesRecal who target s
  | .rasTestEyeScan who target => Sys2Proof.Machine.execRasTestEyeScan who target s
  | .rasTestFull who target => Sys2Proof.Machine.execRasTestFull who target s
  | .rasTestAbort who => Sys2Proof.Machine.execRasTestAbort who s
  | .rasTestComplete pass res => Sys2Proof.Machine.execRasTestComplete pass res s
  | .rasLogClr who => Sys2Proof.Machine.execRasLogClr who s
  | .dbgHalt who v => Sys2Proof.Machine.execDbgHalt who v s
  | .dbgResume who v => Sys2Proof.Machine.execDbgResume who v s
  | .dbgStep who v => Sys2Proof.Machine.execDbgStep who v s
  | .dbgRst who v => Sys2Proof.Machine.execDbgRst who v s
  | .dbgEv14 who v => Sys2Proof.Machine.execDbgEv14 who v s
  | .dbgAccRead who sz => Sys2Proof.Machine.execDbgAccRead who sz s
  | .dbgAccWrite who sz => Sys2Proof.Machine.execDbgAccWrite who sz s
  | .dbgTregAccess who hi acc => Sys2Proof.Machine.execDbgTregAccess who hi acc s
  | .dbgMbxDataWrite who v => Sys2Proof.Machine.execDbgMbxDataWrite who v s
  | .dbgMbxSubmit who => Sys2Proof.Machine.execDbgMbxSubmit who s
  | .dbgTrLoRead who => Sys2Proof.Machine.execDbgTrLoRead who s
  | .breakpointHit n a addr => Sys2Proof.Machine.execBreakpointHit n a addr s
  | .jtagIdcode => Sys2Proof.Machine.execJtagIdcode s
  | .jtagBypass tdi => Sys2Proof.Machine.execJtagBypass tdi s
  | .jtagSamplePreload pins => Sys2Proof.Machine.execJtagSamplePreload pins s
  | .jtagExtest => Sys2Proof.Machine.execJtagExtest s
  | .jtagDbgreg off acc => Sys2Proof.Machine.execJtagDbgreg off acc s
  | .violCapRead who page => Sys2Proof.Machine.execViolCapRead who page s
  | .lowWordLatchRead who addr => Sys2Proof.Machine.execLowWordLatchRead who addr s
  | .registerWrite who addr v => Sys2Proof.Machine.execRegisterWrite who addr v s
  | .undefinedInstruction a => Sys2Proof.Machine.execUndefinedInstruction a s
  | .timePllLockLost => Sys2Proof.Machine.execTimePllLockLost s
  | .slewEnd => Sys2Proof.Machine.execSlewEnd s
  | .shaperCreditRecovery port cls => Sys2Proof.Machine.execShaperCreditRecovery port cls s
  | .devPwrChangeComplete => Sys2Proof.Machine.execDevPwrChangeComplete s
  | .powerLoss => Sys2Proof.Machine.execPowerLoss s
  | .vfEnableSet host => Sys2Proof.Machine.execVfEnableSet host s
  | .pcieLinkUp host rate width => Sys2Proof.Machine.execPcieLinkUp host rate width s
  | .configurationRequest host => Sys2Proof.Machine.execConfigurationRequest host s
  | .strapChange which v => Sys2Proof.Machine.execStrapChange which v s
  | .rcRegisterRead who addr => Sys2Proof.Machine.execRcRegisterRead who addr s

end Sys2Proof.Machine
end

