-- ==== Sys2Proof/Machine/Step.lean ====
section
/-! DEFINITION. One step: the command at the front of the queue runs with the rest of the queue; on an empty queue one tick of
the time unit passes. -/

namespace Sys2Proof.Machine

/-- A step of the block. [DESIGN CHOICE, log 3; DESIGN CHOICE, log 18; DESIGN CHOICE, log 116; DESIGN CHOICE, log 117] -/
def step (s : State) : Host.Outcome State Fault Refusal :=
  match s.pending with
  | [] => .next s.idle
  | c :: rest => exec c { s with pending := rest }

/-- A state with the command that a word spells put at the front of its queue. [DESIGN CHOICE, log 115] -/
def State.withFetchWord (s : State) (nbits w : Nat) : State :=
  match Sys2Proof.decodeTableWord nbits w with
  | some c => { s with pending := c :: s.pending }
  | none => s

end Sys2Proof.Machine
end

