-- ==== Sys2Proof/WellFormed.lean ====
section
/-! DEFINITION. Which commands are well formed: an instruction's operands are ones its encoding can hold (R157, R158, R164, R167, R195),
a requester is an agent that can access registers (R586), an address is that of a word, and what the outside world supplies has the
form the table's row describes. A command that is not well formed still has a meaning; no claim about the hardware is made of it. -/

namespace Sys2Proof

/-- A register number of a short form (R144). -/
def low16 (r : Reg) : Bool := decide (r.val < 16)

/-- The two-operand short form: rd := rd op rs (R157). -/
def shortAlu (lg : Bool) (rd rs1 rs2 : Reg) : Bool := lg || decide (rd = rs1) && low16 rd && low16 rs2

/-- A signed immediate of a short field of `n` bits. -/
def fits (n : Nat) (x : Int) : Bool := decide (-(2 ^ (n - 1) : Int) ≤ x ∧ x < 2 ^ (n - 1))

/-- The short ADDI (R157). -/
def shortImm (rd rs1 : Reg) (imm : BitVec 15) : Bool := decide (rd = rs1) && low16 rd && fits 7 imm.toInt

/-- MOV (R157, R167). -/
def wfMov : MovForm → Reg → Bool
  | .regShort rs, rd => low16 rs && low16 rd
  | .regLong _, _ => true
  | .imm7 _, rd => low16 rd

/-- LDD and STD: the long form, or the short one from s2 or s3, which names no rb (R157). -/
def wfWord : MemForm → Reg → Reg → Bool
  | .long _ _, _, _ => true
  | .word _ _, rd, rb => low16 rd && decide (rb = 0)
  | .s1, _, _ => false

/-- LDNH and LDNW: the long form, or the short one from s1 (R157). -/
def wfS1 : MemForm → Reg → Reg → Bool
  | .long _ _, _, _ => true
  | .word _ _, _, _ => false
  | .s1, rd, rb => low16 rd && low16 rb

/-- The selector of HVND in PARAM (R193, R195). -/
def hvndFn (p : BitVec 13) : Nat := p.toNat / 64 % 4

/-- A requester of a register access: a control context, the Fumarole core, an instance, or JTAG DBGREG (R586). -/
def reqOk (who : Req) : Bool :=
  decide (0x800 ≤ who.toNat ∧ who.toNat ≤ 0x810) || decide (0x900 ≤ who.toNat ∧ who.toNat < 0xA00) || decide (who = 0x811)

/-- A reason code of PORT_LINK.REASON (R56). -/
def isReason (r : BitVec 4) : Bool := decide (1 ≤ r.toNat ∧ r.toNat ≤ 7)

/-- The fields of a command register beside its GO and OP, which the command itself names. -/
def noOrder (v : W32) : Bool := decide (v &&& 0xBF000000 = 0)

/-- The requester of a command that is a register access. -/
def Instr.requester : Instr → Option Req
  | .frameReceive _ _ => none
  | .fcsFailure _ => none
  | .macControlFrameReceive _ _ => none
  | .pauseQuantaExpire _ _ => none
  | .sintXoffEval => none
  | .pfcFrameSend _ => none
  | .pfcRepeatExpire _ => none
  | .linkDown _ _ => none
  | .linkUp _ => none
  | .ltRestart _ => none
  | .portModeWrite who _ _ => some who
  | .portDisable who _ _ => some who
  | .sdsLaneMapWrite who _ _ _ => some who
  | .portTsTagRead who _ => some who
  | .portTsSecHiRead who _ => some who
  | .linkDownReport _ _ => none
  | .linkUpReport _ => none
  | .holdTimerExpire _ => none
  | .xbPortFlush who _ => some who
  | .parseStart _ => none
  | .packetDelivery _ => none
  | .sendCommit _ => none
  | .discardCommit _ => none
  | .voqEnqueue _ => none
  | .spillWrite _ _ _ => none
  | .deepRefill _ _ _ => none
  | .xbarMatchingRound => none
  | .cellTransfer _ => none
  | .eligibilityVectorPublish _ => none
  | .txSelect _ => none
  | .frameTxEnd _ => none
  | .wheelSlotRelease => none
  | .gateChange _ => none
  | .gclSwitchRequest who _ _ => some who
  | .gclSwitch _ => none
  | .mtrNop who _ _ => some who
  | .mtrWrite who _ _ => some who
  | .mtrRead who _ _ => some who
  | .mtrFill who _ _ => some who
  | .ppsEdge => none
  | .todMessage _ _ => none
  | .holdoverTimeout => none
  | .timeAdjNsWrite who _ => some who
  | .timeStepGo who => some who
  | .forcedStep => none
  | .skippedEventRelease => none
  | .watermarkReached => none
  | .timeTriggerFire _ => none
  | .timeNowFracRead who => some who
  | .timeCtlWrite who _ => some who
  | .timePllLock => none
  | .timeDistBroadcast _ => none
  | .ppsOutEdge => none
  | .todOutSend => none
  | .wfeWake _ => none
  | .threadTimerExpire _ => none
  | .stageWatchdogExpire _ => none
  | .eventDeadlock _ => none
  | .threadReset who _ => some who
  | .engineReset who _ => some who
  | .engCtlWrite who _ _ => some who
  | .engThrCfgWrite who _ _ => some who
  | .cluIramDataAccess who _ _ => some who
  | .cluShrDataAccess who _ _ => some who
  | .cluIramFixDataWrite who _ _ => some who
  | .engHkeyLoRead who _ => some who
  | .engHkeyHiAccess who _ _ => some who
  | .fuWriteback _ => none
  | .interruptTake _ => none
  | .add _ _ _ _ _ => none
  | .sub _ _ _ _ _ => none
  | .addf _ _ _ _ => none
  | .subf _ _ _ _ => none
  | .and _ _ _ _ _ => none
  | .or _ _ _ _ _ => none
  | .xor _ _ _ _ _ => none
  | .andnot _ _ _ _ => none
  | .ornot _ _ _ _ => none
  | .sll _ _ _ _ _ => none
  | .srl _ _ _ _ _ => none
  | .sra _ _ _ _ _ => none
  | .ror _ _ _ _ => none
  | .mul _ _ _ _ _ => none
  | .mulhi _ _ _ _ => none
  | .quo _ _ _ _ => none
  | .rem _ _ _ _ => none
  | .min _ _ _ _ _ => none
  | .max _ _ _ _ _ => none
  | .minu _ _ _ _ => none
  | .maxu _ _ _ _ => none
  | .cmp _ _ _ _ => none
  | .tst _ _ _ _ => none
  | .pick _ _ _ _ _ => none
  | .bool _ _ _ => none
  | .mov _ _ _ => none
  | .neg _ _ _ _ => none
  | .not _ _ _ _ => none
  | .clz _ _ _ => none
  | .ctz _ _ _ => none
  | .popc _ _ _ => none
  | .bswap _ _ _ _ => none
  | .zext _ _ _ _ => none
  | .sext _ _ _ _ => none
  | .addi _ _ _ _ _ => none
  | .andi _ _ _ _ => none
  | .ori _ _ _ _ => none
  | .xori _ _ _ _ => none
  | .slli _ _ _ _ _ => none
  | .srli _ _ _ _ _ => none
  | .srai _ _ _ _ => none
  | .cmpi _ _ _ _ => none
  | .ldiz _ _ _ _ => none
  | .ldik _ _ _ _ => none
  | .ldis _ _ _ _ => none
  | .ldb _ _ _ _ _ => none
  | .ldh _ _ _ _ _ => none
  | .ldw _ _ _ _ _ => none
  | .ldd _ _ _ _ => none
  | .ldsb _ _ _ _ _ => none
  | .ldsh _ _ _ _ _ => none
  | .ldsw _ _ _ _ _ => none
  | .ldnh _ _ _ _ => none
  | .ldnw _ _ _ _ => none
  | .ldnd _ _ _ _ _ => none
  | .stb _ _ _ _ _ => none
  | .sth _ _ _ _ _ => none
  | .stw _ _ _ _ _ => none
  | .std _ _ _ _ => none
  | .stnh _ _ _ _ _ => none
  | .stnw _ _ _ _ _ => none
  | .stnd _ _ _ _ _ => none
  | .aadd _ _ _ _ _ _ => none
  | .asadd _ _ _ _ _ _ => none
  | .acas _ _ _ _ _ _ => none
  | .lkup _ _ _ _ => none
  | .lka _ _ _ => none
  | .lkq _ _ => none
  | .lkr _ _ => none
  | .bc _ _ _ _ _ _ => none
  | .brz _ _ _ _ _ _ => none
  | .brnz _ _ _ _ _ _ => none
  | .j _ _ _ => none
  | .call _ _ => none
  | .jr _ _ _ => none
  | .callr _ _ _ => none
  | .ret _ _ => none
  | .eret _ => none
  | .nop _ _ => none
  | .send _ _ => none
  | .wfe _ _ _ _ => none
  | .sig _ _ _ => none
  | .tmr _ _ _ => none
  | .sleep _ => none
  | .fence _ => none
  | .brk _ _ => none
  | .rget _ _ _ => none
  | .rput _ _ _ => none
  | .trap _ _ => none
  | .mfs _ _ _ => none
  | .mts _ _ _ => none
  | .xchs _ _ _ => none
  | .fext _ _ _ _ => none
  | .fins _ _ _ _ => none
  | .fscn _ _ _ _ => none
  | .hcrc _ _ _ _ => none
  | .htoe _ _ _ _ => none
  | .hvndHash _ _ _ _ => none
  | .hvndKeyWrite _ _ _ _ => none
  | .hvndKeyRead _ _ _ _ => none
  | .cksa _ _ _ _ => none
  | .cksu _ _ _ _ => none
  | .cksf _ _ _ _ => none
  | .lookupLand _ _ => none
  | .deepFillArrive _ _ _ => none
  | .emNop who _ => some who
  | .emInsert who _ _ => some who
  | .emDelete who _ _ => some who
  | .emSearch who _ _ => some who
  | .emModify who _ _ => some who
  | .emViewAdd who _ _ => some who
  | .emReadAt who _ _ => some who
  | .emCtrRead who _ _ => some who
  | .emWritePage who _ _ => some who
  | .emCmdComplete => none
  | .emBulkStart who _ => some who
  | .emBulkRecord => none
  | .emBulkAbort who _ => some who
  | .emSeedWrite who _ _ => some who
  | .emTblCfgWrite who _ _ _ => some who
  | .tcNop who _ => some who
  | .tcInsert who _ _ => some who
  | .tcDelete who _ _ => some who
  | .tcSearch who _ _ => some who
  | .tcModify who _ _ => some who
  | .tcViewAdd who _ _ => some who
  | .tcReadAt who _ _ => some who
  | .tcMatch who _ _ => some who
  | .makeRoomMove => none
  | .tcCmdComplete => none
  | .tcSweepVisit _ _ _ => none
  | .viewCommit who _ => some who
  | .viewFlip => none
  | .viewAbort who => some who
  | .viewDrainLimitExpire => none
  | .viewSync who => some who
  | .viewSyncLocation => none
  | .sourceCheck _ => none
  | .learnApply _ => none
  | .freezeExpire _ => none
  | .learnFrameSend => none
  | .learnFlushTimerExpire => none
  | .learnHelloExpire => none
  | .learnFrameReceive => none
  | .learnRecordLearn => none
  | .learnRecordWithdraw => none
  | .learnRecordReplay => none
  | .peerLost _ => none
  | .stampSweepVisit _ _ => none
  | .lrnFlush who _ => some who
  | .lrnDump who => some who
  | .lrnBulkAbort who _ => some who
  | .lrnBulkBucket => none
  | .agerVisit _ _ => none
  | .sintNop who _ => some who
  | .sintAlloc who _ => some who
  | .sintHandover who _ => some who
  | .sintFree who _ => some who
  | .sintInject who _ => some who
  | .sintRead who _ => some who
  | .sintPoolApply who => some who
  | .sintWinAccess who _ _ => some who
  | .sintAuditStart who _ => some who
  | .sintAuditAbort who => some who
  | .sintAuditComplete => none
  | .xbMcgSelWrite who _ => some who
  | .xbMcgMap2Write who _ => some who
  | .tskStart who _ => some who
  | .tskRelease who _ => some who
  | .tskStop who _ => some who
  | .taskYield _ => none
  | .taskWait _ _ => none
  | .taskDelay _ _ => none
  | .taskRelease _ _ => none
  | .taskExit _ => none
  | .taskDispatch _ => none
  | .taskPreempt _ => none
  | .groupTick _ => none
  | .timeoutExpire _ => none
  | .lckAcqRead who _ => some who
  | .lckRelWrite who _ => some who
  | .irqSourceAssert _ => none
  | .irqClaim who _ => some who
  | .irqEoi who _ _ => some who
  | .irqHeoi who _ => some who
  | .irqSoftSet who _ => some who
  | .irqSoftClear who _ => some who
  | .msixSend _ => none
  | .msixVectorUnmask _ => none
  | .coreWake _ => none
  | .wakeWatcherTrigger _ => none
  | .instCreate who => some who
  | .instDestroy who => some who
  | .instReset who _ => some who
  | .instStage who => some who
  | .instResetDrainEnd _ => none
  | .flr _ => none
  | .vfEnableClear _ => none
  | .pcieLinkDown _ => none
  | .perst _ _ => none
  | .mbxSend _ => none
  | .mbxDone who _ => some who
  | .mbxTimeout _ => none
  | .txDoorbell _ _ _ => none
  | .rxDoorbell _ _ _ => none
  | .txDescriptorProcess _ => none
  | .dmaCompletion _ _ => none
  | .cplTimeout _ => none
  | .rxDelivery _ => none
  | .rxStagingTimeout _ => none
  | .ringModExpire _ => none
  | .hbmBankIssue _ _ => none
  | .hbmPromote _ => none
  | .hbmRetrainDue _ => none
  | .hbmRetrainEnd _ _ => none
  | .hbmTrainGo who _ => some who
  | .hbmTrainAbort who => some who
  | .hbmSrEntry _ => none
  | .hbmSrExit _ => none
  | .hbmScrubRead _ _ => none
  | .hbmFence _ _ => none
  | .hbmPcFenceWrite who _ => some who
  | .hbmRemapFillDone => none
  | .hbmSpillWithdraw => none
  | .hbmRun who => some who
  | .hbmTrained => none
  | .devModeReq who _ => some who
  | .maintainEntry => none
  | .maintainDrainTimeout => none
  | .simmerEntry => none
  | .sleepDrainTimeout => none
  | .simmerCommit => none
  | .dormantEntry => none
  | .dormantAutoExpire => none
  | .simmerWake => none
  | .dormantWake => none
  | .devWakeWrite who => some who
  | .wakeTimerExpire => none
  | .gpioInputChange _ _ => none
  | .keepaliveFrameReceive _ _ => none
  | .keepaliveServiceSend _ _ _ => none
  | .controlCoreReset who _ => some who
  | .fumaroleReset who => some who
  | .devPwrWrite who _ => some who
  | .lkpHalfCopyDone _ => none
  | .devFenceWrite who _ => some who
  | .railsValid => none
  | .vddAonUp => none
  | .pgMainUp => none
  | .pgTimeout => none
  | .pwrSeqRetry => none
  | .porReset => none
  | .sysReset => none
  | .resetRelease => none
  | .thermtrip => none
  | .bootSequence => none
  | .bootRetry => none
  | .identityDerive => none
  | .secVerify who => some who
  | .secPload who => some who
  | .secExtend who => some who
  | .secAttest who => some who
  | .secSvnAdvance who => some who
  | .secOwnEnrol who => some who
  | .secDbgUnlock who => some who
  | .secFlashWrite who => some who
  | .secSha384 who => some who
  | .secModexp who => some who
  | .secIrepair who => some who
  | .secAbort who => some who
  | .secCmdComplete => none
  | .secReqSignedWrite who => some who
  | .rasTestEmSlice who _ => some who
  | .rasTestTcSlice who _ => some who
  | .rasTestBucketCache who _ => some who
  | .rasTestMeterCtr who _ => some who
  | .rasTestEngineMem who _ => some who
  | .rasTestSinterMem who _ => some who
  | .rasTestSerdesRecal who _ => some who
  | .rasTestEyeScan who _ => some who
  | .rasTestFull who _ => some who
  | .rasTestAbort who => some who
  | .rasTestComplete _ _ => none
  | .rasLogClr who => some who
  | .dbgHalt who _ => some who
  | .dbgResume who _ => some who
  | .dbgStep who _ => some who
  | .dbgRst who _ => some who
  | .dbgEv14 who _ => some who
  | .dbgAccRead who _ => some who
  | .dbgAccWrite who _ => some who
  | .dbgTregAccess who _ _ => some who
  | .dbgMbxDataWrite who _ => some who
  | .dbgMbxSubmit who => some who
  | .dbgTrLoRead who => some who
  | .breakpointHit _ _ _ => none
  | .jtagIdcode => none
  | .jtagBypass _ => none
  | .jtagSamplePreload _ => none
  | .jtagExtest => none
  | .jtagDbgreg _ _ => none
  | .violCapRead who _ => some who
  | .lowWordLatchRead who _ => some who
  | .registerWrite who _ _ => some who
  | .undefinedInstruction _ => none
  | .timePllLockLost => none
  | .slewEnd => none
  | .shaperCreditRecovery _ _ => none
  | .devPwrChangeComplete => none
  | .powerLoss => none
  | .vfEnableSet _ => none
  | .pcieLinkUp _ _ _ => none
  | .configurationRequest _ => none
  | .strapChange _ _ => none
  | .rcRegisterRead who _ => some who

/-- A command is well formed. -/
def Instr.wf : Instr → Bool
  | .frameReceive _ f => decide (f.bytes ≠ [])
  | .fcsFailure _ => true
  | .macControlFrameReceive _ bytes => decide (bytes ≠ [])
  | .pauseQuantaExpire _ _ => true
  | .sintXoffEval => true
  | .pfcFrameSend _ => true
  | .pfcRepeatExpire _ => true
  | .linkDown _ reason => isReason reason && decide (reason ≠ 6)
  | .linkUp _ => true
  | .ltRestart _ => true
  | .portModeWrite who _ _ => reqOk who
  | .portDisable who _ _ => reqOk who
  | .sdsLaneMapWrite who _ _ _ => reqOk who
  | .portTsTagRead who _ => reqOk who
  | .portTsSecHiRead who _ => reqOk who
  | .linkDownReport _ reason => isReason reason
  | .linkUpReport _ => true
  | .holdTimerExpire _ => true
  | .xbPortFlush who _ => reqOk who
  | .parseStart _ => true
  | .packetDelivery _ => true
  | .sendCommit _ => true
  | .discardCommit _ => true
  | .voqEnqueue _ => true
  | .spillWrite _ _ _ => true
  | .deepRefill _ _ _ => true
  | .xbarMatchingRound => true
  | .cellTransfer _ => true
  | .eligibilityVectorPublish _ => true
  | .txSelect _ => true
  | .frameTxEnd _ => true
  | .wheelSlotRelease => true
  | .gateChange _ => true
  | .gclSwitchRequest who _ _ => reqOk who
  | .gclSwitch _ => true
  | .mtrNop who _ _ => reqOk who
  | .mtrWrite who _ _ => reqOk who
  | .mtrRead who _ _ => reqOk who
  | .mtrFill who _ _ => reqOk who
  | .ppsEdge => true
  | .todMessage _ _ => true
  | .holdoverTimeout => true
  | .timeAdjNsWrite who _ => reqOk who
  | .timeStepGo who => reqOk who
  | .forcedStep => true
  | .skippedEventRelease => true
  | .watermarkReached => true
  | .timeTriggerFire _ => true
  | .timeNowFracRead who => reqOk who
  | .timeCtlWrite who _ => reqOk who
  | .timePllLock => true
  | .timeDistBroadcast _ => true
  | .ppsOutEdge => true
  | .todOutSend => true
  | .wfeWake _ => true
  | .threadTimerExpire _ => true
  | .stageWatchdogExpire _ => true
  | .eventDeadlock _ => true
  | .threadReset who _ => reqOk who
  | .engineReset who _ => reqOk who
  | .engCtlWrite who _ _ => reqOk who
  | .engThrCfgWrite who _ _ => reqOk who
  | .cluIramDataAccess who _ _ => reqOk who
  | .cluShrDataAccess who _ _ => reqOk who
  | .cluIramFixDataWrite who _ _ => reqOk who
  | .engHkeyLoRead who _ => reqOk who
  | .engHkeyHiAccess who _ _ => reqOk who
  | .fuWriteback _ => true
  | .interruptTake _ => true
  | .add _ lg rd rs1 rs2 => shortAlu lg rd rs1 rs2
  | .sub _ lg rd rs1 rs2 => shortAlu lg rd rs1 rs2
  | .addf _ _ _ _ => true
  | .subf _ _ _ _ => true
  | .and _ lg rd rs1 rs2 => shortAlu lg rd rs1 rs2
  | .or _ lg rd rs1 rs2 => shortAlu lg rd rs1 rs2
  | .xor _ lg rd rs1 rs2 => shortAlu lg rd rs1 rs2
  | .andnot _ _ _ _ => true
  | .ornot _ _ _ _ => true
  | .sll _ lg rd rs1 rs2 => shortAlu lg rd rs1 rs2
  | .srl _ lg rd rs1 rs2 => shortAlu lg rd rs1 rs2
  | .sra _ lg rd rs1 rs2 => shortAlu lg rd rs1 rs2
  | .ror _ _ _ _ => true
  | .mul _ lg rd rs1 rs2 => shortAlu lg rd rs1 rs2
  | .mulhi _ _ _ _ => true
  | .quo _ _ _ _ => true
  | .rem _ _ _ _ => true
  | .min _ lg rd rs1 rs2 => shortAlu lg rd rs1 rs2
  | .max _ lg rd rs1 rs2 => shortAlu lg rd rs1 rs2
  | .minu _ _ _ _ => true
  | .maxu _ _ _ _ => true
  | .cmp _ lg rs1 rs2 => (lg || low16 rs1 && low16 rs2)
  | .tst _ lg rs1 rs2 => (lg || low16 rs1 && low16 rs2)
  | .pick _ _ _ _ cond => decide (cond ≠ 0xF)
  | .bool _ _ cond => decide (cond ≠ 0xF)
  | .mov _ form rd => wfMov form rd
  | .neg _ lg rd rs => (lg || low16 rd && low16 rs)
  | .not _ lg rd rs => (lg || low16 rd && low16 rs)
  | .clz _ _ _ => true
  | .ctz _ _ _ => true
  | .popc _ _ _ => true
  | .bswap _ _ _ sz => decide (sz ≠ 0)
  | .zext _ _ _ sz => decide (sz ≠ 3)
  | .sext _ _ _ sz => decide (sz ≠ 3)
  | .addi _ lg rd rs1 imm => (lg || shortImm rd rs1 imm)
  | .andi _ _ _ _ => true
  | .ori _ _ _ _ => true
  | .xori _ _ _ _ => true
  | .slli _ lg rd rs1 _ => (lg || decide (rd = rs1) && low16 rd)
  | .srli _ lg rd rs1 _ => (lg || decide (rd = rs1) && low16 rd)
  | .srai _ _ _ _ => true
  | .cmpi _ lg rs1 imm => (lg || low16 rs1 && fits 7 imm.toInt)
  | .ldiz _ _ _ _ => true
  | .ldik _ _ _ _ => true
  | .ldis _ _ _ _ => true
  | .ldb _ _ _ _ _ => true
  | .ldh _ _ _ _ _ => true
  | .ldw _ _ _ _ _ => true
  | .ldd _ form rd rb => wfWord form rd rb
  | .ldsb _ _ _ _ _ => true
  | .ldsh _ _ _ _ _ => true
  | .ldsw _ _ _ _ _ => true
  | .ldnh _ form rd rb => wfS1 form rd rb
  | .ldnw _ form rd rb => wfS1 form rd rb
  | .ldnd _ _ _ _ _ => true
  | .stb _ _ _ _ _ => true
  | .sth _ _ _ _ _ => true
  | .stw _ _ _ _ _ => true
  | .std _ form rd rb => wfWord form rd rb
  | .stnh _ _ _ _ _ => true
  | .stnw _ _ _ _ _ => true
  | .stnd _ _ _ _ _ => true
  | .aadd _ _ _ _ _ _ => true
  | .asadd _ _ _ _ _ _ => true
  | .acas _ _ _ _ _ _ => true
  | .lkup _ _ _ _ => true
  | .lka _ _ _ => true
  | .lkq _ _ => true
  | .lkr _ _ => true
  | .bc _ lg cond h off _ => (decide (cond ≠ 0xF) && (lg || decide (cond.toNat < 8) && !h && fits 8 off.toInt))
  | .brz _ lg rs h off _ => (lg || low16 rs && !h && fits 7 off.toInt)
  | .brnz _ lg rs h off _ => (lg || low16 rs && !h && fits 7 off.toInt)
  | .j _ lg off => (lg || fits 11 off.toInt)
  | .call _ _ => true
  | .jr _ lg rs1 => (lg || low16 rs1)
  | .callr _ lg rs1 => (lg || low16 rs1)
  | .ret _ _ => true
  | .eret _ => true
  | .nop _ _ => true
  | .send _ _ => true
  | .wfe _ lg rd rs1 => (lg || decide (rd = rs1) && low16 rd)
  | .sig _ lg rs1 => (lg || low16 rs1)
  | .tmr _ lg rs1 => (lg || low16 rs1)
  | .sleep _ => true
  | .fence _ => true
  | .brk _ _ => true
  | .rget _ _ _ => true
  | .rput _ _ _ => true
  | .trap _ _ => true
  | .mfs _ _ _ => true
  | .mts _ _ _ => true
  | .xchs _ _ _ => true
  | .fext _ _ _ _ => true
  | .fins _ _ _ _ => true
  | .fscn _ _ _ _ => true
  | .hcrc _ _ _ _ => true
  | .htoe _ _ _ _ => true
  | .hvndHash _ _ _ param => decide (hvndFn param = 0)
  | .hvndKeyWrite _ _ _ param => decide (hvndFn param = 1)
  | .hvndKeyRead _ _ _ param => decide (hvndFn param = 2)
  | .cksa _ _ _ _ => true
  | .cksu _ _ _ _ => true
  | .cksf _ _ _ _ => true
  | .lookupLand _ _ => true
  | .deepFillArrive _ _ _ => true
  | .emNop who _ => reqOk who
  | .emInsert who _ v => reqOk who && noOrder v
  | .emDelete who _ v => reqOk who && noOrder v
  | .emSearch who _ v => reqOk who && noOrder v
  | .emModify who _ v => reqOk who && noOrder v
  | .emViewAdd who _ v => reqOk who && noOrder v
  | .emReadAt who _ v => reqOk who && noOrder v
  | .emCtrRead who _ v => reqOk who && noOrder v
  | .emWritePage who _ v => reqOk who && noOrder v
  | .emCmdComplete => true
  | .emBulkStart who _ => reqOk who
  | .emBulkRecord => true
  | .emBulkAbort who _ => reqOk who
  | .emSeedWrite who _ _ => reqOk who
  | .emTblCfgWrite who _ _ _ => reqOk who
  | .tcNop who _ => reqOk who
  | .tcInsert who _ v => reqOk who && noOrder v
  | .tcDelete who _ v => reqOk who && noOrder v
  | .tcSearch who _ v => reqOk who && noOrder v
  | .tcModify who _ v => reqOk who && noOrder v
  | .tcViewAdd who _ v => reqOk who && noOrder v
  | .tcReadAt who _ v => reqOk who && noOrder v
  | .tcMatch who _ v => reqOk who && noOrder v
  | .makeRoomMove => true
  | .tcCmdComplete => true
  | .tcSweepVisit _ _ _ => true
  | .viewCommit who _ => reqOk who
  | .viewFlip => true
  | .viewAbort who => reqOk who
  | .viewDrainLimitExpire => true
  | .viewSync who => reqOk who
  | .viewSyncLocation => true
  | .sourceCheck _ => true
  | .learnApply _ => true
  | .freezeExpire _ => true
  | .learnFrameSend => true
  | .learnFlushTimerExpire => true
  | .learnHelloExpire => true
  | .learnFrameReceive => true
  | .learnRecordLearn => true
  | .learnRecordWithdraw => true
  | .learnRecordReplay => true
  | .peerLost _ => true
  | .stampSweepVisit _ _ => true
  | .lrnFlush who _ => reqOk who
  | .lrnDump who => reqOk who
  | .lrnBulkAbort who _ => reqOk who
  | .lrnBulkBucket => true
  | .agerVisit _ _ => true
  | .sintNop who v => reqOk who && noOrder v
  | .sintAlloc who v => reqOk who && noOrder v
  | .sintHandover who v => reqOk who && noOrder v
  | .sintFree who v => reqOk who && noOrder v
  | .sintInject who v => reqOk who && noOrder v
  | .sintRead who v => reqOk who && noOrder v
  | .sintPoolApply who => reqOk who
  | .sintWinAccess who _ _ => reqOk who
  | .sintAuditStart who _ => reqOk who
  | .sintAuditAbort who => reqOk who
  | .sintAuditComplete => true
  | .xbMcgSelWrite who _ => reqOk who
  | .xbMcgMap2Write who _ => reqOk who
  | .tskStart who _ => reqOk who
  | .tskRelease who _ => reqOk who
  | .tskStop who _ => reqOk who
  | .taskYield _ => true
  | .taskWait _ _ => true
  | .taskDelay _ _ => true
  | .taskRelease _ _ => true
  | .taskExit _ => true
  | .taskDispatch _ => true
  | .taskPreempt _ => true
  | .groupTick _ => true
  | .timeoutExpire _ => true
  | .lckAcqRead who _ => reqOk who
  | .lckRelWrite who _ => reqOk who
  | .irqSourceAssert _ => true
  | .irqClaim who _ => reqOk who
  | .irqEoi who _ _ => reqOk who
  | .irqHeoi who _ => reqOk who
  | .irqSoftSet who _ => reqOk who
  | .irqSoftClear who _ => reqOk who
  | .msixSend _ => true
  | .msixVectorUnmask _ => true
  | .coreWake _ => true
  | .wakeWatcherTrigger _ => true
  | .instCreate who => reqOk who
  | .instDestroy who => reqOk who
  | .instReset who _ => reqOk who
  | .instStage who => reqOk who
  | .instResetDrainEnd _ => true
  | .flr _ => true
  | .vfEnableClear _ => true
  | .pcieLinkDown _ => true
  | .perst _ _ => true
  | .mbxSend _ => true
  | .mbxDone who _ => reqOk who
  | .mbxTimeout _ => true
  | .txDoorbell _ _ _ => true
  | .rxDoorbell _ _ _ => true
  | .txDescriptorProcess _ => true
  | .dmaCompletion _ _ => true
  | .cplTimeout _ => true
  | .rxDelivery _ => true
  | .rxStagingTimeout _ => true
  | .ringModExpire _ => true
  | .hbmBankIssue _ _ => true
  | .hbmPromote _ => true
  | .hbmRetrainDue _ => true
  | .hbmRetrainEnd _ _ => true
  | .hbmTrainGo who _ => reqOk who
  | .hbmTrainAbort who => reqOk who
  | .hbmSrEntry _ => true
  | .hbmSrExit _ => true
  | .hbmScrubRead _ _ => true
  | .hbmFence _ _ => true
  | .hbmPcFenceWrite who _ => reqOk who
  | .hbmRemapFillDone => true
  | .hbmSpillWithdraw => true
  | .hbmRun who => reqOk who
  | .hbmTrained => true
  | .devModeReq who _ => reqOk who
  | .maintainEntry => true
  | .maintainDrainTimeout => true
  | .simmerEntry => true
  | .sleepDrainTimeout => true
  | .simmerCommit => true
  | .dormantEntry => true
  | .dormantAutoExpire => true
  | .simmerWake => true
  | .dormantWake => true
  | .devWakeWrite who => reqOk who
  | .wakeTimerExpire => true
  | .gpioInputChange _ _ => true
  | .keepaliveFrameReceive _ bytes => decide (bytes ≠ [])
  | .keepaliveServiceSend _ _ bytes => decide (bytes ≠ [])
  | .controlCoreReset who _ => reqOk who
  | .fumaroleReset who => reqOk who
  | .devPwrWrite who _ => reqOk who
  | .lkpHalfCopyDone _ => true
  | .devFenceWrite who _ => reqOk who
  | .railsValid => true
  | .vddAonUp => true
  | .pgMainUp => true
  | .pgTimeout => true
  | .pwrSeqRetry => true
  | .porReset => true
  | .sysReset => true
  | .resetRelease => true
  | .thermtrip => true
  | .bootSequence => true
  | .bootRetry => true
  | .identityDerive => true
  | .secVerify who => reqOk who
  | .secPload who => reqOk who
  | .secExtend who => reqOk who
  | .secAttest who => reqOk who
  | .secSvnAdvance who => reqOk who
  | .secOwnEnrol who => reqOk who
  | .secDbgUnlock who => reqOk who
  | .secFlashWrite who => reqOk who
  | .secSha384 who => reqOk who
  | .secModexp who => reqOk who
  | .secIrepair who => reqOk who
  | .secAbort who => reqOk who
  | .secCmdComplete => true
  | .secReqSignedWrite who => reqOk who
  | .rasTestEmSlice who _ => reqOk who
  | .rasTestTcSlice who _ => reqOk who
  | .rasTestBucketCache who _ => reqOk who
  | .rasTestMeterCtr who _ => reqOk who
  | .rasTestEngineMem who _ => reqOk who
  | .rasTestSinterMem who _ => reqOk who
  | .rasTestSerdesRecal who _ => reqOk who
  | .rasTestEyeScan who _ => reqOk who
  | .rasTestFull who _ => reqOk who
  | .rasTestAbort who => reqOk who
  | .rasTestComplete _ _ => true
  | .rasLogClr who => reqOk who
  | .dbgHalt who _ => reqOk who
  | .dbgResume who _ => reqOk who
  | .dbgStep who _ => reqOk who
  | .dbgRst who _ => reqOk who
  | .dbgEv14 who _ => reqOk who
  | .dbgAccRead who _ => reqOk who
  | .dbgAccWrite who _ => reqOk who
  | .dbgTregAccess who _ _ => reqOk who
  | .dbgMbxDataWrite who _ => reqOk who
  | .dbgMbxSubmit who => reqOk who
  | .dbgTrLoRead who => reqOk who
  | .breakpointHit _ _ _ => true
  | .jtagIdcode => true
  | .jtagBypass _ => true
  | .jtagSamplePreload _ => true
  | .jtagExtest => true
  | .jtagDbgreg off _ => decide (off.toNat % 4 = 0)
  | .violCapRead who page => reqOk who && decide (page < 0x4000)
  | .lowWordLatchRead who addr => reqOk who && decide (addr.toNat % 4 = 0)
  | .registerWrite who addr _ => reqOk who && decide (addr.toNat % 4 = 0)
  | .undefinedInstruction _ => true
  | .timePllLockLost => true
  | .slewEnd => true
  | .shaperCreditRecovery _ _ => true
  | .devPwrChangeComplete => true
  | .powerLoss => true
  | .vfEnableSet _ => true
  | .pcieLinkUp _ rate width => decide (1 ≤ rate.toNat ∧ rate.toNat ≤ 5) && decide (width ∈ ([1, 2, 4, 8, 16] : List (BitVec 5)))
  | .configurationRequest _ => true
  | .strapChange _ _ => true
  | .rcRegisterRead who addr => reqOk who && decide (addr.toNat % 4 = 0)

end Sys2Proof
end

