-- ==== Sys2Proof/Laws/PerInstr.lean ====
section
/-! SUPPORT. The family RequesterOk: a well-formed command that is a register access comes from an agent that can access registers
(R586). One lemma per constructor. -/

namespace Sys2Proof.Laws

/-- The requester of a well-formed register access is a control context, the Fumarole core, an instance or JTAG DBGREG (R586). -/
def RequesterOk.Statement (i : Instr) : Prop := i.wf = true → ∀ r, i.requester = some r → reqOk r = true

/-- Nothing is some. -/
theorem noRequester {r : Req} (e : none = some r) : False := by
  cases e

/-- The first of two conditions. -/
theorem wfFirst {a b : Bool} (h : (a && b) = true) : a = true := by
  cases a <;> simp_all

theorem RequesterOk.frameReceive (port : PortN) (frame : LineFrame) : RequesterOk.Statement (.frameReceive port frame) :=
  fun _ _ e => (noRequester e).elim
theorem RequesterOk.fcsFailure (pkt : Nat) : RequesterOk.Statement (.fcsFailure pkt) :=
  fun _ _ e => (noRequester e).elim
theorem RequesterOk.macControlFrameReceive (port : PortN) (bytes : List Byte) : RequesterOk.Statement (.macControlFrameReceive port bytes) :=
  fun _ _ e => (noRequester e).elim
theorem RequesterOk.pauseQuantaExpire (port : PortN) (cls : ClassN) : RequesterOk.Statement (.pauseQuantaExpire port cls) :=
  fun _ _ e => (noRequester e).elim
theorem RequesterOk.sintXoffEval : RequesterOk.Statement (.sintXoffEval) :=
  fun _ _ e => (noRequester e).elim
theorem RequesterOk.pfcFrameSend (port : PortN) : RequesterOk.Statement (.pfcFrameSend port) :=
  fun _ _ e => (noRequester e).elim
theorem RequesterOk.pfcRepeatExpire (port : PortN) : RequesterOk.Statement (.pfcRepeatExpire port) :=
  fun _ _ e => (noRequester e).elim
theorem RequesterOk.linkDown (port : PortN) (reason : BitVec 4) : RequesterOk.Statement (.linkDown port reason) :=
  fun _ _ e => (noRequester e).elim
theorem RequesterOk.linkUp (port : PortN) : RequesterOk.Statement (.linkUp port) :=
  fun _ _ e => (noRequester e).elim
theorem RequesterOk.ltRestart (port : PortN) : RequesterOk.Statement (.ltRestart port) :=
  fun _ _ e => (noRequester e).elim
theorem RequesterOk.portModeWrite (who : Req) (port : PortN) (v : W32) : RequesterOk.Statement (.portModeWrite who port v) :=
  fun h _ e => Option.some.inj e ▸ h
theorem RequesterOk.portDisable (who : Req) (port : PortN) (v : W32) : RequesterOk.Statement (.portDisable who port v) :=
  fun h _ e => Option.some.inj e ▸ h
theorem RequesterOk.sdsLaneMapWrite (who : Req) (mac : Fin 8) (which : LaneReg) (v : W32) : RequesterOk.Statement (.sdsLaneMapWrite who mac which v) :=
  fun h _ e => Option.some.inj e ▸ h
theorem RequesterOk.portTsTagRead (who : Req) (port : PortN) : RequesterOk.Statement (.portTsTagRead who port) :=
  fun h _ e => Option.some.inj e ▸ h
theorem RequesterOk.portTsSecHiRead (who : Req) (port : PortN) : RequesterOk.Statement (.portTsSecHiRead who port) :=
  fun h _ e => Option.some.inj e ▸ h
theorem RequesterOk.linkDownReport (port : PortN) (reason : BitVec 4) : RequesterOk.Statement (.linkDownReport port reason) :=
  fun _ _ e => (noRequester e).elim
theorem RequesterOk.linkUpReport (port : PortN) : RequesterOk.Statement (.linkUpReport port) :=
  fun _ _ e => (noRequester e).elim
theorem RequesterOk.holdTimerExpire (port : PortN) : RequesterOk.Statement (.holdTimerExpire port) :=
  fun _ _ e => (noRequester e).elim
theorem RequesterOk.xbPortFlush (who : Req) (port : AnyPort) : RequesterOk.Statement (.xbPortFlush who port) :=
  fun h _ e => Option.some.inj e ▸ h
theorem RequesterOk.parseStart (pipe : PipeN) : RequesterOk.Statement (.parseStart pipe) :=
  fun _ _ e => (noRequester e).elim
theorem RequesterOk.packetDelivery (eng : EngN) : RequesterOk.Statement (.packetDelivery eng) :=
  fun _ _ e => (noRequester e).elim
theorem RequesterOk.sendCommit (eng : EngN) : RequesterOk.Statement (.sendCommit eng) :=
  fun _ _ e => (noRequester e).elim
theorem RequesterOk.discardCommit (eng : EngN) : RequesterOk.Statement (.discardCommit eng) :=
  fun _ _ e => (noRequester e).elim
theorem RequesterOk.voqEnqueue (pipe : PipeN) : RequesterOk.Statement (.voqEnqueue pipe) :=
  fun _ _ e => (noRequester e).elim
theorem RequesterOk.spillWrite (pipe : PipeN) (port : AnyPort) (cls : ClassN) : RequesterOk.Statement (.spillWrite pipe port cls) :=
  fun _ _ e => (noRequester e).elim
theorem RequesterOk.deepRefill (pipe : PipeN) (port : AnyPort) (cls : ClassN) : RequesterOk.Statement (.deepRefill pipe port cls) :=
  fun _ _ e => (noRequester e).elim
theorem RequesterOk.xbarMatchingRound : RequesterOk.Statement (.xbarMatchingRound) :=
  fun _ _ e => (noRequester e).elim
theorem RequesterOk.cellTransfer (input : Fin 18) : RequesterOk.Statement (.cellTransfer input) :=
  fun _ _ e => (noRequester e).elim
theorem RequesterOk.eligibilityVectorPublish (port : PortN) : RequesterOk.Statement (.eligibilityVectorPublish port) :=
  fun _ _ e => (noRequester e).elim
theorem RequesterOk.txSelect (out : AnyPort) : RequesterOk.Statement (.txSelect out) :=
  fun _ _ e => (noRequester e).elim
theorem RequesterOk.frameTxEnd (out : AnyPort) : RequesterOk.Statement (.frameTxEnd out) :=
  fun _ _ e => (noRequester e).elim
theorem RequesterOk.wheelSlotRelease : RequesterOk.Statement (.wheelSlotRelease) :=
  fun _ _ e => (noRequester e).elim
theorem RequesterOk.gateChange (port : PortN) : RequesterOk.Statement (.gateChange port) :=
  fun _ _ e => (noRequester e).elim
theorem RequesterOk.gclSwitchRequest (who : Req) (port : PortN) (v : W32) : RequesterOk.Statement (.gclSwitchRequest who port v) :=
  fun h _ e => Option.some.inj e ▸ h
theorem RequesterOk.gclSwitch (port : PortN) : RequesterOk.Statement (.gclSwitch port) :=
  fun _ _ e => (noRequester e).elim
theorem RequesterOk.mtrNop (who : Req) (half : HalfN) (idx : Fin 131072) : RequesterOk.Statement (.mtrNop who half idx) :=
  fun h _ e => Option.some.inj e ▸ h
theorem RequesterOk.mtrWrite (who : Req) (half : HalfN) (idx : Fin 131072) : RequesterOk.Statement (.mtrWrite who half idx) :=
  fun h _ e => Option.some.inj e ▸ h
theorem RequesterOk.mtrRead (who : Req) (half : HalfN) (idx : Fin 131072) : RequesterOk.Statement (.mtrRead who half idx) :=
  fun h _ e => Option.some.inj e ▸ h
theorem RequesterOk.mtrFill (who : Req) (half : HalfN) (idx : Fin 131072) : RequesterOk.Statement (.mtrFill who half idx) :=
  fun h _ e => Option.some.inj e ▸ h
theorem RequesterOk.ppsEdge : RequesterOk.Statement (.ppsEdge) :=
  fun _ _ e => (noRequester e).elim
theorem RequesterOk.todMessage (first : Byte) (rest : List Byte) : RequesterOk.Statement (.todMessage first rest) :=
  fun _ _ e => (noRequester e).elim
theorem RequesterOk.holdoverTimeout : RequesterOk.Statement (.holdoverTimeout) :=
  fun _ _ e => (noRequester e).elim
theorem RequesterOk.timeAdjNsWrite (who : Req) (v : W32) : RequesterOk.Statement (.timeAdjNsWrite who v) :=
  fun h _ e => Option.some.inj e ▸ h
theorem RequesterOk.timeStepGo (who : Req) : RequesterOk.Statement (.timeStepGo who) :=
  fun h _ e => Option.some.inj e ▸ h
theorem RequesterOk.forcedStep : RequesterOk.Statement (.forcedStep) :=
  fun _ _ e => (noRequester e).elim
theorem RequesterOk.skippedEventRelease : RequesterOk.Statement (.skippedEventRelease) :=
  fun _ _ e => (noRequester e).elim
theorem RequesterOk.watermarkReached : RequesterOk.Statement (.watermarkReached) :=
  fun _ _ e => (noRequester e).elim
theorem RequesterOk.timeTriggerFire (t : Fin 8) : RequesterOk.Statement (.timeTriggerFire t) :=
  fun _ _ e => (noRequester e).elim
theorem RequesterOk.timeNowFracRead (who : Req) : RequesterOk.Statement (.timeNowFracRead who) :=
  fun h _ e => Option.some.inj e ▸ h
theorem RequesterOk.timeCtlWrite (who : Req) (v : W32) : RequesterOk.Statement (.timeCtlWrite who v) :=
  fun h _ e => Option.some.inj e ▸ h
theorem RequesterOk.timePllLock : RequesterOk.Statement (.timePllLock) :=
  fun _ _ e => (noRequester e).elim
theorem RequesterOk.timeDistBroadcast (disagrees : Bool) : RequesterOk.Statement (.timeDistBroadcast disagrees) :=
  fun _ _ e => (noRequester e).elim
theorem RequesterOk.ppsOutEdge : RequesterOk.Statement (.ppsOutEdge) :=
  fun _ _ e => (noRequester e).elim
theorem RequesterOk.todOutSend : RequesterOk.Statement (.todOutSend) :=
  fun _ _ e => (noRequester e).elim
theorem RequesterOk.wfeWake (a : Agent) : RequesterOk.Statement (.wfeWake a) :=
  fun _ _ e => (noRequester e).elim
theorem RequesterOk.threadTimerExpire (a : Agent) : RequesterOk.Statement (.threadTimerExpire a) :=
  fun _ _ e => (noRequester e).elim
theorem RequesterOk.stageWatchdogExpire (eng : EngN) : RequesterOk.Statement (.stageWatchdogExpire eng) :=
  fun _ _ e => (noRequester e).elim
theorem RequesterOk.eventDeadlock (eng : EngN) : RequesterOk.Statement (.eventDeadlock eng) :=
  fun _ _ e => (noRequester e).elim
theorem RequesterOk.threadReset (who : Req) (a : EngThr) : RequesterOk.Statement (.threadReset who a) :=
  fun h _ e => Option.some.inj e ▸ h
theorem RequesterOk.engineReset (who : Req) (eng : EngN) : RequesterOk.Statement (.engineReset who eng) :=
  fun h _ e => Option.some.inj e ▸ h
theorem RequesterOk.engCtlWrite (who : Req) (eng : EngN) (v : W32) : RequesterOk.Statement (.engCtlWrite who eng v) :=
  fun h _ e => Option.some.inj e ▸ h
theorem RequesterOk.engThrCfgWrite (who : Req) (eng : EngN) (v : W32) : RequesterOk.Statement (.engThrCfgWrite who eng v) :=
  fun h _ e => Option.some.inj e ▸ h
theorem RequesterOk.cluIramDataAccess (who : Req) (clu : CluN) (acc : RegAcc) : RequesterOk.Statement (.cluIramDataAccess who clu acc) :=
  fun h _ e => Option.some.inj e ▸ h
theorem RequesterOk.cluShrDataAccess (who : Req) (clu : CluN) (acc : RegAcc) : RequesterOk.Statement (.cluShrDataAccess who clu acc) :=
  fun h _ e => Option.some.inj e ▸ h
theorem RequesterOk.cluIramFixDataWrite (who : Req) (clu : CluN) (v : W32) : RequesterOk.Statement (.cluIramFixDataWrite who clu v) :=
  fun h _ e => Option.some.inj e ▸ h
theorem RequesterOk.engHkeyLoRead (who : Req) (eng : EngN) : RequesterOk.Statement (.engHkeyLoRead who eng) :=
  fun h _ e => Option.some.inj e ▸ h
theorem RequesterOk.engHkeyHiAccess (who : Req) (eng : EngN) (acc : RegAcc) : RequesterOk.Statement (.engHkeyHiAccess who eng acc) :=
  fun h _ e => Option.some.inj e ▸ h
theorem RequesterOk.fuWriteback (a : EngThr) : RequesterOk.Statement (.fuWriteback a) :=
  fun _ _ e => (noRequester e).elim
theorem RequesterOk.interruptTake (a : Agent) : RequesterOk.Statement (.interruptTake a) :=
  fun _ _ e => (noRequester e).elim
theorem RequesterOk.add (a : Agent) (lg : Bool) (rd : Reg) (rs1 : Reg) (rs2 : Reg) : RequesterOk.Statement (.add a lg rd rs1 rs2) :=
  fun _ _ e => (noRequester e).elim
theorem RequesterOk.sub (a : Agent) (lg : Bool) (rd : Reg) (rs1 : Reg) (rs2 : Reg) : RequesterOk.Statement (.sub a lg rd rs1 rs2) :=
  fun _ _ e => (noRequester e).elim
theorem RequesterOk.addf (a : Agent) (rd : Reg) (rs1 : Reg) (rs2 : Reg) : RequesterOk.Statement (.addf a rd rs1 rs2) :=
  fun _ _ e => (noRequester e).elim
theorem RequesterOk.subf (a : Agent) (rd : Reg) (rs1 : Reg) (rs2 : Reg) : RequesterOk.Statement (.subf a rd rs1 rs2) :=
  fun _ _ e => (noRequester e).elim
theorem RequesterOk.and (a : Agent) (lg : Bool) (rd : Reg) (rs1 : Reg) (rs2 : Reg) : RequesterOk.Statement (.and a lg rd rs1 rs2) :=
  fun _ _ e => (noRequester e).elim
theorem RequesterOk.or (a : Agent) (lg : Bool) (rd : Reg) (rs1 : Reg) (rs2 : Reg) : RequesterOk.Statement (.or a lg rd rs1 rs2) :=
  fun _ _ e => (noRequester e).elim
theorem RequesterOk.xor (a : Agent) (lg : Bool) (rd : Reg) (rs1 : Reg) (rs2 : Reg) : RequesterOk.Statement (.xor a lg rd rs1 rs2) :=
  fun _ _ e => (noRequester e).elim
theorem RequesterOk.andnot (a : Agent) (rd : Reg) (rs1 : Reg) (rs2 : Reg) : RequesterOk.Statement (.andnot a rd rs1 rs2) :=
  fun _ _ e => (noRequester e).elim
theorem RequesterOk.ornot (a : Agent) (rd : Reg) (rs1 : Reg) (rs2 : Reg) : RequesterOk.Statement (.ornot a rd rs1 rs2) :=
  fun _ _ e => (noRequester e).elim
theorem RequesterOk.sll (a : Agent) (lg : Bool) (rd : Reg) (rs1 : Reg) (rs2 : Reg) : RequesterOk.Statement (.sll a lg rd rs1 rs2) :=
  fun _ _ e => (noRequester e).elim
theorem RequesterOk.srl (a : Agent) (lg : Bool) (rd : Reg) (rs1 : Reg) (rs2 : Reg) : RequesterOk.Statement (.srl a lg rd rs1 rs2) :=
  fun _ _ e => (noRequester e).elim
theorem RequesterOk.sra (a : Agent) (lg : Bool) (rd : Reg) (rs1 : Reg) (rs2 : Reg) : RequesterOk.Statement (.sra a lg rd rs1 rs2) :=
  fun _ _ e => (noRequester e).elim
theorem RequesterOk.ror (a : Agent) (rd : Reg) (rs1 : Reg) (rs2 : Reg) : RequesterOk.Statement (.ror a rd rs1 rs2) :=
  fun _ _ e => (noRequester e).elim
theorem RequesterOk.mul (a : Agent) (lg : Bool) (rd : Reg) (rs1 : Reg) (rs2 : Reg) : RequesterOk.Statement (.mul a lg rd rs1 rs2) :=
  fun _ _ e => (noRequester e).elim
theorem RequesterOk.mulhi (a : Agent) (rd : Reg) (rs1 : Reg) (rs2 : Reg) : RequesterOk.Statement (.mulhi a rd rs1 rs2) :=
  fun _ _ e => (noRequester e).elim
theorem RequesterOk.quo (a : Agent) (rd : Reg) (rs1 : Reg) (rs2 : Reg) : RequesterOk.Statement (.quo a rd rs1 rs2) :=
  fun _ _ e => (noRequester e).elim
theorem RequesterOk.rem (a : Agent) (rd : Reg) (rs1 : Reg) (rs2 : Reg) : RequesterOk.Statement (.rem a rd rs1 rs2) :=
  fun _ _ e => (noRequester e).elim
theorem RequesterOk.min (a : Agent) (lg : Bool) (rd : Reg) (rs1 : Reg) (rs2 : Reg) : RequesterOk.Statement (.min a lg rd rs1 rs2) :=
  fun _ _ e => (noRequester e).elim
theorem RequesterOk.max (a : Agent) (lg : Bool) (rd : Reg) (rs1 : Reg) (rs2 : Reg) : RequesterOk.Statement (.max a lg rd rs1 rs2) :=
  fun _ _ e => (noRequester e).elim
theorem RequesterOk.minu (a : Agent) (rd : Reg) (rs1 : Reg) (rs2 : Reg) : RequesterOk.Statement (.minu a rd rs1 rs2) :=
  fun _ _ e => (noRequester e).elim
theorem RequesterOk.maxu (a : Agent) (rd : Reg) (rs1 : Reg) (rs2 : Reg) : RequesterOk.Statement (.maxu a rd rs1 rs2) :=
  fun _ _ e => (noRequester e).elim
theorem RequesterOk.cmp (a : Agent) (lg : Bool) (rs1 : Reg) (rs2 : Reg) : RequesterOk.Statement (.cmp a lg rs1 rs2) :=
  fun _ _ e => (noRequester e).elim
theorem RequesterOk.tst (a : Agent) (lg : Bool) (rs1 : Reg) (rs2 : Reg) : RequesterOk.Statement (.tst a lg rs1 rs2) :=
  fun _ _ e => (noRequester e).elim
theorem RequesterOk.pick (a : Agent) (rd : Reg) (rs1 : Reg) (rs2 : Reg) (cond : Cond) : RequesterOk.Statement (.pick a rd rs1 rs2 cond) :=
  fun _ _ e => (noRequester e).elim
theorem RequesterOk.bool (a : Agent) (rd : Reg) (cond : Cond) : RequesterOk.Statement (.bool a rd cond) :=
  fun _ _ e => (noRequester e).elim
theorem RequesterOk.mov (a : Agent) (form : MovForm) (rd : Reg) : RequesterOk.Statement (.mov a form rd) :=
  fun _ _ e => (noRequester e).elim
theorem RequesterOk.neg (a : Agent) (lg : Bool) (rd : Reg) (rs : Reg) : RequesterOk.Statement (.neg a lg rd rs) :=
  fun _ _ e => (noRequester e).elim
theorem RequesterOk.not (a : Agent) (lg : Bool) (rd : Reg) (rs : Reg) : RequesterOk.Statement (.not a lg rd rs) :=
  fun _ _ e => (noRequester e).elim
theorem RequesterOk.clz (a : Agent) (rd : Reg) (rs : Reg) : RequesterOk.Statement (.clz a rd rs) :=
  fun _ _ e => (noRequester e).elim
theorem RequesterOk.ctz (a : Agent) (rd : Reg) (rs : Reg) : RequesterOk.Statement (.ctz a rd rs) :=
  fun _ _ e => (noRequester e).elim
theorem RequesterOk.popc (a : Agent) (rd : Reg) (rs : Reg) : RequesterOk.Statement (.popc a rd rs) :=
  fun _ _ e => (noRequester e).elim
theorem RequesterOk.bswap (a : Agent) (rd : Reg) (rs : Reg) (sz : BitVec 2) : RequesterOk.Statement (.bswap a rd rs sz) :=
  fun _ _ e => (noRequester e).elim
theorem RequesterOk.zext (a : Agent) (rd : Reg) (rs : Reg) (sz : BitVec 2) : RequesterOk.Statement (.zext a rd rs sz) :=
  fun _ _ e => (noRequester e).elim
theorem RequesterOk.sext (a : Agent) (rd : Reg) (rs : Reg) (sz : BitVec 2) : RequesterOk.Statement (.sext a rd rs sz) :=
  fun _ _ e => (noRequester e).elim
theorem RequesterOk.addi (a : Agent) (lg : Bool) (rd : Reg) (rs1 : Reg) (imm : BitVec 15) : RequesterOk.Statement (.addi a lg rd rs1 imm) :=
  fun _ _ e => (noRequester e).elim
theorem RequesterOk.andi (a : Agent) (rd : Reg) (rs1 : Reg) (imm : BitVec 15) : RequesterOk.Statement (.andi a rd rs1 imm) :=
  fun _ _ e => (noRequester e).elim
theorem RequesterOk.ori (a : Agent) (rd : Reg) (rs1 : Reg) (imm : BitVec 15) : RequesterOk.Statement (.ori a rd rs1 imm) :=
  fun _ _ e => (noRequester e).elim
theorem RequesterOk.xori (a : Agent) (rd : Reg) (rs1 : Reg) (imm : BitVec 15) : RequesterOk.Statement (.xori a rd rs1 imm) :=
  fun _ _ e => (noRequester e).elim
theorem RequesterOk.slli (a : Agent) (lg : Bool) (rd : Reg) (rs1 : Reg) (n : BitVec 6) : RequesterOk.Statement (.slli a lg rd rs1 n) :=
  fun _ _ e => (noRequester e).elim
theorem RequesterOk.srli (a : Agent) (lg : Bool) (rd : Reg) (rs1 : Reg) (n : BitVec 6) : RequesterOk.Statement (.srli a lg rd rs1 n) :=
  fun _ _ e => (noRequester e).elim
theorem RequesterOk.srai (a : Agent) (rd : Reg) (rs1 : Reg) (n : BitVec 6) : RequesterOk.Statement (.srai a rd rs1 n) :=
  fun _ _ e => (noRequester e).elim
theorem RequesterOk.cmpi (a : Agent) (lg : Bool) (rs1 : Reg) (imm : BitVec 15) : RequesterOk.Statement (.cmpi a lg rs1 imm) :=
  fun _ _ e => (noRequester e).elim
theorem RequesterOk.ldiz (a : Agent) (rd : Reg) (lane : Fin 4) (imm : BitVec 16) : RequesterOk.Statement (.ldiz a rd lane imm) :=
  fun _ _ e => (noRequester e).elim
theorem RequesterOk.ldik (a : Agent) (rd : Reg) (lane : Fin 4) (imm : BitVec 16) : RequesterOk.Statement (.ldik a rd lane imm) :=
  fun _ _ e => (noRequester e).elim
theorem RequesterOk.ldis (a : Agent) (rd : Reg) (lane : Fin 4) (imm : BitVec 16) : RequesterOk.Statement (.ldis a rd lane imm) :=
  fun _ _ e => (noRequester e).elim
theorem RequesterOk.ldb (a : Agent) (rd : Reg) (seg : SegN) (rb : Reg) (disp : BitVec 11) : RequesterOk.Statement (.ldb a rd seg rb disp) :=
  fun _ _ e => (noRequester e).elim
theorem RequesterOk.ldh (a : Agent) (rd : Reg) (seg : SegN) (rb : Reg) (disp : BitVec 11) : RequesterOk.Statement (.ldh a rd seg rb disp) :=
  fun _ _ e => (noRequester e).elim
theorem RequesterOk.ldw (a : Agent) (rd : Reg) (seg : SegN) (rb : Reg) (disp : BitVec 11) : RequesterOk.Statement (.ldw a rd seg rb disp) :=
  fun _ _ e => (noRequester e).elim
theorem RequesterOk.ldd (a : Agent) (form : MemForm) (rd : Reg) (rb : Reg) : RequesterOk.Statement (.ldd a form rd rb) :=
  fun _ _ e => (noRequester e).elim
theorem RequesterOk.ldsb (a : Agent) (rd : Reg) (seg : SegN) (rb : Reg) (disp : BitVec 11) : RequesterOk.Statement (.ldsb a rd seg rb disp) :=
  fun _ _ e => (noRequester e).elim
theorem RequesterOk.ldsh (a : Agent) (rd : Reg) (seg : SegN) (rb : Reg) (disp : BitVec 11) : RequesterOk.Statement (.ldsh a rd seg rb disp) :=
  fun _ _ e => (noRequester e).elim
theorem RequesterOk.ldsw (a : Agent) (rd : Reg) (seg : SegN) (rb : Reg) (disp : BitVec 11) : RequesterOk.Statement (.ldsw a rd seg rb disp) :=
  fun _ _ e => (noRequester e).elim
theorem RequesterOk.ldnh (a : Agent) (form : MemForm) (rd : Reg) (rb : Reg) : RequesterOk.Statement (.ldnh a form rd rb) :=
  fun _ _ e => (noRequester e).elim
theorem RequesterOk.ldnw (a : Agent) (form : MemForm) (rd : Reg) (rb : Reg) : RequesterOk.Statement (.ldnw a form rd rb) :=
  fun _ _ e => (noRequester e).elim
theorem RequesterOk.ldnd (a : Agent) (rd : Reg) (seg : SegN) (rb : Reg) (disp : BitVec 11) : RequesterOk.Statement (.ldnd a rd seg rb disp) :=
  fun _ _ e => (noRequester e).elim
theorem RequesterOk.stb (a : Agent) (rd : Reg) (seg : SegN) (rb : Reg) (disp : BitVec 11) : RequesterOk.Statement (.stb a rd seg rb disp) :=
  fun _ _ e => (noRequester e).elim
theorem RequesterOk.sth (a : Agent) (rd : Reg) (seg : SegN) (rb : Reg) (disp : BitVec 11) : RequesterOk.Statement (.sth a rd seg rb disp) :=
  fun _ _ e => (noRequester e).elim
theorem RequesterOk.stw (a : Agent) (rd : Reg) (seg : SegN) (rb : Reg) (disp : BitVec 11) : RequesterOk.Statement (.stw a rd seg rb disp) :=
  fun _ _ e => (noRequester e).elim
theorem RequesterOk.std (a : Agent) (form : MemForm) (rd : Reg) (rb : Reg) : RequesterOk.Statement (.std a form rd rb) :=
  fun _ _ e => (noRequester e).elim
theorem RequesterOk.stnh (a : Agent) (rd : Reg) (seg : SegN) (rb : Reg) (disp : BitVec 11) : RequesterOk.Statement (.stnh a rd seg rb disp) :=
  fun _ _ e => (noRequester e).elim
theorem RequesterOk.stnw (a : Agent) (rd : Reg) (seg : SegN) (rb : Reg) (disp : BitVec 11) : RequesterOk.Statement (.stnw a rd seg rb disp) :=
  fun _ _ e => (noRequester e).elim
theorem RequesterOk.stnd (a : Agent) (rd : Reg) (seg : SegN) (rb : Reg) (disp : BitVec 11) : RequesterOk.Statement (.stnd a rd seg rb disp) :=
  fun _ _ e => (noRequester e).elim
theorem RequesterOk.aadd (a : Agent) (rd : Reg) (seg : SegN) (rb : Reg) (rs : Reg) (sz : Bool) : RequesterOk.Statement (.aadd a rd seg rb rs sz) :=
  fun _ _ e => (noRequester e).elim
theorem RequesterOk.asadd (a : Agent) (rd : Reg) (seg : SegN) (rb : Reg) (rs : Reg) (sz : Bool) : RequesterOk.Statement (.asadd a rd seg rb rs sz) :=
  fun _ _ e => (noRequester e).elim
theorem RequesterOk.acas (a : Agent) (rd : Reg) (seg : SegN) (rb : Reg) (rs : Reg) (sz : Bool) : RequesterOk.Statement (.acas a rd seg rb rs sz) :=
  fun _ _ e => (noRequester e).elim
theorem RequesterOk.lkup (a : Agent) (rd : Reg) (rs1 : Reg) (rs2 : Reg) : RequesterOk.Statement (.lkup a rd rs1 rs2) :=
  fun _ _ e => (noRequester e).elim
theorem RequesterOk.lka (a : Agent) (rd : Reg) (rs1 : Reg) : RequesterOk.Statement (.lka a rd rs1) :=
  fun _ _ e => (noRequester e).elim
theorem RequesterOk.lkq (a : Agent) (rs1 : Reg) : RequesterOk.Statement (.lkq a rs1) :=
  fun _ _ e => (noRequester e).elim
theorem RequesterOk.lkr (a : Agent) (rs1 : Reg) : RequesterOk.Statement (.lkr a rs1) :=
  fun _ _ e => (noRequester e).elim
theorem RequesterOk.bc (a : Agent) (lg : Bool) (cond : Cond) (h : Bool) (off : BitVec 20) (wrong : WrongPath) : RequesterOk.Statement (.bc a lg cond h off wrong) :=
  fun _ _ e => (noRequester e).elim
theorem RequesterOk.brz (a : Agent) (lg : Bool) (rs : Reg) (h : Bool) (off : BitVec 18) (wrong : WrongPath) : RequesterOk.Statement (.brz a lg rs h off wrong) :=
  fun _ _ e => (noRequester e).elim
theorem RequesterOk.brnz (a : Agent) (lg : Bool) (rs : Reg) (h : Bool) (off : BitVec 18) (wrong : WrongPath) : RequesterOk.Statement (.brnz a lg rs h off wrong) :=
  fun _ _ e => (noRequester e).elim
theorem RequesterOk.j (a : Agent) (lg : Bool) (off : BitVec 25) : RequesterOk.Statement (.j a lg off) :=
  fun _ _ e => (noRequester e).elim
theorem RequesterOk.call (a : Agent) (off : BitVec 25) : RequesterOk.Statement (.call a off) :=
  fun _ _ e => (noRequester e).elim
theorem RequesterOk.jr (a : Agent) (lg : Bool) (rs1 : Reg) : RequesterOk.Statement (.jr a lg rs1) :=
  fun _ _ e => (noRequester e).elim
theorem RequesterOk.callr (a : Agent) (lg : Bool) (rs1 : Reg) : RequesterOk.Statement (.callr a lg rs1) :=
  fun _ _ e => (noRequester e).elim
theorem RequesterOk.ret (a : Agent) (lg : Bool) : RequesterOk.Statement (.ret a lg) :=
  fun _ _ e => (noRequester e).elim
theorem RequesterOk.eret (a : Agent) : RequesterOk.Statement (.eret a) :=
  fun _ _ e => (noRequester e).elim
theorem RequesterOk.nop (a : Agent) (lg : Bool) : RequesterOk.Statement (.nop a lg) :=
  fun _ _ e => (noRequester e).elim
theorem RequesterOk.send (a : Agent) (lg : Bool) : RequesterOk.Statement (.send a lg) :=
  fun _ _ e => (noRequester e).elim
theorem RequesterOk.wfe (a : Agent) (lg : Bool) (rd : Reg) (rs1 : Reg) : RequesterOk.Statement (.wfe a lg rd rs1) :=
  fun _ _ e => (noRequester e).elim
theorem RequesterOk.sig (a : Agent) (lg : Bool) (rs1 : Reg) : RequesterOk.Statement (.sig a lg rs1) :=
  fun _ _ e => (noRequester e).elim
theorem RequesterOk.tmr (a : Agent) (lg : Bool) (rs1 : Reg) : RequesterOk.Statement (.tmr a lg rs1) :=
  fun _ _ e => (noRequester e).elim
theorem RequesterOk.sleep (a : Agent) : RequesterOk.Statement (.sleep a) :=
  fun _ _ e => (noRequester e).elim
theorem RequesterOk.fence (a : Agent) : RequesterOk.Statement (.fence a) :=
  fun _ _ e => (noRequester e).elim
theorem RequesterOk.brk (a : Agent) (lg : Bool) : RequesterOk.Statement (.brk a lg) :=
  fun _ _ e => (noRequester e).elim
theorem RequesterOk.rget (a : Agent) (rd : Reg) (rs1 : Reg) : RequesterOk.Statement (.rget a rd rs1) :=
  fun _ _ e => (noRequester e).elim
theorem RequesterOk.rput (a : Agent) (rs1 : Reg) (rs2 : Reg) : RequesterOk.Statement (.rput a rs1 rs2) :=
  fun _ _ e => (noRequester e).elim
theorem RequesterOk.trap (a : Agent) (code : BitVec 15) : RequesterOk.Statement (.trap a code) :=
  fun _ _ e => (noRequester e).elim
theorem RequesterOk.mfs (a : Agent) (rd : Reg) (sreg : BitVec 12) : RequesterOk.Statement (.mfs a rd sreg) :=
  fun _ _ e => (noRequester e).elim
theorem RequesterOk.mts (a : Agent) (sreg : BitVec 12) (rs : Reg) : RequesterOk.Statement (.mts a sreg rs) :=
  fun _ _ e => (noRequester e).elim
theorem RequesterOk.xchs (a : Agent) (rd : Reg) (sreg : BitVec 12) : RequesterOk.Statement (.xchs a rd sreg) :=
  fun _ _ e => (noRequester e).elim
theorem RequesterOk.fext (a : Agent) (rd : Reg) (rs1 : Reg) (param : BitVec 13) : RequesterOk.Statement (.fext a rd rs1 param) :=
  fun _ _ e => (noRequester e).elim
theorem RequesterOk.fins (a : Agent) (rd : Reg) (rs1 : Reg) (param : BitVec 13) : RequesterOk.Statement (.fins a rd rs1 param) :=
  fun _ _ e => (noRequester e).elim
theorem RequesterOk.fscn (a : Agent) (rd : Reg) (rs1 : Reg) (param : BitVec 13) : RequesterOk.Statement (.fscn a rd rs1 param) :=
  fun _ _ e => (noRequester e).elim
theorem RequesterOk.hcrc (a : Agent) (rd : Reg) (rs1 : Reg) (param : BitVec 13) : RequesterOk.Statement (.hcrc a rd rs1 param) :=
  fun _ _ e => (noRequester e).elim
theorem RequesterOk.htoe (a : Agent) (rd : Reg) (rs1 : Reg) (param : BitVec 13) : RequesterOk.Statement (.htoe a rd rs1 param) :=
  fun _ _ e => (noRequester e).elim
theorem RequesterOk.hvndHash (a : Agent) (rd : Reg) (rs1 : Reg) (param : BitVec 13) : RequesterOk.Statement (.hvndHash a rd rs1 param) :=
  fun _ _ e => (noRequester e).elim
theorem RequesterOk.hvndKeyWrite (a : Agent) (rd : Reg) (rs1 : Reg) (param : BitVec 13) : RequesterOk.Statement (.hvndKeyWrite a rd rs1 param) :=
  fun _ _ e => (noRequester e).elim
theorem RequesterOk.hvndKeyRead (a : Agent) (rd : Reg) (rs1 : Reg) (param : BitVec 13) : RequesterOk.Statement (.hvndKeyRead a rd rs1 param) :=
  fun _ _ e => (noRequester e).elim
theorem RequesterOk.cksa (a : Agent) (rd : Reg) (rs1 : Reg) (param : BitVec 13) : RequesterOk.Statement (.cksa a rd rs1 param) :=
  fun _ _ e => (noRequester e).elim
theorem RequesterOk.cksu (a : Agent) (rd : Reg) (rs1 : Reg) (param : BitVec 13) : RequesterOk.Statement (.cksu a rd rs1 param) :=
  fun _ _ e => (noRequester e).elim
theorem RequesterOk.cksf (a : Agent) (rd : Reg) (rs1 : Reg) (param : BitVec 13) : RequesterOk.Statement (.cksf a rd rs1 param) :=
  fun _ _ e => (noRequester e).elim
theorem RequesterOk.lookupLand (id : Nat) (ecc : LkEcc) : RequesterOk.Statement (.lookupLand id ecc) :=
  fun _ _ e => (noRequester e).elim
theorem RequesterOk.deepFillArrive (half : HalfN) (id : Nat) (bucket : BitVec 25) : RequesterOk.Statement (.deepFillArrive half id bucket) :=
  fun _ _ e => (noRequester e).elim
theorem RequesterOk.emNop (who : Req) (half : HalfN) : RequesterOk.Statement (.emNop who half) :=
  fun h _ e => Option.some.inj e ▸ h
theorem RequesterOk.emInsert (who : Req) (half : HalfN) (v : W32) : RequesterOk.Statement (.emInsert who half v) :=
  fun h _ e => Option.some.inj e ▸ wfFirst (h)
theorem RequesterOk.emDelete (who : Req) (half : HalfN) (v : W32) : RequesterOk.Statement (.emDelete who half v) :=
  fun h _ e => Option.some.inj e ▸ wfFirst (h)
theorem RequesterOk.emSearch (who : Req) (half : HalfN) (v : W32) : RequesterOk.Statement (.emSearch who half v) :=
  fun h _ e => Option.some.inj e ▸ wfFirst (h)
theorem RequesterOk.emModify (who : Req) (half : HalfN) (v : W32) : RequesterOk.Statement (.emModify who half v) :=
  fun h _ e => Option.some.inj e ▸ wfFirst (h)
theorem RequesterOk.emViewAdd (who : Req) (half : HalfN) (v : W32) : RequesterOk.Statement (.emViewAdd who half v) :=
  fun h _ e => Option.some.inj e ▸ wfFirst (h)
theorem RequesterOk.emReadAt (who : Req) (half : HalfN) (v : W32) : RequesterOk.Statement (.emReadAt who half v) :=
  fun h _ e => Option.some.inj e ▸ wfFirst (h)
theorem RequesterOk.emCtrRead (who : Req) (half : HalfN) (v : W32) : RequesterOk.Statement (.emCtrRead who half v) :=
  fun h _ e => Option.some.inj e ▸ wfFirst (h)
theorem RequesterOk.emWritePage (who : Req) (half : HalfN) (v : W32) : RequesterOk.Statement (.emWritePage who half v) :=
  fun h _ e => Option.some.inj e ▸ wfFirst (h)
theorem RequesterOk.emCmdComplete : RequesterOk.Statement (.emCmdComplete) :=
  fun _ _ e => (noRequester e).elim
theorem RequesterOk.emBulkStart (who : Req) (half : HalfN) : RequesterOk.Statement (.emBulkStart who half) :=
  fun h _ e => Option.some.inj e ▸ h
theorem RequesterOk.emBulkRecord : RequesterOk.Statement (.emBulkRecord) :=
  fun _ _ e => (noRequester e).elim
theorem RequesterOk.emBulkAbort (who : Req) (half : HalfN) : RequesterOk.Statement (.emBulkAbort who half) :=
  fun h _ e => Option.some.inj e ▸ h
theorem RequesterOk.emSeedWrite (who : Req) (half : HalfN) (v : W32) : RequesterOk.Statement (.emSeedWrite who half v) :=
  fun h _ e => Option.some.inj e ▸ h
theorem RequesterOk.emTblCfgWrite (who : Req) (half : HalfN) (n : Fin 256) (v : W32) : RequesterOk.Statement (.emTblCfgWrite who half n v) :=
  fun h _ e => Option.some.inj e ▸ h
theorem RequesterOk.tcNop (who : Req) (half : HalfN) : RequesterOk.Statement (.tcNop who half) :=
  fun h _ e => Option.some.inj e ▸ h
theorem RequesterOk.tcInsert (who : Req) (half : HalfN) (v : W32) : RequesterOk.Statement (.tcInsert who half v) :=
  fun h _ e => Option.some.inj e ▸ wfFirst (h)
theorem RequesterOk.tcDelete (who : Req) (half : HalfN) (v : W32) : RequesterOk.Statement (.tcDelete who half v) :=
  fun h _ e => Option.some.inj e ▸ wfFirst (h)
theorem RequesterOk.tcSearch (who : Req) (half : HalfN) (v : W32) : RequesterOk.Statement (.tcSearch who half v) :=
  fun h _ e => Option.some.inj e ▸ wfFirst (h)
theorem RequesterOk.tcModify (who : Req) (half : HalfN) (v : W32) : RequesterOk.Statement (.tcModify who half v) :=
  fun h _ e => Option.some.inj e ▸ wfFirst (h)
theorem RequesterOk.tcViewAdd (who : Req) (half : HalfN) (v : W32) : RequesterOk.Statement (.tcViewAdd who half v) :=
  fun h _ e => Option.some.inj e ▸ wfFirst (h)
theorem RequesterOk.tcReadAt (who : Req) (half : HalfN) (v : W32) : RequesterOk.Statement (.tcReadAt who half v) :=
  fun h _ e => Option.some.inj e ▸ wfFirst (h)
theorem RequesterOk.tcMatch (who : Req) (half : HalfN) (v : W32) : RequesterOk.Statement (.tcMatch who half v) :=
  fun h _ e => Option.some.inj e ▸ wfFirst (h)
theorem RequesterOk.makeRoomMove : RequesterOk.Statement (.makeRoomMove) :=
  fun _ _ e => (noRequester e).elim
theorem RequesterOk.tcCmdComplete : RequesterOk.Statement (.tcCmdComplete) :=
  fun _ _ e => (noRequester e).elim
theorem RequesterOk.tcSweepVisit (half : HalfN) (row : Fin 524288) (err : Bool) : RequesterOk.Statement (.tcSweepVisit half row err) :=
  fun _ _ e => (noRequester e).elim
theorem RequesterOk.viewCommit (who : Req) (v : W32) : RequesterOk.Statement (.viewCommit who v) :=
  fun h _ e => Option.some.inj e ▸ h
theorem RequesterOk.viewFlip : RequesterOk.Statement (.viewFlip) :=
  fun _ _ e => (noRequester e).elim
theorem RequesterOk.viewAbort (who : Req) : RequesterOk.Statement (.viewAbort who) :=
  fun h _ e => Option.some.inj e ▸ h
theorem RequesterOk.viewDrainLimitExpire : RequesterOk.Statement (.viewDrainLimitExpire) :=
  fun _ _ e => (noRequester e).elim
theorem RequesterOk.viewSync (who : Req) : RequesterOk.Statement (.viewSync who) :=
  fun h _ e => Option.some.inj e ▸ h
theorem RequesterOk.viewSyncLocation : RequesterOk.Statement (.viewSyncLocation) :=
  fun _ _ e => (noRequester e).elim
theorem RequesterOk.sourceCheck (half : HalfN) : RequesterOk.Statement (.sourceCheck half) :=
  fun _ _ e => (noRequester e).elim
theorem RequesterOk.learnApply (half : HalfN) : RequesterOk.Statement (.learnApply half) :=
  fun _ _ e => (noRequester e).elim
theorem RequesterOk.freezeExpire (half : HalfN) : RequesterOk.Statement (.freezeExpire half) :=
  fun _ _ e => (noRequester e).elim
theorem RequesterOk.learnFrameSend : RequesterOk.Statement (.learnFrameSend) :=
  fun _ _ e => (noRequester e).elim
theorem RequesterOk.learnFlushTimerExpire : RequesterOk.Statement (.learnFlushTimerExpire) :=
  fun _ _ e => (noRequester e).elim
theorem RequesterOk.learnHelloExpire : RequesterOk.Statement (.learnHelloExpire) :=
  fun _ _ e => (noRequester e).elim
theorem RequesterOk.learnFrameReceive : RequesterOk.Statement (.learnFrameReceive) :=
  fun _ _ e => (noRequester e).elim
theorem RequesterOk.learnRecordLearn : RequesterOk.Statement (.learnRecordLearn) :=
  fun _ _ e => (noRequester e).elim
theorem RequesterOk.learnRecordWithdraw : RequesterOk.Statement (.learnRecordWithdraw) :=
  fun _ _ e => (noRequester e).elim
theorem RequesterOk.learnRecordReplay : RequesterOk.Statement (.learnRecordReplay) :=
  fun _ _ e => (noRequester e).elim
theorem RequesterOk.peerLost (dev : Fin 16384) : RequesterOk.Statement (.peerLost dev) :=
  fun _ _ e => (noRequester e).elim
theorem RequesterOk.stampSweepVisit (half : HalfN) (bucket : Nat) : RequesterOk.Statement (.stampSweepVisit half bucket) :=
  fun _ _ e => (noRequester e).elim
theorem RequesterOk.lrnFlush (who : Req) (v : W32) : RequesterOk.Statement (.lrnFlush who v) :=
  fun h _ e => Option.some.inj e ▸ h
theorem RequesterOk.lrnDump (who : Req) : RequesterOk.Statement (.lrnDump who) :=
  fun h _ e => Option.some.inj e ▸ h
theorem RequesterOk.lrnBulkAbort (who : Req) (dump : Bool) : RequesterOk.Statement (.lrnBulkAbort who dump) :=
  fun h _ e => Option.some.inj e ▸ h
theorem RequesterOk.lrnBulkBucket : RequesterOk.Statement (.lrnBulkBucket) :=
  fun _ _ e => (noRequester e).elim
theorem RequesterOk.agerVisit (half : HalfN) (bucket : Nat) : RequesterOk.Statement (.agerVisit half bucket) :=
  fun _ _ e => (noRequester e).elim
theorem RequesterOk.sintNop (who : Req) (v : W32) : RequesterOk.Statement (.sintNop who v) :=
  fun h _ e => Option.some.inj e ▸ wfFirst (h)
theorem RequesterOk.sintAlloc (who : Req) (v : W32) : RequesterOk.Statement (.sintAlloc who v) :=
  fun h _ e => Option.some.inj e ▸ wfFirst (h)
theorem RequesterOk.sintHandover (who : Req) (v : W32) : RequesterOk.Statement (.sintHandover who v) :=
  fun h _ e => Option.some.inj e ▸ wfFirst (h)
theorem RequesterOk.sintFree (who : Req) (v : W32) : RequesterOk.Statement (.sintFree who v) :=
  fun h _ e => Option.some.inj e ▸ wfFirst (h)
theorem RequesterOk.sintInject (who : Req) (v : W32) : RequesterOk.Statement (.sintInject who v) :=
  fun h _ e => Option.some.inj e ▸ wfFirst (h)
theorem RequesterOk.sintRead (who : Req) (v : W32) : RequesterOk.Statement (.sintRead who v) :=
  fun h _ e => Option.some.inj e ▸ wfFirst (h)
theorem RequesterOk.sintPoolApply (who : Req) : RequesterOk.Statement (.sintPoolApply who) :=
  fun h _ e => Option.some.inj e ▸ h
theorem RequesterOk.sintWinAccess (who : Req) (n : Fin 64) (acc : RegAcc) : RequesterOk.Statement (.sintWinAccess who n acc) :=
  fun h _ e => Option.some.inj e ▸ h
theorem RequesterOk.sintAuditStart (who : Req) (v : W32) : RequesterOk.Statement (.sintAuditStart who v) :=
  fun h _ e => Option.some.inj e ▸ h
theorem RequesterOk.sintAuditAbort (who : Req) : RequesterOk.Statement (.sintAuditAbort who) :=
  fun h _ e => Option.some.inj e ▸ h
theorem RequesterOk.sintAuditComplete : RequesterOk.Statement (.sintAuditComplete) :=
  fun _ _ e => (noRequester e).elim
theorem RequesterOk.xbMcgSelWrite (who : Req) (v : W32) : RequesterOk.Statement (.xbMcgSelWrite who v) :=
  fun h _ e => Option.some.inj e ▸ h
theorem RequesterOk.xbMcgMap2Write (who : Req) (v : W32) : RequesterOk.Statement (.xbMcgMap2Write who v) :=
  fun h _ e => Option.some.inj e ▸ h
theorem RequesterOk.tskStart (who : Req) (task : TaskN) : RequesterOk.Statement (.tskStart who task) :=
  fun h _ e => Option.some.inj e ▸ h
theorem RequesterOk.tskRelease (who : Req) (task : TaskN) : RequesterOk.Statement (.tskRelease who task) :=
  fun h _ e => Option.some.inj e ▸ h
theorem RequesterOk.tskStop (who : Req) (task : TaskN) : RequesterOk.Statement (.tskStop who task) :=
  fun h _ e => Option.some.inj e ▸ h
theorem RequesterOk.taskYield (a : Agent) : RequesterOk.Statement (.taskYield a) :=
  fun _ _ e => (noRequester e).elim
theorem RequesterOk.taskWait (a : Agent) (arg : W32) : RequesterOk.Statement (.taskWait a arg) :=
  fun _ _ e => (noRequester e).elim
theorem RequesterOk.taskDelay (a : Agent) (arg : W32) : RequesterOk.Statement (.taskDelay a arg) :=
  fun _ _ e => (noRequester e).elim
theorem RequesterOk.taskRelease (a : Agent) (task : TaskN) : RequesterOk.Statement (.taskRelease a task) :=
  fun _ _ e => (noRequester e).elim
theorem RequesterOk.taskExit (a : Agent) : RequesterOk.Statement (.taskExit a) :=
  fun _ _ e => (noRequester e).elim
theorem RequesterOk.taskDispatch (a : Agent) : RequesterOk.Statement (.taskDispatch a) :=
  fun _ _ e => (noRequester e).elim
theorem RequesterOk.taskPreempt (a : Agent) : RequesterOk.Statement (.taskPreempt a) :=
  fun _ _ e => (noRequester e).elim
theorem RequesterOk.groupTick (g : Fin 16) : RequesterOk.Statement (.groupTick g) :=
  fun _ _ e => (noRequester e).elim
theorem RequesterOk.timeoutExpire (task : TaskN) : RequesterOk.Statement (.timeoutExpire task) :=
  fun _ _ e => (noRequester e).elim
theorem RequesterOk.lckAcqRead (who : Req) (n : Fin 1024) : RequesterOk.Statement (.lckAcqRead who n) :=
  fun h _ e => Option.some.inj e ▸ h
theorem RequesterOk.lckRelWrite (who : Req) (n : Fin 1024) : RequesterOk.Statement (.lckRelWrite who n) :=
  fun h _ e => Option.some.inj e ▸ h
theorem RequesterOk.irqSourceAssert (src : Fin 1024) : RequesterOk.Statement (.irqSourceAssert src) :=
  fun _ _ e => (noRequester e).elim
theorem RequesterOk.irqClaim (who : Req) (t : Fin 5) : RequesterOk.Statement (.irqClaim who t) :=
  fun h _ e => Option.some.inj e ▸ h
theorem RequesterOk.irqEoi (who : Req) (t : Fin 5) (src : Fin 1024) : RequesterOk.Statement (.irqEoi who t src) :=
  fun h _ e => Option.some.inj e ▸ h
theorem RequesterOk.irqHeoi (who : Req) (src : Fin 1024) : RequesterOk.Statement (.irqHeoi who src) :=
  fun h _ e => Option.some.inj e ▸ h
theorem RequesterOk.irqSoftSet (who : Req) (n : Fin 64) : RequesterOk.Statement (.irqSoftSet who n) :=
  fun h _ e => Option.some.inj e ▸ h
theorem RequesterOk.irqSoftClear (who : Req) (n : Fin 64) : RequesterOk.Statement (.irqSoftClear who n) :=
  fun h _ e => Option.some.inj e ▸ h
theorem RequesterOk.msixSend (src : Fin 1024) : RequesterOk.Statement (.msixSend src) :=
  fun _ _ e => (noRequester e).elim
theorem RequesterOk.msixVectorUnmask (vec : Fin 2048) : RequesterOk.Statement (.msixVectorUnmask vec) :=
  fun _ _ e => (noRequester e).elim
theorem RequesterOk.coreWake (core : Fin 5) : RequesterOk.Statement (.coreWake core) :=
  fun _ _ e => (noRequester e).elim
theorem RequesterOk.wakeWatcherTrigger (k : Fin 32) : RequesterOk.Statement (.wakeWatcherTrigger k) :=
  fun _ _ e => (noRequester e).elim
theorem RequesterOk.instCreate (who : Req) : RequesterOk.Statement (.instCreate who) :=
  fun h _ e => Option.some.inj e ▸ h
theorem RequesterOk.instDestroy (who : Req) : RequesterOk.Statement (.instDestroy who) :=
  fun h _ e => Option.some.inj e ▸ h
theorem RequesterOk.instReset (who : Req) (inst : InstN) : RequesterOk.Statement (.instReset who inst) :=
  fun h _ e => Option.some.inj e ▸ h
theorem RequesterOk.instStage (who : Req) : RequesterOk.Statement (.instStage who) :=
  fun h _ e => Option.some.inj e ▸ h
theorem RequesterOk.instResetDrainEnd (inst : InstN) : RequesterOk.Statement (.instResetDrainEnd inst) :=
  fun _ _ e => (noRequester e).elim
theorem RequesterOk.flr (inst : InstN) : RequesterOk.Statement (.flr inst) :=
  fun _ _ e => (noRequester e).elim
theorem RequesterOk.vfEnableClear (host : Fin 4) : RequesterOk.Statement (.vfEnableClear host) :=
  fun _ _ e => (noRequester e).elim
theorem RequesterOk.pcieLinkDown (host : Fin 4) : RequesterOk.Statement (.pcieLinkDown host) :=
  fun _ _ e => (noRequester e).elim
theorem RequesterOk.perst (host : Fin 4) (low : Bool) : RequesterOk.Statement (.perst host low) :=
  fun _ _ e => (noRequester e).elim
theorem RequesterOk.mbxSend (inst : InstN) : RequesterOk.Statement (.mbxSend inst) :=
  fun _ _ e => (noRequester e).elim
theorem RequesterOk.mbxDone (who : Req) (inst : InstN) : RequesterOk.Statement (.mbxDone who inst) :=
  fun h _ e => Option.some.inj e ▸ h
theorem RequesterOk.mbxTimeout (inst : InstN) : RequesterOk.Statement (.mbxTimeout inst) :=
  fun _ _ e => (noRequester e).elim
theorem RequesterOk.txDoorbell (inst : InstN) (n : Fin 512) (pi : BitVec 16) : RequesterOk.Statement (.txDoorbell inst n pi) :=
  fun _ _ e => (noRequester e).elim
theorem RequesterOk.rxDoorbell (inst : InstN) (n : Fin 512) (pi : BitVec 16) : RequesterOk.Statement (.rxDoorbell inst n pi) :=
  fun _ _ e => (noRequester e).elim
theorem RequesterOk.txDescriptorProcess (ring : RingN) : RequesterOk.Statement (.txDescriptorProcess ring) :=
  fun _ _ e => (noRequester e).elim
theorem RequesterOk.dmaCompletion (id : Nat) (data : List Byte) : RequesterOk.Statement (.dmaCompletion id data) :=
  fun _ _ e => (noRequester e).elim
theorem RequesterOk.cplTimeout (id : Nat) : RequesterOk.Statement (.cplTimeout id) :=
  fun _ _ e => (noRequester e).elim
theorem RequesterOk.rxDelivery (host : Fin 4) : RequesterOk.Statement (.rxDelivery host) :=
  fun _ _ e => (noRequester e).elim
theorem RequesterOk.rxStagingTimeout (host : Fin 4) : RequesterOk.Statement (.rxStagingTimeout host) :=
  fun _ _ e => (noRequester e).elim
theorem RequesterOk.ringModExpire (ring : RingN) : RequesterOk.Statement (.ringModExpire ring) :=
  fun _ _ e => (noRequester e).elim
theorem RequesterOk.hbmBankIssue (turn : BankTurn) (ecc : HbmEcc) : RequesterOk.Statement (.hbmBankIssue turn ecc) :=
  fun _ _ e => (noRequester e).elim
theorem RequesterOk.hbmPromote (pc : PcN) : RequesterOk.Statement (.hbmPromote pc) :=
  fun _ _ e => (noRequester e).elim
theorem RequesterOk.hbmRetrainDue (pc : PcN) : RequesterOk.Statement (.hbmRetrainDue pc) :=
  fun _ _ e => (noRequester e).elim
theorem RequesterOk.hbmRetrainEnd (pc : PcN) (ok : Bool) : RequesterOk.Statement (.hbmRetrainEnd pc ok) :=
  fun _ _ e => (noRequester e).elim
theorem RequesterOk.hbmTrainGo (who : Req) (pc : PcN) : RequesterOk.Statement (.hbmTrainGo who pc) :=
  fun h _ e => Option.some.inj e ▸ h
theorem RequesterOk.hbmTrainAbort (who : Req) : RequesterOk.Statement (.hbmTrainAbort who) :=
  fun h _ e => Option.some.inj e ▸ h
theorem RequesterOk.hbmSrEntry (ch : Fin 32) : RequesterOk.Statement (.hbmSrEntry ch) :=
  fun _ _ e => (noRequester e).elim
theorem RequesterOk.hbmSrExit (ch : Fin 32) : RequesterOk.Statement (.hbmSrExit ch) :=
  fun _ _ e => (noRequester e).elim
theorem RequesterOk.hbmScrubRead (addr : BitVec 40) (ecc : HbmEcc) : RequesterOk.Statement (.hbmScrubRead addr ecc) :=
  fun _ _ e => (noRequester e).elim
theorem RequesterOk.hbmFence (pc : PcN) (cause : BitVec 4) : RequesterOk.Statement (.hbmFence pc cause) :=
  fun _ _ e => (noRequester e).elim
theorem RequesterOk.hbmPcFenceWrite (who : Req) (pc : PcN) : RequesterOk.Statement (.hbmPcFenceWrite who pc) :=
  fun h _ e => Option.some.inj e ▸ h
theorem RequesterOk.hbmRemapFillDone : RequesterOk.Statement (.hbmRemapFillDone) :=
  fun _ _ e => (noRequester e).elim
theorem RequesterOk.hbmSpillWithdraw : RequesterOk.Statement (.hbmSpillWithdraw) :=
  fun _ _ e => (noRequester e).elim
theorem RequesterOk.hbmRun (who : Req) : RequesterOk.Statement (.hbmRun who) :=
  fun h _ e => Option.some.inj e ▸ h
theorem RequesterOk.hbmTrained : RequesterOk.Statement (.hbmTrained) :=
  fun _ _ e => (noRequester e).elim
theorem RequesterOk.devModeReq (who : Req) (target : BitVec 4) : RequesterOk.Statement (.devModeReq who target) :=
  fun h _ e => Option.some.inj e ▸ h
theorem RequesterOk.maintainEntry : RequesterOk.Statement (.maintainEntry) :=
  fun _ _ e => (noRequester e).elim
theorem RequesterOk.maintainDrainTimeout : RequesterOk.Statement (.maintainDrainTimeout) :=
  fun _ _ e => (noRequester e).elim
theorem RequesterOk.simmerEntry : RequesterOk.Statement (.simmerEntry) :=
  fun _ _ e => (noRequester e).elim
theorem RequesterOk.sleepDrainTimeout : RequesterOk.Statement (.sleepDrainTimeout) :=
  fun _ _ e => (noRequester e).elim
theorem RequesterOk.simmerCommit : RequesterOk.Statement (.simmerCommit) :=
  fun _ _ e => (noRequester e).elim
theorem RequesterOk.dormantEntry : RequesterOk.Statement (.dormantEntry) :=
  fun _ _ e => (noRequester e).elim
theorem RequesterOk.dormantAutoExpire : RequesterOk.Statement (.dormantAutoExpire) :=
  fun _ _ e => (noRequester e).elim
theorem RequesterOk.simmerWake : RequesterOk.Statement (.simmerWake) :=
  fun _ _ e => (noRequester e).elim
theorem RequesterOk.dormantWake : RequesterOk.Statement (.dormantWake) :=
  fun _ _ e => (noRequester e).elim
theorem RequesterOk.devWakeWrite (who : Req) : RequesterOk.Statement (.devWakeWrite who) :=
  fun h _ e => Option.some.inj e ▸ h
theorem RequesterOk.wakeTimerExpire : RequesterOk.Statement (.wakeTimerExpire) :=
  fun _ _ e => (noRequester e).elim
theorem RequesterOk.gpioInputChange (n : Fin 32) (level : Bool) : RequesterOk.Statement (.gpioInputChange n level) :=
  fun _ _ e => (noRequester e).elim
theorem RequesterOk.keepaliveFrameReceive (slot : Fin 4) (bytes : List Byte) : RequesterOk.Statement (.keepaliveFrameReceive slot bytes) :=
  fun _ _ e => (noRequester e).elim
theorem RequesterOk.keepaliveServiceSend (slot : Fin 4) (svc : KaSvc) (bytes : List Byte) : RequesterOk.Statement (.keepaliveServiceSend slot svc bytes) :=
  fun _ _ e => (noRequester e).elim
theorem RequesterOk.controlCoreReset (who : Req) (core : Fin 4) : RequesterOk.Statement (.controlCoreReset who core) :=
  fun h _ e => Option.some.inj e ▸ h
theorem RequesterOk.fumaroleReset (who : Req) : RequesterOk.Statement (.fumaroleReset who) :=
  fun h _ e => Option.some.inj e ▸ h
theorem RequesterOk.devPwrWrite (who : Req) (v : W32) : RequesterOk.Statement (.devPwrWrite who v) :=
  fun h _ e => Option.some.inj e ▸ h
theorem RequesterOk.lkpHalfCopyDone (half : HalfN) : RequesterOk.Statement (.lkpHalfCopyDone half) :=
  fun _ _ e => (noRequester e).elim
theorem RequesterOk.devFenceWrite (who : Req) (v : W32) : RequesterOk.Statement (.devFenceWrite who v) :=
  fun h _ e => Option.some.inj e ▸ h
theorem RequesterOk.railsValid : RequesterOk.Statement (.railsValid) :=
  fun _ _ e => (noRequester e).elim
theorem RequesterOk.vddAonUp : RequesterOk.Statement (.vddAonUp) :=
  fun _ _ e => (noRequester e).elim
theorem RequesterOk.pgMainUp : RequesterOk.Statement (.pgMainUp) :=
  fun _ _ e => (noRequester e).elim
theorem RequesterOk.pgTimeout : RequesterOk.Statement (.pgTimeout) :=
  fun _ _ e => (noRequester e).elim
theorem RequesterOk.pwrSeqRetry : RequesterOk.Statement (.pwrSeqRetry) :=
  fun _ _ e => (noRequester e).elim
theorem RequesterOk.porReset : RequesterOk.Statement (.porReset) :=
  fun _ _ e => (noRequester e).elim
theorem RequesterOk.sysReset : RequesterOk.Statement (.sysReset) :=
  fun _ _ e => (noRequester e).elim
theorem RequesterOk.resetRelease : RequesterOk.Statement (.resetRelease) :=
  fun _ _ e => (noRequester e).elim
theorem RequesterOk.thermtrip : RequesterOk.Statement (.thermtrip) :=
  fun _ _ e => (noRequester e).elim
theorem RequesterOk.bootSequence : RequesterOk.Statement (.bootSequence) :=
  fun _ _ e => (noRequester e).elim
theorem RequesterOk.bootRetry : RequesterOk.Statement (.bootRetry) :=
  fun _ _ e => (noRequester e).elim
theorem RequesterOk.identityDerive : RequesterOk.Statement (.identityDerive) :=
  fun _ _ e => (noRequester e).elim
theorem RequesterOk.secVerify (who : Req) : RequesterOk.Statement (.secVerify who) :=
  fun h _ e => Option.some.inj e ▸ h
theorem RequesterOk.secPload (who : Req) : RequesterOk.Statement (.secPload who) :=
  fun h _ e => Option.some.inj e ▸ h
theorem RequesterOk.secExtend (who : Req) : RequesterOk.Statement (.secExtend who) :=
  fun h _ e => Option.some.inj e ▸ h
theorem RequesterOk.secAttest (who : Req) : RequesterOk.Statement (.secAttest who) :=
  fun h _ e => Option.some.inj e ▸ h
theorem RequesterOk.secSvnAdvance (who : Req) : RequesterOk.Statement (.secSvnAdvance who) :=
  fun h _ e => Option.some.inj e ▸ h
theorem RequesterOk.secOwnEnrol (who : Req) : RequesterOk.Statement (.secOwnEnrol who) :=
  fun h _ e => Option.some.inj e ▸ h
theorem RequesterOk.secDbgUnlock (who : Req) : RequesterOk.Statement (.secDbgUnlock who) :=
  fun h _ e => Option.some.inj e ▸ h
theorem RequesterOk.secFlashWrite (who : Req) : RequesterOk.Statement (.secFlashWrite who) :=
  fun h _ e => Option.some.inj e ▸ h
theorem RequesterOk.secSha384 (who : Req) : RequesterOk.Statement (.secSha384 who) :=
  fun h _ e => Option.some.inj e ▸ h
theorem RequesterOk.secModexp (who : Req) : RequesterOk.Statement (.secModexp who) :=
  fun h _ e => Option.some.inj e ▸ h
theorem RequesterOk.secIrepair (who : Req) : RequesterOk.Statement (.secIrepair who) :=
  fun h _ e => Option.some.inj e ▸ h
theorem RequesterOk.secAbort (who : Req) : RequesterOk.Statement (.secAbort who) :=
  fun h _ e => Option.some.inj e ▸ h
theorem RequesterOk.secCmdComplete : RequesterOk.Statement (.secCmdComplete) :=
  fun _ _ e => (noRequester e).elim
theorem RequesterOk.secReqSignedWrite (who : Req) : RequesterOk.Statement (.secReqSignedWrite who) :=
  fun h _ e => Option.some.inj e ▸ h
theorem RequesterOk.rasTestEmSlice (who : Req) (target : BitVec 16) : RequesterOk.Statement (.rasTestEmSlice who target) :=
  fun h _ e => Option.some.inj e ▸ h
theorem RequesterOk.rasTestTcSlice (who : Req) (target : BitVec 16) : RequesterOk.Statement (.rasTestTcSlice who target) :=
  fun h _ e => Option.some.inj e ▸ h
theorem RequesterOk.rasTestBucketCache (who : Req) (target : BitVec 16) : RequesterOk.Statement (.rasTestBucketCache who target) :=
  fun h _ e => Option.some.inj e ▸ h
theorem RequesterOk.rasTestMeterCtr (who : Req) (target : BitVec 16) : RequesterOk.Statement (.rasTestMeterCtr who target) :=
  fun h _ e => Option.some.inj e ▸ h
theorem RequesterOk.rasTestEngineMem (who : Req) (target : BitVec 16) : RequesterOk.Statement (.rasTestEngineMem who target) :=
  fun h _ e => Option.some.inj e ▸ h
theorem RequesterOk.rasTestSinterMem (who : Req) (target : BitVec 16) : RequesterOk.Statement (.rasTestSinterMem who target) :=
  fun h _ e => Option.some.inj e ▸ h
theorem RequesterOk.rasTestSerdesRecal (who : Req) (target : BitVec 16) : RequesterOk.Statement (.rasTestSerdesRecal who target) :=
  fun h _ e => Option.some.inj e ▸ h
theorem RequesterOk.rasTestEyeScan (who : Req) (target : BitVec 16) : RequesterOk.Statement (.rasTestEyeScan who target) :=
  fun h _ e => Option.some.inj e ▸ h
theorem RequesterOk.rasTestFull (who : Req) (target : BitVec 16) : RequesterOk.Statement (.rasTestFull who target) :=
  fun h _ e => Option.some.inj e ▸ h
theorem RequesterOk.rasTestAbort (who : Req) : RequesterOk.Statement (.rasTestAbort who) :=
  fun h _ e => Option.some.inj e ▸ h
theorem RequesterOk.rasTestComplete (pass : Bool) (res : W32) : RequesterOk.Statement (.rasTestComplete pass res) :=
  fun _ _ e => (noRequester e).elim
theorem RequesterOk.rasLogClr (who : Req) : RequesterOk.Statement (.rasLogClr who) :=
  fun h _ e => Option.some.inj e ▸ h
theorem RequesterOk.dbgHalt (who : Req) (v : W32) : RequesterOk.Statement (.dbgHalt who v) :=
  fun h _ e => Option.some.inj e ▸ h
theorem RequesterOk.dbgResume (who : Req) (v : W32) : RequesterOk.Statement (.dbgResume who v) :=
  fun h _ e => Option.some.inj e ▸ h
theorem RequesterOk.dbgStep (who : Req) (v : W32) : RequesterOk.Statement (.dbgStep who v) :=
  fun h _ e => Option.some.inj e ▸ h
theorem RequesterOk.dbgRst (who : Req) (v : W32) : RequesterOk.Statement (.dbgRst who v) :=
  fun h _ e => Option.some.inj e ▸ h
theorem RequesterOk.dbgEv14 (who : Req) (v : W32) : RequesterOk.Statement (.dbgEv14 who v) :=
  fun h _ e => Option.some.inj e ▸ h
theorem RequesterOk.dbgAccRead (who : Req) (sz : Bool) : RequesterOk.Statement (.dbgAccRead who sz) :=
  fun h _ e => Option.some.inj e ▸ h
theorem RequesterOk.dbgAccWrite (who : Req) (sz : Bool) : RequesterOk.Statement (.dbgAccWrite who sz) :=
  fun h _ e => Option.some.inj e ▸ h
theorem RequesterOk.dbgTregAccess (who : Req) (hi : Bool) (acc : RegAcc) : RequesterOk.Statement (.dbgTregAccess who hi acc) :=
  fun h _ e => Option.some.inj e ▸ h
theorem RequesterOk.dbgMbxDataWrite (who : Req) (v : W32) : RequesterOk.Statement (.dbgMbxDataWrite who v) :=
  fun h _ e => Option.some.inj e ▸ h
theorem RequesterOk.dbgMbxSubmit (who : Req) : RequesterOk.Statement (.dbgMbxSubmit who) :=
  fun h _ e => Option.some.inj e ▸ h
theorem RequesterOk.dbgTrLoRead (who : Req) : RequesterOk.Statement (.dbgTrLoRead who) :=
  fun h _ e => Option.some.inj e ▸ h
theorem RequesterOk.breakpointHit (n : Fin 16) (a : EngThr) (addr : BitVec 32) : RequesterOk.Statement (.breakpointHit n a addr) :=
  fun _ _ e => (noRequester e).elim
theorem RequesterOk.jtagIdcode : RequesterOk.Statement (.jtagIdcode) :=
  fun _ _ e => (noRequester e).elim
theorem RequesterOk.jtagBypass (tdi : Bool) : RequesterOk.Statement (.jtagBypass tdi) :=
  fun _ _ e => (noRequester e).elim
theorem RequesterOk.jtagSamplePreload (pins : List Bool) : RequesterOk.Statement (.jtagSamplePreload pins) :=
  fun _ _ e => (noRequester e).elim
theorem RequesterOk.jtagExtest : RequesterOk.Statement (.jtagExtest) :=
  fun _ _ e => (noRequester e).elim
theorem RequesterOk.jtagDbgreg (off : BitVec 12) (acc : RegAcc) : RequesterOk.Statement (.jtagDbgreg off acc) :=
  fun _ _ e => (noRequester e).elim
theorem RequesterOk.violCapRead (who : Req) (page : Nat) : RequesterOk.Statement (.violCapRead who page) :=
  fun h _ e => Option.some.inj e ▸ wfFirst (h)
theorem RequesterOk.lowWordLatchRead (who : Req) (addr : BitVec 26) : RequesterOk.Statement (.lowWordLatchRead who addr) :=
  fun h _ e => Option.some.inj e ▸ wfFirst (h)
theorem RequesterOk.registerWrite (who : Req) (addr : BitVec 26) (v : W32) : RequesterOk.Statement (.registerWrite who addr v) :=
  fun h _ e => Option.some.inj e ▸ wfFirst (h)
theorem RequesterOk.undefinedInstruction (a : Agent) : RequesterOk.Statement (.undefinedInstruction a) :=
  fun _ _ e => (noRequester e).elim
theorem RequesterOk.timePllLockLost : RequesterOk.Statement (.timePllLockLost) :=
  fun _ _ e => (noRequester e).elim
theorem RequesterOk.slewEnd : RequesterOk.Statement (.slewEnd) :=
  fun _ _ e => (noRequester e).elim
theorem RequesterOk.shaperCreditRecovery (port : PortN) (cls : ClassN) : RequesterOk.Statement (.shaperCreditRecovery port cls) :=
  fun _ _ e => (noRequester e).elim
theorem RequesterOk.devPwrChangeComplete : RequesterOk.Statement (.devPwrChangeComplete) :=
  fun _ _ e => (noRequester e).elim
theorem RequesterOk.powerLoss : RequesterOk.Statement (.powerLoss) :=
  fun _ _ e => (noRequester e).elim
theorem RequesterOk.vfEnableSet (host : Fin 4) : RequesterOk.Statement (.vfEnableSet host) :=
  fun _ _ e => (noRequester e).elim
theorem RequesterOk.pcieLinkUp (host : Fin 4) (rate : BitVec 3) (width : BitVec 5) : RequesterOk.Statement (.pcieLinkUp host rate width) :=
  fun _ _ e => (noRequester e).elim
theorem RequesterOk.configurationRequest (host : Fin 4) : RequesterOk.Statement (.configurationRequest host) :=
  fun _ _ e => (noRequester e).elim
theorem RequesterOk.strapChange (which : StrapN) (v : BitVec 3) : RequesterOk.Statement (.strapChange which v) :=
  fun _ _ e => (noRequester e).elim
theorem RequesterOk.rcRegisterRead (who : Req) (addr : BitVec 26) : RequesterOk.Statement (.rcRegisterRead who addr) :=
  fun h _ e => Option.some.inj e ▸ wfFirst (h)
end Sys2Proof.Laws
end

