-- ==== Sys2Proof/Safety.lean ====
section
/-! DEFINITION. What a claim says of a command: that it completes, what it gives, what it leaves unchanged, and which states a run keeps
to. -/

namespace Sys2Proof.Machine

/-- A command completes in a state: the block answers a next state, and that state is as `P` says. -/
def Completes (c : Instr) (s : State) (P : State → Prop) : Prop := ∃ t, exec c s = .next t ∧ P t

/-- Every step of the block is one of the spec: it neither faults nor is refused. -/
def SafeStep (s : State) : Prop := ∃ t, step s = .next t

/-- Every register but those listed is as before. -/
def State.regsKept (s t : State) (but : List Nat) : Prop := ∀ r, r ∉ but → t.reg r = s.reg r

/-- Nothing but registers changes, and of those only the listed ones. -/
def State.onlyRegs (s t : State) (but : List Nat) : Prop := ({ t with regs := s.regs } : State) = s ∧ s.regsKept t but

/-- Every byte of memory outside `[a, a + n)` is as before. -/
def State.memKept (s t : State) (a n : Nat) : Prop := ∀ b, ¬ (a ≤ b ∧ b < a + n) → t.rd8 b = s.rd8 b

/-- The count of issues of a thread's engine, in its two registers. -/
def issueRegs (a : Nat) : List Nat := if a < 0x800 then [R.ENG_ISSUE (engOf a), R.ENG_ISSUE (engOf a) + 4] else []

/-- An instruction of a thread issues now: alone, or as the second of a pair (R115, R160). -/
def State.issues (s : State) (a len : Nat) (ns : List Nat) (k : Kind) : Prop := (s.joins a len ns k || s.canIssue a ns) = true

/-- Of the engines and cores only the thread's own changes, and there only its choice of issues. -/
def State.engsKept (s t : State) (a : Nat) : Prop :=
  ∀ e, t.eng e = if e = unitOf a then { s.eng e with arb := (t.eng e).arb } else s.eng e

/-- Nothing changes but the record of one thread, the choice of issues of its engine and the listed registers: no other thread, no byte of
memory, no other register, nothing else of the block. -/
def State.threadBut (s t : State) (a : Nat) (but : List Nat) : Prop :=
  ({ t with thrs := s.thrs, regs := s.regs, engs := s.engs } : State) = s ∧ s.engsKept t a ∧ (∀ b, b ≠ a → t.thr b = s.thr b) ∧
  (∀ m, t.rd8 m = s.rd8 m) ∧ s.regsKept t but

/-- Nothing changes but the record of one thread, the choice of issues of its engine and the issue count. -/
abbrev State.threadOnly (s t : State) (a : Nat) : Prop := s.threadBut t a (issueRegs a)

/-- The issue count, and the count of killed unit instructions. -/
def killRegs (a : Nat) : List Nat := if a < 0x800 then [R.ENG_ISSUE (engOf a), R.ENG_ISSUE (engOf a) + 4, R.FU_KILL (engOf a)] else []

/-- The record of a thread that has passed an instruction of `len` halfwords; a debugger's step is used up by an issue, and stands over the
second of a pair, as in `u`. -/
def Thr.passed (t u : Thr) (a len : Nat) : Thr := { t with pc := (t.pc + len) % pcMod a, step := u.step }

/-- An instruction of a thread completes, and gives one register a value: every other register, the flags and every other field of the
thread are as before, but for the pc, which passes the instruction. -/
def State.gives (s : State) (c : Instr) (a len : Nat) (rd : Reg) (v : Word) : Prop :=
  Completes c s fun t => t.x a rd = v ∧ (∀ r : Reg, r ≠ rd → t.x a r = s.x a r) ∧ t.flg a = s.flg a ∧
    t.thr a = { (s.thr a).passed (t.thr a) a len with rf := (t.thr a).rf } ∧ s.threadOnly t a

/-- An instruction of a thread completes, and sets the four flags: no register and no other field of the thread changes. -/
def State.givesFlags (s : State) (c : Instr) (a len : Nat) (n z cy v : Bool) : Prop :=
  Completes c s fun t => flagN (t.flg a) = n ∧ flagZ (t.flg a) = z ∧ flagC (t.flg a) = cy ∧ flagV (t.flg a) = v ∧
    (∀ r : Reg, t.x a r = s.x a r) ∧ t.thr a = { (s.thr a).passed (t.thr a) a len with flg := t.flg a } ∧ s.threadOnly t a

/-- An instruction of a thread completes, and the thread goes on at a halfword address: nothing else of the thread changes. -/
def State.goesTo (s : State) (c : Instr) (a pc : Nat) : Prop :=
  Completes c s fun t => t.thr a = { s.thr a with pc := pc, step := (t.thr a).step } ∧ s.threadOnly t a

/-- A thread takes an exception: EPC, ECAUSE, EINFO and EFLG are saved, PUM takes UM and PIE takes IE, EXL is set, IE and UM are
cleared, and the thread goes on at TVEC. -/
def Thr.excepted (t : Thr) (a cause epc : Nat) (info : Word) : Thr :=
  { t with
    epc := BitVec.ofNat 64 epc, ecause := BitVec.ofNat 64 cause, einfo := info, eflg := t.flg.zeroExtend 64,
    status := BitVec.ofNat 5 (b2n (t.status.getLsbD 3) * 16 + 4 + b2n (t.status.getLsbD 0) * 2),
    pc := t.tvec.toNat % pcMod a }

/-- An instruction of a thread that is not in an exception raises one, and nothing else changes but the count of unit instructions that it
kills (R175, R200). -/
def State.raises (s : State) (c : Instr) (a len cause epc : Nat) (info : Word) : Prop :=
  (s.thr a).status.getLsbD 2 = false →
  Completes c s fun t => t.thr a = ((s.thr a).passed (t.thr a) a len).excepted a cause epc info ∧ s.threadBut t a (killRegs a)

/-- A load of `n` bytes at an offset of a segment into rd, each kind of place in turn, by an instruction that names the registers `ns`; `v`
makes the register value of the bytes. A violation loads zero and is captured (R151). -/
def State.loads (s : State) (c : Instr) (a len : Nat) (ns : List Nat) (rd : Reg) (seg off n : Nat) (v : List Byte → Word) : Prop :=
  s.issues a len ns (kLoad rd) →
  let i := s.took a len ns (kLoad rd)
  match i.place a seg off n .load with
  | .ok (.mem adr) => s.gives c a len rd (v (s.rdBytes adr n))
  | .ok (.slot o) => s.gives c a len rd (v (rdMap (s.thr a).slot o n))
  | .ok (.hdr k o) => s.gives c a len rd (v (rdMap (s.pkt k).hdr o n))
  | .ok (.hbm adr) => exec c s = .next ((i.placeRead a (.hbm adr) n).2.setX a rd (v (i.hbmRead adr n).1))
  | .ok (.reg adr) => exec c s = .next ((i.busRead a adr).2.setX a rd (v (bytesLE n (i.busRead a adr).1.toNat)))
  | .ok .port => s.gives c a len rd (v (bytesLE n (s.portStatus a)))
  | .error e => exec c s = .next ((i.segViol a seg off e).setX a rd 0)

/-- A store of bytes at an offset of a segment. In memory the bytes read back, and every other byte is as before; in the send slot and the
header store the bytes are placed; a violation stores nothing and is captured (R151). -/
def State.stores (s : State) (c : Instr) (a len : Nat) (ns : List Nat) (seg off : Nat) (bs : List Byte) : Prop :=
  s.issues a len ns kStore →
  let i := s.took a len ns kStore
  match i.place a seg off bs.length .store with
  | .ok (.mem adr) => Completes c s fun t =>
      t.rdBytes adr bs.length = bs ∧ s.memKept t adr bs.length ∧ t.thr a = (s.thr a).passed (t.thr a) a len ∧ (∀ b, b ≠ a → t.thr b = s.thr b) ∧
      s.regsKept t (issueRegs a) ∧ s.engsKept t a ∧ ({ t with thrs := s.thrs, regs := s.regs, engs := s.engs, mem := s.mem } : State) = s
  | .ok (.slot o) => Completes c s fun t =>
      t.thr a = { (s.thr a).passed (t.thr a) a len with slot := wrMap (s.thr a).slot o bs } ∧ s.threadOnly t a
  | .ok (.hdr k o) => Completes c s fun t =>
      (t.pkt k).hdr = wrMap (s.pkt k).hdr o bs ∧ t.thr a = (s.thr a).passed (t.thr a) a len ∧ s.memKept t 0 0 ∧ s.regsKept t (issueRegs a) ∧ s.engsKept t a
  | .ok (.hbm adr) => exec c s = .next (i.hbmWrite adr bs)
  | .ok (.reg adr) => exec c s = .next (i.busWrite a adr (w32 (valLE bs)))
  | .ok .port => exec c s = .next (i.portCommand a (valLE bs / 2 ^ 60) (valLE bs / 2 ^ 48 % 4096) (valLE bs % 2 ^ 32))
  | .error e => exec c s = .next (i.segViol a seg off e)

/-- An atomic on `n` bytes at an offset of a segment: rd takes the old value, memory the new one, and every other byte, register and
flag is as before. A violation returns zero, writes nothing and is captured (R151, R169). -/
def State.swaps (s : State) (c : Instr) (a : Nat) (ns : List Nat) (rd : Reg) (seg off n : Nat) (new : Nat → Nat) : Prop :=
  s.issues a 2 ns (kLoad rd) →
  let i := s.took a 2 ns (kLoad rd)
  match i.place a seg off n .atom with
  | .ok (.mem adr) => Completes c s fun t =>
      t.x a rd = BitVec.ofNat 64 (s.rdLE adr n) ∧ t.rdLE adr n = new (s.rdLE adr n) ∧ s.memKept t adr n ∧
      (∀ r : Reg, r ≠ rd → t.x a r = s.x a r) ∧ t.thr a = { (s.thr a).passed (t.thr a) a 2 with rf := (t.thr a).rf } ∧
      (∀ b, b ≠ a → t.thr b = s.thr b) ∧ s.regsKept t (issueRegs a) ∧ s.engsKept t a ∧
      ({ t with thrs := s.thrs, regs := s.regs, engs := s.engs, mem := s.mem } : State) = s
  | .ok _ => True
  | .error e => exec c s = .next ((i.segViol a seg off e).setX a rd 0)

/-- A conditional branch of `len` halfwords: taken, it goes `off` halfwords on from its own address; else it falls through (R156). -/
def State.branches (s : State) (c : Instr) (a len : Nat) (off : Int) (taken : Prop) : Prop :=
  Completes c s fun t =>
    (taken → t.thr a = { s.thr a with pc := (((s.pc a : Int) + off) % (pcMod a : Nat)).toNat, step := (t.thr a).step }) ∧
    (¬ taken → t.thr a = (s.thr a).passed (t.thr a) a len) ∧ s.threadBut t a (killRegs a)

/-- Whether a condition of the table of R164 holds on four flags. -/
def condTable (c : Cond) (n z cy v : Bool) : Bool :=
  [z, !z, n != v, n == v, !z && (n == v), z || (n != v), cy, !cy, !cy && !z, cy || z, n, !n, v, !v, true, false].getD c.toNat false

/-- The offset of a long form: rb plus the sign-extended displacement; an rb field of 0 adds zero. -/
def State.dispOff (s : State) (a : Nat) (rb : Reg) (disp : BitVec 11) : Nat :=
  ((if rb = 0 then 0 else s.x a rb) + disp.signExtend 64).toNat

/-- An instruction that only passes: every field of the thread but the pc, and everything else, is as before. -/
def State.passes (s : State) (c : Instr) (a len : Nat) (f : Thr → Thr) : Prop :=
  Completes c s fun t => t.thr a = f ((s.thr a).passed (t.thr a) a len) ∧ s.threadOnly t a

/-- A unit instruction of latency `lat` is accepted: nothing of the thread changes but the pc and the list of results in flight, which takes
the value, due when as many cycles have passed. -/
def State.accepts (s : State) (c : Instr) (a rd : Nat) (v : Word) (key : Option (Nat × Word)) (lat : Nat) : Prop :=
  Completes c s fun t => s.threadOnly t a ∧ t.thr a = { (s.thr a).passed (t.thr a) a 2 with
    fu := (s.thr a).fu ++ [⟨(s.thr a).phys rd, v, key, s.clk, (t.eng (engOf a)).arb.issues + lat⟩] }

/-- Whether the MAC of a front port takes frames: enabled, not in loopback, link up, its pipeline on, no sleep, no maintenance, no debug
hold. -/
abbrev State.takesFrames (s : State) (x : Nat) : Prop :=
  s.flag (R.PORT_CTL x) F.PORT_CTL_EN = true ∧ s.fld (R.PORT_CTL x) F.PORT_CTL_LPBK = 0 ∧ s.linkUp x = true ∧ s.pipeOn (x / 4) = true ∧ s.sleeping = false ∧ s.maintPort x = false ∧
  s.debugHold (x / 4) = false

/-- A frame whose bytes lie in its buffers and fit one deep block with its context. -/
abbrev State.smallFrame (s : State) (k : Nat) : Prop :=
  (s.pkt k).len ≤ 3968 ∧ (s.chainRead (s.pkt k).ptr (s.pkt k).skip (s.pkt k).len).length = (s.pkt k).len

/-- The canonical form of memory and of the register space: equal contents are equal data. -/
abbrev State.canon (s : State) : Prop :=
  smWf regDefault s.regs = true ∧ smWf byte0 s.mem = true ∧ smWf byte0 s.near = true ∧ smWf byteFF s.flash = true

/-- A control context accesses a register of the map while the whole map is reached: the mode is none of OFF, RESET, SIMMER and DORMANT,
and the power domain of the page is on (R587, R589, R496). -/
abbrev State.open (s : State) (who : Req) (a : Nat) : Prop :=
  (0x800 ≤ who.toNat ∧ who.toNat < 0x810) ∧ s.mode ≠ mOFF ∧ s.mode ≠ mRESET ∧ s.mode ≠ mSIMMER ∧ s.mode ≠ mDORMANT ∧ s.pageOn a = true

/-- A control context lands on the register of this address itself: a listed page, reached through no selector and no second page. -/
abbrev State.lands (s : State) (a : Nat) : Prop :=
  s.selected a = a ∧ a / 0x1000 ≠ 0xB01 ∧ (pageOf a).isSome = true ∧ a % 4 = 0

/-- A register whose read does nothing beyond the types of its fields (R579, R582): no claim, lock, stamp, key or data window. -/
def plainReg (a : Nat) : Bool :=
  let o := a % 0x1000
  decide (0x40 ≤ o) && (descOf a).isSome &&
  match pageOf a with
  | some (.irqMain, _) | some (.clu, _) | some (.dbg, _) => false
  | some (.lckPage, _) => decide (0x800 ≤ o)
  | some (.port, _) => decide (o ≠ 0x5C) && decide (o ≠ 0x68)
  | some (.eng, _) => decide (o ≠ 0x68)
  | some (.sintMain, _) => decide (a < R.SINT_WIN 0)
  | _ => true

/-- A violation captured (R584): every field of VIOL_CAP of the page is written, VOVF is set where an unread capture stood, and nothing else
changes. -/
def State.captures (s t : State) (page agent type off : Nat) : Prop :=
  getF (t.reg (page + 0x1C)) ⟨31, 20⟩ = agent ∧ getF (t.reg (page + 0x1C)) ⟨19, 16⟩ = type ∧ getF (t.reg (page + 0x1C)) ⟨15, 12⟩ = 0 ∧
  getF (t.reg (page + 0x1C)) ⟨11, 0⟩ = off ∧
  t.reg (page + 0xC) = (if getF (s.reg (page + 0x1C)) ⟨19, 16⟩ = 0 then s.reg (page + 0xC) else s.reg (page + 0xC) ||| 0x20000000) ∧
  s.onlyRegs t [page + 0x1C, page + 0xC]

end Sys2Proof.Machine
end

