-- ==== Sys2Proof/Certificates/Slice0/Obligations.lean ====
section
/-! DEFINITION. What the model claims of the block, for the provers. Every statement about a command says that it completes and what it
gives, with what it leaves unchanged. -/

open Sys2Proof Sys2Proof.Machine

/-! ### The block as a machine -/

/-- A step with a command at the front of the queue is the command's effect on the state with the rest of the queue. -/
def Obligations.StepRunsTheFrontCommand : Prop :=
  ∀ (c : Instr) (rest : List Instr) (s : State), s.pending = c :: rest → step s = exec c { s with pending := rest }

/-- On an empty queue a tick of 2 ns passes: the model's clock counts, domain time advances or stands, and neither memory nor the queue
changes. The tick on an empty queue is the model's choice (assumption log, entry 3). -/
def Obligations.EmptyQueuePassesOneTick : Prop :=
  ∀ s : State, s.pending = [] → ∃ t, step s = .next t ∧ t.clk = s.clk + 1 ∧ t.pending = [] ∧ t.mem = s.mem ∧ t.near = s.near ∧
    t.thrs = s.thrs ∧ t.fuses = s.fuses ∧ t.mode = s.mode ∧ (s.mode = mOFF → t.time.d = s.time.d)

/-- Every command of the table completes in every state: a command whose condition does not hold leaves the state, or is turned away under
the violation rule; it never faults and is never refused. -/
def Obligations.EveryCommandCompletes : Prop := ∀ (c : Instr) (s : State), ∃ t, exec c s = .next t

/-! ### Velkor: register arithmetic (R164–R167) -/

/-- Register arithmetic writes rd and nothing else, wraps modulo 2^64 and never traps. As the second of a pair, in the issue of the first, it
has the same effect, and ENG_ISSUE does not count it. -/
def Obligations.RegisterArithmeticGivesItsResult : Prop :=
  (∀ (s : State) (a : Agent) (lg : Bool) (rd rs1 rs2 : Reg),
    let x := s.x a rs1
    let y := s.x a rs2
    let n := if lg then 2 else 1
    let pair (c : Instr) (v : Word) : Prop := s.gives c a n rd v ∧ Completes c s fun t => t.regs = s.regs
    s.joins a n [rd, rs1, rs2] { writes := [rd.val] } = true →
    pair (.add a lg rd rs1 rs2) (x + y) ∧ pair (.sub a lg rd rs1 rs2) (x - y) ∧ pair (.and a lg rd rs1 rs2) (x &&& y) ∧
    pair (.or a lg rd rs1 rs2) (x ||| y) ∧ pair (.xor a lg rd rs1 rs2) (x ^^^ y)) ∧
  ∀ (s : State) (a : Agent) (lg : Bool) (rd rs1 rs2 : Reg), s.canIssue a [rd, rs1, rs2] = true →
    let x := s.x a rs1
    let y := s.x a rs2
    let n := if lg then 2 else 1
    let k := y.toNat % 64
    s.gives (.add a lg rd rs1 rs2) a n rd (x + y) ∧
    s.gives (.sub a lg rd rs1 rs2) a n rd (x - y) ∧
    s.gives (.and a lg rd rs1 rs2) a n rd (x &&& y) ∧
    s.gives (.or a lg rd rs1 rs2) a n rd (x ||| y) ∧
    s.gives (.xor a lg rd rs1 rs2) a n rd (x ^^^ y) ∧
    s.gives (.andnot a rd rs1 rs2) a 2 rd (x &&& ~~~y) ∧
    s.gives (.ornot a rd rs1 rs2) a 2 rd (x ||| ~~~y) ∧
    s.gives (.sll a lg rd rs1 rs2) a n rd (x <<< k) ∧
    s.gives (.srl a lg rd rs1 rs2) a n rd (x >>> k) ∧
    s.gives (.sra a lg rd rs1 rs2) a n rd (x.sshiftRight k) ∧
    s.gives (.ror a rd rs1 rs2) a 2 rd (x.rotateRight k) ∧
    s.gives (.mul a lg rd rs1 rs2) a n rd (BitVec.ofNat 64 (x.toNat * y.toNat)) ∧
    s.gives (.mulhi a rd rs1 rs2) a 2 rd (BitVec.ofNat 64 (x.toNat * y.toNat / 2 ^ 64)) ∧
    s.gives (.quo a rd rs1 rs2) a 2 rd (if y = 0 then BitVec.allOnes 64 else BitVec.ofNat 64 (x.toNat / y.toNat)) ∧
    s.gives (.rem a rd rs1 rs2) a 2 rd (if y = 0 then x else BitVec.ofNat 64 (x.toNat % y.toNat)) ∧
    s.gives (.min a lg rd rs1 rs2) a n rd (if x.toInt ≤ y.toInt then x else y) ∧
    s.gives (.max a lg rd rs1 rs2) a n rd (if x.toInt ≤ y.toInt then y else x) ∧
    s.gives (.minu a rd rs1 rs2) a 2 rd (if x.toNat ≤ y.toNat then x else y) ∧
    s.gives (.maxu a rd rs1 rs2) a 2 rd (if x.toNat ≤ y.toNat then y else x)

/-- ADDF and SUBF write rd and set the flags; CMP, CMPI and TST set the flags alone. C is the carry out of an addition and the unsigned
borrow of a subtraction, V the signed overflow; TST clears both. -/
def Obligations.FlagInstructionsSetTheFlags : Prop :=
  ∀ (s : State) (a : Agent) (lg : Bool) (rd rs1 rs2 : Reg) (imm : BitVec 15),
    let x := s.x a rs1
    let y := s.x a rs2
    let i : Word := if lg then imm.signExtend 64 else (imm.truncate 7).signExtend 64
    let n := if lg then 2 else 1
    (s.canIssue a [rd, rs1, rs2] = true → Completes (.addf a rd rs1 rs2) s fun t =>
      t.x a rd = x + y ∧ (∀ r : Reg, r ≠ rd → t.x a r = s.x a r) ∧
      flagN (t.flg a) = (x + y).msb ∧ flagZ (t.flg a) = decide (x + y = 0) ∧ flagC (t.flg a) = decide (2 ^ 64 ≤ x.toNat + y.toNat) ∧
      flagV (t.flg a) = decide ((x + y).toInt ≠ x.toInt + y.toInt) ∧
      t.thr a = { (s.thr a).passed (t.thr a) a 2 with rf := (t.thr a).rf, flg := t.flg a } ∧ s.threadOnly t a) ∧
    (s.canIssue a [rd, rs1, rs2] = true → Completes (.subf a rd rs1 rs2) s fun t =>
      t.x a rd = x - y ∧ (∀ r : Reg, r ≠ rd → t.x a r = s.x a r) ∧
      flagN (t.flg a) = (x - y).msb ∧ flagZ (t.flg a) = decide (x - y = 0) ∧ flagC (t.flg a) = decide (x.toNat < y.toNat) ∧
      flagV (t.flg a) = decide ((x - y).toInt ≠ x.toInt - y.toInt) ∧
      t.thr a = { (s.thr a).passed (t.thr a) a 2 with rf := (t.thr a).rf, flg := t.flg a } ∧ s.threadOnly t a) ∧
    (s.canIssue a [rs1, rs2] = true → s.givesFlags (.cmp a lg rs1 rs2) a n (x - y).msb (decide (x = y)) (decide (x.toNat < y.toNat))
      (decide ((x - y).toInt ≠ x.toInt - y.toInt))) ∧
    (s.canIssue a [rs1, rs2] = true → s.givesFlags (.tst a lg rs1 rs2) a n (x &&& y).msb (decide (x &&& y = 0)) false false) ∧
    (s.canIssue a [rs1] = true → s.givesFlags (.cmpi a lg rs1 imm) a n (x - i).msb (decide (x = i)) (decide (x.toNat < i.toNat))
      (decide ((x - i).toInt ≠ x.toInt - i.toInt)))

/-- PICK and BOOL select by their condition; condition 0xF is undefined. The unary instructions: MOV, NEG, NOT, counts of leading,
trailing and set bits, byte reversal, and the extensions of the low byte, halfword and word. The immediate instructions: sign-extended
immediates for ADDI, zero-extended ones for the bitwise forms, shifts by n, and the 16-bit lanes of LDIZ, LDIK and LDIS. -/
def Obligations.OneOperandAndImmediateInstructionsGiveTheirResult : Prop :=
  (∀ (s : State) (a : Agent) (rd rs1 rs2 : Reg) (cond : Cond),
    let f := s.flg a
    let h := condTable cond (flagN f) (flagZ f) (flagC f) (flagV f)
    (s.canIssue a [rd, rs1, rs2] = true → cond ≠ 0xF → s.gives (.pick a rd rs1 rs2 cond) a 2 rd (if h then s.x a rs1 else s.x a rs2)) ∧
    (s.canIssue a [rd] = true → cond ≠ 0xF → s.gives (.bool a rd cond) a 2 rd (if h then 1 else 0))) ∧
  (∀ (s : State) (a : Agent) (lg : Bool) (rd rs : Reg) (imm : BitVec 7), s.canIssue a [rd, rs] = true →
    let x := s.x a rs
    let n := if lg then 2 else 1
    (¬ (rd = 0 ∧ rs = 0) → s.gives (.mov a (.regShort rs) rd) a 1 rd x) ∧
    s.gives (.mov a (.regLong rs) rd) a 2 rd x ∧
    s.gives (.mov a (.imm7 imm) rd) a 1 rd (imm.signExtend 64) ∧
    s.gives (.neg a lg rd rs) a n rd (0 - x) ∧
    s.gives (.not a lg rd rs) a n rd (~~~x) ∧
    (∃ k, k ≤ 64 ∧ x.toNat < 2 ^ (64 - k) ∧ (k < 64 → 2 ^ (63 - k) ≤ x.toNat) ∧ s.gives (.clz a rd rs) a 2 rd (BitVec.ofNat 64 k)) ∧
    (∃ k, k ≤ 64 ∧ (∀ i, i < k → x.getLsbD i = false) ∧ (k < 64 → x.getLsbD k = true) ∧
      s.gives (.ctz a rd rs) a 2 rd (BitVec.ofNat 64 k)) ∧
    s.gives (.popc a rd rs) a 2 rd (BitVec.ofNat 64 ((List.range 64).filter fun i => x.getLsbD i).length) ∧
    (∀ sz : BitVec 2, sz ≠ 0 → ∃ v : Word, s.gives (.bswap a rd rs sz) a 2 rd v ∧ v.toNat < 2 ^ (8 * 2 ^ sz.toNat) ∧
      ∀ j, j < 2 ^ sz.toNat → v.extractLsb' (8 * j) 8 = x.extractLsb' (8 * (2 ^ sz.toNat - 1 - j)) 8) ∧
    s.gives (.zext a rd rs 0) a 2 rd ((x.truncate 8).zeroExtend 64) ∧
    s.gives (.zext a rd rs 1) a 2 rd ((x.truncate 16).zeroExtend 64) ∧
    s.gives (.zext a rd rs 2) a 2 rd ((x.truncate 32).zeroExtend 64) ∧
    s.gives (.sext a rd rs 0) a 2 rd ((x.truncate 8).signExtend 64) ∧
    s.gives (.sext a rd rs 1) a 2 rd ((x.truncate 16).signExtend 64) ∧
    s.gives (.sext a rd rs 2) a 2 rd ((x.truncate 32).signExtend 64)) ∧
  (∀ (s : State) (a : Agent) (lg : Bool) (rd rs1 : Reg) (imm : BitVec 15) (sh : BitVec 6) (lane : Fin 4) (u : BitVec 16),
    s.canIssue a [rd, rs1] = true →
    let x := s.x a rs1
    let n := if lg then 2 else 1
    s.gives (.addi a lg rd rs1 imm) a n rd (x + (if lg then imm.signExtend 64 else (imm.truncate 7).signExtend 64)) ∧
    s.gives (.andi a rd rs1 imm) a 2 rd (x &&& imm.zeroExtend 64) ∧
    s.gives (.ori a rd rs1 imm) a 2 rd (x ||| imm.zeroExtend 64) ∧
    s.gives (.xori a rd rs1 imm) a 2 rd (x ^^^ imm.zeroExtend 64) ∧
    s.gives (.slli a lg rd rs1 sh) a n rd (x <<< sh.toNat) ∧
    s.gives (.srli a lg rd rs1 sh) a n rd (x >>> sh.toNat) ∧
    s.gives (.srai a rd rs1 sh) a 2 rd (x.sshiftRight sh.toNat) ∧
    s.gives (.ldiz a rd lane u) a 2 rd (u.zeroExtend 64 <<< (16 * lane.val)) ∧
    s.gives (.ldis a rd lane u) a 2 rd (u.signExtend 64 <<< (16 * lane.val)) ∧
    (∃ v : Word, s.gives (.ldik a rd lane u) a 2 rd v ∧
      ∀ j : Fin 4, v.extractLsb' (16 * j.val) 16 = if j = lane then u else (s.x a rd).extractLsb' (16 * j.val) 16))

/-! ### Velkor: memory (R151, R155, R168, R169) -/

/-- Loads: the bytes at the place that the segment names, little-endian and zero- or sign-extended, or in network order for LDN. -/
def Obligations.LoadsGiveTheBytesOfTheirPlace : Prop :=
  ∀ (s : State) (a : Agent) (rd : Reg) (seg : SegN) (rb : Reg) (disp : BitVec 11) (s3 : Bool) (w : BitVec 6),
    let off := s.dispOff a rb disp
    let base : List Nat := rd.val :: (if rb = 0 then [] else [rb.val])
    let le (bs : List Byte) : Word := BitVec.ofNat 64 (valLE bs)
    let be (bs : List Byte) : Word := BitVec.ofNat 64 (valBE bs)
    let se (bs : List Byte) : Word := BitVec.ofInt 64 (sint (8 * bs.length) (valLE bs))
    s.loads (.ldb a rd seg rb disp) a 2 base rd seg off 1 le ∧
    s.loads (.ldh a rd seg rb disp) a 2 base rd seg off 2 le ∧
    s.loads (.ldw a rd seg rb disp) a 2 base rd seg off 4 le ∧
    s.loads (.ldd a (.long seg disp) rd rb) a 2 base rd seg off 8 le ∧
    s.loads (.ldd a (.word s3 w) rd rb) a 1 [rd] rd (if s3 then 3 else 2) (w.toNat * 8) 8 le ∧
    s.loads (.ldsb a rd seg rb disp) a 2 base rd seg off 1 se ∧
    s.loads (.ldsh a rd seg rb disp) a 2 base rd seg off 2 se ∧
    s.loads (.ldsw a rd seg rb disp) a 2 base rd seg off 4 se ∧
    s.loads (.ldnh a (.long seg disp) rd rb) a 2 base rd seg off 2 be ∧
    s.loads (.ldnh a .s1 rd rb) a 1 [rd, rb] rd 1 (s.x a rb).toNat 2 be ∧
    s.loads (.ldnw a (.long seg disp) rd rb) a 2 base rd seg off 4 be ∧
    s.loads (.ldnw a .s1 rd rb) a 1 [rd, rb] rd 1 (s.x a rb).toNat 4 be ∧
    s.loads (.ldnd a rd seg rb disp) a 2 base rd seg off 8 be

/-- Stores: the low bytes of the register, lowest first, or highest first in network order, and no other byte of memory. -/
def Obligations.StoresWriteTheBytesOfTheirPlace : Prop :=
  ∀ (s : State) (a : Agent) (rt : Reg) (seg : SegN) (rb : Reg) (disp : BitVec 11) (s3 : Bool) (w : BitVec 6),
    let off := s.dispOff a rb disp
    let base : List Nat := rt.val :: (if rb = 0 then [] else [rb.val])
    let v := (s.x a rt).toNat
    s.stores (.stb a rt seg rb disp) a 2 base seg off (bytesLE 1 v) ∧
    s.stores (.sth a rt seg rb disp) a 2 base seg off (bytesLE 2 v) ∧
    s.stores (.stw a rt seg rb disp) a 2 base seg off (bytesLE 4 v) ∧
    s.stores (.std a (.long seg disp) rt rb) a 2 base seg off (bytesLE 8 v) ∧
    s.stores (.std a (.word s3 w) rt rb) a 1 [rt] (if s3 then 3 else 2) (w.toNat * 8) (bytesLE 8 v) ∧
    s.stores (.stnh a rt seg rb disp) a 2 base seg off (bytesBE 2 v) ∧
    s.stores (.stnw a rt seg rb disp) a 2 base seg off (bytesBE 4 v) ∧
    s.stores (.stnd a rt seg rb disp) a 2 base seg off (bytesBE 8 v)

/-- Atomics: rd receives the old value; AADD adds, ASADD adds and saturates, ACAS stores rs where the old value equals rd. -/
def Obligations.AtomicsReturnTheOldValue : Prop :=
  ∀ (s : State) (a : Agent) (rd : Reg) (seg : SegN) (rb rs : Reg) (sz : Bool),
    let ns : List Nat := rd.val :: rs.val :: (if rb = 0 then [] else [rb.val])
    let n := if sz then 8 else 4
    let m := 2 ^ (8 * n)
    let off := s.dispOff a rb 0
    let r := (s.x a rs).toNat % m
    s.swaps (.aadd a rd seg rb rs sz) a ns rd seg off n (fun o => (o + r) % m) ∧
    s.swaps (.asadd a rd seg rb rs sz) a ns rd seg off n (fun o => min (m - 1) (o + r)) ∧
    s.swaps (.acas a rd seg rb rs sz) a ns rd seg off n (fun o => if o = (s.x a rd).toNat % m then r else o)

/-- Only an access through a valid segment, with the right it needs, inside the limit, reaches a place; every other is a violation. -/
def Obligations.OnlyAllowedAccessesReachAPlace : Prop :=
  ∀ (s : State) (a : Agent) (seg off n : Nat) (need : Need) (p : Place),
    s.place a seg off n need = .ok p → (s.segDesc a seg).getLsbD 63 = true ∧ off + n ≤ segSize (s.segDesc a seg) ∧
      (need = .load → (s.segDesc a seg).getLsbD 62 = true) ∧ (need = .store → (s.segDesc a seg).getLsbD 61 = true) ∧
      (need = .atom → (s.segDesc a seg).getLsbD 59 = true)

/-! ### Velkor: control transfers (R146, R147, R156, R164, R171) -/

/-- Branches and jumps: a taken branch goes its offset in halfwords from its own address, another falls through. -/
def Obligations.BranchesGoToTheirTarget : Prop :=
  ∀ (s : State) (a : Agent) (lg h : Bool) (w : WrongPath) (cond : Cond) (rs : Reg) (o20 : BitVec 20) (o18 : BitVec 18) (o25 : BitVec 25),
    let f := s.flg a
    let n := if lg then 2 else 1
    (s.canIssue a [] = true → cond ≠ 0xF → s.branches (.bc a lg cond h o20 w) a n o20.toInt
      (condTable cond (flagN f) (flagZ f) (flagC f) (flagV f) = true)) ∧
    (s.canIssue a [rs] = true → s.branches (.brz a lg rs h o18 w) a n o18.toInt (s.x a rs = 0)) ∧
    (s.canIssue a [rs] = true → s.branches (.brnz a lg rs h o18 w) a n o18.toInt (s.x a rs ≠ 0)) ∧
    (s.canIssue a [] = true → s.goesTo (.j a lg o25) a (((s.pc a : Int) + o25.toInt) % (pcMod a : Nat)).toNat) ∧
    (s.canIssue a [rs] = true → s.goesTo (.jr a lg rs) a ((s.x a rs).toNat % pcMod a))

/-- CALL and CALLR slide the window up and leave the return address in w15; RET goes to the address in w15 and slides it down. While the
ring has room, x0–x7 and every register of the ring outside the new frame keep their values. A call that finds the ring full stores the
16 registers of the oldest resident frame, lowest first, in s7 at WSP, adds 128 to WSP and leaves the depth; every byte outside the 128
is as before. -/
def Obligations.WindowsMoveAndSpill : Prop :=
  (∀ (s : State) (a : Agent) (lg : Bool) (o25 : BitVec 25) (rs1 : Reg), s.canIssue a [] = true → (s.thr a).fu = [] →
    let called (c : Instr) (len target : Nat) : Prop := Completes c s fun t =>
      t.pc a = target ∧ t.x a 23 = BitVec.ofNat 64 ((s.pc a + len) % pcMod a) ∧ (∀ n, n < 16 → t.x a n = s.x a (if n < 8 then n else n + 16)) ∧
      (t.thr a).depth = (s.thr a).depth + 1 ∧ (t.thr a).base = ((s.thr a).base + 1) % 5 ∧ (t.thr a).wsp = (s.thr a).wsp ∧
      t.flg a = s.flg a ∧ (t.thr a).status = (s.thr a).status ∧ s.memKept t 0 0 ∧ (∀ b, b ≠ a → t.thr b = s.thr b) ∧
      s.regsKept t (issueRegs a)
    ((s.thr a).depth < 4 → called (.call a o25) 2 (((s.pc a : Int) + o25.toInt) % (pcMod a : Nat)).toNat) ∧
    ((s.thr a).depth < 4 → called (.callr a lg rs1) (if lg then 2 else 1) ((s.x a rs1).toNat % pcMod a)) ∧
    (1 < (s.thr a).depth → Completes (.ret a lg) s fun t =>
      t.pc a = (s.x a 23).toNat % pcMod a ∧ (∀ n, n < 8 → t.x a n = s.x a n) ∧ (∀ n, 24 ≤ n → n < 32 → t.x a n = s.x a (n - 16)) ∧
      (t.thr a).depth = (s.thr a).depth - 1 ∧ (t.thr a).wsp = (s.thr a).wsp ∧ t.flg a = s.flg a ∧ s.memKept t 0 0 ∧
      (∀ b, b ≠ a → t.thr b = s.thr b) ∧ s.regsKept t (issueRegs a))) ∧
  (∀ (s : State) (a : Agent) (o25 : BitVec 25) (adr : Nat), s.canIssue a [] = true → (s.thr a).fu = [] → (s.thr a).depth = 4 →
    (s.took a 2 [] kTail).place a 7 (s.thr a).wsp.toNat 128 .spill = .ok (.mem adr) →
    Completes (.call a o25) s fun t =>
      t.rdBytes adr 128 = (s.thr a).frame ((s.thr a).base + 2) ∧ s.memKept t adr 128 ∧ (t.thr a).wsp = (s.thr a).wsp + 128 ∧
      (t.thr a).depth = 4 ∧ t.pc a = (((s.pc a : Int) + o25.toInt) % (pcMod a : Nat)).toNat)

/-! ### Velkor: system instructions and exceptions (R117–R119, R149, R171–R178, R489) -/

/-- NOP and FENCE pass; SEND makes a thread that holds a packet wait for its turn; WFE returns the pending events of its mask and of 14 and
15 and clears them, or waits; TMR arms or disarms the timer; RGET and RPUT move a register by number; SLEEP with no wake pending sleeps;
BRK with a debugger attached halts; SIG raises event 6 + own number on the siblings it names. -/
def Obligations.SystemInstructionsHaveTheirEffect : Prop :=
  ∀ (s : State) (a : Agent) (lg : Bool) (rd rs1 rs2 : Reg),
    let n := if lg then 2 else 1
    let x := s.x a rs1
    let ev : BitVec 16 := (s.thr a).evPend &&& (x.truncate 16 ||| 0xC000)
    (s.canIssue a [] = true → s.passes (.nop a lg) a n id) ∧
    (s.canIssue a [] = true → s.passes (.fence a) a 2 id) ∧
    (s.canIssue a [] = true → a.val < 0x800 → (s.thr a).pkt.isSome = true → s.passes (.send a lg) a n fun t => { t with wait := .sendWait }) ∧
    (s.canIssue a [rd, rs1] = true → ev ≠ 0 → Completes (.wfe a lg rd rs1) s fun t =>
      t.x a rd = ev.zeroExtend 64 ∧ (∀ r : Reg, r ≠ rd → t.x a r = s.x a r) ∧ s.threadOnly t a ∧
      t.thr a = { (s.thr a).passed (t.thr a) a n with rf := (t.thr a).rf, evMask := x.truncate 16, evPend := (s.thr a).evPend &&& ~~~ev }) ∧
    (s.canIssue a [rd, rs1] = true → ev = 0 → s.passes (.wfe a lg rd rs1) a n fun t =>
      { t with evMask := x.truncate 16, wait := .wfe (x.truncate 16) (t.phys rd) n }) ∧
    (s.canIssue a [rs1] = true → x.toNat % 2 ^ 31 = 0 → s.passes (.tmr a lg rs1) a n fun t => { t with tmr := none }) ∧
    (s.canIssue a [rs1] = true → x.toNat % 2 ^ 31 ≠ 0 → s.passes (.tmr a lg rs1) a n fun t =>
      { t with tmr := some (s.cycles a + x.toNat % 2 ^ 31) }) ∧
    (s.canIssue a [] = true → (s.thr a).fu = [] → s.gives (.rget a rd rs1) a 2 rd (s.x a (x.toNat % 32))) ∧
    (s.canIssue a [] = true → (s.thr a).fu = [] → s.gives (.rput a rs1 rs2) a 2 ⟨x.toNat % 32, Nat.mod_lt _ (by decide)⟩ (s.x a rs2)) ∧
    (s.canIssue a [] = true → 0x800 ≤ a.val → (s.thr a).status.getLsbD 3 = false → s.wakePending (coreOf a) = false →
      Completes (.sleep a) s fun t => t.thr a = { (s.thr a).passed (t.thr a) a 2 with wait := .sleep } ∧ (∀ b, b ≠ a.val → t.thr b = s.thr b) ∧
        s.regsKept t [R.DEV_CORE_STAT (coreOf a)] ∧ s.memKept t 0 0 ∧
        (a.val < 0x810 → bits (t.reg (R.DEV_CORE_STAT (coreOf a))).toNat (2 * ((a.val - 0x800) % 4) + 1) (2 * ((a.val - 0x800) % 4)) = 1)) ∧
    (s.canIssue a [] = true → s.flag R.DBG_CTL F.DBG_CTL_ATTACH = true → Completes (.brk a lg) s fun t =>
      t.thr a = { (s.thr a).passed (t.thr a) a n with halted := true } ∧ (∀ b, b ≠ a.val → t.thr b = s.thr b) ∧ (t.reg (0xF00000 + 0x10)).getLsbD 0 = true ∧
        s.memKept t 0 0 ∧ s.regsKept t (0xF00010 :: issueRegs a)) ∧
    (s.canIssue a [rs1] = true → Completes (.sig a lg rs1) s fun t =>
      let b := (siblings a).1
      (∀ i, i < (siblings a).2 → b + i ≠ a.val → t.thr (b + i) =
        { s.thr (b + i) with evPend := if x.getLsbD i then (s.thr (b + i)).evPend ||| BitVec.ofNat 16 (2 ^ (6 + (a.val - b))) else (s.thr (b + i)).evPend }) ∧
      (∀ c, ¬ (b ≤ c ∧ c < b + (siblings a).2) → t.thr c = s.thr c) ∧ s.memKept t 0 0 ∧ s.regsKept t (issueRegs a))

/-- TRAP, BRK without a debugger, ERET outside an exception and the undefined forms raise their exception: EPC names the instruction
itself, and the next one for TRAP. -/
def Obligations.ExceptionsSaveTheThread : Prop :=
  ∀ (s : State) (a : Agent) (lg : Bool) (rd rs1 rs2 : Reg) (code : BitVec 15) (h : Bool) (o20 : BitVec 20) (w : WrongPath),
    let n := if lg then 2 else 1
    let m := pcMod a
    (s.canIssue a [] = true → s.raises (.trap a code) a 2 4 ((s.pc a + 2) % m) (code.zeroExtend 64)) ∧
    (s.canIssue a [] = true → s.pc a < m → s.flag R.DBG_CTL F.DBG_CTL_ATTACH = false → s.raises (.brk a lg) a n 3 (s.pc a) 0) ∧
    (s.canIssue a [] = true → s.pc a < m → (s.thr a).status.getLsbD 2 = false → s.raises (.eret a) a 2 5 (s.pc a) 0xD8000030) ∧
    (s.canIssue a [rd, rs1, rs2] = true → s.pc a < m → s.raises (.pick a rd rs1 rs2 0xF) a 2 1 (s.pc a)
      (einfo (encLR 0 rd rs1 rs2 0x17F) true 0 0)) ∧
    (s.canIssue a [rd] = true → s.pc a < m → s.raises (.bool a rd 0xF) a 2 1 (s.pc a) (einfo (encLR 0 rd 0 0 0x18F) true 0 0)) ∧
    (s.canIssue a [rd, rs1] = true → s.pc a < m → s.raises (.bswap a rd rs1 0) a 2 1 (s.pc a) (einfo (encLR 1 rd rs1 0 0x060) true 0 0)) ∧
    (s.canIssue a [rd, rs1] = true → s.pc a < m → s.raises (.zext a rd rs1 3) a 2 1 (s.pc a) (einfo (encLR 1 rd rs1 0 0x073) true 0 0)) ∧
    (s.canIssue a [rd, rs1] = true → s.pc a < m → s.raises (.sext a rd rs1 3) a 2 1 (s.pc a) (einfo (encLR 1 rd rs1 0 0x083) true 0 0)) ∧
    (s.canIssue a [] = true → s.pc a < m → ∃ i, s.raises (.bc a lg 0xF h o20 w) a n 1 (s.pc a) i) ∧
    (s.canIssue a [] = true → s.pc a < m → s.raises (.mov a (.regShort 0) 0) a 1 1 (s.pc a) 0) ∧
    (s.canIssue a [] = true → s.pc a < m → a.val < 0x800 → ∃ i, s.raises (.sleep a) a 2 1 (s.pc a) i) ∧
    (s.canIssue a [] = true → s.pc a < m → 0x800 ≤ a.val → (s.thr a).status.getLsbD 3 = true → ∃ i, s.raises (.sleep a) a 2 2 (s.pc a) i) ∧
    (s.canIssue a [] = true → s.pc a < m → 0x800 ≤ a.val → ∃ i, s.raises (.send a lg) a n 1 (s.pc a) i) ∧
    (s.canIssue a [] = true → s.pc a < m → a.val < 0x800 → (s.thr a).pkt = none → ∃ i, s.raises (.send a lg) a n 5 (s.pc a) i)

/-- What is fetched at the pc is undefined: UNDEF is raised with the encoding in EINFO. Where the halfword is a short form of an
unassigned operation, nothing changes but the thread, its issue count and the count of the unit instructions it kills. A refusal of a unit raises UNDEF with the unit and the code in
EINFO and counts in FU_REFUSE; in the full profile every unit instruction is refused with code 0xFF. -/
def Obligations.UndefinedAndRefusedInstructionsRaiseUndef : Prop :=
  (∀ (s : State) (a : Agent) (adr h : Nat), s.canIssue a (namedRegs h 0) = true → s.pc a < pcMod a → (s.thr a).status.getLsbD 2 = false →
    s.place a 0 (2 * s.pc a) 2 .fetch = .ok (.mem adr) → s.rdLE adr 2 = h → h < 0x8000 → shortOk (decide (a.val < 0x800)) h = false →
    Completes (.undefinedInstruction a) s fun t =>
      t.thr a = ((s.thr a).passed (t.thr a) a 1).excepted a 1 (s.pc a) (BitVec.ofNat 64 h) ∧ s.threadBut t a (killRegs a)) ∧
  (∀ (s : State) (a : Agent) (rd rs1 : Reg) (p : BitVec 13), s.pc a < pcMod a → (s.thr a).status.getLsbD 2 = false →
    let refused (c : Instr) (enc unit code : Nat) : Prop := Completes c s fun t =>
      t.thr a = ((s.thr a).passed (t.thr a) a 2).excepted a 1 (s.pc a) (einfo enc true unit code) ∧
      t.reg (R.FU_REFUSE (engOf a)) = (if s.reg (R.FU_REFUSE (engOf a)) = 0xFFFFFFFF then 0xFFFFFFFF else s.reg (R.FU_REFUSE (engOf a)) + 1) ∧
      (∀ b, b ≠ a.val → t.thr b = s.thr b) ∧ s.memKept t 0 0
    (a.val < 0x800 → s.canIssue a [rd, rs1] = true → 64 < bits p.toNat 12 7 + bits p.toNat 6 1 + 1 →
      refused (.fext a rd rs1 p) (encLX 0x38 rd rs1 0 p) 1 0x01) ∧
    (a.val < 0x800 → s.canIssue a [rd, rs1, bits p.toNat 12 8] = true → bits p.toNat 0 0 = 0 → 2 ≤ bits p.toNat 7 5 →
      refused (.hcrc a rd rs1 p) (encLX 0x39 rd rs1 0 p) 2 0x10) ∧
    (a.val < 0x800 → s.canIssue a [rd, rs1, bits p.toNat 12 8] = true → 52 < bits p.toNat 5 0 →
      refused (.htoe a rd rs1 p) (encLX 0x39 rd rs1 1 p) 2 0x11) ∧
    (a.val < 0x800 → s.canIssue a [rd, rs1, bits p.toNat 12 8] = true → bits p.toNat 0 0 = 0 → bits p.toNat 7 6 = 3 →
      refused (.hvndHash a rd rs1 p) (encLX 0x39 rd rs1 2 p) 2 0x12) ∧
    (a.val < 0x800 → s.canIssue a [rd, rs1, bits p.toNat 12 8] = true → bits p.toNat 5 0 = 0 → 2 ≤ bits p.toNat 7 6 →
      refused (.cksu a rd rs1 p) (encLX 0x3A rd rs1 1 p) 3 0x20) ∧
    (0x800 ≤ a.val → s.canIssue a [rd, rs1] = true → s.raises (.fext a rd rs1 p) a 2 1 (s.pc a) (einfo (encLX 0x38 rd rs1 0 p) true 1 0xFF)))

/-- ERET restores FLG, IE and UM, clears EXL and goes on at EPC; an interrupt between two issues is taken with cause 0x10 while IE = 1
and EXL = 0. An exception while EXL = 1 is a double fault: it resets a thread of an engine, whose registers then read zero, and halts a
context. -/
def Obligations.ReturnInterruptAndDoubleFaultFollowTheStatus : Prop :=
  (∀ (s : State) (a : Agent),
    (s.canIssue a [] = true → (s.thr a).status.getLsbD 2 = true → Completes (.eret a) s fun t =>
      t.pc a = (s.thr a).epc.toNat % pcMod a ∧ t.flg a = (s.thr a).eflg.truncate 4 ∧ (t.thr a).status.getLsbD 2 = false ∧
      (t.thr a).status.getLsbD 0 = (s.thr a).status.getLsbD 1 ∧ (t.thr a).status.getLsbD 1 = (s.thr a).status.getLsbD 1 ∧
      (t.thr a).status.getLsbD 3 = (s.thr a).status.getLsbD 4 ∧ (t.thr a).status.getLsbD 4 = (s.thr a).status.getLsbD 4 ∧
      (∀ r : Reg, t.x a r = s.x a r) ∧ s.threadOnly t a) ∧
    (s.eligible a = true → (s.thr a).halted = false → (s.thr a).status.getLsbD 0 = true → (s.thr a).status.getLsbD 2 = false →
      s.irqInput a = true → Completes (.interruptTake a) s fun t =>
      t.thr a = { (s.thr a) with epc := BitVec.ofNat 64 (s.pc a), ecause := 0x10, einfo := 0, eflg := (s.flg a).zeroExtend 64,
                                 status := BitVec.ofNat 5 (b2n ((s.thr a).status.getLsbD 3) * 16 + 6), pc := (s.thr a).tvec.toNat % pcMod a } ∧
      (∀ b, b ≠ a.val → t.thr b = s.thr b) ∧ ({ t with thrs := s.thrs } : State) = s)) ∧
  (∀ (s : State) (a : Agent) (code : BitVec 15), s.canIssue a [] = true → (s.thr a).status.getLsbD 2 = true →
    (a.val < 0x800 → Completes (.trap a code) s fun t => (∀ r : Reg, t.x a r = 0) ∧ (t.thr a).status = 0 ∧ (t.thr a).pkt = none ∧ (t.thr a).fu = []) ∧
    (0x800 ≤ a.val → Completes (.trap a code) s fun t => (t.thr a).dead = true ∧ t.eligible a = false))

/-- MFS reads, MTS writes and XCHS exchanges a special register; a number the profile does not have reads zero and is a violation, as
are writes of the registers marked RO and, on engines, of the segments. -/
def Obligations.SpecialRegistersReadAndWrite : Prop :=
  ∀ (s : State) (a : Agent) (rd rs : Reg) (sreg : BitVec 12),
    let i := s.issued a 2 kAlone
    let m := s.took a 2 [rd] { writes := [rd.val], readsF := sreg == 1, slow := sreg == 0x00C || sreg == 0x00D }
    let x := s.x a rs
    let k := sreg.toNat
    let kernel := s.userMode a = false
    (∀ v, s.canIssue a [rd] = true → s.sregGet a k = some v → s.gives (.mfs a rd sreg) a 2 rd v) ∧
    (s.canIssue a [rd] = true → s.sregGet a k = none → exec (.mfs a rd sreg) s = .next ((m.sregViol a k 1).setX a rd 0)) ∧
    (s.canIssue a [rs] = true → kernel → s.passes (.mts a 0x002 rs) a 2 fun t => { t with epc := x }) ∧
    (s.canIssue a [rs] = true → kernel → s.passes (.mts a 0x003 rs) a 2 fun t => { t with eflg := x &&& 0xF }) ∧
    (s.canIssue a [rs] = true → kernel → s.passes (.mts a 0x004 rs) a 2 fun t => { t with ecause := x &&& 0xFF }) ∧
    (s.canIssue a [rs] = true → kernel → s.passes (.mts a 0x005 rs) a 2 fun t => { t with einfo := x }) ∧
    (s.canIssue a [rs] = true → kernel → s.passes (.mts a 0x006 rs) a 2 fun t => { t with tvec := x }) ∧
    (s.canIssue a [rs] = true → kernel → s.passes (.mts a 0x009 rs) a 2 fun t => { t with wsp := x }) ∧
    (s.canIssue a [rs] = true → s.passes (.mts a 0x001 rs) a 2 fun t => { t with flg := x.truncate 4 }) ∧
    (s.canIssue a [rs] = true → kernel → 0x800 ≤ a.val → s.passes (.mts a 0x000 rs) a 2 fun t => { t with status := x.truncate 5 }) ∧
    (s.canIssue a [rs] = true → a.val < 0x800 → s.passes (.mts a 0x000 rs) a 2 fun t => { t with status := x.truncate 5 &&& 7 }) ∧
    (s.canIssue a [rs] = true → 0xA ≤ k → k ≤ 0xF → exec (.mts a sreg rs) s = .next (i.sregViol a k 2)) ∧
    (s.canIssue a [rs] = true → a.val < 0x800 → 0x100 ≤ k → k < 0x108 → exec (.mts a sreg rs) s = .next (i.sregViol a k 4)) ∧
    (s.canIssue a [rs] = true → s.userMode a = true → s.pc a < pcMod a → ∃ e, s.raises (.mts a 0x006 rs) a 2 2 (s.pc a) e) ∧
    (s.canIssue a [rd] = true → kernel → Completes (.xchs a rd 0x007) s fun t =>
      t.x a rd = (s.thr a).escr0 ∧ (t.thr a).escr0 = s.x a rd ∧ (∀ r : Reg, r ≠ rd → t.x a r = s.x a r) ∧
      t.thr a = { (s.thr a).passed (t.thr a) a 2 with rf := (t.thr a).rf, escr0 := s.x a rd } ∧ s.threadOnly t a) ∧
    (s.canIssue a [rd] = true → kernel → Completes (.xchs a rd 0x009) s fun t =>
      t.x a rd = (s.thr a).wsp ∧ (t.thr a).wsp = s.x a rd ∧ (∀ r : Reg, r ≠ rd → t.x a r = s.x a r) ∧
      t.thr a = { (s.thr a).passed (t.thr a) a 2 with rf := (t.thr a).rf, wsp := s.x a rd } ∧ s.threadOnly t a)

/-! ### Velkor: fused units (R187–R200) -/

/-- On an engine, a unit instruction with its zero fields zero that no unit refuses is accepted with its value; the key word that HVND
FUNC 0b01 writes goes with it. What the field unit computes, bit by bit: FEXT takes LEN bits from POS on, extended with zero or with the
last of them; FINS replaces the LEN bits from POS on. Each takes its latency of R188. A writeback gives the register of the unit
instruction in flight that is due first, the oldest of those, its value and its key word; the rest stays in flight. -/
def Obligations.FusedInstructionsAreAcceptedAndComplete : Prop :=
  (∀ (s : State) (a : Agent) (rd rs1 : Reg) (p : BitVec 13),
    let x := s.x a rs1
    let y := s.x a (bits p.toNat 12 8)
    let g := s.eng (engOf a)
    let field := bits p.toNat 12 7 + bits p.toNat 6 1 + 1 ≤ 64
    let one := s.canIssue a [rd, rs1] = true
    let two := s.canIssue a [rd, rs1, bits p.toNat 12 8] = true
    a.val < 0x800 →
    (one → field → s.accepts (.fext a rd rs1 p) a rd (fextVal x p) none 2) ∧
    (one → field → bits p.toNat 0 0 = 0 → s.accepts (.fins a rd rs1 p) a rd (finsVal (s.x a rd) x p) none 2) ∧
    (one → bits p.toNat 4 0 = 0 → s.accepts (.fscn a rd rs1 p) a rd (fscnVal x p) none 2) ∧
    (two → bits p.toNat 0 0 = 0 → bits p.toNat 7 5 < 2 → s.accepts (.hcrc a rd rs1 p) a rd (hcrcVal x y p) none 3) ∧
    (two → bits p.toNat 5 0 ≤ 52 → s.accepts (.htoe a rd rs1 p) a rd (htoeVal (g.keyBits (bits p.toNat 7 6)) x y p) none 4) ∧
    (two → bits p.toNat 0 0 = 0 → bits p.toNat 7 6 = 0 →
      s.accepts (.hvndHash a rd rs1 p) a rd (hvndVal (g.key (bits p.toNat 5 4 * 8)) x y) none 5) ∧
    (two → bits p.toNat 0 0 = 0 → bits p.toNat 7 6 = 1 → s.accepts (.hvndKeyWrite a rd rs1 p) a rd
      (g.key (bits p.toNat 5 4 * 8 + bits p.toNat 3 1)) (some (bits p.toNat 5 4 * 8 + bits p.toNat 3 1, x)) 2) ∧
    (two → bits p.toNat 0 0 = 0 → bits p.toNat 7 6 = 2 →
      s.accepts (.hvndKeyRead a rd rs1 p) a rd (g.key (bits p.toNat 5 4 * 8 + bits p.toNat 3 1)) none 2) ∧
    (two → bits p.toNat 3 0 = 0 → s.accepts (.cksa a rd rs1 p) a rd (cksaVal x y p) none 2) ∧
    (two → bits p.toNat 5 0 = 0 → bits p.toNat 7 6 < 2 → s.accepts (.cksu a rd rs1 p) a rd (cksuVal x y p) none 2) ∧
    (two → bits p.toNat 6 0 = 0 → s.accepts (.cksf a rd rs1 p) a rd (cksfVal x y p) none 2)) ∧
  (∀ (x d : Word) (p : BitVec 13), bits p.toNat 12 7 + bits p.toNat 6 1 + 1 ≤ 64 →
    let pos := bits p.toNat 12 7
    let len := bits p.toNat 6 1 + 1
    (∀ i, i < 64 → (fextVal x p).getLsbD i =
      if i < len then x.getLsbD (pos + i) else (decide (bits p.toNat 0 0 = 1) && x.getLsbD (pos + len - 1))) ∧
    (∀ i, i < 64 → (finsVal d x p).getLsbD i = if pos ≤ i ∧ i < pos + len then x.getLsbD (i - pos) else d.getLsbD i)) ∧
  (∀ (s : State) (a : EngThr) (f : FuPend) (l m : List FuPend), (s.thr a).fu = l ++ f :: m →
    (∀ g, g ∈ l → f.before g = true) → (∀ g, g ∈ m → g.before f = false) → Completes (.fuWriteback a) s fun t =>
      (t.thr a).fu = l ++ m ∧ (∀ n, t.x a n = if (s.thr a).phys n = f.rd then f.val else s.x a n) ∧
      (∀ i, (t.eng (engOf a)).key i = match f.key with
        | some (j, v) => if i = j then v else (s.eng (engOf a)).key i
        | none => (s.eng (engOf a)).key i) ∧
      t.pc a = s.pc a ∧ t.flg a = s.flg a ∧ (∀ b, b ≠ a.val → t.thr b = s.thr b) ∧ t.regs = s.regs ∧ t.mem = s.mem)

/-! ### Velkor: lookups, locks and the events of threads (R117–R119, R170, R409–R413) -/

/-- LKA acquires a free lock; on a lock held by another it returns BUSY and the owner and changes no lock. LKQ queues behind a holder.
LKR by the holder of a lock nobody waits for frees it; by anyone else it is a violation. -/
def Obligations.LockInstructionsFollowTheHolder : Prop :=
  ∀ (s : State) (a : Agent) (rd rs1 : Reg),
    let n := (s.x a rs1).toNat % 1024
    let l := s.lock n
    let i := s.took a 2 [rs1] kStore
    (s.canIssue a [rd, rs1] = true → l.held = false → Completes (.lka a rd rs1) s fun t =>
      t.x a rd = (if l.aband then 0x40000000 else 0) ∧ (t.lock n).held = true ∧ (t.lock n).owner = a.val ∧ (t.lock n).otask = s.curTask a ∧
      (t.lock n).q = l.q ∧ (∀ m, m ≠ n → t.lock m = s.lock m) ∧ (∀ r : Reg, r ≠ rd → t.x a r = s.x a r) ∧ t.flg a = s.flg a) ∧
    (s.canIssue a [rd, rs1] = true → l.held = true → ¬ (l.owner = a.val ∧ l.otask = s.curTask a) → l.owner < 2 ^ 12 →
      Completes (.lka a rd rs1) s fun t => t.x a rd = BitVec.ofNat 64 (0x80000000 + l.owner) ∧ t.locks = s.locks ∧
      (∀ r : Reg, r ≠ rd → t.x a r = s.x a r) ∧ t.flg a = s.flg a) ∧
    (s.canIssue a [rs1] = true → a.val < 0x810 → (s.thr a).lockReq = none → l.held = false → Completes (.lkq a rs1) s fun t =>
      (t.lock n).held = true ∧ (t.lock n).owner = a.val ∧ (t.thr a).evPend.getLsbD 4 = true) ∧
    (s.canIssue a [rs1] = true → a.val < 0x810 → (s.thr a).lockReq = none → l.held = true → l.otask = 0xFFF → Completes (.lkq a rs1) s fun t =>
      (t.thr a).lockReq = some n ∧ (t.lock n).owner = l.owner ∧ (t.lock n).held = true ∧ ((t.lock n).q.map Waiter.agent) = l.q.map Waiter.agent ++ [a.val]) ∧
    (s.canIssue a [rs1] = true → l.held = true → l.owner = a.val → l.otask = s.curTask a → l.q = [] → Completes (.lkr a rs1) s fun t =>
      (t.lock n).held = false ∧ (t.lock n).q = [] ∧ (∀ m, m ≠ n → t.lock m = s.lock m)) ∧
    (s.canIssue a [rs1] = true → l.held = false → exec (.lkr a rs1) s =
      .next (i.viol (0x41000 + n / 256 * 0x1000) a 4 0 (0x800 + n % 256 * 4)))

/-- LKUP on a thread with a packet: a slot whose result is pending refuses with 4; a forward delivery out of range or a fifth one
refuses with 4 and marks the slot; a bad key refuses with 5; else the lookup is issued, the slot is pending, and rd receives 1. A WFE
returns when an event of its mask, 14 or 15 is pending; a timer raises event 3 and is disarmed; a wake resumes every sleeping context of
its core. -/
def Obligations.LookupInstructionsAndThreadEventsAct : Prop :=
  (∀ (s : State) (a : EngThr) (rd rs1 rs2 : Reg) (k : Nat),
    let p := (s.x a rs2).toNat
    let nreg := bits p 23 20
    let slot := bits p 9 7
    let dstg := bits p 6 3
    let st := engOf a % 16
    let last := if st < 12 then 11 else 15
    let c : Instr := .lkup ⟨a.val, Nat.lt_trans a.isLt (by decide)⟩ rd rs1 rs2
    let word (t : State) : Nat := ctxWord (t.thr a).slot (8 + slot)
    let pending := ctxWord (s.thr a).slot (8 + slot) / 2 ^ 60 = 1
    let far := 4 ≤ (s.pkt k).fwd ∨ dstg < st + 2 ∨ last < dstg
    let bad := nreg = 0 ∨ bits p 11 10 = 3 ∨ 32 < rs1.val + nreg
    s.canIssue a ([rd.val, rs2.val] ++ (List.range (min nreg (32 - rs1))).map fun i => rs1.val + i) = true → (s.thr a).pkt = some k →
    (pending → Completes c s fun t => t.x a rd = 4 ∧ (t.thr a).slot = (s.thr a).slot ∧ t.lkps = s.lkps) ∧
    (¬ pending → far → Completes c s fun t => t.x a rd = 4 ∧ word t / 2 ^ 60 = 4 ∧ t.lkps = s.lkps) ∧
    (¬ pending → ¬ far → bad → Completes c s fun t => t.x a rd = 5 ∧ word t / 2 ^ 60 = 5 ∧ t.lkps = s.lkps) ∧
    (¬ pending → ¬ far → ¬ bad → Completes c s fun t => t.x a rd = 1 ∧ word t / 2 ^ 60 = 1 ∧ t.nextId = s.nextId + 1 ∧
      (∃ key, smFind t.lkps s.nextId = some { pkt := k, slot := slot, stage := dstg, kind := bits p 11 10, table := bits p 19 12, key := key,
                                              half := pipeOf a / 8, view := cView (s.thr a).slot, fwd := true }) ∧
      (t.pkt k).fwd = (s.pkt k).fwd + 1)) ∧
  (∀ (s : State) (a : Agent),
    (∀ mask rd len, (s.thr a).wait = .wfe mask rd len → (s.thr a).evPend &&& (mask ||| 0xC000) ≠ 0 → Completes (.wfeWake a) s fun t =>
      (t.thr a).wait = .run ∧ smGet (fun _ => (0 : Word)) (t.thr a).rf rd = ((s.thr a).evPend &&& (mask ||| 0xC000)).zeroExtend 64 ∧
      (t.thr a).evPend = (s.thr a).evPend &&& ~~~((s.thr a).evPend &&& (mask ||| 0xC000)) ∧ t.pc a = s.pc a ∧ (∀ b, b ≠ a.val → t.thr b = s.thr b) ∧
      ({ t with thrs := s.thrs } : State) = s) ∧
    ((s.thr a).tmr ≠ none → Completes (.threadTimerExpire a) s fun t =>
      t.thr a = { s.thr a with tmr := none, evPend := (s.thr a).evPend ||| 8 } ∧ (∀ b, b ≠ a.val → t.thr b = s.thr b) ∧
      ({ t with thrs := s.thrs } : State) = s) ∧
    (∀ core : Fin 5, s.wakePending core = true → Completes (.coreWake core) s fun t =>
      (∀ b, b ∈ coreAgents core → (t.thr b).wait ≠ .sleep) ∧ (∀ b, b ∉ coreAgents core → t.thr b = s.thr b) ∧ core.val ∉ t.coreWakes ∧
      t.regs = s.regs ∧ t.mem = s.mem))

/-! ### Front ports (R13, R25, R48–R61, R353–R355) -/

/-- A frame at a MAC counts with its bytes, and what the FEC of its mode corrected and could not correct. A good frame of allowed length that Sinter stores whole waits for the parser of its pipeline
behind the frames of its port; a frame of Ethertype 0x8808 is consumed, counted in RX_CTRL, and pauses the classes it names. The
detected failure of a frame that waits for its parser marks it, so that it is dropped at VOQ enqueue; of a copy that waits in a class
queue of an egress port, so that it is dropped there. -/
def Obligations.FramesAreReceivedAndChecked : Prop :=
  (∀ (s : State) (x : PortN) (b : List Byte) (corr unc : Nat), b ≠ [] → s.takesFrames x →
    let n := b.length
    let i := ((s.fecWords x corr unc).cnt64 (R.RX_FRM x) 1).cnt64 (R.RX_BYTE x) n
    let good := 64 ≤ n ∧ n ≤ s.fld (R.PORT_CTL x) F.PORT_CTL_MAXFRM ∧ b.drop (n - 4) = fcs (b.take (n - 4))
    let pool := match s.estimate x b with | some e => poolFor e | none => s.unkPool x
    (∀ (p : Nat) (u : State), good → valBE ((b.drop 12).take 2) ≠ 0x8808 →
      i.storeFrame pool (x.val * 8 + s.macClass x b) (0xA00 + x.val) (s.fld (R.PORT_CTL x) F.PORT_CTL_MAXFRM) true b = (.stored p, u) →
      Completes (.frameReceive x ⟨b, corr, unc⟩) s fun t => t.src (x.val / 4) x = u.src (x.val / 4) x ++ [u.nextId] ∧ (t.pkt u.nextId).ptr = p ∧ (t.pkt u.nextId).len = n ∧
        (t.pkt u.nextId).inPort = x ∧ (t.pkt u.nextId).bad = false ∧ t.regs = u.regs ∧ t.near = u.near) ∧
    (∀ (u : State) (r : StoreRes), r = .noRoom ∨ r = .refused → good → valBE ((b.drop 12).take 2) ≠ 0x8808 →
      i.storeFrame pool (x.val * 8 + s.macClass x b) (0xA00 + x.val) (s.fld (R.PORT_CTL x) F.PORT_CTL_MAXFRM) true b = (r, u) →
      exec (.frameReceive x ⟨b, corr, unc⟩) s = .next u) ∧
    (3 ≤ s.pMode x → Completes (.frameReceive x ⟨b, corr, unc⟩) s fun t =>
      (t.reg (R.FEC_CORR x)).toNat = min 0xFFFFFFFF ((s.reg (R.FEC_CORR x)).toNat + corr) ∧
      (t.reg (R.FEC_UNCORR x)).toNat = min 0xFFFFFFFF ((s.reg (R.FEC_UNCORR x)).toNat + unc) ∧
      (0 < unc → (t.reg (0x80010 + x.val * 0x1000)).getLsbD 1 = true)) ∧
    (good → valBE ((b.drop 12).take 2) = 0x8808 → s.fld (R.PORT_FC x) F.PORT_FC_MODE = 1 → valBE ((b.drop 14).take 2) = 1 →
      0 < valBE ((b.drop 16).take 2) → Completes (.macControlFrameReceive x b) s fun t =>
      t.reg (R.RX_CTRL x) = (if s.reg (R.RX_CTRL x) = 0xFFFFFFFF then 0xFFFFFFFF else s.reg (R.RX_CTRL x) + 1) ∧
      (∀ c : ClassN, t.paused x c = true ∧ smGet (fun _ => 0) t.quanta (x.val * 8 + c) = valBE ((b.drop 16).take 2)) ∧
      t.reg64 (R.RX_FRM x) = (s.reg64 (R.RX_FRM x) + 1) % 2 ^ 64 ∧ t.pkts = s.pkts ∧ t.near = s.near)) ∧
  (∀ (s : State) (k : Nat), s.hasPkt k = true → (s.pkt k).bad = true → (s.pkt k).store = none → s.conns = [] → smWf (fun _ => ({} : Pkt)) s.pkts = true →
    ((s.pkt k).loc = .src → Completes (.fcsFailure k) s fun t => (t.pkt k).failed = true ∧ (t.pkt k).bad = false ∧ t.regs = s.regs ∧ t.srcQ = s.srcQ) ∧
    (∀ p, (s.pkt k).loc = .egr p → smGet (fun _ => none) s.txs (s.pkt k).dest = none → Completes (.fcsFailure k) s fun t =>
      (t.pkt k).late = true ∧ (t.pkt k).bad = false ∧ t.regs = s.regs ∧ t.txq = s.txq))

/-- The end of a pause lets its class send; a change of XOFF sends one flow-control frame of QUANTA or of zero quanta in pause mode and is
remembered; while XOFF holds the frame is repeated. Evaluating XOFF leaves the usage of every account. -/
def Obligations.FlowControlIsSent : Prop :=
  ∀ (s : State) (x : PortN) (c : ClassN),
    let q := s.fld (R.PORT_FC x) F.PORT_FC_QUANTA
    (s.paused x c = true → Completes (.pauseQuantaExpire x c) s fun t => t.paused x c = false ∧ smGet (fun _ => 0) t.quanta (x.val * 8 + c) = 0 ∧
      (∀ d : ClassN, d ≠ c → t.paused x d = s.paused x d) ∧ s.regsKept t [R.TM_PORT_STAT x]) ∧
    (s.macSends x = true → s.fld (R.PORT_FC x) F.PORT_FC_MODE = 1 → s.sentX x = 0 → s.xoffClasses x ≠ 0 → Completes (.pfcFrameSend x) s fun t =>
      t.outs = s.outs ++ [.flow x false 255 q] ∧ t.sentX x = s.xoffClasses x ∧ t.regs = s.regs) ∧
    (s.macSends x = true → s.fld (R.PORT_FC x) F.PORT_FC_MODE = 1 → s.sentX x ≠ 0 → s.xoffClasses x = 0 → Completes (.pfcFrameSend x) s fun t =>
      t.outs = s.outs ++ [.flow x false 255 0] ∧ t.sentX x = 0 ∧ t.regs = s.regs) ∧
    (s.macSends x = true → s.fld (R.PORT_FC x) F.PORT_FC_MODE = 1 → s.sentX x &&& s.xoffClasses x ≠ 0 → Completes (.pfcRepeatExpire x) s fun t =>
      t.outs = s.outs ++ [.flow x false 255 q] ∧ t.regs = s.regs ∧ t.pfcSent = s.pfcSent) ∧
    Completes .sintXoffEval s fun t => (∀ a, (t.acct a).r = (s.acct a).r ∧ (t.acct a).sh = (s.acct a).sh ∧ (t.acct a).h = (s.acct a).h) ∧
      t.regs = s.regs ∧ t.pkts = s.pkts ∧ (∀ a, a < 512 → s.pfcAcct a = false → (t.acct a).xoff = false)

/-- The link of an enabled port goes up and down: PORT_LINK, its interrupt, and the report to Caldera with time and reason. A report of a
down transition with a hold time starts the hold; with reason 0x6, or when the hold ends, Caldera flushes; an up report ends it. -/
def Obligations.LinkTransitionsAreReported : Prop :=
  ∀ (s : State) (x : PortN) (reason : BitVec 4),
    let up := s.linkUp x
    (s.portLive x = true → up = false → s.pMode x ≠ 0 → Completes (.linkUp x) s fun t => t.linkUp x = true ∧
      t.linkReps = s.linkReps ++ [{ port := x, up := true, reason := s.fld (R.PORT_LINK x) F.PORT_LINK_REASON, time := s.time.d }] ∧
      (t.reg (0x80010 + x.val * 0x1000)).getLsbD 0 = true ∧ t.pkts = s.pkts ∧
      s.regsKept t [R.PORT_LINK x, 0x80010 + x.val * 0x1000, 0xF80010]) ∧
    (s.portLive x = true → up = true → reason ≠ 0 → reason ≠ 6 → reason.toNat ≤ 7 → s.wakeable = false → s.tx x = none → s.pkts = [] →
      Completes (.linkDown x reason) s fun t => t.linkUp x = false ∧ t.fld (R.PORT_LINK x) F.PORT_LINK_REASON = reason.toNat ∧
      t.linkReps = s.linkReps ++ [{ port := x, up := false, reason := reason.toNat, time := s.time.d }] ∧
      (t.reg (0x80010 + x.val * 0x1000)).getLsbD 0 = true ∧ s.regsKept t [R.PORT_LINK x, R.LINK_DOWN x, 0x80010 + x.val * 0x1000]) ∧
    (s.portLive x = true → s.flag (R.PORT_MODE x) F.PORT_MODE_LT = true → up = false → exec (.ltRestart x) s = .next (s.cnt (R.LT_RESTART x))) ∧
    (reason ≠ 6 → s.fld R.XB_FLAP F.XB_FLAP_HOLD_MS ≠ 0 → s.voqs = [] → s.pkts = [] → s.linkReps = [] → Completes (.linkDownReport x reason) s fun t =>
      t.flag (R.XB_PORT x) F.XB_PORT_DOWN = true ∧ t.flag (R.XB_PORT x) F.XB_PORT_HOLD = true ∧
      smGet (fun _ => 0) t.holdEnd x = s.clk + s.fld R.XB_FLAP F.XB_FLAP_HOLD_MS * 500000 ∧ (t.reg 0x800010).getLsbD 0 = true) ∧
    (Completes (.linkUpReport x) s fun t => t.flag (R.XB_PORT x) F.XB_PORT_DOWN = false ∧ t.flag (R.XB_PORT x) F.XB_PORT_HOLD = false ∧
      s.regsKept t [R.XB_PORT x] ∧ t.pkts = s.pkts) ∧
    (s.flag (R.XB_PORT x) F.XB_PORT_HOLD = true → s.voqs = [] → s.pkts = [] → Completes (.holdTimerExpire x) s fun t =>
      t.flag (R.XB_PORT x) F.XB_PORT_HOLD = false ∧ t.flag (R.XB_PORT x) F.XB_PORT_DOWN = s.flag (R.XB_PORT x) F.XB_PORT_DOWN ∧
      (t.reg 0x800010).getLsbD 1 = true)

/-! ### The packet path (R89–R107, R120–R130, R335–R341, R364–R377) -/

/-- The parser of a pipeline takes the next frame of a source and puts it in the queue of its first engine; a thread that is idle receives
it with its context in the context buffer and event 0; a send that is OLDEST moves the packet to the next engine, whose context is the
send slot; a packet that no thread holds, marked for discard or with a send that its thread's reset left standing, moves with the context it
has, and a standing send counts. -/
def Obligations.PacketsMoveThroughTheStages : Prop :=
  ∀ (s : State) (p : PipeN) (e : EngN),
    (∀ port k rest, s.pipeOn p = true → s.fenced p = false → s.ingUsed p < 256 → (s.eng (p.val * 16)).q.length < 16 → s.nextSrc p = some port →
      s.src p port = k :: rest → Completes (.parseStart p) s fun t => t.src p port = rest ∧ (t.eng (p.val * 16)).q = (s.eng (p.val * 16)).q ++ [k] ∧
        (t.pkt k).loc = .ing p ∧ t.reg64 (R.PARSE_FRM p) = (s.reg64 (R.PARSE_FRM p) + 1) % 2 ^ 64 ∧ t.mem = s.mem ∧ t.near = s.near) ∧
    (∀ k rest i, (s.eng e).q = k :: rest → s.pipeOn (e.val / 16) = true → s.engRun e = true → (s.pkt k).discard = false → s.landed k (e.val % 16) = true →
      [1, 2, 3, 4, 5, 6, 7, 8].find? (fun i => s.suits e (((s.eng e).last + i) % 8) k) = some i → Completes (.packetDelivery e) s fun t =>
        let a := e.val * 8 + ((s.eng e).last + i) % 8
        (t.thr a).pkt = some k ∧ (t.thr a).slot = (s.pkt k).ctx ∧ t.pc a = s.fld (R.ENG_ENTRY e) F.ENG_ENTRY_PKT_ENTRY ∧
        (t.thr a).evPend.getLsbD 0 = true ∧ (t.eng e).q = rest ∧ (t.eng e).held = (s.eng e).held ++ [k] ∧ t.regs = s.regs ∧ t.mem = s.mem ∧
        ∀ b, b ≠ a → t.thr b = s.thr b) ∧
    (∀ k a, s.sendReady e = some (k, a) → s.pipeOn (e.val / 16) = true → s.hasRoom e = true → e.val % 16 ≠ 11 → e.val % 16 ≠ 15 →
      Completes (.sendCommit e) s fun t => (t.pkt k).ctx = (s.thr a).slot ∧ (t.thr a).pkt = none ∧ (t.thr a).wait = .run ∧
        (t.eng (e.val + 1)).q = (s.eng (e.val + 1)).q ++ [k] ∧ t.reg64 (R.ENG_PKT e) = (s.reg64 (R.ENG_PKT e) + 1) % 2 ^ 64 ∧ t.mem = s.mem) ∧
    (∀ k, s.discardReady e = some k → s.pipeOn (e.val / 16) = true → s.hasRoom e = true → e.val % 16 ≠ 11 → e.val % 16 ≠ 15 →
      Completes (.discardCommit e) s fun t => t.pkt k = { s.pkt k with sent := false } ∧
        t.reg64 (R.ENG_PKT e) = (s.reg64 (R.ENG_PKT e) + (if (s.pkt k).sent then 1 else 0)) % 2 ^ 64 ∧ (t.eng (e.val + 1)).q = (s.eng (e.val + 1)).q ++ [k] ∧ k ∉ (t.eng e).q ∧
        t.mem = s.mem)

/-- At VOQ enqueue a context marked for discard ends, a frame whose FCS failed ends and counts, and a unicast frame that nothing mirrors,
meters or drops joins the queue of its port and class, near or marked for spill. -/
def Obligations.VoqEnqueueQueuesOrDrops : Prop :=
  ∀ (s : State) (p : PipeN) (k : Nat) (rest : List Nat), s.voqInL p = k :: rest → s.pipeOn p = true → s.srcChks = [] →
    ((s.pkt k).discard = true → exec (.voqEnqueue p) s = .next ((s.setVoqIn p rest).endPkt k)) ∧
    ((s.pkt k).discard = false → (s.pkt k).failed = true →
      exec (.voqEnqueue p) s = .next (((s.setVoqIn p rest).endPkt k).cnt (R.PARSE_FCS_DROP p))) ∧
    (let c := (s.pkt k).ctx
     (s.pkt k).discard = false → (s.pkt k).failed = false → cDrop c = false → cMc c = false → cDest c < 64 → 
      (∀ ses, ses < 16 → s.flag (R.XB_MIR_CFG ses) F.XB_MIR_CFG_EN = false) → s.fld (R.MTR_PIPE_EN (p.val / 8)) F.MTR_PIPE_EN_ING_EN = 0 →
      s.flag (R.SINT_SPILL (cClass c)) F.SINT_SPILL_EN = false → Completes (.voqEnqueue p) s fun t =>
        t.voq (voqKey p (cDest c) (cClass c)) = s.voq (voqKey p (cDest c) (cClass c)) ++ [{ pkt := k }] ∧ (t.pkt k).loc = .voq p ∧
        (t.pkt k).dest = cDest c ∧ (t.pkt k).cls = cClass c ∧ t.voqInL p = rest ∧ t.regs = s.regs ∧ t.mem = s.mem)

/-- In each cell time the third round of the oldest matching is followed by the second of the next and the first of the newest; a round
that finds no free output changes only that count. A connection whose outputs no older one holds carries one cell at a time and is given
up with the last, when the buffers are released. -/
def Obligations.CrossbarRoundsAndCells : Prop :=
  ∀ (s : State) (i : Fin 18),
    (s.mainClk = true → s.flag R.XB_CTL F.XB_CTL_RUN = true → Completes .xbarMatchingRound s fun t =>
      t.round = (if s.round = 1 then 3 else s.round - 1) ∧ t.cellT = (if s.round = 1 then s.cellT + 1 else s.cellT) ∧ t.mem = s.mem ∧
      t.thrs = s.thrs ∧ t.clk = s.clk) ∧
    (s.mainClk = true → s.flag R.XB_CTL F.XB_CTL_RUN = true → s.round ≠ 3 → (∀ o, o < 18 → s.outFree (s.cellT + 4 - s.round) o = false) →
      exec .xbarMatchingRound s =
        .next { s with round := if s.round = 1 then 3 else s.round - 1, cellT := if s.round = 1 then s.cellT + 1 else s.cellT }) ∧
    (∀ c, s.conn i = some c → s.outTaken i c = false → s.mainClk = true → (s.pkt c.pkt).bad = false → c.sent + 1 < cellsOf (s.pkt c.pkt).len → Completes (.cellTransfer i) s fun t =>
      t.conn i = some { c with sent := c.sent + 1 } ∧ t.regs = s.regs ∧ t.mem = s.mem ∧ t.near = s.near ∧ t.voqs = s.voqs) ∧
    (∀ c l, s.conns = (i.val, c) :: l → s.mainClk = true → (s.pkt c.pkt).bad = false → cellsOf (s.pkt c.pkt).len ≤ c.sent + 1 → c.marker = false →
      Completes (.cellTransfer i) s fun t => t.conns = l ∧ t.voqs = s.voqs ∧ t.mem = s.mem)

/-- SPILL_WRITE takes the oldest marked frame: where the deep limit of its class or the deep pool has no room it is dropped and counted, and
the marks of those behind it that no deep frame precedes are taken off; else its entry becomes deep. DEEP_REFILL stores the oldest deep
frame in near buffers again, its entry becomes near, and its context names the new first buffer. -/
def Obligations.SpillAndRefillMoveTheOldestFrame : Prop :=
  ∀ (s : State) (p : PipeN) (port : AnyPort) (c : ClassN) (pre post : List VEnt) (v : VEnt),
    let key := voqKey p port c
    s.voq key = pre ++ v :: post → s.mainClk = true →
    (v.part = .marked → v.marker = false → (∀ w, w ∈ pre → w.part = .near) → (s.pkt v.pkt).bad = false → s.smallFrame v.pkt → s.deepFree = 0 →
      s.deepOpen = [] → Completes (.spillWrite p port c) s fun t => t.voq key = unmark (pre ++ post) ∧ t.hasPkt v.pkt = false ∧
        t.reg R.SINT_DEEP_DROP = (if s.reg R.SINT_DEEP_DROP = 0xFFFFFFFF then 0xFFFFFFFF else s.reg R.SINT_DEEP_DROP + 1)) ∧
    (v.part = .marked → v.marker = false → (∀ w, w ∈ pre → w.part = .near) → (s.pkt v.pkt).bad = false → s.smallFrame v.pkt →
      s.fld (R.SINT_SPILL c) F.SINT_SPILL_DEEP_MAX = 0 → s.deepOpen = [] → s.withdrawn = false → s.deepStk = [] → s.deepNext < 10485759 →
      Completes (.spillWrite p port c) s fun t =>
        (∃ n, t.voq key = pre ++ { v with part := .deep [s.deepNext] 0 n } :: post ∧ 128 + (s.pkt v.pkt).len ≤ n ∧ n % 64 = 0) ∧
        t.deepNext = s.deepNext + 1 ∧ (t.pkt v.pkt).ptr = noBuf) ∧
    (∀ bl off n, v.part = .deep bl off n → (∀ w, w ∈ pre → w.part = .near) → s.fld (R.SINT_SPILL c) F.SINT_SPILL_SPILL_TH * 512 ≤ s.nearBytes key →
      exec (.deepRefill p port c) s = .next s) ∧
    (∀ bl off n u q, v.part = .deep bl off n → (∀ w, w ∈ pre → w.part = .near) → s.nearBytes key < s.fld (R.SINT_SPILL c) F.SINT_SPILL_SPILL_TH * 512 →
      (∀ i, i < n → s.poisoned (deepAddr bl off i) = false ∧ (s.hbmPlace (deepAddr bl off i)).isSome = true) →
      s.storeFrame (poolFor (s.pkt v.pkt).len) (s.pkt v.pkt).acct (s.pkt v.pkt).owner (s.pkt v.pkt).len false
        ((List.range (s.pkt v.pkt).len).map fun i => ((s.hbmRead (deepAddr bl off (128 + i)) 1).1).headD 0) = (.stored q, u) →
      Completes (.deepRefill p port c) s fun t => (t.pkt v.pkt).ptr = q ∧ (t.pkt v.pkt).skip = 0 ∧ ctxF (t.pkt v.pkt).ctx 0 23 0 = q % 2 ^ 24 ∧
        (t.voq key).head? = (pre ++ [{ v with part := .near }]).head? ∧ t.near = u.near)

/-! ### Egress and meters (R364–R390) -/

/-- TX_SELECT takes the head of the first class queue that may start, in rank order, where no gate list runs and nothing heads a queue that
is to be dropped, and a frame that asks for a stamp puts one in the stamp FIFO; the end of a frame at a MAC counts it and its bytes, sends it
with its FCS, and ends the packet. -/
def Obligations.TransmissionStartsAndEnds : Prop :=
  ∀ (s : State) (x : AnyPort) (c k : Nat) (l : List Nat),
    (s.mainClk = true → s.tx x = none → x.val < 64 → s.flag R.TM_CTL F.TM_CTL_RUN = true → s.linkUp x = true → s.pipeOn (x.val / 4) = true →
      s.flag (R.TM_GCL_CTL x) F.TM_GCL_CTL_EN = false → (∀ d j, d < 8 → j ∈ s.txqL x d → (s.pkt j).discard = false ∧ (s.pkt j).late = false ∧ s.overMax x j = false) →
      s.ranked.find? (fun d => s.startableNoGate x d) = some c → s.txqL x c = k :: l → editBad (s.pkt k).ctx = false → cRecirc (s.pkt k).ctx = false →
      Completes (.txSelect x) s fun t => t.txqL x c = l ∧ (∃ st, t.tx x = some { pkt := k, cls := c, stamp := st }) ∧
        (ePtp (s.pkt k).ctx = 3 → (smGet (fun _ => []) s.stamps x).length < 32 →
          ∃ v, smGet (fun _ => []) t.stamps x = smGet (fun _ => []) s.stamps x ++ [(eTag (s.pkt k).ctx, v)]) ∧
        t.reg64 (R.TM_TX_SEL x) = (s.reg64 (R.TM_TX_SEL x) + 1) % 2 ^ 64 ∧ t.pkts = s.pkts ∧ t.mem = s.mem) ∧
    (∀ t0, s.tx x = some t0 → s.mainClk = true → s.fld (R.PORT_CTL x) F.PORT_CTL_LPBK = 0 → (s.pkt t0.pkt).crossed = true → (s.pkt t0.pkt).bad = false → x.val < 64 → t0.stomp = false →
      ePtp (s.pkt t0.pkt).ctx = 0 → Completes (.frameTxEnd x) s fun t =>
        let body := rewrite (s.pkt t0.pkt).ctx (s.pkt t0.pkt).hdr (s.pkt t0.pkt).len (s.pkt t0.pkt).data
        t.outs = s.outs ++ [.frame x (body ++ fcs body)] ∧ t.tx x = none ∧ t.hasPkt t0.pkt = false ∧
        t.reg64 (R.TX_FRM x) = (s.reg64 (R.TX_FRM x) + 1) % 2 ^ 64 ∧
        t.reg64 (R.TX_BYTE x) = (s.reg64 (R.TX_BYTE x) + (body ++ fcs body).length) % 2 ^ 64) ∧
    (∀ t0, s.tx 68 = some t0 → s.mainClk = true → (s.pkt t0.pkt).crossed = true → (s.pkt t0.pkt).bad = false →
      s.flag R.LRN_CFG F.LRN_CFG_RX_EN = false → Completes (.frameTxEnd 68) s fun t =>
        t.outs = s.outs ++ [.toCore 68 (rewrite (s.pkt t0.pkt).ctx (s.pkt t0.pkt).hdr (s.pkt t0.pkt).len (s.pkt t0.pkt).data)] ∧ t.tx 68 = none ∧
        t.hasPkt t0.pkt = false)

/-- The vector published for a port holds only classes that are open, and every open class that no open class of higher rank with a head
at a crossbar input hides; the wheel releases the entities whose slot has come; a gate change shows the gates at S; credit below zero
that recovers within this tick becomes 0. -/
def Obligations.EligibilityFollowsTheSchedule : Prop :=
  ∀ (s : State) (x : PortN) (c : ClassN),
    (s.mainClk = true → s.flag R.TM_CTL F.TM_CTL_RUN = true → Completes (.eligibilityVectorPublish x) s fun t =>
      (∀ d : ClassN, (t.fld (R.TM_PORT_STAT x) F.TM_PORT_STAT_VEC).testBit d = true ↔ s.clsOpen x d = true ∧
        ∀ e : ClassN, s.rank d < s.rank e → s.clsOpen x e = true → ∀ i, i < 16 → s.reqHead (voqKey i x e) = none) ∧
      s.regsKept t [R.TM_PORT_STAT x] ∧ ({ t with regs := s.regs } : State) = s) ∧
    (s.mainClk = true → s.time.skipFrom = none → Completes .wheelSlotRelease s fun t => t.slotNow = s.s16 / (64 * 65536) ∧
      (∀ e n, smFind t.wheel e = some n → s.s16 / (64 * 65536) < n) ∧ t.regs = s.regs ∧ t.vts = s.vts) ∧
    (s.mainClk = true → Completes (.gateChange x) s fun t => t.fld (R.TM_PORT_STAT x) F.TM_PORT_STAT_OPEN = (s.gateSeg x s.sNs).1 % 256 ∧
      s.regsKept t [R.TM_PORT_STAT x] ∧ ({ t with regs := s.regs } : State) = s) ∧
    (s.cred x c < 0 → 0 ≤ s.cred x c + 2 * (s.slope x c : Nat) → s.shaped x c = true → s.sendingCls x c = false → s.paused x c = false → s.gateOpen x c s.sNs = true →
      Completes (.shaperCreditRecovery x c) s fun t => t.cred x c = 0 ∧ (∀ d : ClassN, d ≠ c → t.cred x d = s.cred x d) ∧ t.regs = s.regs)

/-- A switch request on a port with none pending fixes the change time: the administrative base if S has not passed it or reaches it in this
tick, else the next whole cycle from it; with one pending, or an administrative list out of range, it is refused. At the change time the banks swap. -/
def Obligations.GateListSwitches : Prop :=
  ∀ (s : State) (who : Req) (x : PortN) (v : W32),
    let len := bits v.toNat 8 0
    let cyc := s.fld (R.TM_GCL_ADM_CYCLE x) F.TM_GCL_ADM_CYCLE
    let base := s.timeAt (R.TM_GCL_ADM_BASE_NS x)
    let now := ceilDiv s.time.sched nsU
    let pend := s.flag (R.TM_GCL_CTL x) F.TM_GCL_CTL_PEND
    (s.open who (R.TM_GCL_CTL x) → pend = false → 1 ≤ len → len ≤ 256 → 1 ≤ cyc → cyc ≤ 1000000000 → base < 2 ^ 48 * 1000000000 → now < 2 ^ 48 * 1000000000 - 1000000000 →
      Completes (.gclSwitchRequest who x v) s fun t =>
      t.flag (R.TM_GCL_CTL x) F.TM_GCL_CTL_PEND = true ∧ t.fld (R.TM_GCL_CTL x) F.TM_GCL_CTL_ADMIN_LEN = len ∧
      t.timeAt (R.TM_GCL_CHG_NS x) = (if now ≤ base ∨ s.time.reaches (base * nsU) = true then base else base + ceilDiv (now - base) cyc * cyc)) ∧
    (s.open who (R.TM_GCL_CTL x) → (pend = true ∨ len = 0 ∨ 256 < len ∨ cyc = 0 ∨ 1000000000 < cyc) →
      exec (.gclSwitchRequest who x v) s = .next (s.violAt who.toNat 3 (R.TM_GCL_CTL x))) ∧
    (s.mainClk = true → pend = true → s.timeAt (R.TM_GCL_CHG_NS x) ≤ s.sNs → s.txq = [] → Completes (.gclSwitch x) s fun t =>
      t.flag (R.TM_GCL_CTL x) F.TM_GCL_CTL_PEND = false ∧ t.flag (R.TM_GCL_CTL x) F.TM_GCL_CTL_INSTALLED = true ∧
      t.fld (R.TM_GCL_CTL x) F.TM_GCL_CTL_OPER_BANK = 1 - s.fld (R.TM_GCL_CTL x) F.TM_GCL_CTL_OPER_BANK ∧
      t.fld (R.TM_GCL_OPER_LEN x) F.TM_GCL_OPER_LEN = s.fld (R.TM_GCL_CTL x) F.TM_GCL_CTL_ADMIN_LEN % 512 ∧
      (t.reg (0x910010 + x.val * 0x1000)).getLsbD 0 = true)

/-- The meter commands: NOP, WRITE of a meter with its buckets full, READ into the registers, FILL; a WRITE out of range answers 5 and
leaves the meter. Each ends with its status and the cause of its page. Colour of a packet at a meter: a disabled one (CIR = 0) is green
when it is not colour-aware; a colour-blind single-rate meter takes the first bucket that holds its bytes, and none can take it is red;
the buckets never exceed their sizes after a refill. -/
def Obligations.MetersActAndColour : Prop :=
  (∀ (s : State) (who : Req) (h : HalfN) (i : Fin 131072), s.open who (R.MTR_CMD_CTL h) →
    let ended (t : State) (st : Nat) : Prop := (t.reg (R.MTR_CMD_STAT h)).toNat = st ∧ t.flag (R.MTR_CMD_CTL h) F.MTR_CMD_CTL_GO = false ∧
      (t.reg (mtrPage h + 0x10)).getLsbD 0 = true ∧ t.mem = s.mem ∧ t.thrs = s.thrs
    let cir := (s.reg (R.MTR_CMD_CIR h)).toNat
    let pir := (s.reg (R.MTR_CMD_PIR h)).toNat
    let cbs := s.fld (R.MTR_CMD_CBS h) F.MTR_CMD_CBS
    let xbs := s.fld (R.MTR_CMD_XBS h) F.MTR_CMD_XBS
    let cfg := s.reg (R.MTR_CMD_CFG h)
    let rate (n : Nat) : Prop := n = 0 ∨ (8 ≤ n ∧ n ≤ 400000000)
    let good := rate cir ∧ rate pir ∧ 64 ≤ cbs ∧ 64 ≤ xbs ∧ (cfg.getLsbD 31 = true → cir ≤ pir)
    let m := s.meter h i
    Completes (.mtrNop who h i) s (fun t => ended t 0 ∧ t.meters = s.meters) ∧
    (good → Completes (.mtrWrite who h i) s fun t => ended t 0 ∧
      t.meter h i = { cfg := cfg &&& 0xE0000000, cir := cir, pir := pir, cbs := cbs, xbs := xbs, t1 := cbs * 65536, t2 := xbs * 65536, at_ := s.sNs } ∧
      (∀ g : HalfN, ∀ j : Fin 131072, (g, j) ≠ (h, i) → t.meter g j = s.meter g j)) ∧
    (¬ good → Completes (.mtrWrite who h i) s fun t => ended t 5 ∧ t.meters = s.meters) ∧
    Completes (.mtrRead who h i) s (fun t => ended t 0 ∧ t.meters = s.meters ∧ t.reg (R.MTR_CMD_CFG h) = m.cfg ∧
      t.reg (R.MTR_CMD_TOK1 h) = BitVec.ofNat 32 (m.t1 / 65536) ∧ t.reg (R.MTR_CMD_TOK2 h) = BitVec.ofNat 32 (m.t2 / 65536)) ∧
    Completes (.mtrFill who h i) s (fun t => ended t 0 ∧ t.meter h i = { m with t1 := m.cbs * 65536, t2 := m.xbs * 65536, at_ := s.sNs })) ∧
  (∀ (m : Meter) (now b cin : Nat),
    (m.cir = 0 → m.aware = false → m.colour now b cin = (0, m)) ∧
    (m.cir ≠ 0 → m.aware = false → m.tr = false → (m.colour now b cin).1 =
      (if b * 65536 ≤ (m.refill now).t1 then 0 else if b * 65536 ≤ (m.refill now).t2 then 1 else 2)) ∧
    (m.cir ≠ 0 → m.aware = false → m.tr = true → (m.colour now b cin).1 =
      (if (m.refill now).t2 < b * 65536 then 2 else if (m.refill now).t1 < b * 65536 then 1 else 0)) ∧
    (m.refill now).t1 ≤ m.cbs * 65536 ∧ (m.refill now).t2 ≤ m.xbs * 65536)

/-- The registers of ports and lanes: PORT_MODE and the lane maps are written only while their ports are disabled and with a value that
their rules allow, and are refused otherwise; clearing PORT_CTL.EN takes the link down with reason 0x6; the stamp FIFO is read from its
oldest entry, and gives it up with the last word of the group. Registers of Caldera: the selected group's bitmap is loaded into the MAP
registers and stored from them; a flush of a port removes its frames from the queues. -/
def Obligations.PortAndCrossbarRegistersFollowTheirRules : Prop :=
  (∀ (s : State) (who : Req) (x : PortN) (m : Fin 8) (v : W32),
    let en := s.flag (R.PORT_CTL x) F.PORT_CTL_EN
    let perm := ∀ l, l < 8 → ∃ k, k < 8 ∧ bits v.toNat (3 * k + 2) (3 * k) = l
    (s.open who (R.PORT_MODE x) → en = false → s.modeOk x (bits v.toNat 3 0) = true → Completes (.portModeWrite who x v) s fun t =>
      s.onlyRegs t [R.PORT_MODE x] ∧ t.pMode x = bits v.toNat 3 0) ∧
    (s.open who (R.PORT_MODE x) → (en = true ∨ s.modeOk x (bits v.toNat 3 0) = false) →
      exec (.portModeWrite who x v) s = .next (s.violAt who.toNat 3 (R.PORT_MODE x))) ∧
    (s.open who (R.PORT_CTL x) → en = true → 64 ≤ bits v.toNat 13 0 → bits v.toNat 13 0 ≤ 9216 → s.tx x = none → s.pkts = [] →
      Completes (.portDisable who x v) s fun t => t.flag (R.PORT_CTL x) F.PORT_CTL_EN = false ∧ t.linkUp x = false ∧
      t.fld (R.PORT_LINK x) F.PORT_LINK_REASON = 6 ∧ t.linkReps = s.linkReps ++ [{ port := x, up := false, reason := 6, time := s.time.d }]) ∧
    (∀ which : LaneReg, let a := match which with | .mapTx => R.SDS_LANE_MAP_TX m | .mapRx => R.SDS_LANE_MAP_RX m | .pol => R.SDS_LANE_POL m
      s.open who a → s.macroOff m = false → exec (.sdsLaneMapWrite who m which v) s = .next (s.violAt who.toNat 3 a)) ∧
    (s.open who (R.SDS_LANE_MAP_TX m) → s.macroOff m = true → perm → Completes (.sdsLaneMapWrite who m .mapTx v) s fun t =>
      s.onlyRegs t [R.SDS_LANE_MAP_TX m] ∧ bits (t.reg (R.SDS_LANE_MAP_TX m)).toNat 23 0 = bits v.toNat 23 0) ∧
    (s.open who (R.PORT_TS_TAG x) → s.stampL x = [] →
      exec (.portTsTagRead who x) s = .next { s with rdata := 0 }) ∧
    (∀ tag st l, s.open who (R.PORT_TS_TAG x) → s.stampL x = (tag, st) :: l → s.latched who.toNat (R.PORT_TS_TAG x) = none →
      Completes (.portTsTagRead who x) s fun t => t.rdata = BitVec.ofNat 32 (st % 65536 * 65536 + tag) ∧ t.stamps = s.stamps ∧
        t.latched who.toNat (R.PORT_TS_SEC_HI x) = some (BitVec.ofNat 32 (st / 65536 / 1000000000 / 2 ^ 32 % 65536)) ∧ t.regs = s.regs) ∧
    (∀ w, s.open who (R.PORT_TS_SEC_HI x) → s.latched who.toNat (R.PORT_TS_SEC_HI x) = some w → Completes (.portTsSecHiRead who x) s fun t =>
      t.rdata = w ∧ t.stampL x = (s.stampL x).drop 1 ∧ t.latched who.toNat (R.PORT_TS_SEC_HI x) = none ∧ t.regs = s.regs)) ∧
  (∀ (s : State) (who : Req) (v : W32) (x : AnyPort),
    (s.open who R.XB_MCG_SEL → Completes (.xbMcgSelWrite who v) s fun t => t.fld R.XB_MCG_SEL F.XB_MCG_SEL_GROUP = bits v.toNat 15 0 ∧
      (∀ i, i < 3 → t.reg (R.XB_MCG_MAP_0 + 4 * i) = s.reg (mcgReg (bits v.toNat 15 0) i)) ∧
      s.onlyRegs t [R.XB_MCG_SEL, R.XB_MCG_MAP_0, R.XB_MCG_MAP_1, R.XB_MCG_MAP_2]) ∧
    (s.open who R.XB_MCG_MAP_2 → Completes (.xbMcgMap2Write who v) s fun t =>
      let g := s.fld R.XB_MCG_SEL F.XB_MCG_SEL_GROUP
      t.reg (mcgReg g 0) = s.reg R.XB_MCG_MAP_0 ∧ t.reg (mcgReg g 1) = s.reg R.XB_MCG_MAP_1 ∧ bits (t.reg (mcgReg g 2)).toNat 7 0 = bits v.toNat 7 0 ∧
      s.onlyRegs t [R.XB_MCG_MAP_2, mcgReg g 0, mcgReg g 1, mcgReg g 2]) ∧
    (s.open who (R.XB_PORT x) → s.voqs = [] → exec (.xbPortFlush who x) s = .next s) ∧
    (s.open who (R.XB_PORT x) → exec (.xbPortFlush who x) s = .next (s.flushPort x)))

/-! ### Time (R62–R88) -/

/-- Events of the time unit: an edge is timed against the nearest second; a message without an edge, less than 10 ms or more than 900 ms
after it, or with a wrong check is an error; the loss of samples enters HOLDOVER; a lock of the reference shows in REF_OK; a finished slew clears SLEWING; the watermark is
cleared when D reaches it; a block that disagrees is counted, signalled and logged; the outputs follow their enables and come at a whole
second of D and 100 ms after it. What is due fires before a forced step, which then sets D to its target; backward, the watermark keeps S; events that a forward step skips are released before the step is complete.
A trigger whose time S has reached fires once and is disarmed, or re-armed by its period. -/
def Obligations.TimeEventsAndStepsHaveTheirEffect : Prop :=
  (∀ (s : State) (first : Byte) (rest : List Byte),
    let bs := first :: rest
    let ns := s.dNs % 1000000000
    (s.mode ≠ mOFF → Completes .ppsEdge s fun t => t.time.edge = some (s.time.d, s.time.run) ∧
      t.reg R.TIME_PPS_ERR = BitVec.ofInt 32 (if ns ≤ 500000000 then (ns : Int) else (ns : Int) - 1000000000) ∧ t.time.d = s.time.d ∧ t.mem = s.mem) ∧
    (s.mode ≠ mOFF → s.time.stepTick ≠ some s.clk → s.tState = tLOCKED →
      s.fld R.TIME_IO F.TIME_IO_PPS_REJ * 1000 < (if ns ≤ 500000000 then ns else 1000000000 - ns) → s.time.rej + 1 ≠ 4 →
      Completes .ppsEdge s fun t => t.time.rej = s.time.rej + 1 ∧ t.tState = tLOCKED ∧ (t.reg 0x10010).getLsbD 2 = true) ∧
    ((s.time.edge = none ∨ todOk bs = false) → exec (.todMessage first rest) s = .next ((s.cnt R.TOD_ERR).raise 0x10000 3)) ∧
    (∀ d at_, s.time.edge = some (d, at_) → (s.time.run - at_ < 10000000 * nsU ∨ 900000000 * nsU < s.time.run - at_) →
      exec (.todMessage first rest) s = .next ((s.cnt R.TOD_ERR).raise 0x10000 3)) ∧
    (∀ d at_, s.time.edge = some (d, at_) → 10000000 * nsU ≤ s.time.run - at_ → s.time.run - at_ ≤ 900000000 * nsU → todOk bs = true → (bs.getD 3 0).getLsbD 0 = true → valBE ((bs.drop 4).take 6) = (d / nsU + 500000000) / 1000000000 →
      s.flag R.TIME_CTL F.TIME_CTL_AUTOSET = false → exec (.todMessage first rest) s = .next { s with time := { s.time with todAt := some s.clk, mism := 0 } }) ∧
    (s.tSrc ≠ 0 → s.tState ≠ tHOLDOVER → s.mode ≠ mOFF → Completes .holdoverTimeout s fun t => t.tState = tHOLDOVER ∧ (t.reg 0x10010).getLsbD 0 = true ∧
      t.time.d = s.time.d) ∧
    (s.mode ≠ mOFF → Completes .timePllLock s fun t => t.flag R.TIME_STAT F.TIME_STAT_REF_OK = true ∧ s.onlyRegs t [R.TIME_STAT]) ∧
    (Completes .timePllLockLost s fun t => t.flag R.TIME_STAT F.TIME_STAT_REF_OK = false ∧ s.onlyRegs t [R.TIME_STAT]) ∧
    (s.time.slew = 0 → Completes .slewEnd s fun t => t.flag R.TIME_STAT F.TIME_STAT_SLEWING = false ∧ s.onlyRegs t [R.TIME_STAT]) ∧
    (∀ w, s.time.w = some w → w ≤ s.time.d → exec .watermarkReached s = .next { s with time := { s.time with w := none } }) ∧
    (Completes (.timeDistBroadcast true) s fun t =>
      t.reg R.DIST_ERR = (if s.reg R.DIST_ERR = 0xFFFFFFFF then 0xFFFFFFFF else s.reg R.DIST_ERR + 1) ∧ (t.reg 0x10010).getLsbD 4 = true ∧
      (s.rasLog.length < 512 → t.rasLog.length = s.rasLog.length + 1)) ∧
    (s.flag R.TIME_IO F.TIME_IO_PPS_OUT_EN = true → s.secondAnd 0 = true → s.mode ≠ mOFF →
      exec .ppsOutEdge s = .next { s with outs := s.outs ++ [.pps (s.fld R.TIME_IO F.TIME_IO_PPS_W)] }) ∧
    (s.flag R.TIME_IO F.TIME_IO_TOD_OUT_EN = true → s.secondAnd 100000000 = true → s.mode ≠ mOFF → Completes .todOutSend s fun t => ∃ b, t.outs = s.outs ++ [.tod b] ∧ b.length = 16 ∧
      todOk b = true ∧ valBE ((b.drop 4).take 6) = s.dNs / 1000000000 % 2 ^ 48)) ∧
  (∀ s : State,
    let u := s.fireDue
    (s.time.ordered = true → s.mode ≠ mOFF → u.stepTarget < u.time.d → Completes .forcedStep s fun t => t.time.d = u.stepTarget ∧ t.time.slew = 0 ∧
      t.time.ordered = false ∧ t.flag R.TIME_STEP F.TIME_STEP_BUSY = false ∧ u.time.sched ≤ t.time.sched ∧ (t.reg 0x10010).getLsbD 1 = true ∧
      t.flag R.TIME_STAT F.TIME_STAT_VALID = true) ∧
    (s.time.ordered = true → s.mode ≠ mOFF → u.time.d ≤ u.stepTarget → Completes .forcedStep s fun t => t.time.d = u.stepTarget ∧
      t.time.ordered = false ∧ t.flag R.TIME_STAT F.TIME_STAT_VALID = true ∧ u.time.sched ≤ t.time.sched) ∧
    (∀ old new, s.time.skipFrom = some (old, new) → Completes .skippedEventRelease s fun t => t.time.skipFrom = none ∧ t.time.d = s.time.d ∧
      t.flag R.TIME_STEP F.TIME_STEP_BUSY = false ∧ (t.reg 0x10010).getLsbD 1 = true) ∧
    (∀ k : Fin 8, let c := R.TIME_TRIG_CTL k
      s.flag c F.TIME_TRIG_CTL_ARM = true → s.time.skipFrom = none → s.trigNs k ≤ s.sNs → s.mode ≠ mOFF → s.fld c F.TIME_TRIG_CTL_ACT = 1 →
      s.fld c F.TIME_TRIG_CTL_PERIOD_US = 0 → Completes (.timeTriggerFire k) s fun t => t.flag c F.TIME_TRIG_CTL_ARM = false ∧
        (t.reg 0x10010).getLsbD (8 + k) = true ∧
        t.outs = s.outs ++ [.gpioPulse (s.fld c F.TIME_TRIG_CTL_ARG % 32)] ∧ t.time = s.time))

/-- Registers of the time unit: TIME_ADJ_NS adds to the remaining slew where the hardware servo does not act; TIME_STEP orders a step, and is
refused while one is busy; TIME_NOW_FRAC gives the fraction of D and latches the rest for its reader; a reserved source is refused whole. -/
def Obligations.TimeRegistersFollowTheirRules : Prop :=
  ∀ (s : State) (who : Req) (v : W32),
    (s.open who R.TIME_ADJ_NS → s.tSrc = 0 → Completes (.timeAdjNsWrite who v) s fun t => t.time.slew = s.time.slew + v.toInt * 2 ^ 48 ∧
      t.time.d = s.time.d ∧ s.regsKept t [R.TIME_STAT]) ∧
    (s.open who R.TIME_ADJ_NS → s.tSrc = 2 → exec (.timeAdjNsWrite who v) s = .next (s.violAt who.toNat 3 R.TIME_ADJ_NS)) ∧
    (s.open who R.TIME_STEP → s.flag R.TIME_STEP F.TIME_STEP_BUSY = false → Completes (.timeStepGo who) s fun t => t.time.ordered = true ∧
      t.time.target = none ∧ t.time.d = s.time.d ∧ t.flag R.TIME_STEP F.TIME_STEP_BUSY = true ∧ s.regsKept t [R.TIME_STEP]) ∧
    (s.open who R.TIME_STEP → s.flag R.TIME_STEP F.TIME_STEP_BUSY = true → exec (.timeStepGo who) s = .next (s.violAt who.toNat 3 R.TIME_STEP)) ∧
    (s.open who R.TIME_NOW_FRAC → s.latched who.toNat R.TIME_NOW_FRAC = none → Completes (.timeNowFracRead who) s fun t =>
      t.rdata = BitVec.ofNat 32 (s.time.d / 2 ^ 32 % 65536) ∧ t.latched who.toNat R.TIME_NOW_NS = some (BitVec.ofNat 32 (s.dNs % 1000000000)) ∧
      t.latched who.toNat R.TIME_NOW_SEC_LO = some (BitVec.ofNat 32 (s.dNs / 1000000000 % 2 ^ 32)) ∧ t.regs = s.regs ∧ t.time = s.time) ∧
    (s.open who R.TIME_CTL → bits v.toNat (F.TIME_CTL_SRC).hi (F.TIME_CTL_SRC).lo = 3 →
      exec (.timeCtlWrite who v) s = .next (s.violAt who.toNat 3 R.TIME_CTL)) ∧
    (s.open who R.TIME_CTL → bits v.toNat (F.TIME_CTL_SRC).hi (F.TIME_CTL_SRC).lo = 0 →
      Completes (.timeCtlWrite who v) s fun t => t.tSrc = 0 ∧ t.tState = tFREERUN ∧ t.time.d = s.time.d)

/-! ### Tables and lookups (R208–R259) -/

/-- The exact-match commands, as seen with the command register written (`g`): each ends with its status in EM_CMD_STAT, BUSY set, and
the effect of R227 on the entries its key names: INSERT places its entry where R214 says, or finds it there already; DELETE, MODIFY and
VIEW_ADD act on the entry found, SEARCH and READ_AT return it, COUNTER_READ adds the counters of both halves and clears them where CLR
orders it, WRITE_PAGE writes its page. While a command is busy, a bulk load runs or a commit is pending, the order is refused. A bulk
load runs from START until its last record, and writes each record's entry; a second START while it runs is refused, and ABORT ends it, or
reads TOO_LATE in the cycle of its completion point.
EM_SEED and EM_TBL_CFG_n are written only while the tables they govern are empty, WIDTH being derived. -/
def Obligations.ExactMatchCommandsAndBulkLoadsAct : Prop :=
  (∀ (s : State) (who : Req) (h : HalfN) (v : W32),
    let ok := s.open who (R.EM_CMD_CTL h) ∧ s.emBusy = false ∧ s.bulkRuns = false ∧ s.commitPend = false
    let g (op : Nat) : State := s.setReg (R.EM_CMD_CTL 0) (goOp op v &&& 0x0FE0FF00)
    let tbl := bits v.toNat 15 8
    let vw := bits v.toNat 23 22
    let key := s.keyRegs.take (s.keyB tbl)
    let ents (op : Nat) := (g op).keyEnts tbl key
    let hits (op : Nat) := (ents op).filter fun e => e.2.view &&& vw != 0
    let named (op : Nat) : Prop := ok ∧ s.emEn tbl = true ∧ vw ≠ 0 ∧ (g op).cmdBad tbl key = false
    let ended (t : State) (st : Nat) : Prop := t.reg (R.EM_CMD_STAT 0) = BitVec.ofNat 32 (2 ^ 31 + st)
    let left (t : State) : Prop := t.em = s.em ∧ t.mem = s.mem ∧ t.dirty = s.dirty
    let new : EmEnt := { emOf (s.reg64 (R.EM_CMD_HDR_LO 0)) 0 0 [] with
      tbl := tbl, view := vw, key := key, data := bytesBE (s.dataB tbl) (s.reg64 (R.EM_CMD_DATA_LO 0)) }
    let loc := (s.reg (R.EM_CMD_LOC 0)).toNat
    (ok → Completes (.emNop who h) s fun t => ended t 0 ∧ s.onlyRegs t [R.EM_CMD_CTL 0, R.EM_CMD_STAT 0]) ∧
    (∀ p, named 1 → hits 1 = [] → (g 1).quotaFull new.inst = false →
      (g 1).placeEnt (s.emDeep tbl) ((g 1).bucketOf tbl key (s.emDeep tbl)) new.slots = some p → Completes (.emInsert who h v) s fun t =>
        ended t 0 ∧ t.reg (R.EM_CMD_LOC 0) = BitVec.ofNat 32 (locReg p) ∧ t.em = ((g 1).putEnt p new).em ∧ t.mem = ((g 1).putEnt p new).mem ∧
        (p < deep0 → smFind t.em p = some new ∧ (∀ q, q ≠ p → smFind t.em q = smFind s.em q) ∧ t.mem = s.mem)) ∧
    (named 1 → hits 1 ≠ [] → Completes (.emInsert who h v) s fun t => ended t 1 ∧ left t) ∧
    (∀ p e, named 2 → hits 2 = [(p, e)] → p < deep0 → Completes (.emDelete who h v) s fun t =>
      ended t 0 ∧ smFind t.em p = (if e.view &&& (3 ^^^ vw) = 0 then none else some { e with view := e.view &&& (3 ^^^ vw) }) ∧
      (∀ q, q ≠ p → smFind t.em q = smFind s.em q) ∧ t.mem = s.mem) ∧
    (∀ p e l, named 3 → vw ≠ 3 → hits 3 = (p, e) :: l → Completes (.emSearch who h v) s fun t =>
      ended t 0 ∧ t.reg (R.EM_CMD_LOC 0) = BitVec.ofNat 32 (locReg p) ∧ t.reg (R.EM_CMD_DATA_LO 0) = BitVec.ofNat 32 (valBE e.data) ∧
      t.reg (R.EM_CMD_HDR_LO 0) = BitVec.ofNat 32 e.hdr ∧ left t ∧ (∀ n, n < 30 → t.reg (R.EM_CMD_KEY 0 n) = s.reg (R.EM_CMD_KEY 0 n))) ∧
    (named 3 → vw ≠ 3 → hits 3 = [] → Completes (.emSearch who h v) s fun t => ended t 2 ∧ left t) ∧
    (∀ p e, named 4 → hits 4 = [(p, e)] → p < deep0 → Completes (.emModify who h v) s fun t =>
      ended t 0 ∧ smFind t.em p = some { new with view := e.view, sw := e.sw } ∧ (∀ q, q ≠ p → smFind t.em q = smFind s.em q) ∧ t.mem = s.mem) ∧
    (∀ p e, named 5 → ents 5 = [(p, e)] → p < deep0 → Completes (.emViewAdd who h v) s fun t =>
      ended t 0 ∧ smFind t.em p = some { e with view := e.view ||| vw } ∧ (∀ q, q ≠ p → smFind t.em q = smFind s.em q) ∧ t.mem = s.mem) ∧
    (∀ p e, ok → locPlace loc = some p → p < deep0 → s.emBad = [] → smFind s.em p = some e → Completes (.emReadAt who h v) s fun t =>
      ended t 0 ∧ t.reg (R.EM_CMD_HDR_LO 0) = BitVec.ofNat 32 e.hdr ∧ t.reg (R.EM_CMD_DATA_LO 0) = BitVec.ofNat 32 (valBE e.data) ∧ left t) ∧
    (ok → locPlace loc = none → Completes (.emReadAt who h v) s fun t => ended t 5 ∧ left t) ∧
    (let i := s.reg64 (R.EM_CMD_HDR_LO 0) % 2 ^ 24
     (ok → i = 0 → Completes (.emCtrRead who h v) s fun t => ended t 5 ∧ left t ∧ t.ctrs = s.ctrs) ∧
     (ok → i ≠ 0 → i < 0x100000 → Completes (.emCtrRead who h v) s fun t => ended t 0 ∧ left t ∧
      t.reg (R.EM_CMD_CTR_PKT_LO 0) = BitVec.ofNat 32 ((s.ctrGet 0 i).1 + (s.ctrGet 1 i).1) ∧
      t.reg (R.EM_CMD_CTR_BYTE_LO 0) = BitVec.ofNat 32 ((s.ctrGet 0 i).2 + (s.ctrGet 1 i).2) ∧
      (v.getLsbD 21 = true → t.ctrGet 0 i = (0, 0) ∧ t.ctrGet 1 i = (0, 0)) ∧ (v.getLsbD 21 = false → t.ctrs = s.ctrs))) ∧
    (ok → Completes (.emWritePage who h v) s fun t => ended t ((g 8).writePage loc).1 ∧ t.mem = ((g 8).writePage loc).2.mem ∧ t.em = s.em) ∧
    (ok → bits loc 31 30 ≠ 2 → Completes (.emWritePage who h v) s fun t => ended t 5 ∧ left t) ∧
    (s.open who (R.EM_CMD_CTL h) → (s.emBusy = true ∨ s.bulkRuns = true ∨ s.commitPend = true) →
      ∀ c ∈ [Instr.emNop who h, .emInsert who h v, .emDelete who h v, .emSearch who h v, .emModify who h v, .emViewAdd who h v, .emReadAt who h v,
        .emCtrRead who h v, .emWritePage who h v], exec c s = .next (s.violAt who.toNat 3 (R.EM_CMD_CTL h))) ∧
    (s.emBusy = true → Completes .emCmdComplete s fun t => t.emBusy = false ∧ (t.reg 0x400010).getLsbD 0 = true ∧
      (t.reg 0x500010).getLsbD 0 = true ∧ s.onlyRegs t [R.EM_CMD_STAT 0, 0x400010, 0x500010])) ∧
  (∀ (s : State) (who : Req) (h : HalfN) (v : W32) (n : Fin 256),
    let cnt := s.fld (R.EM_BULK_CNT 0) F.EM_BULK_CNT_CNT
    let done := s.fld (R.EM_BULK_CTL 0) F.EM_BULK_CTL_DONE
    let state (t : State) := t.fld (R.EM_BULK_CTL 0) F.EM_BULK_CTL_STATE
    let desc := R.EM_TBL_CFG h n
    let keyB := bits v.toNat 27 21
    let dataB := bits v.toNat 20 18
    let good := s.reg (R.EM_TBL_CNT 0 n) = 0 ∧ 1 ≤ keyB ∧ dataB ≤ 6 ∧ keyB + dataB ≤ 120
    (s.open who (R.EM_BULK_CTL h) → s.bulkRuns = true → exec (.emBulkStart who h) s = .next (s.violAt who.toNat 3 (R.EM_BULK_CTL h))) ∧
    (s.open who (R.EM_BULK_CTL h) → s.bulkRuns = false → cnt ≠ 0 → Completes (.emBulkStart who h) s fun t =>
      t.bulkRuns = true ∧ t.fld (R.EM_BULK_CTL 0) F.EM_BULK_CTL_DONE = 0 ∧ s.onlyRegs t [R.EM_BULK_CTL 0, R.EM_BULK_FAIL 0]) ∧
    (s.open who (R.EM_BULK_CTL h) → s.bulkRuns = true → Completes (.emBulkAbort who h) s fun t => state t = 3 ∧
      t.fld (R.EM_BULK_CTL 0) F.EM_BULK_CTL_ABORT_ST = 1 ∧ (t.reg 0x400010).getLsbD 1 = true ∧ t.em = s.em ∧ t.mem = s.mem) ∧
    (s.open who (R.EM_BULK_CTL h) → s.bulkRuns = false → s.atPoint (R.EM_BULK_CTL 0) = true → Completes (.emBulkAbort who h) s fun t =>
      state t = state s ∧ t.fld (R.EM_BULK_CTL 0) F.EM_BULK_CTL_ABORT_ST = 2 ∧ t.em = s.em ∧ t.mem = s.mem) ∧
    (s.bulkRuns = false → exec .emBulkRecord s = .next s) ∧
    (s.bulkRuns = true → done + 1 < cnt → Completes .emBulkRecord s fun t => t.fld (R.EM_BULK_CTL 0) F.EM_BULK_CTL_DONE = done + 1 ∧ state t = 1) ∧
    (s.bulkRuns = true → done + 1 = cnt → Completes .emBulkRecord s fun t => state t = 2 ∧ (t.reg 0x400010).getLsbD 1 = true) ∧
    (s.open who (R.EM_SEED h) → s.seedOk = true → Completes (.emSeedWrite who h v) s fun t => t.reg (R.EM_SEED 0) = v ∧ t.bcache = [] ∧
      s.regsKept t [R.EM_SEED 0]) ∧
    (s.open who (R.EM_SEED h) → s.seedOk = false → exec (.emSeedWrite who h v) s = .next (s.violAt who.toNat 3 (R.EM_SEED h))) ∧
    (s.open who desc → good → Completes (.emTblCfgWrite who h n v) s fun t => s.onlyRegs t [R.EM_TBL_CFG 0 n] ∧
      bits (t.reg (R.EM_TBL_CFG 0 n)).toNat 27 18 = bits v.toNat 27 18 ∧ bits (t.reg (R.EM_TBL_CFG 0 n)).toNat 31 30 = bits v.toNat 31 30 ∧
      t.fld (R.EM_TBL_CFG 0 n) F.EM_TBL_CFG_WIDTH = wCode (keyB + dataB)) ∧
    (s.open who desc → ¬ good → exec (.emTblCfgWrite who h n v) s = .next (s.violAt who.toNat 3 (R.EM_TBL_CFG h n))))

/-- The ternary commands: INSERT finds the row of its priority and the moves before it, DELETE and VIEW_ADD change the view bits of the row
found, MODIFY its data, SEARCH and MATCH return the first row, READ_AT any row. A row freed is no longer valid, and the rest of it stands.
The make-room engine moves one row at a time, and at completion the new row stands where its priority wants it. A parity error of the
sweep is repaired from the other array, or the row is lost. While a command is busy or a commit is pending, the order is refused. -/
def Obligations.TernaryCommandsAct : Prop :=
  ∀ (s : State) (who : Req) (h : HalfN) (v : W32),
    let open_ := s.open who (R.TC_CMD_CTL h)
    let ok := open_ ∧ s.tcBusy = false ∧ s.commitPend = false
    let tbl := bits v.toNat 15 8
    let vw := bits v.toNat 23 22
    let mask := s.tcWide (R.TC_CMD_MASK 0)
    let val := s.tcWide (R.TC_CMD_VAL 0)
    let data := s.reg64 (R.TC_CMD_DATA_LO 0) % 2 ^ 48
    let same := s.rows.filter fun e => (e.2.tag == tbl) && (e.2.mask == mask) && (e.2.val == (val &&& mask))
    let hits := same.filter fun e => e.2.view &&& vw != 0
    let named := ok ∧ s.tcEn tbl = true ∧ vw ≠ 0
    let hdr := s.reg64 (R.TC_CMD_HDR_LO 0)
    let new : TcRow := { tag := tbl, view := vw, prio := if v.getLsbD 30 then popN mask else bits v.toNat 7 0, inst := bits hdr 46 39,
                         ctr := bits hdr 23 0, val := val &&& mask, mask := mask, data := data }
    let ended (t : State) (st : Nat) : Prop := t.tcBusy = true ∧ t.fld (R.TC_CMD_STAT 0) F.TC_CMD_STAT_STATUS = st
    let left (t : State) : Prop := t.tcr = s.tcr ∧ t.mrMoves = s.mrMoves ∧ t.mem = s.mem
    let found (t : State) (r : Nat) (e : TcRow) : Prop := t.reg (R.TC_CMD_LOC 0) = BitVec.ofNat 32 r ∧
      t.reg (R.TC_CMD_HDR_LO 0) = BitVec.ofNat 32 e.hdr ∧ t.reg (R.TC_CMD_DATA_LO 0) = BitVec.ofNat 32 e.data
    (ok → Completes (.tcNop who h) s fun t => ended t 0 ∧ left t ∧ s.onlyRegs t [R.TC_CMD_CTL 0, R.TC_CMD_STAT 0]) ∧
    (∀ r m, named → hits = [] → s.quotaFull new.inst = false → makeRoom s.rows new.prio = some (r, m) →
      Completes (.tcInsert who h v) s fun t => ended t 0 ∧ t.tcr = s.tcr ∧ t.mrMoves = m ∧ t.mrIns = some (r, new) ∧
        t.fld (R.TC_CMD_STAT 0) F.TC_CMD_STAT_MOVES = m.length % 256 ∧ t.reg (R.TC_CMD_LOC 0) = BitVec.ofNat 32 r) ∧
    (named → hits ≠ [] → Completes (.tcInsert who h v) s fun t => ended t 1 ∧ left t) ∧
    (named → hits = [] → makeRoom s.rows new.prio = none → Completes (.tcInsert who h v) s fun t => ended t 3 ∧ left t) ∧
    (∀ r e, named → hits = [(r, e)] → Completes (.tcDelete who h v) s fun t => ended t 0 ∧
      t.row r = (if e.view &&& (3 ^^^ vw) = 0 then some { e with valid := false, view := 0 } else some { e with view := e.view &&& (3 ^^^ vw) }) ∧
      ∀ q, q ≠ r → t.row q = s.row q) ∧
    (named → hits = [] → Completes (.tcDelete who h v) s fun t => ended t 2 ∧ left t) ∧
    (∀ r e l, named → vw ≠ 3 → hits = (r, e) :: l → Completes (.tcSearch who h v) s fun t => ended t 0 ∧ found t r e ∧ left t) ∧
    (∀ r e, named → hits = [(r, e)] → Completes (.tcModify who h v) s fun t => ended t 0 ∧
      t.row r = some { e with data := data, inst := new.inst, ctr := new.ctr } ∧ ∀ q, q ≠ r → t.row q = s.row q) ∧
    (∀ r e, named → same = [(r, e)] → Completes (.tcViewAdd who h v) s fun t => ended t 0 ∧
      t.row r = some { e with view := e.view ||| vw } ∧ ∀ q, q ≠ r → t.row q = s.row q) ∧
    (∀ e, ok → s.tcBad = [] → s.row (s.fld (R.TC_CMD_LOC 0) F.TC_CMD_LOC_ROW) = some e → Completes (.tcReadAt who h v) s fun t => ended t 0 ∧
      t.reg (R.TC_CMD_HDR_LO 0) = BitVec.ofNat 32 e.hdr ∧ t.reg (R.TC_CMD_DATA_LO 0) = BitVec.ofNat 32 e.data ∧ left t) ∧
    (∀ r e, named → vw ≠ 3 → s.tcSearch tbl val (if vw = 2 then 1 else 0) = some (r, e) →
      Completes (.tcMatch who h v) s fun t => ended t 0 ∧ found t r e ∧ left t) ∧
    (named → vw ≠ 3 → s.tcSearch tbl val (if vw = 2 then 1 else 0) = none → Completes (.tcMatch who h v) s fun t => ended t 2 ∧ left t) ∧
    (open_ → (s.tcBusy = true ∨ s.commitPend = true) →
      ∀ c ∈ [Instr.tcNop who h, .tcInsert who h v, .tcDelete who h v, .tcSearch who h v, .tcModify who h v, .tcViewAdd who h v, .tcReadAt who h v,
        .tcMatch who h v], exec c s = .next (s.violAt who.toNat 3 (R.TC_CMD_CTL h))) ∧
    (∀ f d l e, s.mrMoves = (f, d) :: l → f ≠ d → s.rows.find? (fun x => x.1 == f) = some (f, e) → Completes .makeRoomMove s fun t =>
      t.row d = some e ∧ t.row f = some { e with valid := false } ∧ (∀ q, q ≠ f → q ≠ d → t.row q = s.row q) ∧ t.mrMoves = l ∧
      t.reg64 (R.TC_MOVES 0) = (s.reg64 (R.TC_MOVES 0) + 1) % 2 ^ 64) ∧
    (s.mrMoves ≠ [] → exec .tcCmdComplete s = .next s) ∧
    (∀ r e, s.tcBusy = true → s.mrMoves = [] → s.mrIns = some (r, e) → Completes .tcCmdComplete s fun t =>
      t.row r = some e ∧ (∀ q, q ≠ r → t.row q = s.row q) ∧ t.mrIns = none ∧ t.tcBusy = false ∧ (t.reg 0x403010).getLsbD 0 = true) ∧
    (∀ row, s.mainClk = true → s.domOn (16 + h.val) = true → s.reg (R.TC_PAR h) ≠ 0xFFFFFFFF →
      Completes (.tcSweepVisit h row true) s fun t => t.reg (R.TC_PAR h) = s.reg (R.TC_PAR h) + 1 ∧ t.tcr = s.tcr ∧
        smGet (fun _ => false) t.tcBad row = (!(s.otherOk h) || smGet (fun _ => false) s.tcBad row)) ∧
    (∀ row, exec (.tcSweepVisit h row false) s = .next s)

/-- A commit is refused for the first reason that holds, in the order of R254, and pends otherwise; at the flip ACTIVE changes, SYNC_NEEDED is
set and the view before drains; the drain limit raises its cause; SYNC makes the inactive bit of each dirty location equal to the active
one; ABORT ends a pending commit and a running SYNC, and reads TOO_LATE in the cycle of the flip. -/
def Obligations.ViewsCommitFlipAndSync : Prop :=
  ∀ (s : State) (who : Req) (v : W32),
    let ok := s.open who (R.VIEW_CTL 0)
    let st (t : State) (f : Fld) : Nat := t.fld (R.VIEW_STAT 0) f
    let free := s.drained = true ∧ s.bulkRuns = false ∧ s.commitPend = false
    let refused (t : State) (why : Nat) : Prop := st t F.VIEW_STAT_REASON = why ∧ t.commitPend = s.commitPend ∧ t.active = s.active ∧ t.em = s.em ∧
      t.tcr = s.tcr ∧ t.dirty = s.dirty
    let same (t : State) : Prop := t.em = s.em ∧ t.tcr = s.tcr ∧ t.mem = s.mem ∧ t.dirty = s.dirty
    (ok → free → s.syncNeeded = false → st s F.VIEW_STAT_S_STATE ≠ 1 → Completes (.viewCommit who v) s fun t =>
      t.commitPend = true ∧ st t F.VIEW_STAT_C_STATE = 1 ∧ t.active = s.active ∧ same t) ∧
    (ok → s.drained = false → Completes (.viewCommit who v) s fun t => refused t 1 ∧ st t F.VIEW_STAT_C_STATE = 4) ∧
    (ok → s.drained = true → s.syncNeeded = true → Completes (.viewCommit who v) s fun t => refused t 2 ∧ st t F.VIEW_STAT_C_STATE = 4) ∧
    (ok → s.drained = true → s.syncNeeded = false → st s F.VIEW_STAT_S_STATE = 1 → Completes (.viewCommit who v) s fun t =>
      refused t 3 ∧ st t F.VIEW_STAT_C_STATE = 4) ∧
    (ok → s.drained = true → s.syncNeeded = false → st s F.VIEW_STAT_S_STATE ≠ 1 → s.bulkRuns = true → Completes (.viewCommit who v) s fun t =>
      refused t 4 ∧ st t F.VIEW_STAT_C_STATE = 4) ∧
    ((s.commitPend = false ∨ s.emBusy = true ∨ s.tcBusy = true) → exec .viewFlip s = .next s) ∧
    (s.commitPend = true → s.emBusy = false → s.tcBusy = false → s.instStg = [] → Completes .viewFlip s fun t =>
      t.active = 1 - s.active ∧ t.commitPend = false ∧ t.syncNeeded = true ∧ st t F.VIEW_STAT_C_STATE = 2 ∧
      (t.drained = true ↔ s.reg (inflReg s.active) = 0) ∧ t.timeAt (R.VIEW_FLIP_NS 0) = s.dNs % (2 ^ 48 * 1000000000) ∧ same t) ∧
    (ok → s.commitPend = true → st s F.VIEW_STAT_S_STATE ≠ 1 → Completes (.viewAbort who) s fun t => t.commitPend = false ∧
      st t F.VIEW_STAT_C_STATE = 3 ∧ t.active = s.active ∧ same t) ∧
    (ok → s.commitPend = false → s.atPoint (R.VIEW_STAT 0) = true → st s F.VIEW_STAT_S_STATE ≠ 1 → Completes (.viewAbort who) s fun t =>
      st t F.VIEW_STAT_C_ABORT = 2 ∧ st t F.VIEW_STAT_C_STATE = st s F.VIEW_STAT_C_STATE ∧ t.active = s.active ∧ same t) ∧
    (ok → st s F.VIEW_STAT_S_STATE = 1 → Completes (.viewAbort who) s fun t => st t F.VIEW_STAT_S_STATE = 3 ∧ t.active = s.active ∧ same t) ∧
    ((s.drained = true ∨ s.fld (R.VIEW_CTL 0) F.VIEW_CTL_DRAIN_LIMIT = 0) → exec .viewDrainLimitExpire s = .next s) ∧
    (s.drained = false → s.fld (R.VIEW_CTL 0) F.VIEW_CTL_DRAIN_LIMIT ≠ 0 → s.flag (R.VIEW_CTL 0) F.VIEW_CTL_FORCE = false →
      Completes .viewDrainLimitExpire s fun t => st t F.VIEW_STAT_DRAIN_TO = 1 ∧ (t.reg 0x404010).getLsbD 2 = true ∧ same t ∧ t.pkts = s.pkts) ∧
    (ok → free → st s F.VIEW_STAT_S_STATE ≠ 1 → s.dirty ≠ [] → Completes (.viewSync who) s fun t => st t F.VIEW_STAT_S_STATE = 1 ∧ same t) ∧
    (ok → free → st s F.VIEW_STAT_S_STATE ≠ 1 → s.dirty = [] → Completes (.viewSync who) s fun t => st t F.VIEW_STAT_S_STATE = 2 ∧
      t.syncNeeded = false ∧ same t) ∧
    (ok → s.drained = false → st s F.VIEW_STAT_S_STATE ≠ 1 → Completes (.viewSync who) s fun t => refused t 1 ∧ st t F.VIEW_STAT_S_STATE = 4) ∧
    (∀ loc b l e, st s F.VIEW_STAT_S_STATE = 1 → s.dirty = (loc, b) :: l → 2 ^ 21 ≤ loc → loc < 2 ^ 23 → s.row (loc - 2 ^ 21) = some e → e.valid = true → e.tag < 64 →
      Completes .viewSyncLocation s fun t => t.dirty = l ∧ t.active = s.active ∧
        t.row (loc - 2 ^ 21) = (if e.view.testBit s.active then some { e with view := 3 } else some { e with valid := false, view := 0 }) ∧
        (l = [] → st t F.VIEW_STAT_S_STATE = 2 ∧ t.syncNeeded = false)) ∧
    (∀ loc b l c e, st s F.VIEW_STAT_S_STATE = 1 → s.dirty = (loc, b) :: l → loc < 2 ^ 19 → s.bucketEnts false loc = [(c, e)] → c < deep0 →
      Completes .viewSyncLocation s fun t => t.dirty = l ∧
        smFind t.em c = (if e.view = eqView s.active e.view then smFind s.em c else
          if e.view.testBit s.active then some { e with view := 3 } else none))

/-- A lookup lands in its slot: a search of an enabled table finds the first entry of its view, whose data it returns with HIT, or answers
MISS; a disabled table answers BADTBL; a search that no slot of its bucket can serve answers ERROR. A deep lookup that misses the
bucket cache waits for its fill, and lands when the bucket arrives; a stale fill is discarded and the bucket read again. -/
def Obligations.LookupsLand : Prop :=
  ∀ (s : State) (id : Nat) (l : Lkp), smFind s.lkps id = some l → s.mainClk = true → l.half < 2 →
    let sv := s.servedBy l
    let key := fitKey (s.keyB l.table) l.key
    let slot (t : State) (st data : Nat) : Prop :=
      s.hasPkt l.pkt = true → (∀ e ∈ s.lkps, id < e.1 → e.2.pkt = l.pkt → e.2.slot ≠ l.slot) → s.holderOf l.pkt = none →
        (t.pkt l.pkt).ctx = setCtxWord (s.pkt l.pkt).ctx (8 + l.slot) (slotWord st l.kind l.table data)
    (l.miss = false → s.domOn (16 + sv) = true → l.kind = 0 → (s.emEn l.table = false ∨ s.emDeep l.table = true) → Completes (.lookupLand id .clean) s fun t =>
      smFind t.lkps id = none ∧ slot t 5 0 ∧ t.em = s.em ∧ t.mem = s.mem) ∧
    (l.miss = false → s.domOn (16 + sv) = true → l.kind = 0 → s.emEn l.table = true → s.emDeep l.table = false → s.emBad = [] →
      (s.keyEnts l.table key).find? (fun e => e.2.inView l.view) = none → Completes (.lookupLand id .clean) s fun t =>
        smFind t.lkps id = none ∧ slot t 3 0 ∧ t.em = s.em ∧ t.reg64 (R.EM_LKP sv) = (s.reg64 (R.EM_LKP sv) + 1) % 2 ^ 64) ∧
    (∀ c e, l.miss = false → s.domOn (16 + sv) = true → l.kind = 0 → s.emEn l.table = true → s.emDeep l.table = false → s.emBad = [] →
      (s.keyEnts l.table key).find? (fun e => e.2.inView l.view) = some (c, e) → e.ctr = 0 → s.flag (R.LRN_AGE e.tbl) F.LRN_AGE_RF_LKP = false →
      Completes (.lookupLand id .clean) s fun t => smFind t.lkps id = none ∧ slot t 2 (valBE e.data) ∧ t.em = s.em) ∧
    (l.miss = false → s.domOn (16 + sv) = true → l.kind = 0 → s.emEn l.table = true → s.emDeep l.table = false →
      Completes (.lookupLand id (.bothReplicas 31)) s fun t => smFind t.lkps id = none ∧ slot t 6 0 ∧ t.em = s.em ∧
        t.reg64 (R.EM_LKP sv) = (s.reg64 (R.EM_LKP sv) + 1) % 2 ^ 64) ∧
    (l.miss = false → s.domOn (16 + sv) = true → l.kind = 2 → s.tcBad = [] → s.tcEn l.table = true → s.tcSearch l.table (valBE (fitKey 20 l.key)) l.view = none →
      Completes (.lookupLand id .clean) s fun t => smFind t.lkps id = none ∧ slot t 3 0 ∧ t.tcr = s.tcr) ∧
    (l.miss = false → s.domOn (16 + sv) = true → l.kind = 1 → s.emEn l.table = true → s.emDeep l.table = true →
      s.cached sv (s.bucketOf l.table key true) = false → Completes (.lookupLand id .clean) s fun t =>
        (∃ st, smFind t.lkps id = some { l with miss := true, unread := false, stale := st }) ∧ t.pkts = s.pkts ∧ t.thrs = s.thrs) ∧
    (l.miss = true → exec (.lookupLand id .clean) s = .next s) ∧
    (∀ (h : HalfN) (n : BitVec 25), l.miss = false ∨ n.toNat ≠ s.bucketOf l.table key true → exec (.deepFillArrive h id n) s = .next s) ∧
    (∀ (h : HalfN) (n : BitVec 25), l.miss = true → h.val = sv → n.toNat = s.bucketOf l.table key true → s.lkps = [(id, l)] → s.reads cDEEP (deepAt (s.bucketOf l.table key true)) 128 = false → l.stale = true →
      Completes (.deepFillArrive h id n) s fun t => t.lkps = [(id, { l with stale := false })] ∧ t.pkts = s.pkts ∧ t.thrs = s.thrs ∧ t.bcache = s.bcache) ∧
    (∀ (h : HalfN) (n : BitVec 25), l.miss = true → h.val = sv → n.toNat = s.bucketOf l.table key true → s.lkps = [(id, l)] → s.emDeep l.table = true →
      s.reads cDEEP (deepAt (s.bucketOf l.table key true)) 128 = false → l.stale = false → l.unread = false → s.bucketBad (s.bucketOf l.table key true) = false →
      (s.keyEnts l.table key).find? (fun e => e.2.inView l.view) = none → Completes (.deepFillArrive h id n) s fun t =>
        t.lkps = [] ∧ slot t 3 0 ∧ t.mem = s.mem ∧ t.cached sv (s.bucketOf l.table key true) = true)

/-! ### Learning and ageing (R270–R304) -/

/-- A source check of an unknown address raises a learn event within the limits, and a static entry is not overruled; a queued learn is
applied at its home half: a new entry, or a move to a later place; a frozen address thaws; a received record learns, withdraws or replays;
a lost peer's entries go. -/
def Obligations.LearningFollowsTheTable : Prop :=
  ∀ (s : State) (h : HalfN), s.mainClk = true → s.lrnOk = true → (∀ e ∈ s.em, e.1 < deep0) →
    let tbl := s.lrnTbl
    let ours := s.ownDev
    let ts := s.dUs
    let fresh (t : State) (p : Nat) (bd mac port dev stamp inst : Nat) : Prop := smFind t.em p = some
      { tbl := tbl, view := 3, age := s.ageNow tbl, inst := inst, stat := false, learned := true, frozen := false, ctr := 0, key := learnKey bd mac,
        data := learnData port dev stamp, sw := false } ∧ ∀ q, q ≠ p → smFind t.em q = smFind s.em q
    (∀ c rest, smGet (fun _ => []) s.srcChks h = c :: rest → s.flag R.LRN_CFG F.LRN_CFG_EN = false →
      exec (.sourceCheck h) s = .next { s with srcChks := smSet (fun _ => []) s.srcChks h rest }) ∧
    (∀ c rest, smGet (fun _ => []) s.srcChks h = c :: rest → s.flag R.LRN_CFG F.LRN_CFG_EN = true → c.port < 68 → s.halfFenced h = false →
      (s.keyEnts tbl (learnKey c.bd c.mac)).find? (fun e => e.2.inView c.view) = none →
      s.portCnt c.port < s.fld (R.LRN_PORT c.port) F.LRN_PORT_LIMIT → s.instCnt c.inst < s.fld (R.LRN_INST c.inst) F.LRN_INST_LIMIT →
      (smGet (fun _ => []) s.learnQ (s.lrnHome c.bd c.mac)).length < 4096 → Completes (.sourceCheck h) s fun t =>
        smGet (fun _ => []) t.learnQ (s.lrnHome c.bd c.mac) =
          smGet (fun _ => []) s.learnQ (s.lrnHome c.bd c.mac) ++ [{ bd := c.bd, mac := c.mac, port := c.port, inst := c.inst }] ∧
        t.em = s.em ∧ t.regs = s.regs) ∧
    (∀ c rest p e, smGet (fun _ => []) s.srcChks h = c :: rest → s.flag R.LRN_CFG F.LRN_CFG_EN = true → c.port < 68 →
      (s.keyEnts tbl (learnKey c.bd c.mac)).find? (fun e => e.2.inView c.view) = some (p, e) → (e.lDev ≠ ours ∨ e.lPort ≠ c.port) → e.stat = true →
      Completes (.sourceCheck h) s fun t => t.em = s.em ∧ t.learnQ = s.learnQ ∧ s.regsKept t [R.LRN_STATIC_MISM (s.lrnHome c.bd c.mac)]) ∧
    (∀ l rest p, smGet (fun _ => []) s.learnQ h = l :: rest → s.lrnRun h = true → s.lrnFind l.bd l.mac = none →
      s.placeEnt false (s.lrnBucket l.bd l.mac) 1 = some p → p < deep0 → Completes (.learnApply h) s fun t =>
        fresh t p l.bd l.mac l.port ours ts l.inst ∧ smGet (fun _ => []) t.learnQ h = rest) ∧
    (∀ l rest p e, smGet (fun _ => []) s.learnQ h = l :: rest → s.lrnRun h = true → s.lrnFind l.bd l.mac = some (p, e) → p < deep0 → e.stat = false →
      e.frozen = false → tsLater ts e.lts = true → (e.lDev ≠ ours ∨ e.lPort ≠ l.port) → Completes (.learnApply h) s fun t => ∃ fr,
        smFind t.em p = some { e with data := learnData l.port ours ts, age := s.ageNow tbl, frozen := fr } ∧
        ∀ q, q ≠ p → smFind t.em q = smFind s.em q) ∧
    (∀ l rest p e, smGet (fun _ => []) s.learnQ h = l :: rest → s.lrnRun h = true → s.lrnFind l.bd l.mac = some (p, e) →
      (e.stat = true ∨ e.frozen = true) → Completes (.learnApply h) s fun t => t.em = s.em ∧ smGet (fun _ => []) t.learnQ h = rest) ∧
    (∀ k p e, oldestFreeze (s.damps.filter fun d => d.2.frozen && (d.1 / 2 ^ 64 == h.val)) = some k → s.lrnRun h = true →
      s.lrnFind (k / 2 ^ 48 % 65536) (k % 2 ^ 48) = some (p, e) → p < deep0 → Completes (.freezeExpire h) s fun t =>
        smFind t.em p = some { e with frozen := false } ∧ (∀ x ∈ t.damps, x.1 ≠ k) ∧ ∀ q, q ≠ p → smFind t.em q = smFind s.em q) ∧
    (∀ r rest, s.lrnRecs = r :: rest → s.lrnRun (s.lrnHome r.bd r.mac) = true →
      let old := (ts % 2 ^ 32 + 2 ^ 32 - r.ts) % 2 ^ 32
      let stale := s.fld R.LRN_STALE F.LRN_STALE_STALE_US < old ∧ old < 2 ^ 31
      (r.op = 1 → stale → Completes .learnRecordLearn s fun t => t.em = s.em ∧ t.lrnRecs = rest ∧ s.regsKept t [R.LRN_STALE_CNT]) ∧
      (∀ p, r.op = 1 → ¬ stale → s.lrnFind r.bd r.mac = none → s.placeEnt false (s.lrnBucket r.bd r.mac) 1 = some p → p < deep0 →
        Completes .learnRecordLearn s fun t => fresh t p r.bd r.mac r.port r.dev r.ts (s.fld R.LRN_CFG F.LRN_CFG_REMOTE_INST) ∧ t.lrnRecs = rest) ∧
      (∀ p e, r.op = 2 → s.lrnFind r.bd r.mac = some (p, e) → p < deep0 → e.lDev = r.dev → e.lPort = r.port → tsLater r.ts e.lts = true →
        Completes .learnRecordWithdraw s fun t => smFind t.em p = none ∧ (∀ q, q ≠ p → smFind t.em q = smFind s.em q) ∧ t.lrnRecs = rest) ∧
      (∀ p e, r.op = 2 → s.lrnFind r.bd r.mac = some (p, e) → tsLater r.ts e.lts = false →
        exec .learnRecordWithdraw s = .next { s with lrnRecs := rest }) ∧
      (∀ p, r.op = 3 → s.lrnFind r.bd r.mac = none → s.placeEnt false (s.lrnBucket r.bd r.mac) 1 = some p → p < deep0 →
        Completes .learnRecordReplay s fun t => fresh t p r.bd r.mac r.port r.dev r.ts (s.fld R.LRN_CFG F.LRN_CFG_REMOTE_INST) ∧ t.lrnRecs = rest) ∧
      (∀ x, r.op = 3 → s.lrnFind r.bd r.mac = some x → exec .learnRecordReplay s = .next { s with lrnRecs := rest })) ∧
    (∀ d : Fin 16384, (s.peer d).known = true → Completes (.peerLost d) s fun t => (t.peer d).known = false ∧ (t.reg 0x600010).getLsbD 3 = true ∧
      ∀ p e, smFind t.em p = some e → e.tbl = tbl → e.lDev ≠ d.val)

/-- Learn frames leave with the records of the open frame, and a received one is checked, sequenced and split into its records; the stamp
sweep and the ager act on a bucket they visit; a flush or dump runs from START, visits bucket after bucket, and stops at ABORT. -/
def Obligations.LearnFramesAndBulkWalks : Prop :=
  ∀ (s : State) (who : Req) (v : W32) (h : HalfN) (b : Nat), s.mainClk = true →
    let tx := s.flag R.LRN_CFG F.LRN_CFG_TX_EN
    let kept (t : State) : Prop := t.em = s.em ∧ t.tcr = s.tcr
    let age (n : Nat) := (s.ageNow n + 65536)
    (tx = true → 20 ≤ s.lrnOpen.length → Completes .learnFrameSend s fun t => t.lrnOpen = s.lrnOpen.drop 20 ∧ kept t) ∧
    ((tx = false ∨ s.lrnOpen.length < 20) → exec .learnFrameSend s = .next s) ∧
    (tx = true → s.lrnOpen ≠ [] → Completes .learnFlushTimerExpire s fun t => t.lrnOpen = s.lrnOpen.drop 20 ∧ kept t) ∧
    ((tx = false ∨ s.lrnOpen = []) → exec .learnFlushTimerExpire s = .next s) ∧
    (tx = true → Completes .learnHelloExpire s fun t => t.lrnOpen = s.lrnOpen ∧ kept t) ∧
    (tx = false → exec .learnHelloExpire s = .next s) ∧
    (∀ f rest, s.lrnIn = f :: rest →
      let n := (f.getD 16 0).toNat
      let dev := valBE ((f.drop 20).take 2) % 2 ^ 14
      let good := 26 ≤ f.length ∧ f.getD 14 0 = 1 ∧ f.getD 15 0 = 1 ∧ n ≤ 20 ∧ f.length = 26 + 16 * n ∧
        valBE ((f.drop 18).take 2) = s.fld R.LRN_DOM F.LRN_DOM_DOMAIN_ID
      (f.length < 26 → exec .learnFrameReceive s = .next (({ s with lrnIn := rest } : State).cnt R.LRN_BAD_FRAME)) ∧
      (good → dev = s.ownDev → exec .learnFrameReceive s = .next (({ s with lrnIn := rest } : State).cnt R.LRN_LOOP)) ∧
      (good → dev ≠ s.ownDev → Completes .learnFrameReceive s fun t => t.lrnIn = rest ∧ (t.peer dev).known = true ∧ kept t ∧
        t.lrnRecs = s.lrnRecs ++ (recsOf dev (f.drop 26) n).filter fun r => decide (1 ≤ r.op) && decide (r.op ≤ 3))) ∧
    (∀ p e, s.visits h b = true → s.lrnOk = true → b < 2 ^ 19 → s.visitEnts b = [(p, e)] → p < deep0 → e.tbl = s.lrnTbl →
      let d := (s.dUs % 2 ^ 27 + 2 ^ 27 - e.lts) % 2 ^ 27
      (2 ^ 24 < d → d < 2 ^ 26 → Completes (.stampSweepVisit h b) s fun t =>
        smFind t.em p = some { e with data := learnData e.lPort e.lDev (s.dUs + 2 ^ 27 - 2 ^ 24) } ∧ t.regs = s.regs) ∧
      (d ≤ 2 ^ 24 → exec (.stampSweepVisit h b) s = .next s)) ∧
    (∀ p e, s.visits h b = true → s.visitEnts b = [(p, e)] → p < deep0 → s.flag (R.LRN_AGE e.tbl) F.LRN_AGE_EN = true → e.stat = false →
      (e.tbl ≠ s.lrnTbl ∨ e.lDev = s.ownDev) →
      let old := (age e.tbl - e.age) % 65536
      (s.fld (R.LRN_AGE e.tbl) F.LRN_AGE_MAXAGE ≤ old → Completes (.agerVisit h b) s fun t => smFind t.em p = none ∧
        ∀ q, q ≠ p → smFind t.em q = smFind s.em q) ∧
      (old < s.fld (R.LRN_AGE e.tbl) F.LRN_AGE_MAXAGE → exec (.agerVisit h b) s = .next s)) ∧
    (s.open who R.LRN_FLUSH → s.lrnState false = 1 → exec (.lrnFlush who v) s = .next (s.violAt who.toNat 3 R.LRN_FLUSH)) ∧
    (s.open who R.LRN_FLUSH → s.lrnState false ≠ 1 → Completes (.lrnFlush who v) s fun t => t.lrnState false = 1 ∧ t.lrnPos = 0 ∧
      t.fld R.LRN_FLUSH F.LRN_FLUSH_SEL = bits v.toNat 23 22 ∧ t.fld R.LRN_FLUSH F.LRN_FLUSH_ARG = bits v.toNat 21 8 ∧ s.regsKept t [R.LRN_FLUSH]) ∧
    (s.open who R.LRN_DUMP → s.lrnState true ≠ 1 → Completes (.lrnDump who) s fun t => t.lrnState true = 1 ∧ t.dumpPos = 0 ∧ s.regsKept t [R.LRN_DUMP]) ∧
    (∀ dump, s.open who (lrnOp dump) → s.lrnState dump = 1 → Completes (.lrnBulkAbort who dump) s fun t => t.lrnState dump = 3 ∧
      t.fld (lrnOp dump) F.LRN_FLUSH_ABORT_ST = 1 ∧ t.em = s.em ∧ (t.reg 0x600010).getLsbD 0 = true) ∧
    (∀ dump, s.open who (lrnOp dump) → s.lrnState dump ≠ 1 → s.atPoint (lrnOp dump) = true → Completes (.lrnBulkAbort who dump) s fun t =>
      t.lrnState dump = s.lrnState dump ∧ t.fld (lrnOp dump) F.LRN_FLUSH_ABORT_ST = 2 ∧ t.em = s.em) ∧
    (s.lrnState false = 1 → s.lrnEnts = [] → Completes .lrnBulkBucket s fun t => t.lrnState false = 2 ∧ t.em = s.em ∧ (t.reg 0x600010).getLsbD 0 = true) ∧
    (∀ p e, s.lrnState false = 1 → s.lrnEnts = [(p, e)] → s.lrnPos ≤ p / 4 → p < ovf0 → s.lrnRun (homeHalf (p / 4)) = true → s.flushes e = true →
      Completes .lrnBulkBucket s fun t => smFind t.em p = none ∧ t.lrnState false = 2)

/-! ### Sinter (R305–R333) -/

/-- The buffer commands: ALLOC takes the top of a pool's stack, charges it and leaves its BYTES, HANDOVER and FREE act on a chain that the
requester owns and are violations otherwise, a HANDOVER to a number that is no agent's changes nothing (the model's choice, log 126), INJECT puts a frame at a parser, READ shows a descriptor, a pointer that names no buffer is refused with status
3. APPLY changes the pool counts only while Sinter is idle and they fit. The window reaches the bytes of one buffer. The audit runs from
START to its completion or ABORT, which reads TOO_LATE in the cycle of the completion point. -/
def Obligations.SinterManagesItsBuffers : Prop :=
  ∀ (s : State) (who : Req) (v : W32),
    let ok := s.open who R.SINT_CMD_CTL
    let me := who.toNat
    let g (op : Nat) : State := s.putW { at_ := R.SINT_CMD_CTL, cap := R.SINT_CMD_CTL } (goOp op (v &&& 0x00FFFFFF))
    let pool := bits v.toNat 19 18
    let pipe := bits v.toNat 23 20
    let ptr := s.fld R.SINT_CMD_PTR F.SINT_CMD_PTR
    let len := s.fld R.SINT_CMD_LEN F.SINT_CMD_LEN
    let d := s.desc ptr
    let lone := s.ptrOk ptr = true ∧ s.ptrOk (descNext d) = false
    let done (t : State) (st : Nat) : Prop := (t.reg R.SINT_CMD_STAT).toNat = st ∧ t.flag R.SINT_CMD_CTL F.SINT_CMD_CTL_GO = false ∧
      (t.reg 0x700010).getLsbD 0 = true ∧ t.near = s.near ∧ t.mem = s.mem
    let still (t : State) : Prop := t.pools = s.pools ∧ t.bufs = s.bufs ∧ t.accts = s.accts ∧ t.pkts = s.pkts
    let audit (t : State) := t.fld R.SINT_AUDIT F.SINT_AUDIT_STATE
    let sum := (List.range 4).foldl (fun n k => n + s.fld (R.SINT_POOL_CNT k) F.SINT_POOL_CNT * poolSize k) 0
    let res (t : State) := t.fld R.SINT_POOL_CTL F.SINT_POOL_CTL_RES
    (ok → Completes (.sintNop who v) s fun t => done t 0 ∧ still t) ∧
    (ok → (g 1).admission 768 (poolSize pool) = none → Completes (.sintAlloc who v) s fun t => done t 2 ∧ still t) ∧
    (∀ x i l, ok → (g 1).admission 768 (poolSize pool) = some x → (s.pool pool).stack = i :: l → Completes (.sintAlloc who v) s fun t =>
      done t 0 ∧ (t.reg R.SINT_CMD_PTR).toNat = (pool * 2 ^ 22 + i) % 2 ^ 32 ∧ t.desc (pool * 2 ^ 22 + i) = mkDesc me 768 noBuf (descBytes (s.desc (pool * 2 ^ 22 + i))) ∧
      t.pool pool = { s.pool pool with stack := l } ∧ t.accts = x.accts) ∧
    (ok → s.ptrOk ptr = false → ∀ c ∈ [Instr.sintHandover who v, .sintFree who v, .sintInject who v, .sintRead who v],
      Completes c s fun t => done t 3 ∧ still t) ∧
    (ok → lone → descOwner d = me → isAgent (bits v.toNat 11 0) = true → Completes (.sintHandover who v) s fun t => done t 0 ∧
      t.desc ptr = mkDesc (bits v.toNat 11 0) (descAcct d) (descNext d) (descBytes d) ∧ (∀ p, p ≠ ptr → t.desc p = s.desc p) ∧ t.pools = s.pools) ∧
    (ok → s.ptrOk ptr = true → descOwner d = me → isAgent (bits v.toNat 11 0) = false → Completes (.sintHandover who v) s fun t => done t 0 ∧ still t) ∧
    (ok → s.ptrOk ptr = true → descOwner d ≠ me → ∀ c ∈ [Instr.sintHandover who v, .sintFree who v], Completes c s fun t => done t 0 ∧ still t ∧
      t.reg 0x70001C = BitVec.ofNat 32 (me * 2 ^ 20 + 4 * 2 ^ 16 + 0x100)) ∧
    (ok → lone → descOwner d = me → (s.pool (ptrPool ptr)).free < (s.pool (ptrPool ptr)).cnt → Completes (.sintFree who v) s fun t => done t 0 ∧
      (t.pool (ptrPool ptr)).stack = ptrIdx ptr :: (s.pool (ptrPool ptr)).stack ∧ t.bufs = s.bufs) ∧
    (ok → s.ptrOk ptr = true → Completes (.sintRead who v) s fun t => done t 0 ∧ still t ∧ t.reg R.SINT_CMD_DESC_LO = BitVec.ofNat 32 d.toNat ∧
      t.reg R.SINT_CMD_DESC_HI = BitVec.ofNat 32 (d.toNat / 2 ^ 32)) ∧
    (ok → lone → descOwner d = me → 0 < len → len ≤ poolSize (ptrPool ptr) → s.fenced pipe = false → Completes (.sintInject who v) s fun t => done t 0 ∧
      (t.pkt s.nextId).len = len ∧ (t.pkt s.nextId).ptr = ptr ∧ (t.pkt s.nextId).inPort = 68 ∧ t.src pipe 68 = s.src pipe 68 ++ [s.nextId] ∧
      descOwner (t.desc ptr) = 0xA44) ∧
    (s.open who R.SINT_POOL_CTL → audit s = 1 → exec (.sintPoolApply who) s = .next (s.violAt me 3 R.SINT_POOL_CTL)) ∧
    (s.open who R.SINT_POOL_CTL → audit s ≠ 1 → s.mode ≠ mCONFIGURE → Completes (.sintPoolApply who) s fun t => res t = 3 ∧ s.onlyRegs t [R.SINT_POOL_CTL]) ∧
    (s.open who R.SINT_POOL_CTL → audit s ≠ 1 → s.mode = mCONFIGURE → s.accts = [] → sum ≤ 100663296 → Completes (.sintPoolApply who) s fun t => res t = 1 ∧
      (∀ k : Fin 4, t.pool k = { cnt := s.fld (R.SINT_POOL_CNT k) F.SINT_POOL_CNT }) ∧ s.regsKept t [R.SINT_POOL_CTL]) ∧
    (s.open who R.SINT_POOL_CTL → audit s ≠ 1 → s.mode = mCONFIGURE → s.accts = [] → 100663296 < sum → Completes (.sintPoolApply who) s fun t => res t = 2 ∧
      t.pools = s.pools) ∧
    (∀ (n : Fin 64) p o, s.open who (R.SINT_WIN n) → s.winPlace n = some (p, o) → s.latched me (R.SINT_WIN n) = none →
      exec (.sintWinAccess who n .read) s = .next { s with rdata := BitVec.ofNat 32 (valLE (s.bufRead p o 4)) }) ∧
    (∀ (n : Fin 64) p o, s.open who (R.SINT_WIN n) → s.winPlace n = some (p, o) → Completes (.sintWinAccess who n (.write v)) s fun t =>
      t.bufRead p o 4 = bytesLE 4 v.toNat ∧ ({ t with near := s.near } : State) = s) ∧
    (∀ n : Fin 64, s.open who (R.SINT_WIN n) → s.winPlace n = none →
      exec (.sintWinAccess who n (.write v)) s = .next (s.violAt me 3 (R.SINT_WIN n))) ∧
    (s.open who R.SINT_AUDIT → audit s = 1 → exec (.sintAuditStart who v) s = .next (s.violAt me 3 R.SINT_AUDIT)) ∧
    (s.open who R.SINT_AUDIT → audit s ≠ 1 → Completes (.sintAuditStart who v) s fun t => audit t = 1 ∧ t.audSkip = [] ∧ t.reg R.SINT_AUD_LEAK = 0 ∧
      t.fld R.SINT_AUDIT F.SINT_AUDIT_POOL = bits v.toNat 21 20 ∧ still t) ∧
    (s.open who R.SINT_AUDIT → audit s = 1 → Completes (.sintAuditAbort who) s fun t => audit t = 3 ∧ t.fld R.SINT_AUDIT F.SINT_AUDIT_ABORT_ST = 1 ∧
      (t.reg 0x700010).getLsbD 1 = true ∧ still t) ∧
    (s.open who R.SINT_AUDIT → audit s ≠ 1 → s.atPoint R.SINT_AUDIT = true → Completes (.sintAuditAbort who) s fun t => audit t = audit s ∧
      t.fld R.SINT_AUDIT F.SINT_AUDIT_ABORT_ST = 2 ∧ still t) ∧
    (audit s ≠ 1 → exec .sintAuditComplete s = .next s) ∧
    (audit s = 1 → s.flag R.SINT_AUDIT F.SINT_AUDIT_RECLAIM = false → Completes .sintAuditComplete s fun t => audit t = 2 ∧
      (t.reg 0x700010).getLsbD 1 = true ∧ still t)

/-! ### Tasks, locks, interrupts, engines (R112–R142, R391–R432) -/

/-- TSK_CMD starts, releases and stops a task, or answers BAD_STATE, NO_TASK and BAD_ARG; a task that yields, waits, delays or exits
through its port leaves its agent; a dispatch loads the best ready task, a preemption puts the running one at the head of its list; ticks and
deadlines make tasks ready. A task stopped while it could not be switched leaves with its next such command, and stays OFF. Results of unit
instructions in flight are written before a task leaves or comes. (Clauses on the port commands take TSK_CTL.RUN = 0, where no other task is loaded at once.) -/
def Obligations.TasksAreScheduled : Prop :=
  ∀ (s : State) (who : Req) (a : Agent) (k : TaskN),
    let e := s.task k
    let cmd := s.open who R.TSK_CMD
    let st (t : State) : Nat := (t.reg R.TSK_CMD_STAT).toNat
    let free := ∀ l ∈ s.locks, l.2.held = false
    let quiet := s.flag R.TSK_CTL F.TSK_CTL_RUN = false
    let mine := s.portOk a = true ∧ (s.thr a).task = some k.val ∧ (s.thr a).stopReq = false
    let u := s.settle a
    let left (t : State) : Prop := (t.thr a).task = none ∧ (t.thr a).gstat = 0 ∧ (t.thr a).pc = s.idlePc a
    (cmd → e.st = .off → s.runsTasks e.agent = true → e.tcbOk = true → s.flag (R.TSK_GRP_CFG e.group) F.TSK_GRP_CFG_EN = true →
      Completes (.tskStart who k) s fun t => st t = 0 ∧ (t.task k).st = .ready ∧ (t.task k).fresh = true ∧ (t.task k).eprio = e.bprio ∧
        (t.task k).pend = 0 ∧ t.readyL e.agent e.bprio = s.readyL e.agent e.bprio ++ [k.val] ∧ (t.reg 0x30010).getLsbD 0 = true) ∧
    (cmd → e.st ≠ .off → Completes (.tskStart who k) s fun t => st t = 1 ∧ t.tasks = s.tasks ∧ t.ready = s.ready) ∧
    (cmd → e.st = .off → s.runsTasks e.agent = false → Completes (.tskStart who k) s fun t => st t = 2 ∧ t.tasks = s.tasks) ∧
    (cmd → e.st = .off → Completes (.tskRelease who k) s fun t => st t = 1 ∧ t.tasks = s.tasks) ∧
    (cmd → e.st = .idle → Completes (.tskRelease who k) s fun t => st t = 0 ∧ (t.task k).st = .ready ∧ (t.task k).cause = 1) ∧
    (cmd → e.st = .running → Completes (.tskRelease who k) s fun t => st t = 0 ∧ (t.task k).st = .running ∧ (t.task k).pend = min 255 (e.pend + 1)) ∧
    (cmd → e.st = .off → Completes (.tskStop who k) s fun t => st t = 1 ∧ t.tasks = s.tasks) ∧
    (cmd → e.st = .ready → free → Completes (.tskStop who k) s fun t => st t = 0 ∧ (t.task k).st = .off ∧ k.val ∉ t.readyL e.agent e.eprio) ∧
    (s.portOk a = false → ∀ arg, ∀ c ∈ [Instr.taskYield a, .taskWait a arg, .taskDelay a arg, .taskRelease a k, .taskExit a], exec c s = .next s) ∧
    (s.portOk a = true → (s.thr a).task = none → ∀ arg, ∀ c ∈ [Instr.taskYield a, .taskWait a arg, .taskDelay a arg, .taskRelease a k, .taskExit a],
      exec c s = .next (u.setThr a { u.thr a with gstat := 2 })) ∧
    (s.portOk a = true → (s.thr a).task = some k.val → (s.thr a).stopReq = true → quiet → ∀ arg, ∀ c ∈ [Instr.taskYield a, .taskWait a arg, .taskDelay a arg,
      .taskExit a], Completes c s fun t => left t ∧ t.task k = e) ∧
    (mine → quiet → Completes (.taskYield a) s fun t => left t ∧ (t.task k).st = .ready ∧ (t.task k).cause = 4) ∧
    (mine → quiet → e.pend = 0 → Completes (.taskWait a 0) s fun t => left t ∧ (t.task k).st = .idle) ∧
    (∀ arg, mine → 0 < e.pend → Completes (.taskWait a arg) s fun t => (t.task k).pend = e.pend - 1 ∧ (t.thr a).cause = 1 ∧ (t.thr a).gstat = 0 ∧
      (t.thr a).task = some k.val ∧ t.mem = s.mem) ∧
    (∀ arg : W32, mine → quiet → arg ≠ 0 → s.flag (R.TSK_GRP_CFG e.group) F.TSK_GRP_CFG_MODE = false → Completes (.taskDelay a arg) s fun t =>
      left t ∧ (t.task k).st = .delayed ∧ t.delayL e.group = insertDelay k arg.toNat (s.delayL e.group)) ∧
    (∀ j : Nat, s.portOk a = true → (s.thr a).task = some j → e.st = .idle → Completes (.taskRelease a k) s fun t => (t.task k).st = .ready ∧
      (t.thr a).gstat = 0) ∧
    (∀ j : Nat, s.portOk a = true → (s.thr a).task = some j → e.st = .off → exec (.taskRelease a k) s = .next (u.setThr a { u.thr a with gstat := 1 })) ∧
    (mine → quiet → free → Completes (.taskExit a) s fun t => left t ∧ (t.task k).st = .off) ∧
    (s.atIdle a = true → s.bestTask a 0 = some k.val → Completes (.taskDispatch a) s fun t => (t.thr a).task = some k.val ∧ (t.task k).st = .running ∧
      (t.thr a).wait = .run ∧ (t.thr a).evPend.getLsbD 5 = true ∧ k.val ∉ t.readyL e.agent e.eprio ∧ (e.fresh = true → (t.thr a).pc = e.entry ∧ (t.thr a).rf = [] ∧ (t.thr a).status = 1)) ∧
    ((s.atIdle a = false ∨ s.bestTask a 0 = none) → exec (.taskDispatch a) s = .next s) ∧
    (∀ j : TaskN, (s.thr a).task = some k.val → s.switchReq a = true → s.switchable a = true → (s.thr a).stopReq = false →
      s.bestTask a (e.eprio + 1) = some j.val → j ≠ k → Completes (.taskPreempt a) s fun t => (t.thr a).task = some j.val ∧ (t.task j).st = .running ∧
        (t.task k).st = .ready ∧ (t.task k).cause = 3 ∧ (t.readyL e.agent e.eprio).head? = some k.val) ∧
    (((s.thr a).task = none ∨ s.switchReq a = false) → exec (.taskPreempt a) s = .next s) ∧
    (∀ g : Fin 16, let c := R.TSK_GRP_CFG g
      let on := s.mainClk = true ∧ s.flag c F.TSK_GRP_CFG_EN = true ∧ s.flag c F.TSK_GRP_CFG_MODE = false ∧ s.time.w = none ∧ s.time.skipFrom = none
      (on → s.delayL g = [] → Completes (.groupTick g) s fun t => t.reg (R.TSK_GRP_TICK g) = s.reg (R.TSK_GRP_TICK g) + 1 ∧
        s.regsKept t [R.TSK_GRP_TICK g] ∧ t.tasks = s.tasks) ∧
      (on → s.delayL g = [(1, k.val)] → e.st = .delayed → Completes (.groupTick g) s fun t => (t.task k).st = .ready ∧ (t.task k).cause = 2 ∧
        t.delayL g = []) ∧
      (∀ d, on → s.delayL g = [(d + 2, k.val)] → Completes (.groupTick g) s fun t => t.delayL g = [(d + 1, k.val)] ∧ t.tasks = s.tasks) ∧
      (¬ on → exec (.groupTick g) s = .next s)) ∧
    (∀ dl, s.tmouts.find? (fun x => x.2 == k.val) = some (dl, k.val) → s.mainClk = true → s.time.skipFrom = none → dl ≤ s.time.sched → e.st = .idle →
      Completes (.timeoutExpire k) s fun t => (t.task k).st = .ready ∧ (t.task k).cause = 2 ∧ ∀ x ∈ t.tmouts, x.2 ≠ k.val) ∧
    (∀ dl, s.tmouts.find? (fun x => x.2 == k.val) = some (dl, k.val) → s.time.sched < dl → exec (.timeoutExpire k) s = .next s)

/-- A read of LCK_ACQ takes a free lock and answers its holder otherwise; a write of LCK_REL by the holder frees it, by another is a
violation. An interrupt claim serves the source that tops its target, EOI and HEOI end the service, soft sources are set and cleared by
IRQ_SOFT, host sources send their message, or set the pending bit of their vector while it is masked, a vector is unmasked in the table of an
instance, and a watched source wakes a sleeping device. -/
def Obligations.LocksAndInterrupts : Prop :=
  ∀ (s : State) (who : Req) (n : Fin 1024) (c : Fin 5),
    let me := who.toNat
    let acq := s.open who (R.LCK_ACQ n)
    let rel := s.open who (R.LCK_REL n)
    let l := s.lock n
    let p (t : State) : Nat := t.rdata.toNat
    (acq → l.held = false → Completes (.lckAcqRead who n) s fun t => p t = (if l.aband then 0x40000000 else 0) ∧
      t.lock n = { l with held := true, owner := me, otask := s.curTask me, seen := l.aband } ∧ (∀ m, m ≠ n.val → t.lock m = s.lock m) ∧
      t.reg64 R.LCK_ACQ_CNT = (s.reg64 R.LCK_ACQ_CNT + 1) % 2 ^ 64) ∧
    (acq → l.held = true → l.owner ≠ me → l.owner < 4096 → Completes (.lckAcqRead who n) s fun t => p t = 0x80000000 + l.owner ∧ t.locks = s.locks ∧
      t.reg64 R.LCK_BUSY_CNT = (s.reg64 R.LCK_BUSY_CNT + 1) % 2 ^ 64) ∧
    (rel → s.holds me n = false → exec (.lckRelWrite who n) s = .next (s.violAt me 4 (R.LCK_REL n))) ∧
    (rel → s.holds me n = true → l.q = [] → Completes (.lckRelWrite who n) s fun t => (t.lock n).held = false ∧ ∀ m, m ≠ n.val → t.lock m = s.lock m) ∧
    (∀ w, rel → s.holds me n = true → l.q = [w] → Completes (.lckRelWrite who n) s fun t => (t.lock n).held = true ∧ (t.lock n).owner = w.agent ∧
      (t.lock n).otask = w.task ∧ (t.lock n).q = []) ∧
    (s.asserted n = false ∨ s.srcEn n = false ∨ 4 ≤ s.srcTgt n → exec (.irqSourceAssert n) s = .next s) ∧
    (s.asserted n = true → s.srcEn n = true → s.srcTgt n < 4 → (s.thr (0x800 + s.srcTgt n * 4)).wait = .sleep → s.srcTgt n ∉ s.coreWakes →
      exec (.irqSourceAssert n) s = .next { s with coreWakes := s.coreWakes ++ [s.srcTgt n] }) ∧
    (∀ src, s.open who (R.IRQ_CLAIM c) → mayClaim me c = true → s.topSource c = some src → src < 1024 → Completes (.irqClaim who c) s fun t =>
      p t = src ∧ t.inService src = true ∧ (0x380 ≤ src → src < 0x3C0 → t.softLatch (src - 0x380) = false)) ∧
    (s.open who (R.IRQ_CLAIM c) → mayClaim me c = true → s.topSource c = none → Completes (.irqClaim who c) s fun t => p t = 0x3FF ∧
      s.onlyRegs { t with rdata := s.rdata } [R.IRQ_NULL c]) ∧
    (s.open who (R.IRQ_CLAIM c) → mayClaim me c = false → exec (.irqClaim who c) s = .next { s.violAt me 4 (R.IRQ_CLAIM c) with rdata := 0 }) ∧
    (s.open who (R.IRQ_EOI c) → n.val ≠ 0x3FF → s.inService n = true → s.srcTgt n = c.val → Completes (.irqEoi who c n) s fun t =>
      t.inService n = false ∧ (∀ m, m < 1024 → m ≠ n.val → t.inService m = s.inService m) ∧ s.onlyRegs t [R.IRQ_INSV (n / 32)]) ∧
    (s.open who (R.IRQ_EOI c) → n.val ≠ 0x3FF → (s.inService n = false ∨ s.srcTgt n ≠ c.val) →
      exec (.irqEoi who c n) s = .next (s.violAt me 3 (R.IRQ_EOI c))) ∧
    (s.open who R.IRQ_HEOI → n.val ≠ 0x3FF → exec (.irqHeoi who n) s = .next (s.violAt me 3 R.IRQ_HEOI)) ∧
    (s.reach me R.IRQ_HEOI true = .reg { at_ := R.IRQ_HEOI, cap := R.IRQ_HEOI } → 0x900 ≤ me → me < 0xA00 → n.val ≠ 0x3FF → s.srcTgt n = 5 →
      vecFirst (s.res (me - 0x900)) ≤ s.srcVec n → s.srcVec n < vecFirst (s.res (me - 0x900)) + vecNum (s.res (me - 0x900)) → s.inService n = true →
      Completes (.irqHeoi who n) s fun t => t.inService n = false ∧ s.onlyRegs t [R.IRQ_INSV (n / 32)]) ∧
    (∀ b : Fin 64, s.open who R.IRQ_SOFT → Completes (.irqSoftSet who b) s fun t => t.softLatch b = true ∧ s.onlyRegs t [softReg b]) ∧
    (∀ b : Fin 64, s.open who R.IRQ_SOFT → s.inService (0x380 + b) = false → Completes (.irqSoftClear who b) s fun t => t.softLatch b = false ∧
      s.onlyRegs t [softReg b]) ∧
    (∀ b : Fin 64, s.open who R.IRQ_SOFT → s.inService (0x380 + b) = true → exec (.irqSoftClear who b) s = .next (s.violAt me 3 R.IRQ_SOFT)) ∧
    (s.mainClk = true → s.flag R.IRQ_CTL F.IRQ_CTL_EN = true → s.srcTgt n = 5 → s.srcPending n = true →
      (smGet (fun _ => false) s.vecOpen (s.srcVec n) = true → Completes (.msixSend n) s fun t => t.outs = s.outs ++ [.msix (s.srcVec n)] ∧
        t.inService n = true) ∧
      (smGet (fun _ => false) s.vecOpen (s.srcVec n) = false → exec (.msixSend n) s =
        .next (({ s with vecPend := smSet (fun _ => false) s.vecPend (s.srcVec n) true } : State).cnt R.IRQ_MSI_MASKED))) ∧
    (s.srcPending n = false → exec (.msixSend n) s = .next s) ∧
    (∀ v : Fin 2048, s.vecOwned v = false → exec (.msixVectorUnmask v) s = .next s) ∧
    (∀ v : Fin 2048, s.vecOwned v = true → (∀ m ∈ s.configured, ¬ (s.srcTgt m = 5 ∧ s.srcVec m = v.val)) → Completes (.msixVectorUnmask v) s fun t =>
      smGet (fun _ => false) t.vecOpen v = true ∧ smGet (fun _ => false) t.vecPend v = false ∧
      t.outs = (if smGet (fun _ => false) s.vecMsg v then s.outs ++ [.msix v.val] else s.outs) ∧ t.regs = s.regs) ∧
    (∀ w : Fin 32, let src := s.fld (R.IRQ_WAKE w) F.IRQ_WAKE_SRC
      (s.wakeable = true → s.flag (R.IRQ_WAKE w) F.IRQ_WAKE_EN = true → s.asserted src = true → (s.fld R.AON_WAKE F.AON_WAKE_EN).testBit 0 = true →
        Completes (.wakeWatcherTrigger w) s fun t => t.reg R.IRQ_WAKE_STAT = BitVec.ofNat 32 (2 ^ 31 + src) ∧ (t.reg R.AON_WAKE_STAT).getLsbD 0 = true ∧
          t.wakePend = s.wakePend ||| 1) ∧
      ((s.wakeable = false ∨ s.asserted src = false) → exec (.wakeWatcherTrigger w) s = .next s))

/-- The registers of engines and clusters: resets clear the threads named, and what is written beside a soft reset of the page is lost (R594);
a packet whose send commits in the same cycle stands; RUN and the roles follow R134, the data registers reach their
word and step their address, and the key registers reach the key word named. The watchdog and the event-deadlock check act where their
conditions hold. -/
def Obligations.EngineRegistersFollowTheirRules : Prop :=
  ∀ (s : State) (who : Req) (e : EngN) (c : CluN) (x : EngThr) (v : W32),
    let me := who.toNat
    let run := s.engRun e
    let cleared (t : State) (a : Nat) : Prop := (t.thr a).pkt = none ∧ (t.thr a).task = none ∧ (t.thr a).rf = [] ∧ (t.thr a).fu = [] ∧
      (t.thr a).status = 0 ∧ (t.thr a).wait = .run
    let step (b : BitVec 32) (f : Fld) (w : Nat) : Nat := (getF b f + 1) % 2 ^ w
    let calm := s.softNow (R.ENG_CTL e) = false
    (s.open who (R.ENG_THR_RST (x / 8)) → s.softNow (R.ENG_THR_RST (x / 8)) = false → Completes (.threadReset who x) s fun t => cleared t x ∧
      (t.thr x).evMask = (s.thr x).evMask ∧ (t.thr x).halted = (s.thr x).halted ∧ (t.thr x).rstEnd = s.clk + 3 ∧
      ∀ k, (s.thr x).pkt = some k → (s.sendsNow x ≠ some k → (t.pkt k).discard = true) ∧
        (s.sendsNow x = some k → (t.pkt k).discard = (s.pkt k).discard ∧ (t.pkt k).ctx = (s.thr x).slot ∧ (t.pkt k).sent = true)) ∧
    (s.open who (0x200008 + e * 0x1000) → calm → Completes (.engineReset who e) s fun t => ∀ i : Fin 8, (t.thr (e * 8 + i)).pkt = none ∧ (t.thr (e * 8 + i)).rf = [] ∧
      (t.thr (e * 8 + i)).rstEnd = s.clk + 6) ∧
    (s.open who (R.ENG_CTL e) → s.softNow (R.ENG_CTL e) = true → exec (.engCtlWrite who e v) s = .next s) ∧
    (s.open who (R.ENG_CTL e) → calm → run = true → bits v.toNat 30 24 = bits (s.reg (R.ENG_CTL e)).toNat 30 24 → v.getLsbD 31 = false →
      Completes (.engCtlWrite who e v) s fun t => t.reg (R.ENG_CTL e) = v &&& 0xFF000000 ∧ s.onlyRegs t [R.ENG_CTL e]) ∧
    (s.open who (R.ENG_CTL e) → calm → run = true → bits v.toNat 30 24 ≠ bits (s.reg (R.ENG_CTL e)).toNat 30 24 → v.getLsbD 31 = false →
      Completes (.engCtlWrite who e v) s fun t => t.engRun e = false ∧ bits (t.reg (R.ENG_CTL e)).toNat 30 24 = bits (s.reg (R.ENG_CTL e)).toNat 30 24 ∧
        t.reg (0x20001C + e * 0x1000) = BitVec.ofNat 32 (me * 2 ^ 20 + 3 * 2 ^ 16 + 0x40) ∧ t.thrs = s.thrs) ∧
    (s.open who (R.ENG_CTL e) → calm → v.getLsbD 31 = true → s.ploadBars e = true → exec (.engCtlWrite who e v) s = .next (s.violAt me 3 (R.ENG_CTL e))) ∧
    (s.open who (R.ENG_CTL e) → calm → run = false → v.getLsbD 31 = true → s.ploadBars e = false → Completes (.engCtlWrite who e v) s fun t =>
      t.reg (R.ENG_CTL e) = v &&& 0xFF000000 ∧ ∀ i : Fin 8, s.role (e * 8 + i) = rService → (s.thr (e * 8 + i)).fresh = true →
        (t.thr (e * 8 + i)).pc = s.fld (R.ENG_ENTRY e) F.ENG_ENTRY_SVC_ENTRY) ∧
    (s.open who (R.ENG_THR_CFG e) → calm → run = true → exec (.engThrCfgWrite who e v) s = .next (s.violAt me 3 (R.ENG_THR_CFG e))) ∧
    (s.open who (R.ENG_THR_CFG e) → calm → run = false → fixRoles v.toNat = (s.reg (R.ENG_THR_CFG e)).toNat % 65536 → Completes (.engThrCfgWrite who e v) s fun t =>
      t.reg (R.ENG_THR_CFG e) = BitVec.ofNat 32 (fixRoles v.toNat) ∧ s.onlyRegs t [R.ENG_THR_CFG e]) ∧
    (s.open who (R.CLU_IRAM_DATA c) → s.latched me (R.CLU_IRAM_DATA c) = none → Completes (.cluIramDataAccess who c .read) s fun t =>
      t.rdata.toNat = s.rdLE (s.cluAddr c 0x44) 4 ∧ t.mem = s.mem ∧
      t.fld (R.CLU_IRAM_ADDR c) F.CLU_IRAM_ADDR_ADDR = step (s.reg (R.CLU_IRAM_ADDR c)) F.CLU_IRAM_ADDR_ADDR 15) ∧
    (s.open who (R.CLU_IRAM_DATA c) → s.clusterRuns c = false → s.reqSigned = false → Completes (.cluIramDataAccess who c (.write v)) s fun t =>
      t.rdLE (s.cluAddr c 0x44) 4 = v.toNat ∧ s.memKept t (s.cluAddr c 0x44) 4 ∧
      t.fld (R.CLU_IRAM_ADDR c) F.CLU_IRAM_ADDR_ADDR = step (s.reg (R.CLU_IRAM_ADDR c)) F.CLU_IRAM_ADDR_ADDR 15) ∧
    (s.open who (R.CLU_IRAM_DATA c) → (s.clusterRuns c = true ∨ s.reqSigned = true) →
      exec (.cluIramDataAccess who c (.write v)) s = .next (s.violAt me 3 (R.CLU_IRAM_DATA c))) ∧
    (s.open who (R.CLU_SHR_DATA c) → s.latched me (R.CLU_SHR_DATA c) = none → Completes (.cluShrDataAccess who c .read) s fun t =>
      t.rdata.toNat = s.rdLE (s.cluAddr c 0x4C) 4 ∧ t.mem = s.mem) ∧
    (s.open who (R.CLU_SHR_DATA c) → Completes (.cluShrDataAccess who c (.write v)) s fun t =>
      t.rdLE (s.cluAddr c 0x4C) 4 = v.toNat ∧ s.memKept t (s.cluAddr c 0x4C) 4 ∧
      t.fld (R.CLU_SHR_ADDR c) F.CLU_SHR_ADDR_ADDR = step (s.reg (R.CLU_SHR_ADDR c)) F.CLU_SHR_ADDR_ADDR 16) ∧
    (s.open who (R.CLU_IRAM_FIX_DATA c) → s.reqSigned = false → Completes (.cluIramFixDataWrite who c v) s fun t =>
      t.rdLE (s.cluAddr c 0x54) 4 = v.toNat ∧ s.memKept t (s.cluAddr c 0x54) 4 ∧ t.regs = s.regs) ∧
    (s.open who (R.CLU_IRAM_FIX_DATA c) → s.reqSigned = true → exec (.cluIramFixDataWrite who c v) s = .next (s.violAt me 3 (R.CLU_IRAM_FIX_DATA c))) ∧
    (s.open who (R.ENG_HKEY_LO e) → s.latched me (R.ENG_HKEY_LO e) = none → Completes (.engHkeyLoRead who e) s fun t =>
      t.rdata = BitVec.ofNat 32 (s.hkey e).toNat ∧ t.latched me (R.ENG_HKEY_HI e) = some (BitVec.ofNat 32 ((s.hkey e).toNat / 2 ^ 32)) ∧ t.regs = s.regs) ∧
    (s.open who (R.ENG_HKEY_HI e) → s.latched me (R.ENG_HKEY_HI e) = none → Completes (.engHkeyHiAccess who e .read) s fun t =>
      t.rdata = BitVec.ofNat 32 ((s.hkey e).toNat / 2 ^ 32) ∧ s.regsKept t [R.ENG_HKEY_SEL e]) ∧
    (s.open who (R.ENG_HKEY_HI e) → calm → run = false → Completes (.engHkeyHiAccess who e (.write v)) s fun t =>
      smGet (fun _ => (0 : Word)) (t.eng e).keys (s.fld (R.ENG_HKEY_SEL e) F.ENG_HKEY_SEL_IDX) =
        BitVec.ofNat 64 (v.toNat * 2 ^ 32 + (s.reg (R.ENG_HKEY_LO e)).toNat) ∧
      t.fld (R.ENG_HKEY_SEL e) F.ENG_HKEY_SEL_IDX = step (s.reg (R.ENG_HKEY_SEL e)) F.ENG_HKEY_SEL_IDX 5) ∧
    (s.open who (R.ENG_HKEY_HI e) → calm → run = true → exec (.engHkeyHiAccess who e (.write v)) s = .next (s.violAt me 3 (R.ENG_HKEY_HI e))) ∧
    (s.wdogCounts e = false → exec (.stageWatchdogExpire e) s = .next s) ∧
    (s.wdogCounts e = true → s.fld (R.ENG_WDOG e) F.ENG_WDOG_ACT ≠ 2 → Completes (.stageWatchdogExpire e) s fun t =>
      (t.reg (0x200010 + e * 0x1000)).getLsbD 0 = true ∧ s.onlyRegs t [R.WDOG_EXP e, 0x200010 + e * 0x1000]) ∧
    (∀ k a, s.wdogCounts e = true → s.fld (R.ENG_WDOG e) F.ENG_WDOG_ACT = 2 → s.flag R.RAS_CFG F.RAS_CFG_AF_WDOG = false → s.oldest e = some k →
      s.holder e k = some a → s.sendsNow a ≠ some k → Completes (.stageWatchdogExpire e) s fun t => cleared t a ∧ (t.pkt k).discard = true) ∧
    ((s.pipeOn (e / 16) = false ∨ s.deadlocked e = false) → exec (.eventDeadlock e) s = .next s) ∧
    (∀ i : Fin 8, s.pipeOn (e / 16) = true → s.deadlocked e = true → s.role (e * 8 + i) ≠ rOff → (∀ j : Fin 8, j < i → s.role (e * 8 + j) = rOff) →
      Completes (.eventDeadlock e) s fun t => t.reg (R.ENG_DL e) = BitVec.ofNat 32 (2 ^ 31 + i.val) ∧ (t.thr (e * 8 + i)).evPend.getLsbD 15 = true ∧
        (t.reg (0x200010 + e * 0x1000)).getLsbD 1 = true)

/-! ### Hosts and instances (R440–R466) -/

/-- The manager creates, destroys and stages instances from the parameter registers of the selected instance, with the status R446–R460 give;
a reset advances the generation, disables the rings and stays busy until its drain ends; mailboxes, function resets, VF Enable and the
links act on their own host's instances only where these are there. -/
def Obligations.InstancesFollowTheirHosts : Prop :=
  ∀ (s : State) (who : Req) (h : Fin 4) (n : InstN),
    let cmd := s.open who R.HIF_INST_CMD
    let i := s.fld R.HIF_INST_SEL F.HIF_INST_SEL
    let l := s.params i
    let g (op : Nat) : State := s.putW { at_ := R.HIF_INST_CMD, cap := R.HIF_INST_CMD } (goOp op 0)
    let rings := (ringsOf (s.res i)).filter fun r => s.ringInst r == i && (s.txEn r || s.rxEn r)
    let res (t : State) (j : Nat) := smGet (fun _ => none) t.instRes j
    let done (t : State) (st : Nat) : Prop := (t.reg R.HIF_INST_CMD_STAT).toNat = st ∧ t.flag R.HIF_INST_CMD F.HIF_INST_CMD_GO = false
    let mbx (t : State) (f : Fld) := t.fld (R.HIF_MBX_CTL n) f
    let alone (j : Nat) : Prop := (∀ k < 4, s.staged k = []) ∧ (s.thr (0x900 + j)).lockReq = none ∧ ∀ e ∈ s.locks, e.2.held = false
    let absent := ∀ j ∈ s.instsOf h, s.iState j = iABSENT
    (cmd → s.iState i ≠ iABSENT → Completes (.instCreate who) s fun t => done t 1 ∧ t.instRes = s.instRes) ∧
    (cmd → s.iState i = iABSENT → s.rstBusy i = false → inPools l = true → s.clashes i l = false → (g 1).minFits i l = true →
      Completes (.instCreate who) s fun t => done t 0 ∧ res t i = some l ∧ t.iState i = (if s.fnOn i then iACTIVE else iINACTIVE) ∧
        (t.fld (R.LRN_INST i) F.LRN_INST_LIMIT) = lrnLim l) ∧
    (cmd → s.iState i = iABSENT → inPools l = false → Completes (.instCreate who) s fun t => done t 2 ∧ t.instRes = s.instRes) ∧
    (cmd → s.iState i = iABSENT → Completes (.instDestroy who) s fun t => done t 1 ∧ t.instRes = s.instRes) ∧
    (cmd → s.iState i ≠ iABSENT → rings ≠ [] → Completes (.instDestroy who) s fun t => done t 4 ∧ t.instRes = s.instRes) ∧
    (cmd → s.iState i ≠ iABSENT → rings = [] → s.rstBusy i = false → s.fld (R.HIF_INST_TCNT i) F.HIF_INST_TCNT = 0 → s.acct (512 + i) = {} →
      Completes (.instDestroy who) s fun t => done t 0 ∧ res t i = none ∧ t.iState i = iABSENT) ∧
    (cmd → s.mode ≠ mCOMPAT → Completes (.instStage who) s fun t => done t 5 ∧ t.instStg = s.instStg) ∧
    (cmd → s.mode = mCOMPAT → s.iState i = iACTIVE → rings = [] → inPools l = true → s.clashes i l = false → (g 4).minFits i l = true →
      Completes (.instStage who) s fun t => done t 0 ∧ smGet (fun _ => none) t.instStg i = some l ∧ t.instRes = s.instRes ∧
        t.fld (R.HIF_INST_STAT i) F.HIF_INST_STAT_STAGED = 1) ∧
    (cmd → s.iState n = iABSENT → Completes (.instReset who n) s fun t => done t 1 ∧ t.instRes = s.instRes) ∧
    (cmd → s.iState n ≠ iABSENT → s.rstBusy n = false → alone n → Completes (.instReset who n) s fun t => done t 0 ∧ t.rstBusy n = true ∧
      t.iState n = iINACTIVE ∧ t.iGen n = (s.iGen n + 1) % 256 ∧ ∀ r ∈ ringsOf (s.res n), s.ringInst r = n.val → t.txEn r = false ∧ t.rxEn r = false) ∧
    (s.rstBusy n = false → exec (.instResetDrainEnd n) s = .next s) ∧
    (s.rstBusy n = true → s.dmas = [] → smGet (fun _ => false) s.rstHeld n = false → Completes (.instResetDrainEnd n) s fun t => t.rstBusy n = false ∧
      t.fld (R.HIF_INST_STAT n) F.HIF_INST_STAT_DRAIN_TO = 0 ∧ (t.reg (instPg n + 0x10)).getLsbD 1 = true ∧
      (s.fnOn n = true → t.iState n = iACTIVE) ∧ (s.fnOn n = false → t.iState n = s.iState n)) ∧
    (s.reach (0x900 + n) (ownAddr n 0x48) true = .reg { at_ := instPg n + 0x48, cap := instPg n + 0x48, own := true } →
      (mbx s F.HIF_MBX_CTL_BUSY = 0 → Completes (.mbxSend n) s fun t => mbx t F.HIF_MBX_CTL_BUSY = 1 ∧ mbx t F.HIF_MBX_CTL_RES = 0 ∧
        (t.reg (instPg n + 0x10)).getLsbD 0 = true) ∧
      (mbx s F.HIF_MBX_CTL_BUSY = 1 → exec (.mbxSend n) s = .next (s.violAt (0x900 + n) 3 (instPg n + 0x48)))) ∧
    (s.open who R.HIF_INST_SEL → mbx s F.HIF_MBX_CTL_BUSY = 1 → Completes (.mbxDone who n) s fun t => mbx t F.HIF_MBX_CTL_BUSY = 0 ∧
      mbx t F.HIF_MBX_CTL_RES = 1 ∧ t.fld R.HIF_INST_SEL F.HIF_INST_SEL = n.val) ∧
    (mbx s F.HIF_MBX_CTL_BUSY = 1 → Completes (.mbxTimeout n) s fun t => mbx t F.HIF_MBX_CTL_BUSY = 0 ∧ mbx t F.HIF_MBX_CTL_RES = 2 ∧
      s.onlyRegs t [R.HIF_MBX_CTL n]) ∧
    (mbx s F.HIF_MBX_CTL_BUSY = 0 → exec (.mbxTimeout n) s = .next s) ∧
    (s.hostOf n = none → exec (.flr n) s = .next s) ∧
    (∀ k, 4 ≤ n.val → s.hostOf n = some k → s.linkHUp k = true → s.iState n ≠ iABSENT → s.rstBusy n = false → alone n → Completes (.flr n) s fun t =>
      t.rstBusy n = true ∧ t.iGen n = (s.iGen n + 1) % 256 ∧ (t.reg (instPg n + 0x10)).getLsbD 2 = true) ∧
    (smGet (fun _ => false) s.vfEn h = false → exec (.vfEnableClear h) s = .next s) ∧
    (smGet (fun _ => false) s.vfEn h = true → absent → Completes (.vfEnableClear h) s fun t => smGet (fun _ => false) t.vfEn h = false ∧ t.regs = s.regs) ∧
    (s.linkHUp h = false → exec (.vfEnableSet h) s = .next s) ∧
    (s.linkHUp h = true → smGet (fun _ => false) s.vfEn h = false → absent → Completes (.vfEnableSet h) s fun t => smGet (fun _ => false) t.vfEn h = true ∧
      t.regs = s.regs) ∧
    (s.linkHUp h = false → exec (.pcieLinkDown h) s = .next s ∧ Completes (.perst h true) s fun t => smGet (fun _ => false) t.vfEn h = false) ∧
    (s.linkHUp h = true → absent → Completes (.pcieLinkDown h) s fun t => t.linkHUp h = false ∧ s.onlyRegs t [R.HIF_LINK h]) ∧
    exec (.perst h false) s = .next s ∧
    (∀ (rate : BitVec 3) (width : BitVec 5), s.mainClk = true → s.mode ≠ mBOOT → h.val < s.hosts → s.linkHUp h = false → s.domOn (18 + h) = true →
      rate.toNat ≤ 5 → width ≠ 0 → width.toNat * s.hosts ≤ 16 → absent → Completes (.pcieLinkUp h rate width) s fun t => t.linkHUp h = true ∧
        t.fld (R.HIF_LINK h) F.HIF_LINK_RATE = rate.toNat ∧ t.fld (R.HIF_LINK h) F.HIF_LINK_WIDTH = width.toNat ∧ s.onlyRegs t [R.HIF_LINK h]) ∧
    (s.linkHUp h = true → exec (.configurationRequest h) s = .next { s with outs := s.outs ++ [.cfgStatus h (!s.cfgReady)] }) ∧
    (s.linkHUp h = false → exec (.configurationRequest h) s = .next s)

/-- The rings: a valid doorbell moves the producer index, a bad one is counted and captured, and one is held while ingress is for a sleep; a
transmit descriptor is refused by its length or queues the reads of its frame, of at most 4,096 bytes; a queued operation is compared with
the generation of its instance before it is issued, and a stale one is counted; completions are used only in that generation; a staged frame
is delivered to its ring by writes of at most 512 bytes, or dropped. -/
def Obligations.RingsMoveFrames : Prop :=
  ∀ (s : State) (n : InstN) (q : Fin 512) (pi : BitVec 16) (r : RingN) (h : Fin 4) (id : Nat) (data : List Byte),
    let l := s.res n
    let k := qpFirst l + q.val
    let live := s.mode ≠ mDORMANT ∧ s.mainOn = true ∧ s.fnOn n = true
    let good := q.val < qpNum l ∧ s.rstBusy n = false ∧ s.iState n = iACTIVE ∧ s.ringInst k = n.val
    let bad := (s.viol (dbPg n) (0x900 + n) 3 0 (q * 8)).cnt (R.HIF_DB_BAD n)
    let i := s.ringInst r
    (live → s.sleeping = false → good → s.txEn k = true → (pi.toNat + 65536 - s.txCi k) % 65536 ≤ s.ringSize k → Completes (.txDoorbell n q pi) s fun t =>
      (t.ring k).txPi = pi.toNat ∧ t.regs = s.regs ∧ ∀ j, j ≠ k → t.ring j = s.ring j) ∧
    (live → s.sleeping = false → good → s.rxEn k = true → (pi.toNat + 65536 - s.rxCi k) % 65536 ≤ s.ringSize k → Completes (.rxDoorbell n q pi) s fun t =>
      (t.ring k).rxPi = pi.toNat ∧ t.regs = s.regs ∧ ∀ j, j ≠ k → t.ring j = s.ring j) ∧
    (live → s.sleeping = false → qpNum l ≤ q.val → exec (.txDoorbell n q pi) s = .next bad) ∧
    (live → s.mode ≠ mSIMMER → s.sleeping = true → exec (.txDoorbell n q pi) s = .next { s with dbHeld := s.dbHeld ++ [(true, n.val, q.val, pi.toNat)] }) ∧
    (live → s.mode = mSIMMER → exec (.txDoorbell n q pi) s = .next (s.viol 0 (0x900 + n) 6 0 (q * 8)) ∧
      exec (.rxDoorbell n q pi) s = .next (s.viol 0 (0x900 + n) 6 0 (q * 8 + 4))) ∧
    (live → s.mode ≠ mSIMMER → s.sleeping = true → exec (.rxDoorbell n q pi) s = .next { s with dbHeld := s.dbHeld ++ [(false, n.val, q.val, pi.toNat)] }) ∧
    (s.fnOn n = false → exec (.txDoorbell n q pi) s = .next s ∧ exec (.rxDoorbell n q pi) s = .next s) ∧
    ((s.ring r).txD = none → exec (.txDescriptorProcess r) s = .next s) ∧
    (∀ d, (s.ring r).txD = some d → s.txEn r = true → s.mainClk = true → (bits d 77 64 < 14 ∨ 9212 < bits d 77 64) →
      Completes (.txDescriptorProcess r) s fun t => (t.ring r).txD = none ∧ t.txCi r = (s.txCi r + 1) % 65536 ∧ t.mem = s.mem ∧
        ∃ o, t.dmaQ = s.dmaQ ++ .write i (s.iGen i) (s.txBase r + s.txCi r % s.ringSize r * 16 + 10)
          ([(1 : Byte), BitVec.ofNat 8 (s.iGen i)] ++ bytesLE 4 2) :: o) ∧
    (∀ d p s1, (s.ring r).txD = some d → s.txEn r = true → s.mainClk = true → 14 ≤ bits d 77 64 → bits d 77 64 ≤ 9212 →
      s.fenced (getF (s.ringCtl r) F.HIF_RING_CTL_PIPE) = false →
      s.storeFrame (poolFor (bits d 77 64 + 4)) (512 + i) (0x900 + i) 9216 true (List.replicate (bits d 77 64 + 4) 0) = (.stored p, s1) →
      Completes (.txDescriptorProcess r) s fun t => (t.ring r).txD = none ∧
        t.outs = s1.outs ∧ t.dmas = s1.dmas ∧ t.dmaQ = s1.dmaQ ++ (partsOf 4096 (bits d 77 64)).map fun e =>
          .read { inst := i, gen := s.iGen i, ring := r, kind := .txData p (bits d 77 64), off := e.1 } (bits d 63 0 + e.1) e.2) ∧
    (∀ g a, s.pending = [] → s.mainClk = true → s.dmaQ = [.write n g a data] →
      (g = s.iGen n → ∃ t, step s = .next t ∧ t.dmaQ = [] ∧ t.outs = s.outs ++ [.hostWrite (s.linkOf n) a data]) ∧
      (g ≠ s.iGen n → ∃ t, step s = .next t ∧ t.dmaQ = [] ∧ t.outs = s.outs ∧
        t.reg (R.HIF_STALE n) = (if s.reg (R.HIF_STALE n) = 0xFFFFFFFF then 0xFFFFFFFF else s.reg (R.HIF_STALE n) + 1))) ∧
    (smGet (fun _ => none) s.dmas id = none → exec (.dmaCompletion id data) s = .next s ∧ exec (.cplTimeout id) s = .next s) ∧
    (∀ d, smGet (fun _ => none) s.dmas id = some d → d.gen ≠ s.iGen d.inst → d.kind = .txDesc →
      exec (.dmaCompletion id data) s = .next (({ s with dmas := smErase s.dmas id } : State).cnt (R.HIF_STALE d.inst)) ∧
      exec (.cplTimeout id) s = .next (({ s with dmas := smErase s.dmas id } : State).cnt (R.HIF_CPL_TMO d.inst))) ∧
    (∀ d, smGet (fun _ => none) s.dmas id = some d → d.gen = s.iGen d.inst → d.kind = .txDesc → Completes (.dmaCompletion id data) s fun t =>
      (t.ring d.ring).txD = some (valLE (data.take 16)) ∧ smFind t.dmas id = none ∧ t.regs = s.regs) ∧
    (∀ d slot, smGet (fun _ => none) s.dmas id = some d → d.gen = s.iGen d.inst → d.kind = .rxDesc slot → Completes (.dmaCompletion id data) s fun t =>
      (t.ring d.ring).rxD = (s.ring d.ring).rxD ++ [(slot, valLE (data.take 8))] ∧ t.regs = s.regs) ∧
    (∀ d, smGet (fun _ => none) s.dmas id = some d → d.gen = s.iGen d.inst → d.kind = .txDesc → d.inst < 256 → Completes (.cplTimeout id) s fun t =>
      t.txCi d.ring = (s.txCi d.ring + 1) % 65536 ∧ (t.ring d.ring).txD = none ∧ t.mem = s.mem) ∧
    ((∀ j ∈ s.staged h, s.rxFate h j = .wait) → exec (.rxDelivery h) s = .next s) ∧
    (∀ j rest, s.staged h = j :: rest → s.rxFate h j = .noRing → Completes (.rxDelivery h) s fun t => t.staged h = rest.filter (· ≠ j) ∧
      t.hasPkt j = false ∧ t.outs = s.outs ∧ t.dmaQ = s.dmaQ ∧ t.rings = s.rings) ∧
    (∀ j rest x slot addr, s.staged h = j :: rest → s.rxFate h j = .ring x slot addr → Completes (.rxDelivery h) s fun t =>
      let bs := s.chainRead (s.pkt j).ptr 0 (min (getF (s.reg (ringReg x 0x9C)) F.HIF_RING_BUF_BUF_SZ) (s.pkt j).len)
      let g := s.iGen (s.ringInst x)
      t.staged h = rest.filter (· ≠ j) ∧ t.hasPkt j = false ∧ (t.ring x).rxD = (s.ring x).rxD.drop 1 ∧ ∃ wb, wb.length = 32 ∧
        t.dmaQ = s.dmaQ ++ ((partsOf 512 bs.length).map fun e => .write (s.ringInst x) g (addr + e.1) ((bs.drop e.1).take e.2)) ++
          [.write (s.ringInst x) g (s.rxBase x + slot * 32) wb]) ∧
    ((∀ j ∈ s.staged h, s.rxFate h j ≠ .wait) → exec (.rxStagingTimeout h) s = .next s) ∧
    (∀ j rest, s.staged h = j :: rest → s.rxFate h j = .wait → Completes (.rxStagingTimeout h) s fun t => t.staged h = rest.filter (· ≠ j) ∧
      t.hasPkt j = false ∧ t.rings = s.rings) ∧
    ((s.ring r).mod_ = 2 → Completes (.ringModExpire r) s fun t => (t.ring r).mod_ = 1 ∧ t.regs = s.regs ∧
      (vecIn (s.res i) (bits (s.reg (ringReg r 0x98)).toNat 26 16) = false → t.outs = s.outs) ∧
      (vecIn (s.res i) (bits (s.reg (ringReg r 0x98)).toNat 26 16) = true → smGet (fun _ => false) s.vecOpen (bits (s.reg (ringReg r 0x98)).toNat 26 16) = true →
        t.outs = s.outs ++ [.msix (bits (s.reg (ringReg r 0x98)).toNat 26 16)])) ∧
    ((s.ring r).mod_ ≠ 2 → Completes (.ringModExpire r) s fun t => (t.ring r).mod_ = 0 ∧ t.regs = s.regs ∧ t.outs = s.outs)

/-! ### HBM (R467–R488) -/

/-- The HBM controller trains and writes the memory with zeros; corrects, or keeps an uncorrectable word as poison; retrains a
pseudo-channel in a pause, or on order; serves the banks of a pseudo-channel in rotation, each its oldest request; sleeps in self-refresh, to whose exit a retrain that falls due is
deferred; and fences one pseudo-channel, whose pages are remapped and whose free spill blocks are withdrawn. -/
def Obligations.HbmFollowsItsController : Prop :=
  ∀ (s : State) (who : Req) (pc : PcN) (ch : Fin 32) (a : BitVec 40) (ready : BitVec 32) (b : Nat) (r : HbmReq) (rest : List HbmReq),
    let me := who.toNat
    let on := s.hbmOn = true
    let q := pc.val * 32 + b
    let front := s.pcServes pc = true ∧ s.nextBank pc ready = some b ∧ s.bankQ q = r :: rest ∧ s.hbmWait = []
    let served (t : State) : Prop := t.bankQ q = rest ∧ smGet (fun _ => 31) t.hbmLast pc = b ∧ t.hbmWait = [] ∧ t.mem = s.mem ∧
      ∀ k, k ≠ q → t.bankQ k = s.bankQ k
    let stat (t : State) (p : Nat) (f : Fld) : Bool := t.pcStat p f
    let train (t : State) (f : Fld) := t.fld R.HBM_TRAIN f
    let auto := s.flag R.HBM_FENCE_CFG F.HBM_FENCE_CFG_AUTO
    let word := on ∧ s.hbmWord a.toNat = true ∧ s.poisoned a.toNat = false
    let line := 0xC10000 + pc.val / 2 * 0x1000
    let pcReg := R.HBM_PC_STAT (pc / 2) (pc % 2)
    let counted (t : State) (r : Nat) : Prop := t.reg r = (if s.reg r = 0xFFFFFFFF then s.reg r else s.reg r + 1)
    (front → r.wr = true → ∀ e, Completes (.hbmBankIssue ⟨pc, ready⟩ e) s fun t => served t ∧ t.poison = s.poison ∧
      t.reg64 R.HBM_WR_BYTES = (s.reg64 R.HBM_WR_BYTES + 64) % 2 ^ 64 ∧ s.onlyRegs { t with hbmQ := s.hbmQ, hbmLast := s.hbmLast } [R.HBM_WR_BYTES, R.HBM_WR_BYTES + 4]) ∧
    (front → r.wr = false → s.poisoned (64 * r.word) = false → Completes (.hbmBankIssue ⟨pc, ready⟩ .clean) s fun t => served t ∧
      t.reg64 R.HBM_RD_BYTES = (s.reg64 R.HBM_RD_BYTES + 64) % 2 ^ 64 ∧ s.onlyRegs { t with hbmQ := s.hbmQ, hbmLast := s.hbmLast } [R.HBM_RD_BYTES, R.HBM_RD_BYTES + 4]) ∧
    (front → r.wr = false → s.poisoned (64 * r.word) = false → Completes (.hbmBankIssue ⟨pc, ready⟩ .correctable) s fun t => served t ∧ counted t R.HBM_CE ∧
      t.poison = s.poison) ∧
    (front → r.wr = false → auto = false → Completes (.hbmBankIssue ⟨pc, ready⟩ .uncorrectable) s fun t => served t ∧ counted t R.HBM_UE ∧
      t.poisoned (64 * r.word) = true ∧ (t.reg 0xC00010).getLsbD 2 = true) ∧
    ((s.pcServes pc = false ∨ s.nextBank pc ready = none) → ∀ e, exec (.hbmBankIssue ⟨pc, ready⟩ e) s = .next s) ∧
    (s.hbmOn = false → ∀ e, exec (.hbmScrubRead a e) s = .next s) ∧
    (word → s.flag R.HBM_CTL F.HBM_CTL_SCRUB_EN = true → s.fencedPc ≠ some (hbmPc a.toNat) → Completes (.hbmScrubRead a .correctable) s fun t =>
      counted t R.HBM_CE ∧ t.mem = s.mem) ∧
    (s.flag R.HBM_CTL F.HBM_CTL_SCRUB_EN = false → ∀ e, exec (.hbmScrubRead a e) s = .next s) ∧
    (on → s.promote pc s.hbmWait ≠ s.hbmWait → Completes (.hbmPromote pc) s fun t => counted t R.HBM_PROMOTE ∧ t.hbmWait = s.promote pc s.hbmWait ∧
      s.onlyRegs { t with hbmWait := s.hbmWait } [R.HBM_PROMOTE]) ∧
    (s.promote pc s.hbmWait = s.hbmWait → exec (.hbmPromote pc) s = .next s) ∧
    (on → s.flag R.HBM_CTL F.HBM_CTL_RT_EN = true → (∀ p < 64, stat s p F.HBM_PC_STAT_PAUSE = false) → s.fencedPc ≠ some pc.val →
      stat s pc F.HBM_PC_STAT_SR = false → Completes (.hbmRetrainDue pc) s fun t => stat t pc F.HBM_PC_STAT_PAUSE = true ∧ s.onlyRegs t [pcReg]) ∧
    (on → s.flag R.HBM_CTL F.HBM_CTL_RT_EN = true → (∀ p < 64, stat s p F.HBM_PC_STAT_PAUSE = false) → s.fencedPc ≠ some pc.val →
      stat s pc F.HBM_PC_STAT_SR = true → exec (.hbmRetrainDue pc) s = .next { s with rtDue := smSet (fun _ => false) s.rtDue pc true }) ∧
    (∀ p, p < 64 → stat s p F.HBM_PC_STAT_PAUSE = true → exec (.hbmRetrainDue pc) s = .next s) ∧
    (on → stat s pc F.HBM_PC_STAT_PAUSE = true → Completes (.hbmRetrainEnd pc true) s fun t => stat t pc F.HBM_PC_STAT_PAUSE = false ∧
      counted t R.HBM_RT_CNT ∧ smGet (fun _ => 0) t.rtFails pc = 0 ∧
      (train s F.HBM_TRAIN_STATE = 1 → train s F.HBM_TRAIN_PC = pc.val → train t F.HBM_TRAIN_STATE = 2)) ∧
    (on → stat s pc F.HBM_PC_STAT_PAUSE = true → auto = false → Completes (.hbmRetrainEnd pc false) s fun t => stat t pc F.HBM_PC_STAT_PAUSE = false ∧
      counted t R.HBM_RT_FAIL ∧ smGet (fun _ => 0) t.rtFails pc = smGet (fun _ => 0) s.rtFails pc + 1 ∧ (t.reg (line + 0x10)).getLsbD 2 = true) ∧
    (stat s pc F.HBM_PC_STAT_PAUSE = false → ∀ ok, exec (.hbmRetrainEnd pc ok) s = .next s) ∧
    (s.open who R.HBM_TRAIN → train s F.HBM_TRAIN_STATE = 1 → exec (.hbmTrainGo who pc) s = .next (s.violAt me 3 R.HBM_TRAIN)) ∧
    (s.open who R.HBM_TRAIN → train s F.HBM_TRAIN_STATE ≠ 1 → s.fencedPc ≠ some pc.val → stat s pc F.HBM_PC_STAT_SR = false →
      Completes (.hbmTrainGo who pc) s fun t => train t F.HBM_TRAIN_STATE = 1 ∧ train t F.HBM_TRAIN_PC = pc.val ∧ stat t pc F.HBM_PC_STAT_PAUSE = true ∧
        s.onlyRegs t [R.HBM_TRAIN, pcReg]) ∧
    (s.open who R.HBM_TRAIN → train s F.HBM_TRAIN_STATE ≠ 1 → s.fencedPc = some pc.val → Completes (.hbmTrainGo who pc) s fun t =>
      train t F.HBM_TRAIN_STATE = 4 ∧ (t.reg 0xC00010).getLsbD 1 = true) ∧
    (s.open who R.HBM_TRAIN → train s F.HBM_TRAIN_STATE = 1 → Completes (.hbmTrainAbort who) s fun t => train t F.HBM_TRAIN_STATE = 3 ∧
      train t F.HBM_TRAIN_ABORT_ST = 1 ∧ stat t (train s F.HBM_TRAIN_PC) F.HBM_PC_STAT_PAUSE = false) ∧
    (s.open who R.HBM_TRAIN → train s F.HBM_TRAIN_STATE ≠ 1 → s.atPoint R.HBM_TRAIN = true → Completes (.hbmTrainAbort who) s fun t =>
      train t F.HBM_TRAIN_STATE = train s F.HBM_TRAIN_STATE ∧ train t F.HBM_TRAIN_ABORT_ST = 2 ∧ s.onlyRegs t [R.HBM_TRAIN]) ∧
    (on → s.flag R.HBM_CTL F.HBM_CTL_SR_EN = true → s.anyDeep = false → stat s (2 * ch) F.HBM_PC_STAT_PAUSE = false →
      stat s (2 * ch + 1) F.HBM_PC_STAT_PAUSE = false → s.qDepth (2 * ch) = 0 → s.qDepth (2 * ch + 1) = 0 → Completes (.hbmSrEntry ch) s fun t => stat t (2 * ch) F.HBM_PC_STAT_SR = true ∧
        stat t (2 * ch + 1) F.HBM_PC_STAT_SR = true ∧ s.onlyRegs t [R.HBM_PC_STAT ch 0, R.HBM_PC_STAT ch 1]) ∧
    ((s.anyDeep = true ∨ s.qDepth (2 * ch) ≠ 0 ∨ s.qDepth (2 * ch + 1) ≠ 0) → exec (.hbmSrEntry ch) s = .next s) ∧
    (on → stat s (2 * ch) F.HBM_PC_STAT_SR = true → Completes (.hbmSrExit ch) s fun t => stat t (2 * ch) F.HBM_PC_STAT_SR = false ∧
      stat t (2 * ch + 1) F.HBM_PC_STAT_SR = false ∧
      (smGet (fun _ => false) s.rtDue (2 * ch) = true → stat t (2 * ch) F.HBM_PC_STAT_PAUSE = true) ∧
      (smGet (fun _ => false) s.rtDue (2 * ch + 1) = true → stat t (2 * ch + 1) F.HBM_PC_STAT_PAUSE = true)) ∧
    (on → auto = true → s.fencedPc = none → s.flag R.RAS_CFG F.RAS_CFG_AR_HBM = false → ∀ cause : BitVec 4, (cause = 1 ∨ cause = 2) →
      Completes (.hbmFence pc cause) s fun t => t.fencedPc = some pc.val ∧ t.fld R.HBM_FENCE F.HBM_FENCE_CAUSE = cause.toNat ∧
        stat t pc F.HBM_PC_STAT_FENCE = true ∧ t.bcache = [] ∧ (t.reg 0xC00010).getLsbD 0 = true ∧ t.mem = s.mem) ∧
    (auto = false → ∀ cause, exec (.hbmFence pc cause) s = .next s) ∧
    (s.open who pcReg → s.fencedPc = none → s.flag R.RAS_CFG F.RAS_CFG_AR_HBM = false → Completes (.hbmPcFenceWrite who pc) s fun t =>
      t.fencedPc = some pc.val ∧ t.fld R.HBM_FENCE F.HBM_FENCE_CAUSE = 3 ∧ t.hbmFill = true ∧ t.mem = s.mem) ∧
    (s.open who pcReg → s.fencedPc = some pc.val → exec (.hbmPcFenceWrite who pc) s = .next s) ∧
    Completes .hbmRemapFillDone s (fun t => t.hbmFill = false ∧ ({ t with hbmFill := s.hbmFill } : State) = s) ∧
    (s.fencedPc = none → exec .hbmSpillWithdraw s = .next s) ∧
    (s.fencedPc = some pc.val → Completes .hbmSpillWithdraw s fun t => t.withdrawn = true ∧ (∀ b ∈ t.deepStk, b % 64 ≠ pc.val ∧ b ∈ s.deepStk) ∧
      ({ t with withdrawn := s.withdrawn, deepStk := s.deepStk } : State) = s) ∧
    (s.open who R.HBM_CTL → s.flag R.HBM_CTL F.HBM_CTL_RUN = false → s.fld R.HBM_CTL F.HBM_CTL_SR_US ≠ 0 → Completes (.hbmRun who) s fun t =>
      t.flag R.HBM_CTL F.HBM_CTL_RUN = true ∧ (∀ b, hbmBase ≤ b → b < hbmEnd → t.rd8 b = 0) ∧ (∀ b, b < hbmBase → t.rd8 b = s.rd8 b) ∧ t.poison = [] ∧
      s.regsKept t [R.HBM_CTL]) ∧
    (s.mainClk = true → s.flag R.HBM_CTL F.HBM_CTL_RUN = true → Completes .hbmTrained s fun t => t.flag R.HBM_CTL F.HBM_CTL_TRAINED = true ∧
      s.onlyRegs t [R.HBM_CTL]) ∧
    (s.flag R.HBM_CTL F.HBM_CTL_RUN = false → exec .hbmTrained s = .next s)

/-! ### Modes, power and resets (R489–R512, R602–R620) -/

/-- A mode request runs alone, is turned away with NOT_ALLOWED or PRECONDITION, completes at once, or waits for its entry; MAINTAIN completes when
its ports are empty or its time is up; the sleeps commit only while no wake source has fired, and a wake brings the device back. (Clauses on
sleeps take no enabled port and nothing held, so that no port changes hands.) -/
def Obligations.ModeTransitionsFollowTheTable : Prop :=
  ∀ (s : State) (who : Req) (target : BitVec 4),
    let req := s.open who R.DEV_MODE_REQ
    let g := s.putW { at_ := R.DEV_MODE_REQ, cap := R.DEV_MODE_REQ } (goOp target.toNat 0)
    let n := target.toNat
    let bare := s.enPorts = [] ∧ s.dbHeld = [] ∧ s.hold = []
    let slept := (s.going = some mSIMMER ∨ s.going = some mDORMANT) ∧ s.mode ≠ mSIMMER
    let dmt := s.mode = mSIMMER ∧ s.going = some mDORMANT
    let fires (b : Nat) : Prop := (s.fld R.AON_WAKE F.AON_WAKE_EN).testBit b = true
    (req → s.reqStatus = 1 → exec (.devModeReq who target) s = .next (s.violAt who.toNat 3 R.DEV_MODE_REQ)) ∧
    (req → s.reqStatus ≠ 1 → g.modeAllowed n = false → Completes (.devModeReq who target) s fun t => t.reqStatus = 3 ∧ s.onlyRegs t [R.DEV_MODE_REQ]) ∧
    (req → s.reqStatus ≠ 1 → g.modeAllowed n = true → g.modeCond n = false → Completes (.devModeReq who target) s fun t => t.reqStatus = 4 ∧
      s.onlyRegs t [R.DEV_MODE_REQ]) ∧
    (req → s.reqStatus ≠ 1 → g.modeAllowed n = true → g.modeCond n = true → n ≠ mMAINTAIN → n ≠ mSIMMER → n ≠ mDORMANT → s.replay = false →
      Completes (.devModeReq who target) s fun t => t.mode = n ∧ t.reqStatus = 2 ∧ t.fld R.DEV_MODE F.DEV_MODE_PREV = s.mode ∧
        (t.reg 0x10).getLsbD 0 = true ∧ s.regsKept t [R.DEV_MODE, R.DEV_MODE_REQ, R.DEV_MODE_CHG, 0x10, R.XB_STAT] ∧ t.mem = s.mem) ∧
    (req → s.reqStatus ≠ 1 → g.modeAllowed n = true → g.modeCond n = true → (n = mSIMMER ∨ n = mDORMANT ∨ (n = mMAINTAIN ∧ s.mode ≠ mRECOVER)) →
      Completes (.devModeReq who target) s fun t => t.mode = s.mode ∧ t.reqStatus = 1 ∧ t.going = some n ∧ s.regsKept t [R.DEV_MODE_REQ]) ∧
    (s.going ≠ some mMAINTAIN → exec .maintainEntry s = .next s ∧ exec .maintainDrainTimeout s = .next s) ∧
    (s.going = some mMAINTAIN → (∀ x < 64, s.maintPort x = true → s.portEmpty x = true) → Completes .maintainEntry s fun t => t.mode = mMAINTAIN ∧
      t.reqStatus = 2 ∧ t.going = none ∧ t.fld R.DEV_MODE F.DEV_MODE_PREV = s.mode ∧ t.mem = s.mem) ∧
    (s.going = some mMAINTAIN → Completes .maintainDrainTimeout s fun t => t.mode = mMAINTAIN ∧ t.reqStatus = 2 ∧ t.going = none) ∧
    (¬ slept → exec .simmerEntry s = .next s ∧ exec .simmerCommit s = .next s ∧ exec .sleepDrainTimeout s = .next s) ∧
    (slept → s.goCommit = false → s.noneInFlight = true → s.dmas = [] → s.dmaQ = [] → bare → exec .simmerEntry s = .next { s with goCommit := true }) ∧
    (slept → s.goCommit = false → bare → Completes .sleepDrainTimeout s fun t => t.going = none ∧ t.reqStatus = 5 ∧ t.mode = s.mode ∧
      (t.reg 0x10).getLsbD 0 = true ∧ s.regsKept t [R.DEV_MODE_REQ, 0x10]) ∧
    (slept → s.goCommit = true → bare → s.sampleWakes.wakePend ≠ 0 → Completes .simmerCommit s fun t => t.mode = s.mode ∧ t.reqStatus = 6 ∧ t.going = none) ∧
    (slept → s.goCommit = true → bare → s.sampleWakes.wakePend = 0 → s.going = some mSIMMER → Completes .simmerCommit s fun t => t.mode = mSIMMER ∧
      t.reqStatus = 2 ∧ t.going = none ∧ t.fld R.AON_WAKE F.AON_WAKE_RET = s.mode ∧ t.mem = s.mem) ∧
    (slept → s.goCommit = true → bare → s.sampleWakes.wakePend = 0 → s.going = some mDORMANT → Completes .simmerCommit s fun t => t.mode = mSIMMER ∧
      t.going = some mDORMANT) ∧
    (s.mode = mSIMMER → s.wakePend ≠ 0 → s.going = none → bare → Completes .simmerWake s fun t => t.mode = s.fld R.AON_WAKE F.AON_WAKE_RET ∧
      t.wakePend = 0 ∧ (t.reg 0x10).getLsbD 1 = true ∧ t.mem = s.mem) ∧
    (s.wakePend = 0 → exec .simmerWake s = .next s ∧ exec .dormantWake s = .next s) ∧
    (s.mode = mSIMMER → s.going = none → s.fld R.AON_DORMANT F.AON_DORMANT_AUTO_S ≠ 0 → Completes .dormantAutoExpire s fun t => t.going = some mDORMANT ∧
      t.reqStatus = 1 ∧ s.regsKept t [R.DEV_MODE_REQ]) ∧
    (s.fld R.AON_DORMANT F.AON_DORMANT_AUTO_S = 0 → exec .dormantAutoExpire s = .next s) ∧
    (¬ dmt → exec .dormantEntry s = .next s) ∧
    (dmt → bare → s.sampleWakes.wakePend ≠ 0 → Completes .dormantEntry s fun t => t.mode = mSIMMER ∧ t.reqStatus = 6 ∧ t.going = none) ∧
    (dmt → bare → s.sampleWakes.wakePend = 0 → Completes .dormantEntry s fun t => t.mode = mDORMANT ∧ t.reqStatus = 2 ∧ t.pins.enMain = false ∧
      t.pins.pgMain = false ∧ t.time = s.time ∧ t.fuses = s.fuses ∧ t.flash = s.flash ∧ ∀ a, a ≠ 0x810 → t.thr a = {}) ∧
    (s.mode = mDORMANT → s.wakePend ≠ 0 → s.pins.pgMain = true → s.pins.pgHbm = true → Completes .dormantWake s fun t => t.mode = mBOOT ∧ t.wakePend = 0 ∧
      t.flag R.AON_WAKE_STAT F.AON_WAKE_STAT_WOKE = true ∧ t.time = s.time ∧ t.fuses = s.fuses ∧ ∀ a, 0x20100 ≤ a → a < 0x20200 → t.reg a = s.reg a) ∧
    (s.mode = mDORMANT → s.wakePend ≠ 0 → s.pins.pgMain = false → s.pins.retry = false →
      exec .dormantWake s = .next { s with pins := { s.pins with enMain := true } }) ∧
    (s.reach who.toNat R.DEV_WAKE true = .reg { at_ := R.DEV_WAKE, cap := R.DEV_WAKE } → s.mode = mSIMMER → s.going = none → fires 5 →
      Completes (.devWakeWrite who) s fun t => t.wakePend = s.wakePend ||| 32 ∧ (t.reg R.AON_WAKE_STAT).getLsbD 5 = true ∧ s.regsKept t [R.AON_WAKE_STAT]) ∧
    (s.open who R.DEV_WAKE → s.going = none → exec (.devWakeWrite who) s = .next s) ∧
    ((s.mode = mSIMMER ∨ s.mode = mDORMANT) → s.reg R.AON_WAKE_TMR ≠ 0 → fires 6 → Completes .wakeTimerExpire s fun t => t.reg R.AON_WAKE_TMR = 0 ∧
      t.wakePend = s.wakePend ||| 64 ∧ s.regsKept t [R.AON_WAKE_TMR, R.AON_WAKE_STAT]) ∧
    (s.reg R.AON_WAKE_TMR = 0 → exec .wakeTimerExpire s = .next s) ∧
    (∀ (i : Fin 32) (b : Bool), s.mode ≠ mOFF → (s.reg R.AON_GPIO_IN).toNat.testBit i ≠ b → Completes (.gpioInputChange i b) s fun t =>
      (t.reg R.AON_GPIO_IN).toNat.testBit i = b ∧ s.regsKept t [R.AON_GPIO_IN, R.AON_GPIO_LATCH, R.AON_WAKE_STAT]) ∧
    (∀ (i : Fin 32) (b : Bool), (s.reg R.AON_GPIO_IN).toNat.testBit i = b → exec (.gpioInputChange i b) s = .next s) ∧
    (∀ (slot : Fin 4) bs, s.slotPort slot = none → exec (.keepaliveFrameReceive slot bs) s = .next s ∧
      ∀ svc, exec (.keepaliveServiceSend slot svc bs) s = .next s) ∧
    (∀ (slot : Fin 4) bs x, s.slotPort slot = some x → 64 ≤ bs.length → fcs (bs.take (bs.length - 4)) = bs.drop (bs.length - 4) → kaService bs = none →
      s.isWakeFrame bs = false → s.fld R.AON_HOLD F.AON_HOLD_MODE = 1 → s.holdBytes + bs.length ≤ 1048576 → s.fld R.AON_HOLD F.AON_HOLD_WM_KB = 0 →
      exec (.keepaliveFrameReceive slot bs) s = .next { s with hold := s.hold ++ [{ port := x, stamp := s.time.d, at_ := s.clk, bytes := bs }] }) ∧
    (∀ (slot : Fin 4) svc bs x, s.slotPort slot = some x → (s.fld R.AON_KA_SVC F.AON_KA_SVC).testBit (KaSvc.bit svc) = true →
      exec (.keepaliveServiceSend slot svc bs) s = .next { s with outs := s.outs ++ [.keepAlive slot bs] })

/-- Core resets start their contexts again; a power change is taken only where R497 allows it and takes effect at its completion; a fence keeps
what it has named; the sequencer raises the rails step by step; and each reset leaves what R494 and R603–R619 keep. -/
def Obligations.PowerAndResetsFollowTheSequencer : Prop :=
  ∀ (s : State) (who : Req) (v : W32) (c : Fin 4) (h : HalfN),
    let me := who.toNat
    let n := v.toNat % 2 ^ 22
    let busy := s.flag R.DEV_PWR_STAT F.DEV_PWR_STAT_BUSY
    let old := (s.reg R.DEV_PWR_STAT).toNat % 2 ^ 22
    let new := (s.reg R.DEV_PWR).toNat
    let off := s.mode = mOFF
    let pins (p : Pins) : Host.Outcome State Fault Refusal := .next { s with pins := p }
    let fresh (t : State) : Prop := t.mode = mRESET ∧ t.fuses = s.fuses ∧ t.pkts = [] ∧ t.em = [] ∧ t.tcr = [] ∧ t.locks = [] ∧ t.tasks = []
    (s.open who R.DEV_CORE_RST → Completes (.controlCoreReset who c) s fun t => ∀ i : Fin 4, (t.thr (0x800 + 4 * c + i)).pc = s.coreEntry % 2 ^ 39 ∧
      (t.thr (0x800 + 4 * c + i)).rf = [] ∧ (t.thr (0x800 + 4 * c + i)).task = none ∧ (t.thr (0x800 + 4 * c + i)).rstEnd = s.clk + 16) ∧
    (s.open who R.DEV_CORE_RST → Completes (.fumaroleReset who) s fun t => (t.thr 0x810).pc = s.fumEntry % 2 ^ 39 ∧ (t.thr 0x810).rf = []) ∧
    (s.open who R.DEV_PWR → s.pwrOk n = false → exec (.devPwrWrite who v) s = .next (s.violAt me 3 R.DEV_PWR)) ∧
    (s.open who R.DEV_PWR → s.pwrOk n = true → Completes (.devPwrWrite who v) s fun t => (t.reg R.DEV_PWR).toNat = n ∧
      t.flag R.DEV_PWR_STAT F.DEV_PWR_STAT_BUSY = true ∧ s.onlyRegs t [R.DEV_PWR, R.DEV_PWR_STAT]) ∧
    (busy = false → exec .devPwrChangeComplete s = .next s ∧ exec (.lkpHalfCopyDone h) s = .next s) ∧
    (busy = true → new = old → (new.testBit 16 || new.testBit 17) = true → Completes .devPwrChangeComplete s fun t => t.flag R.DEV_PWR_STAT F.DEV_PWR_STAT_BUSY = false ∧
      (t.reg R.DEV_PWR_STAT).toNat % 2 ^ 22 = new ∧ (t.reg 0x10).getLsbD 3 = true ∧ s.onlyRegs t [R.DEV_PWR_STAT, 0x10]) ∧
    (busy = true → (∀ d ∈ [16, 17], new.testBit d = true → old.testBit d = true) → new < 2 ^ 22 → Completes .devPwrChangeComplete s fun t =>
      (t.reg R.DEV_PWR_STAT).toNat % 2 ^ 22 = new) ∧
    (busy = true → new.testBit 16 = false → new.testBit 17 = false → Completes .devPwrChangeComplete s fun t => t.em = [] ∧ t.tcr = [] ∧ t.dirty = []) ∧
    (busy = true → new.testBit (16 + h) = true → old.testBit (16 + h) = false → Completes (.lkpHalfCopyDone h) s fun t =>
      (t.reg R.DEV_PWR_STAT).toNat.testBit (16 + h) = true ∧ s.onlyRegs t [R.DEV_PWR_STAT, 0x10]) ∧
    (s.open who R.DEV_FENCE → s.mode ≠ mRECOVER → s.mode ≠ mDEGRADED → s.voqs = [] → s.srcQ = [] → s.enPorts = [] →
      Completes (.devFenceWrite who v) s fun t => t.reg R.DEV_FENCE = (v &&& 0x3FFFF) ||| s.reg R.DEV_FENCE ∧
        ∀ e : EngN, v.toNat.testBit (e / 16) = true → (s.reg R.DEV_FENCE).toNat.testBit (e / 16) = false → t.engRun e = false) ∧
    (s.open who R.DEV_FENCE → (s.mode = mRECOVER ∨ s.mode = mDEGRADED) → v = 0 → Completes (.devFenceWrite who v) s fun t => t.reg R.DEV_FENCE = 0 ∧
      s.onlyRegs t [R.DEV_FENCE]) ∧
    (off → exec .vddAonUp s = pins { s.pins with enMain := true }) ∧ (¬ off → exec .vddAonUp s = .next s) ∧
    (s.sequencing = true → s.pins.enMain = true → exec .pgMainUp s = pins { s.pins with pgMain := true, enHbm := true }) ∧
    (s.sequencing = true → s.pins.enHbm = true → ¬ off → exec .railsValid s = pins { s.pins with pgMain := true, pgHbm := true }) ∧
    (s.sequencing = true → s.pins.enHbm = true → off → Completes .railsValid s fun t => t.mode = mRESET ∧ t.railsOk = true ∧ s.regsKept t [R.DEV_MODE]) ∧
    (s.sequencing = true → s.pins.enMain = true →
      exec .pgTimeout s = pins { s.pins with enMain := false, enHbm := false, pgMain := false, pgHbm := false, retry := true }) ∧
    (s.sequencing = false → exec .pgMainUp s = .next s ∧ exec .railsValid s = .next s ∧ exec .pgTimeout s = .next s) ∧
    (s.pins.retry = true → exec .pwrSeqRetry s = pins { s.pins with retry := false, enMain := true }) ∧
    (s.pins.retry = false → exec .pwrSeqRetry s = .next s) ∧
    (off → ∀ c ∈ [Instr.porReset, .sysReset, .thermtrip], exec c s = .next s) ∧
    (¬ off → Completes .porReset s fun t => fresh t ∧ t.regs = [] ∧ t.thrs = [] ∧ t.mem = [] ∧ t.pins.por = true) ∧
    (¬ off → Completes .sysReset s fun t => fresh t ∧ t.time = s.time ∧ t.thr 0x810 = s.thr 0x810 ∧ (∀ a, a ≠ 0x810 → t.thr a = {}) ∧
      (∀ b, b < 0x2100000000 → t.rd8 b = 0) ∧ (∀ b, 0x2100000000 ≤ b → b < 0x2100080000 → t.rd8 b = s.rd8 b)) ∧
    (s.mode ≠ mRESET → exec .resetRelease s = .next s) ∧
    (s.mode = mRESET → s.railsOk = true → Completes .resetRelease s fun t => t.mode = mBOOT ∧ t.pins.por = false ∧ t.mem = s.mem ∧
      (s.pins.por = true → t.pins.sscSelL = s.pins.sscSel ∧ t.pins.therm = false)) ∧
    (s.mode = mRESET → s.railsOk = false → Completes .resetRelease s fun t => t.mode = mRESET ∧ t.regs = s.regs ∧ t.mem = s.mem) ∧
    (¬ off → Completes .thermtrip s fun t => fresh t ∧ t.pins.therm = true ∧ t.pins.enMain = false ∧ t.pins.pgMain = false) ∧
    Completes .powerLoss s (fun t => t.mode = mOFF ∧ t.fuses = s.fuses ∧ t.mem = [] ∧ t.thrs = [] ∧ t.pins.enMain = false) ∧
    (∀ (b : BitVec 3), exec (.strapChange .sscSel b) s = pins { s.pins with sscSel := b.toNat } ∧
      exec (.strapChange .filtRst b) s = pins { s.pins with filtRst := b.toNat % 4 } ∧
      exec (.strapChange .filtTime b) s = pins { s.pins with filtTime := b.toNat % 4 } ∧
      exec (.strapChange .slewIo18 b) s = pins { s.pins with slewIo18 := b.toNat % 4 } ∧
      exec (.strapChange .slewIo33 b) s = pins { s.pins with slewIo33 := b.toNat % 4 } ∧
      exec (.strapChange .sscFm b) s = pins { s.pins with sscFm := b.toNat % 4 })

/-! ### Boot and security (R513–R537) -/

/-- The boot ROM installs the image of slot A where it is accepted, else that of slot B, else reports both codes and tries again; identity
keys come after it. (The clauses on an installed image take one without configuration records, which may write registers of their own.) -/
def Obligations.BootInstallsAnAcceptedImage : Prop :=
  ∀ (s : State),
    let first := s.mode = mBOOT ∧ s.fld R.SEC_STAT F.SEC_STAT_BOOT_RES = 0
    let again := s.mode = mBOOT ∧ s.fld R.SEC_STAT F.SEC_STAT_BOOT_RES = 3
    let a := s.slotImage 0
    let b := s.slotImage (s.fuses.slotB * 0x100000)
    let ra := s.accept_ a [1] false
    let rb := s.accept_ b [1] false
    let part (im : List Byte) (o n : Nat) : List Byte := img (imgPayload im) (imgLE im o 4) (imgLE im n 4)
    let up (im : List Byte) (res : Nat) (t : State) : Prop :=
      t.mode = mCONFIGURE ∧ t.fld R.DEV_MODE F.DEV_MODE_PREV = mBOOT ∧ t.fld R.SEC_STAT F.SEC_STAT_BOOT_RES = res ∧ t.released = true ∧
      t.bootSvn = imgSvn im ∧ t.rdBytes sramBase (part im 0x48 0x4C).length = part im 0x48 0x4C ∧
      t.rdBytes fumSram (part im 0x3C 0x40).length = part im 0x3C 0x40 ∧
      (∀ c : Fin 4, (t.thr (0x800 + 4 * c)).pc = imgLE im 0x50 4 % 2 ^ 39) ∧ (t.thr 0x810).pc = imgLE im 0x44 4 % 2 ^ 39 ∧
      t.fuses = s.fuses ∧ t.flash = s.flash
    let failed (t : State) : Prop := t.mode = mBOOT ∧ t.fld R.SEC_STAT F.SEC_STAT_BOOT_RES = 3 ∧ t.fld R.SEC_BOOT_ERR F.SEC_BOOT_ERR_A = ra ∧
      t.fld R.SEC_BOOT_ERR F.SEC_BOOT_ERR_B = rb ∧ t.outs = s.outs ++ [.uart [BitVec.ofNat 8 ra, BitVec.ofNat 8 rb]] ∧ t.mem = s.mem ∧
      t.thrs = s.thrs ∧ t.fuses = s.fuses
    let derives := s.released = true ∧ s.mainOn = true ∧ s.mode ≠ mBOOT ∧ s.flag R.SEC_STAT F.SEC_STAT_ID_READY = false
    (¬ first → exec .bootSequence s = .next s) ∧ (¬ again → exec .bootRetry s = .next s) ∧
    (first → ra = sOK → imgLE a 0x58 4 = 0 → Completes .bootSequence s fun t => up a 1 t ∧
      t.mr 0 = valBE (sha384 (List.replicate 48 0 ++ sha384 (img a 0 0x400))) ∧
      t.mr 1 = valBE (sha384 (List.replicate 48 0 ++ sha384 (part a 0x3C 0x40))) ∧
      t.mr 2 = valBE (sha384 (List.replicate 48 0 ++ sha384 (part a 0x48 0x4C))) ∧
      t.mr 3 = valBE (sha384 (List.replicate 48 0 ++ sha384 [])) ∧ t.mr 4 = 0 ∧ t.mr 5 = 0 ∧ t.mr 6 = 0 ∧ t.mr 7 = 0) ∧
    (first → ra ≠ sOK → rb = sOK → imgLE b 0x58 4 = 0 → Completes .bootSequence s fun t => up b 2 t ∧ t.fld R.SEC_BOOT_ERR F.SEC_BOOT_ERR_A = ra) ∧
    (first → ra ≠ sOK → rb ≠ sOK → Completes .bootSequence s fun t => failed t ∧ t.mrs = []) ∧
    (again → ra = sOK → imgLE a 0x58 4 = 0 → Completes .bootRetry s (up a 1)) ∧
    (again → ra ≠ sOK → rb = sOK → imgLE b 0x58 4 = 0 → Completes .bootRetry s (up b 2)) ∧
    (again → ra ≠ sOK → rb ≠ sOK → Completes .bootRetry s failed) ∧
    (¬ derives → exec .identityDerive s = .next s) ∧
    (derives → Completes .identityDerive s fun t => t.flag R.SEC_STAT F.SEC_STAT_ID_READY = true ∧ (t.reg 0xD00010).getLsbD 1 = true ∧
      s.onlyRegs t [R.SEC_STAT, 0xD00010])

/-- Supervisor control contexts start one SEC command at a time, ABORT ends one that runs and is too late in the cycle of its end, and each command's completion gives its status and
its effect; SEC_CTL.REQ_SIGNED only sets. -/
def Obligations.SecurityCommandsFollowTheirRules : Prop :=
  ∀ (s : State) (who : Req),
    let ctl := R.SEC_CMD_CTL
    let req := s.open who ctl
    let user := s.userMode who.toNat = true
    let run := s.fld ctl F.SEC_CMD_CTL_STATE = 1
    let orders : List (Instr × Nat) := [(.secVerify who, 1), (.secPload who, 2), (.secExtend who, 3), (.secAttest who, 4), (.secSvnAdvance who, 5),
      (.secOwnEnrol who, 6), (.secDbgUnlock who, 7), (.secFlashWrite who, 8), (.secSha384 who, 9), (.secModexp who, 10), (.secIrepair who, 11)]
    let clus := maskClus (imgLE (s.secRead s.secAddr 0x44) 0x3C 8)
    let busyT := clus.any s.clusterRuns = true
    let stats : List Nat := [ctl, R.SEC_CMD_STAT, 0xD00010]
    let at_ (n : Nat) : Prop := run ∧ s.fld ctl F.SEC_CMD_CTL_OP = n
    let ends (st : Nat) (t : State) : Prop := t.fld ctl F.SEC_CMD_CTL_STATE = 2 ∧ (t.reg R.SEC_CMD_STAT).toNat = st ∧ (t.reg 0xD00010).getLsbD 0 = true
    let only (t : State) (l : List Nat) : Prop := s.onlyRegs { t with doneAt := s.doneAt } l ∧ t.atPoint ctl = true
    let done := Completes .secCmdComplete s
    let im := s.secImage s.secAddr
    let low (n : Nat) : Prop := secOut s s.secOutAddr n = true ∧ s.secOutAddr + n ≤ hbmBase
    let opd (i : Nat) : Nat := valBE (s.secRead (s.secAddr + 384 * i) 384)
    let svnOk := s.mode = mCONFIGURE ∨ s.mode = mMAINTAIN
    (∀ c ∈ orders, (req → user → exec c.1 s = .next (s.violAt who.toNat 4 ctl)) ∧
      (req → ¬ user → run → exec c.1 s = .next (s.violAt who.toNat 3 ctl)) ∧
      (req → ¬ user → ¬ run → (c.2 = 2 → ¬ busyT) → Completes c.1 s fun t => t.fld ctl F.SEC_CMD_CTL_STATE = 1 ∧ t.fld ctl F.SEC_CMD_CTL_OP = c.2 ∧
        t.reg R.SEC_CMD_STAT = 0x80000000 ∧ s.onlyRegs t [ctl, R.SEC_CMD_STAT])) ∧
    (req → ¬ user → ¬ run → busyT → Completes (.secPload who) s fun t => ends 8 t ∧ only t stats) ∧
    (req → user → exec (.secAbort who) s = .next (s.violAt who.toNat 4 ctl)) ∧
    (req → ¬ user → ¬ run → s.atPoint ctl = false → exec (.secAbort who) s = .next s) ∧
    (req → ¬ user → ¬ run → s.atPoint ctl = true → Completes (.secAbort who) s fun t => t.fld ctl F.SEC_CMD_CTL_STATE = s.fld ctl F.SEC_CMD_CTL_STATE ∧
      t.fld ctl F.SEC_CMD_CTL_ABORT_ST = 2 ∧ s.onlyRegs t [ctl]) ∧
    (req → ¬ user → run → Completes (.secAbort who) s fun t => t.fld ctl F.SEC_CMD_CTL_STATE = 3 ∧ t.fld ctl F.SEC_CMD_CTL_ABORT_ST = 1 ∧ t.mem = s.mem ∧
      t.fuses = s.fuses ∧ s.regsKept t stats) ∧
    (req → ¬ user → run → s.fld ctl F.SEC_CMD_CTL_OP ≠ 8 → Completes (.secAbort who) s fun t => t.fld ctl F.SEC_CMD_CTL_STATE = 3 ∧
      t.fld ctl F.SEC_CMD_CTL_ABORT_ST = 1 ∧ t.reg R.SEC_CMD_STAT = 0 ∧ (t.reg 0xD00010).getLsbD 0 = true ∧ s.onlyRegs t stats) ∧
    (s.open who R.SEC_CTL → Completes (.secReqSignedWrite who) s fun t => t.flag R.SEC_CTL F.SEC_CTL_REQ_SIGNED = true ∧ s.onlyRegs t [R.SEC_CTL]) ∧
    (¬ run → s.flag R.DBG_MBX_CTL F.DBG_MBX_CTL_BUSY = false → exec .secCmdComplete s = .next s) ∧
    (at_ 1 → done fun t => ends (s.accept_ im [s.secArg] false) t ∧ only t (R.SEC_VERIFY_FAIL :: stats)) ∧
    (at_ 2 → s.accept_ im [2] false ≠ sOK → done fun t => ends (s.accept_ im [2] false) t ∧ only t (R.SEC_VERIFY_FAIL :: stats)) ∧
    (at_ 2 → s.accept_ im [2] false = sOK → done fun t => ends 0 t ∧ (∀ c ∈ maskClus (imgLE im 0x3C 8),
        t.rdBytes (iramAt c) (imgPayload im).length = imgPayload im ∧ ∀ i, (imgPayload im).length ≤ i → i < 0x20000 → t.rd8 (iramAt c + i) = 0) ∧
      t.mr 4 = valBE (sha384 (bytesBE 48 (s.mr 4) ++ sha384 (img im 0 0x400 ++ bytesLE 8 (imgLE im 0x3C 8)))) ∧ ∀ k, k ≠ 4 → t.mr k = s.mr k) ∧
    (at_ 3 → s.secArg = 7 → secMem s s.secAddr 48 = true → done fun t => ends 0 t ∧
      t.mr 7 = valBE (sha384 (bytesBE 48 (s.mr 7) ++ s.secRead s.secAddr 48)) ∧ (∀ k, k ≠ 7 → t.mr k = s.mr k) ∧ t.mem = s.mem ∧ s.regsKept t stats) ∧
    (at_ 3 → s.secArg ≠ 7 → done fun t => ends 10 t ∧ only t stats) ∧
    (at_ 4 → s.flag R.SEC_STAT F.SEC_STAT_ID_READY = false → done fun t => ends 7 t ∧ only t stats) ∧
    (at_ 4 → s.flag R.SEC_STAT F.SEC_STAT_ID_READY = true → secMem s s.secAddr 32 = true → low 36560 → done fun t => ends 0 t ∧
      t.rdBytes s.secOutAddr (s.report (s.secRead s.secAddr 32)).length = s.report (s.secRead s.secAddr 32) ∧ s.memKept t s.secOutAddr 36560 ∧
      s.regsKept t stats ∧ t.mrs = s.mrs) ∧
    (at_ 5 → ¬ svnOk → done fun t => ends 6 t ∧ only t stats) ∧
    (at_ 5 → svnOk → (s.secArg < s.fuses.svn ∨ 64 < s.secArg ∨ s.bootSvn < s.secArg) → done fun t => ends 10 t ∧ only t stats) ∧
    (at_ 5 → svnOk → s.fuses.svn ≤ s.secArg → s.secArg ≤ 64 → s.secArg ≤ s.bootSvn → done fun t => ends 0 t ∧ t.fuses.svn = s.secArg ∧
      t.mem = s.mem ∧ s.regsKept t stats) ∧
    (at_ 6 → (s.mode ≠ mCONFIGURE ∨ s.fuses.ownEn = true) → done fun t => ends 6 t ∧ only t stats) ∧
    (at_ 6 → s.mode = mCONFIGURE → s.fuses.ownEn = false → s.accept_ im [4] true = sOK → done fun t => ends 0 t ∧ t.fuses.ownEn = true ∧
      t.fuses.okhRsa = valBE (imgKeyRsa im) ∧ t.fuses.okhSlh = valBE (imgKeySlh im) ∧
      t.fuses.ownReq = (s.fuses.ownReq || decide ((imgPayload im).head? = some 1)) ∧
      t.mr 5 = valBE (sha384 (bytesBE 48 (s.mr 5) ++ sha384 (imgKeyRsa im ++ imgKeySlh im))) ∧ s.regsKept t stats) ∧
    (at_ 7 → s.accept_ im [3] false ≠ sOK → done fun t => ends (s.accept_ im [3] false) t ∧
      only t (R.SEC_VERIFY_FAIL :: R.SEC_DBG_FAIL :: stats)) ∧
    (at_ 7 → s.accept_ im [3] false = sOK → imgLE (imgPayload im) 0 8 = s.fuses.serial → img (imgPayload im) 8 32 = s.nonce →
      s.fuses.dbgDis = false → s.mode ≠ mSIMMER → s.mode ≠ mDORMANT → (imgLE (imgPayload im) 40 1 = 1 ∨ imgLE (imgPayload im) 40 1 = 3) →
      done fun t => ends 0 t ∧ t.fld R.SEC_STAT F.SEC_STAT_DBG_LVL = imgLE (imgPayload im) 40 1 ∧ (t.reg 0xD00010).getLsbD 2 = true ∧
        t.mr 6 = valBE (sha384 (bytesBE 48 (s.mr 6) ++ sha384 (img im 0 0x400))) ∧ t.mem = s.mem) ∧
    (at_ 8 → s.flashOk s.secArg s.secLen = false → done fun t => ends 6 t ∧ only t stats) ∧
    (at_ 8 → s.flashOk s.secArg s.secLen = true → secMem s s.secAddr s.secLen = true → done fun t => ends 0 t ∧
      t.flashRead s.secArg s.secLen = s.secRead s.secAddr s.secLen ∧ t.mem = s.mem ∧ s.regsKept t stats) ∧
    (at_ 9 → secMem s s.secAddr s.secLen = true → low 48 → done fun t => ends 0 t ∧
      t.rdBytes s.secOutAddr 48 = sha384 (s.secRead s.secAddr s.secLen) ∧ s.memKept t s.secOutAddr 48 ∧ s.regsKept t stats) ∧
    (at_ 10 → secMem s s.secAddr 1152 = true → low 384 → opd 2 ≠ 0 → done fun t => ends 0 t ∧
      valBE (t.rdBytes s.secOutAddr 384) = opd 0 ^ opd 1 % opd 2 ∧ s.memKept t s.secOutAddr 384 ∧ s.regsKept t stats) ∧
    ((at_ 9 ∨ at_ 10) → secMem s s.secAddr (if s.fld ctl F.SEC_CMD_CTL_OP = 9 then s.secLen else 1152) = false → done fun t => ends 10 t ∧
      only t stats) ∧
    (at_ 11 → smGet (fun _ => none) s.progs (s.secArg % 64) = none → done fun t => ends 6 t ∧ only t stats)

/-! ### Self-tests, the error log, debug and JTAG (R540–R573) -/

/-- A self-test starts where its target and the mode allow it, is refused or answered BAD_TARGET else, ends with its result or by ABORT, and
RAS_LOG_CLR empties the log. -/
def Obligations.SelfTestsRunWhereAllowed : Prop :=
  ∀ (s : State) (who : Req) (v : BitVec 16),
    let ctl := R.RAS_TEST_CTL
    let st := R.RAS_TEST_STAT
    let req := s.open who ctl
    let n := v.toNat
    let tests : List (Instr × Nat) := [(.rasTestEmSlice who v, 1), (.rasTestTcSlice who v, 2), (.rasTestBucketCache who v, 3), (.rasTestMeterCtr who v, 4),
      (.rasTestEngineMem who v, 5), (.rasTestSinterMem who v, 6), (.rasTestSerdesRecal who v, 7), (.rasTestEyeScan who v, 8), (.rasTestFull who v, 9)]
    let may (t : Nat) : Prop := s.testMode t n = true ∧ ((t = 1 ∨ t = 2 ∨ t = 3 ∨ t = 4) → s.halfFenced (1 - n / 256) = false)
    let refused (t : State) : Prop := t.fld st F.RAS_TEST_STAT_STATUS = 2 ∧ t.fld st F.RAS_TEST_STAT_BUSY = s.fld st F.RAS_TEST_STAT_BUSY ∧
      (t.reg R.RAS_TEST_REFUSED).toNat = min 0xFFFFFFFF ((s.reg R.RAS_TEST_REFUSED).toNat + 1) ∧ s.onlyRegs t [st, R.RAS_TEST_REFUSED]
    (∀ c ∈ tests, (req → s.testRuns = true → Completes c.1 s refused) ∧
      (req → s.testRuns = false → testTarget c.2 n = false → Completes c.1 s fun t => t.fld st F.RAS_TEST_STAT_STATUS = 3 ∧ s.onlyRegs t [st]) ∧
      (req → s.testRuns = false → testTarget c.2 n = true → ¬ may c.2 → Completes c.1 s refused) ∧
      (req → s.testRuns = false → testTarget c.2 n = true → may c.2 → Completes c.1 s fun t => t.testRuns = true ∧ t.reg st = 0x80000000 ∧
        t.fld ctl F.RAS_TEST_CTL_TEST = c.2 ∧ t.fld ctl F.RAS_TEST_CTL_TARGET = n ∧ s.onlyRegs t [ctl, st])) ∧
    (req → s.testRuns = true → Completes (.rasTestAbort who) s fun t => t.fld ctl F.RAS_TEST_CTL_STATE = 3 ∧ t.fld ctl F.RAS_TEST_CTL_ABORT_ST = 1 ∧
      t.flag st F.RAS_TEST_STAT_BUSY = false ∧ (t.reg 0xE00010).getLsbD 1 = true ∧ s.onlyRegs t [ctl, st, 0xE00010]) ∧
    (req → s.testRuns = false → s.atPoint ctl = false → Completes (.rasTestAbort who) s fun t => s.onlyRegs t []) ∧
    (req → s.testRuns = false → s.atPoint ctl = true → Completes (.rasTestAbort who) s fun t => t.testRuns = false ∧
      t.fld ctl F.RAS_TEST_CTL_ABORT_ST = 2 ∧ s.onlyRegs t [ctl]) ∧
    (∀ (pass : Bool) (res : W32), s.testRuns = false → exec (.rasTestComplete pass res) s = .next s) ∧
    (∀ (pass : Bool) (res : W32), s.testRuns = true → Completes (.rasTestComplete pass res) s fun t => t.fld ctl F.RAS_TEST_CTL_STATE = 2 ∧
      (t.reg st).toNat = (if pass then 0 else 1) ∧ (t.reg 0xE00010).getLsbD 1 = true ∧ (pass = false → t.reg R.RAS_TEST_RES = res) ∧
      t.atPoint ctl = true ∧ s.onlyRegs { t with doneAt := s.doneAt } [ctl, st, R.RAS_TEST_RES, 0xE00010]) ∧
    (s.open who R.RAS_LOG_CLR → Completes (.rasLogClr who) s fun t => t.rasLog = [] ∧ t.reg R.RAS_LOG_OVF = 0 ∧ s.regsKept t [R.RAS_LOG_OVF] ∧
      t.mem = s.mem ∧ t.thrs = s.thrs)

/-- The debugger halts, steps, resumes and resets its target where the level opens it; a breakpoint halts what it names; the debugger reaches
registers and memory of one halted target; a token waits in the mailbox; and JTAG shifts its registers. -/
def Obligations.DebugActsWhereTheLevelOpens : Prop :=
  ∀ (s : State) (who : Req) (v : W32) (n : Fin 16) (a : EngThr) (adr : BitVec 32) (sz : Bool),
    let at_ (o : Nat) : Prop := s.open who (0xF00000 + o)
    let lv (o : Nat) : Prop := s.dbgMay o = true
    let hst := R.DBG_HSTAT
    let stat (t : State) : Nat := t.fld hst F.DBG_HSTAT_STATUS
    let g := s.setReg R.DBG_HALT (v &&& 0x060007FF)
    let orders : List Instr := [.dbgHalt who v, .dbgResume who v, .dbgStep who v, .dbgRst who v, .dbgEv14 who v]
    let ready := at_ 0x44 ∧ lv 0x44 ∧ g.dbgTargetOpen = true
    let thrKept (t : State) (l : List Nat) : Prop := ∀ b, b ∉ l → t.thr b = s.thr b
    let id := v.toNat % 2048
    let bp := R.DBG_BP_CTL n
    let e := engOf a
    let lo := (s.reg (R.DBG_BP_ADDR n)).toNat
    let hi := (s.reg (R.DBG_BP_LIM n)).toNat
    let watches := s.flag bp F.DBG_BP_CTL_EN = true ∧ s.fld bp F.DBG_BP_CTL_ENGINE = e ∧ (s.fld bp F.DBG_BP_CTL_THR).testBit (a.val % 8) = true ∧
      s.pipeOn (pipeOf a) = true
    let kind := s.fld bp F.DBG_BP_CTL_KIND
    let hits := (kind = 1 ∧ adr.toNat = lo % 65536 ∧ s.pc a = adr.toNat ∧ s.eligible a = true) ∨ (2 ≤ kind ∧ lo ≤ adr.toNat ∧ adr.toNat ≤ hi)
    let act := s.fld bp F.DBG_BP_CTL_ACT
    let bytes := if sz then 8 else 4
    let acc := R.DBG_ACC_CTL
    let num := s.fld R.DBG_TREG_SEL F.DBG_TREG_SEL_NUM
    let w := s.fld R.DBG_MBX_ADDR F.DBG_MBX_ADDR
    let hd := rdMap s.mbx 0 0x4800
    let tok := if 0x4800 + imgLen hd ≤ 0x8000 then rdMap s.mbx 0 (0x4800 + imgLen hd) else hd
    let on := s.mode ≠ mOFF
    (∀ c ∈ orders, (at_ 0x44 → ¬ lv 0x44 → Completes c s fun t => stat t = 1 ∧ s.onlyRegs t [hst]) ∧
      (at_ 0x44 → lv 0x44 → g.dbgTargetOpen = false → Completes c s fun t => stat t = 1 ∧ s.onlyRegs t [R.DBG_HALT, hst]) ∧
      (ready → g.dbgTarget = none → Completes c s fun t => stat t = 2 ∧ s.onlyRegs t [R.DBG_HALT, hst])) ∧
    (∀ l, ready → g.dbgTarget = some l →
      (Completes (.dbgHalt who v) s fun t => stat t = 0 ∧ (∀ b ∈ l, t.thr b = { s.thr b with halted := true, step := false }) ∧ thrKept t l ∧
        s.regsKept t [R.DBG_HALT, hst, 0xF00010] ∧ t.mem = s.mem) ∧
      (Completes (.dbgResume who v) s fun t => stat t = 0 ∧ (∀ b ∈ l, t.thr b = { s.thr b with halted := false, step := false }) ∧ thrKept t l ∧
        s.regsKept t [R.DBG_HALT, hst] ∧ t.mem = s.mem) ∧
      (Completes (.dbgStep who v) s fun t => stat t = 0 ∧ (∀ b ∈ l, (s.thr b).halted = true → t.thr b = { s.thr b with step := true }) ∧
        (∀ b ∈ l, (s.thr b).halted = false → t.thr b = s.thr b) ∧ thrKept t l ∧ s.regsKept t [R.DBG_HALT, hst])) ∧
    (∀ c ∈ [Instr.dbgRst who v, .dbgEv14 who v], ready → g.dbgScope ≠ 0 → Completes c s fun t => stat t = 2 ∧ s.onlyRegs t [R.DBG_HALT, hst]) ∧
    (ready → g.dbgScope = 0 → Completes (.dbgRst who v) s fun t => stat t = 0 ∧ (t.thr id).rf = [] ∧ (t.thr id).pkt = none ∧
      (t.thr id).halted = (s.thr id).halted ∧ (t.thr id).evMask = (s.thr id).evMask) ∧
    (ready → g.dbgScope = 0 → Completes (.dbgEv14 who v) s fun t => stat t = 0 ∧ (t.thr id).evPend = (s.thr id).evPend ||| 0x4000 ∧ thrKept t [id] ∧
      s.regsKept t [R.DBG_HALT, hst]) ∧
    (¬ (watches ∧ hits) → exec (.breakpointHit n a adr) s = .next s) ∧
    (watches → hits → Completes (.breakpointHit n a adr) s fun t =>
      (t.reg (R.DBG_BP_HITS n)).toNat = min 0xFFFFFFFF ((s.reg (R.DBG_BP_HITS n)).toNat + 1) ∧ (t.reg 0xF00010).getLsbD 0 = true ∧
      (t.thr a).halted = true ∧ s.regsKept t [R.DBG_BP_HITS n, 0xF00010] ∧
      (act = 0 → ∀ b, b ≠ a.val → t.thr b = s.thr b) ∧ (act = 1 → (∀ i : Fin 8, (t.thr (8 * e + i)).halted = true) ∧ ∀ b, b / 8 ≠ e → t.thr b = s.thr b) ∧
      (2 ≤ act → (∀ i : Fin 128, (t.thr (128 * pipeOf a + i)).halted = true) ∧ ∀ b, b / 128 ≠ pipeOf a → t.thr b = s.thr b)) ∧
    (∀ c ∈ [Instr.dbgAccRead who sz, .dbgAccWrite who sz], at_ 0x68 → ¬ lv 0x68 → Completes c s fun t => t.fld acc F.DBG_ACC_CTL_STATUS = 1 ∧
      s.onlyRegs t [acc]) ∧
    (∀ x, at_ 0x68 → lv 0x68 → s.accPlace s.accAddr bytes false = .error x → x ≤ 2 → Completes (.dbgAccRead who sz) s fun t =>
      t.fld acc F.DBG_ACC_CTL_STATUS = x ∧ s.onlyRegs t [acc]) ∧
    (∀ x, at_ 0x68 → lv 0x68 → s.accPlace s.accAddr bytes true = .error x → x ≤ 2 → Completes (.dbgAccWrite who sz) s fun t =>
      t.fld acc F.DBG_ACC_CTL_STATUS = x ∧ s.onlyRegs t [acc]) ∧
    (∀ p, at_ 0x68 → lv 0x68 → s.accPlace s.accAddr bytes false = .ok (.mem p) → Completes (.dbgAccRead who sz) s fun t =>
      t.fld acc F.DBG_ACC_CTL_STATUS = 0 ∧ t.reg64 R.DBG_ACC_DATA_LO = s.rdLE p bytes ∧ s.onlyRegs t [acc, R.DBG_ACC_DATA_LO, R.DBG_ACC_DATA_LO + 4]) ∧
    (∀ p, at_ 0x68 → lv 0x68 → s.accPlace s.accAddr bytes true = .ok (.mem p) → Completes (.dbgAccWrite who sz) s fun t =>
      t.fld acc F.DBG_ACC_CTL_STATUS = 0 ∧ t.rdBytes p bytes = bytesLE bytes (s.reg64 R.DBG_ACC_DATA_LO) ∧ s.memKept t p bytes ∧ s.regsKept t [acc]) ∧
    (∀ h, at_ 0x50 → ¬ lv 0x50 → exec (.dbgTregAccess who h (.write v)) s = .next (s.violAt who.toNat 4 (if h then 0xF00054 else 0xF00050))) ∧
    (at_ 0x50 → lv 0x50 → Completes (.dbgTregAccess who false (.write v)) s fun t => t.reg R.DBG_TREG_LO = v ∧ s.onlyRegs t [R.DBG_TREG_LO]) ∧
    (∀ b, at_ 0x50 → lv 0x50 → s.dbgOne = .ok b → s.flag R.DBG_TREG_SEL F.DBG_TREG_SEL_SPECIAL = false → num < 32 →
      Completes (.dbgTregAccess who true (.write v)) s fun t => stat t = 0 ∧ (t.x b num).toNat = v.toNat * 2 ^ 32 + (s.reg R.DBG_TREG_LO).toNat ∧
        thrKept t [b] ∧ s.regsKept t [hst]) ∧
    (∀ h x, at_ 0x50 → lv 0x50 → s.tregGet = .ok x → s.latched who.toNat (if h then 0xF00054 else 0xF00050) = none →
      Completes (.dbgTregAccess who h .read) s fun t => t.rdata.toNat = (if h then x.toNat / 2 ^ 32 else x.toNat % 2 ^ 32) ∧ stat t = 0 ∧ t.thrs = s.thrs) ∧
    (∀ h x, at_ 0x50 → lv 0x50 → s.tregGet = .error x → x ≤ 2 → s.latched who.toNat (if h then 0xF00054 else 0xF00050) = none →
      Completes (.dbgTregAccess who h .read) s fun t => t.rdata = 0 ∧ stat t = x ∧ t.thrs = s.thrs) ∧
    (at_ 0x74 → Completes (.dbgMbxDataWrite who v) s fun t => rdMap t.mbx (4 * w) 4 = bytesLE 4 v.toNat ∧
      t.fld R.DBG_MBX_ADDR F.DBG_MBX_ADDR = (w + 1) % 8192 ∧ s.regsKept t [R.DBG_MBX_ADDR] ∧ t.mem = s.mem) ∧
    (at_ 0x78 → Completes (.dbgMbxSubmit who) s fun t => t.flag R.DBG_MBX_CTL F.DBG_MBX_CTL_BUSY = true ∧ s.onlyRegs t [R.DBG_MBX_CTL]) ∧
    (s.fld R.SEC_CMD_CTL F.SEC_CMD_CTL_STATE ≠ 1 → s.flag R.DBG_MBX_CTL F.DBG_MBX_CTL_BUSY = true → s.accept_ tok [3] false ≠ sOK →
      Completes .secCmdComplete s fun t => (t.reg R.DBG_MBX_CTL).toNat = s.accept_ tok [3] false ∧
        t.fld R.SEC_STAT F.SEC_STAT_DBG_LVL = s.fld R.SEC_STAT F.SEC_STAT_DBG_LVL ∧ s.onlyRegs t [R.DBG_MBX_CTL, R.SEC_DBG_FAIL]) ∧
    (at_ 0x84 → lv 0x84 → s.latched who.toNat 0xF00084 = none → Completes (.dbgTrLoRead who) s fun t =>
      t.rdata.toNat = (smGet (fun _ => (0 : Word)) s.tephra (s.fld R.DBG_TR_IDX F.DBG_TR_IDX)).toNat % 2 ^ 32 ∧ t.regs = s.regs) ∧
    (at_ 0x84 → ¬ lv 0x84 → exec (.dbgTrLoRead who) s = .next { s.violAt who.toNat 4 0xF00084 with rdata := 0 }) ∧
    (s.mode = mOFF → ∀ c ∈ [Instr.jtagIdcode, .jtagBypass sz, .jtagSamplePreload [sz], .jtagExtest, .jtagDbgreg 0x304 .read], exec c s = .next s) ∧
    (on → exec .jtagIdcode s = .next { s with outs := s.outs ++ [.tdo ((List.range 32).map fun i => (0x17464C6F : Nat).testBit i)] }) ∧
    (on → exec (.jtagBypass sz) s = .next { s with outs := s.outs ++ [.tdo [false, sz]] }) ∧
    (∀ ps, on → exec (.jtagSamplePreload ps) s = .next { s with outs := s.outs ++ [.tdo ps], bsr := ps }) ∧
    (on → exec .jtagExtest s = .next { s with outs := s.outs ++ [.balls s.bsr] }) ∧
    (on → s.mode ≠ mRESET → s.latched 0x811 0xF00304 = none → Completes (.jtagDbgreg 0x304 .read) s fun t => t.rdata.toNat = s.fuses.serial % 2 ^ 32 ∧
      t.regs = s.regs ∧ t.mem = s.mem) ∧
    (on → s.mode ≠ mRESET → s.dbgLvl 0 = false → s.dbgLvl 1 = false →
      exec (.jtagDbgreg 0x40 (.write v)) s = .next (s.violAt 0x811 4 0xF00040))

/-! ### Registers of the map (R574–R594) -/

/-- A read of the low word of a 64-bit value returns it and latches the high word for its reader alone; the first read of the high word returns
the latched half and releases it; without a latch it returns the current half; the low word of an RC counter clears all 64 bits, the high word
nothing (R582). -/
def Obligations.LowWordReadsLatchTheHighWord : Prop :=
  ∀ (s : State) (who : Req) (a : BitVec 26) (r : RegD),
    let me := who.toNat
    let n := a.toNat
    let val (s : State) (k : Nat) : W32 := s.value { at_ := k, cap := k }
    let others (t : State) : Prop := ∀ w k, w ≠ me → k < 2 ^ 32 → t.latched w k = s.latched w k
    s.open who n → s.open who (n + 4) → s.lands n → s.lands (n + 4) → plainReg n = true → plainReg (n + 4) = true → descOf n = some r → isHigh n = false →
      n ≠ R.RAS_LOG_W 0 → (r.wide = true ∨ r.latch = [4]) →
    (s.latched me n = none → Completes (.lowWordLatchRead who a) s fun t => t.rdata = val s n ∧ t.latched me (n + 4) = some (val s (n + 4)) ∧ others t ∧
      (r.flds.all (fun f => f.ty != .rc) = true → t.regs = s.regs) ∧
      (r.wide = true → r.flds = [⟨⟨31, 0⟩, .rc, 0⟩] → t.reg64 n = 0 ∧ s.regsKept t [n, n + 4])) ∧
    (∀ x, s.latched me (n + 4) = some x → Completes (.lowWordLatchRead who (a + 4)) s fun t => t.rdata = x ∧ t.latched me (n + 4) = none ∧
      t.regs = s.regs ∧ others t) ∧
    (isHigh (n + 4) = true → s.latched me (n + 4) = none → Completes (.lowWordLatchRead who (a + 4)) s fun t => t.rdata = val s (n + 4) ∧
      t.regs = s.regs ∧ t.latches = s.latches)

/-- A read clears the RC fields of its register and nothing else; a read that only ACC 0b01 allows returns them, with the status of every other
field, and clears nothing (R588). -/
def Obligations.ReadsClearExceptForReadOnlyHosts : Prop :=
  ∀ (s : State) (who : Req) (a : BitVec 26) (r : RegD),
    let me := who.toNat
    let n := a.toNat
    plainReg n = true → descOf n = some r → isHigh n = false → s.latched me n = none → n % 4 = 0 →
    (s.open who n → s.lands n → Completes (.rcRegisterRead who a) s fun t => t.rdata = s.value { at_ := n, cap := n } ∧
      (∀ f ∈ r.flds, f.ty = .rc → t.fld n f.fld = 0) ∧ ({ t with regs := s.regs, latches := s.latches, rdata := s.rdata } : State) = s ∧
      s.regsKept t [n, n + 4]) ∧
    (s.reach me n false = .reg { at_ := n, cap := n, quiet := true } → Completes (.rcRegisterRead who a) s fun t =>
      t.rdata = s.value { at_ := n, cap := n } ∧ t.regs = s.regs ∧ t.mem = s.mem)

/-- A write reaches writable fields only: an undefined offset, a register without a writable field and a misaligned access are captured in their
page, an unlisted page and a page without power in the DEV page; the common header keeps its own rules; VIOL_CAP clears when it is read. -/
def Obligations.AccessesFollowTheViolationRule : Prop :=
  ∀ (s : State) (who : Req) (a : BitVec 26) (v : W32),
    let me := who.toNat
    let n := a.toNat
    let o := n % 0x1000
    let pg := n - o
    let w := Instr.registerWrite who a v
    let ctl := 0x800 ≤ me ∧ me < 0x810
    let up := s.mode ≠ mOFF ∧ s.mode ≠ mRESET ∧ s.mode ≠ mSIMMER ∧ s.mode ≠ mDORMANT
    let at_ := s.open who n ∧ n / 0x1000 ≠ 0xB01 ∧ (pageOf n).isSome = true
    let in_ := at_ ∧ s.softNow n = false
    let bad (type : Nat) : Prop := Completes w s fun t => s.captures t pg me type o
    let mask : W32 := BitVec.ofNat 32 (match pageOf n with | some (k, _) => intMask k | none => 0)
    (at_ → n % 4 = 0 → s.softNow n = true → exec w s = .next s) ∧
    (in_ → n % 4 ≠ 0 → bad 5) ∧
    (in_ → n % 4 = 0 → 0x40 ≤ o → descOf n = none → bad 1) ∧
    (∀ r, in_ → n % 4 = 0 → 0x40 ≤ o → descOf n = some r → (r.writable = false ∨ isHigh n = true) → bad 2) ∧
    (in_ → n % 4 = 0 → o < 0x40 → o ≠ 8 → o ≠ 0xC → o ≠ 0x10 → o ≠ 0x14 → bad 2) ∧
    (in_ → (o = 0x10 ∨ o = 0x14) → mask = 0 → bad 2) ∧
    (in_ → o = 8 → v.getLsbD 30 = true → (∀ e, pageOf n ≠ some (.eng, e)) → bad 3) ∧
    (in_ → o = 8 → v.getLsbD 30 = false → Completes w s fun t => t.reg n = v &&& 0x80000000 ∧ s.onlyRegs t [n]) ∧
    (in_ → o = 0xC → Completes w s fun t => t.reg n = s.reg n &&& ~~~(v &&& 0x40000000) ∧ s.onlyRegs t [n]) ∧
    (in_ → o = 0x10 → mask ≠ 0 → Completes w s fun t => t.reg n = s.reg n &&& ~~~(v &&& mask) ∧ s.onlyRegs t [n]) ∧
    (in_ → o = 0x14 → mask ≠ 0 → Completes w s fun t => t.reg n = v &&& mask ∧ s.onlyRegs t [n]) ∧
    (∀ r, in_ → n % 4 = 0 → 0x40 ≤ o → descOf n = some r → r.writable = true → isHigh n = false →
      (pageOf n = some (.lckMain, 0) ∨ pageOf n = some (.lrnHalf, 0) ∨ pageOf n = some (.lrnLim, 0)) → s.lands n →
      Completes w s fun t => t.reg n = mergeW r.flds (s.reg n) v ∧ s.onlyRegs t [n]) ∧
    (ctl → up → n / 0x1000 ≠ 0xB01 → pageOf n = none → Completes w s fun t => s.captures t 0 me 1 o) ∧
    (ctl → up → n / 0x1000 ≠ 0xB01 → (pageOf n).isSome = true → s.pageOn n = false → Completes w s fun t => s.captures t 0 me 6 o) ∧
    (ctl → (s.mode = mSIMMER ∨ s.mode = mDORMANT) → n / 0x1000 ≠ 0 → n / 0x1000 ≠ 0xF80 → Completes w s fun t => s.captures t 0 me 6 o) ∧
    ((s.mode = mOFF ∨ s.mode = mRESET) → exec w s = .next s) ∧
    (∀ h off, s.reach me n true = .viol h 4 off → exec w s = .next (s.viol h me 4 0 off)) ∧
    (∀ p, p < 0x4000 → p ≠ 0xB01 → s.open who (p * 0x1000 + 0x1C) → (pageOf (p * 0x1000 + 0x1C)).isSome = true →
      (pageOf (p * 0x1000 + 0x1C)).map Prod.fst ≠ some .db → Completes (.violCapRead who p) s fun t =>
        t.rdata = s.reg (p * 0x1000 + 0x1C) ∧ t.reg (p * 0x1000 + 0x1C) = 0 ∧ t.reg (p * 0x1000 + 0xC) = s.reg (p * 0x1000 + 0xC) &&& 0xDFFFFFFF ∧
        s.regsKept t [p * 0x1000 + 0x1C, p * 0x1000 + 0xC] ∧ t.mem = s.mem)

/-! ### What every step keeps -/

/-- Right after reset the mode is RESET, the queue is empty, no context runs and no command does, memory lists nothing and has its canonical
form, the pages show their identity, interrupts are off and nothing is captured. -/
def Obligations.ResetLeavesTheSpecsValues : Prop :=
  let z := State.reset
  z.canon ∧ z.mode = mRESET ∧ z.pending = [] ∧ z.mem = [] ∧ z.near = [] ∧ z.flash = [] ∧ z.released = false ∧ z.fuses.ownEn = false ∧ z.fuses.svn = 0 ∧
  (∀ k < 8, z.mr k = 0) ∧ (∀ a, z.thr a = {}) ∧ (∀ a, z.rd8 a = 0) ∧ z.testRuns = false ∧ z.fld R.SEC_CMD_CTL F.SEC_CMD_CTL_STATE = 0 ∧ z.reqStatus = 0 ∧
  (∀ (e : EngN), (z.reg (0x200000 + e * 0x1000)).toNat = 0x200001 + e * 0x100 ∧ z.reg (0x200008 + e * 0x1000) = 0x80000000 ∧ z.engRun e = false) ∧
  (∀ p ∈ [0x0, 0x10000, 0x20000, 0x30000, 0x40000, 0x400000, 0x600000, 0x700000, 0x800000, 0x900000, 0xA00000, 0xB00000, 0xC00000, 0xD00000, 0xE00000,
    0xF00000, 0xF80000], (z.reg (p + 8)).getLsbD 31 = true ∧ z.reg (p + 0x10) = 0 ∧ z.reg (p + 0x14) = 0 ∧ z.reg (p + 0x1C) = 0)

/-- Memory, the near buffers, flash and the register space keep their canonical form in every step: equal contents stay equal data. -/
def Obligations.EveryStepKeepsMemoryCanonical : Prop := ∀ s t : State, s.canon → step s = .next t → t.canon

/-- A command leaves the queue of waiting commands alone, so commands run first in, first out. -/
def Obligations.CommandsLeaveTheQueue : Prop := ∀ (c : Instr) (s t : State), exec c s = .next t → t.pending = s.pending

/-- A blown fuse stays blown: only the completion of SVN_ADVANCE and OWN_ENROL changes a fuse, SVN bits and OWN_EN and OWN_REQ are only ever set,
and the identity, the vendor keys and the debug lock never change. -/
def Obligations.FusesAreOnlyBlown : Prop :=
  ∀ (c : Instr) (s t : State), exec c s = .next t →
    let op := s.fld R.SEC_CMD_CTL F.SEC_CMD_CTL_OP
    (t.fuses ≠ s.fuses → c = .secCmdComplete ∧ s.fld R.SEC_CMD_CTL F.SEC_CMD_CTL_STATE = 1 ∧ (op = 5 ∨ op = 6)) ∧
    (op ≠ 5 → t.fuses.svn = s.fuses.svn) ∧ s.fuses.svn ≤ t.fuses.svn ∧
    (∀ i < 64, (s.fuses.svnA.testBit i = true → t.fuses.svnA.testBit i = true) ∧ (s.fuses.svnB.testBit i = true → t.fuses.svnB.testBit i = true)) ∧
    (s.fuses.ownEn = true → t.fuses.ownEn = true ∧ t.fuses.okhRsa = s.fuses.okhRsa ∧ t.fuses.okhSlh = s.fuses.okhSlh) ∧
    (s.fuses.ownReq = true → t.fuses.ownReq = true) ∧
    t.fuses.uds = s.fuses.uds ∧ t.fuses.serial = s.fuses.serial ∧ t.fuses.vkhRsa = s.fuses.vkhRsa ∧ t.fuses.vkhSlh = s.fuses.vkhSlh ∧
    t.fuses.dbgDis = s.fuses.dbgDis ∧ t.fuses.slotB = s.fuses.slotB
end

