-- ==== Sys2Proof/Laws/SMap.lean ====
section
/-! SUPPORT. The laws of sparse maps: a read after a write, other keys unchanged, the canonical form kept. -/

namespace Sys2Proof.Machine

variable {α : Type}

theorem smFind_smErase_other (m : SMap α) {i j : Nat} (h : j ≠ i) : smFind (smErase m i) j = smFind m j := by
  induction m with
  | nil => rfl
  | cons e m ih =>
    obtain ⟨k, v⟩ := e
    by_cases hk : i = k
    · subst hk; simp [smErase, smFind, h, ih]
    · simp only [smErase, hk, if_false, smFind, ih]

theorem smFind_smPut_same (m : SMap α) (i : Nat) (x : α) : smFind (smPut m i x) i = some x := by
  induction m with
  | nil => simp [smPut, smFind]
  | cons e m ih =>
    obtain ⟨k, v⟩ := e
    unfold smPut
    split
    · simp [smFind]
    · split
      · simp [smFind]
      · next h => simp [smFind, h, ih]

theorem smFind_smPut_other (m : SMap α) {i j : Nat} (x : α) (h : j ≠ i) : smFind (smPut m i x) j = smFind m j := by
  induction m with
  | nil => simp [smPut, smFind, h]
  | cons e m ih =>
    obtain ⟨k, v⟩ := e
    unfold smPut
    split
    · simp [smFind, h]
    · split
      · next hk => subst hk; simp [smFind, h]
      · simp only [smFind, ih]

theorem smFind_none_of_above (m : SMap α) {i j : Nat} (h : smAbove i m = true) (hj : j ≤ i) : smFind m j = none := by
  induction m with
  | nil => rfl
  | cons e m ih =>
    obtain ⟨k, v⟩ := e
    simp only [smAbove, Bool.and_eq_true, decide_eq_true_eq] at h
    have : j ≠ k := by omega
    simp [smFind, this, ih h.2]

theorem smAbove_mono (m : SMap α) {i j : Nat} (h : smAbove i m = true) (hj : j ≤ i) : smAbove j m = true := by
  induction m with
  | nil => rfl
  | cons e m ih =>
    obtain ⟨k, v⟩ := e
    simp only [smAbove, Bool.and_eq_true, decide_eq_true_eq] at h ⊢
    exact ⟨by omega, ih h.2⟩

theorem smAbove_smErase (m : SMap α) {i : Nat} (j : Nat) (h : smAbove i m = true) : smAbove i (smErase m j) = true := by
  induction m with
  | nil => rfl
  | cons e m ih =>
    obtain ⟨k, v⟩ := e
    simp only [smAbove, Bool.and_eq_true, decide_eq_true_eq] at h
    unfold smErase
    split
    · exact ih h.2
    · simp [smAbove, h.1, ih h.2]

theorem smAbove_smPut (m : SMap α) {i j : Nat} (x : α) (h : smAbove i m = true) (hij : i < j) :
    smAbove i (smPut m j x) = true := by
  induction m with
  | nil => simp [smPut, smAbove, hij]
  | cons e m ih =>
    obtain ⟨k, v⟩ := e
    simp only [smAbove, Bool.and_eq_true, decide_eq_true_eq] at h
    unfold smPut
    split
    · simp [smAbove, h.1, h.2, hij]
    · split
      · simp [smAbove, hij, h.2]
      · simp [smAbove, h.1, ih h.2]

variable [DecidableEq α]

theorem smWf_smErase (d : Nat → α) (m : SMap α) (i : Nat) (h : smWf d m = true) : smWf d (smErase m i) = true := by
  induction m with
  | nil => rfl
  | cons e m ih =>
    obtain ⟨k, v⟩ := e
    simp only [smWf, Bool.and_eq_true] at h
    unfold smErase
    split
    · exact ih h.2
    · simp only [smWf, Bool.and_eq_true]
      exact ⟨⟨h.1.1, smAbove_smErase m i h.1.2⟩, ih h.2⟩

theorem smWf_smPut (d : Nat → α) (m : SMap α) (i : Nat) (x : α) (hx : x ≠ d i) (h : smWf d m = true) :
    smWf d (smPut m i x) = true := by
  induction m with
  | nil => simp [smPut, smWf, smAbove, hx]
  | cons e m ih =>
    obtain ⟨k, v⟩ := e
    simp only [smWf, Bool.and_eq_true, decide_eq_true_eq] at h
    unfold smPut
    split
    · next hik =>
      simp only [smWf, Bool.and_eq_true, decide_eq_true_eq, smAbove]
      exact ⟨⟨hx, hik, smAbove_mono m h.1.2 (by omega)⟩, h.1, h.2⟩
    · split
      · next hik => subst hik; simp only [smWf, Bool.and_eq_true, decide_eq_true_eq]; exact ⟨⟨hx, h.1.2⟩, h.2⟩
      · next h1 h2 =>
        simp only [smWf, Bool.and_eq_true, decide_eq_true_eq]
        exact ⟨⟨h.1.1, smAbove_smPut m x h.1.2 (by omega)⟩, ih h.2⟩

/-- Setting a key keeps the canonical form. -/
theorem smWf_smSet (d : Nat → α) (m : SMap α) (i : Nat) (x : α) (h : smWf d m = true) : smWf d (smSet d m i x) = true := by
  unfold smSet
  split
  · exact smWf_smErase d m i h
  · next hx => exact smWf_smPut d m i x hx h

omit [DecidableEq α] in
theorem smFind_smErase_same (m : SMap α) (i : Nat) : smFind (smErase m i) i = none := by
  induction m with
  | nil => rfl
  | cons e m ih =>
    obtain ⟨k, v⟩ := e
    by_cases hk : i = k
    · subst hk; simp [smErase, ih]
    · simp [smErase, hk, smFind, ih]

/-- A read after a write of the same key gives the value written. -/
theorem smGet_smSet_same (d : Nat → α) (m : SMap α) (i : Nat) (x : α) : smGet d (smSet d m i x) i = x := by
  unfold smSet
  split
  · next hx => simp [smGet, smFind_smErase_same m i, hx]
  · simp [smGet, smFind_smPut_same]

/-- A write leaves every other key alone. -/
theorem smGet_smSet_other (d : Nat → α) (m : SMap α) {i j : Nat} (x : α) (h : j ≠ i) :
    smGet d (smSet d m i x) j = smGet d m j := by
  unfold smSet
  split
  · simp [smGet, smFind_smErase_other m h]
  · simp [smGet, smFind_smPut_other m x h]

omit [DecidableEq α] in
theorem smAbove_filter (p : Nat × α → Bool) (m : SMap α) {i : Nat} (h : smAbove i m = true) :
    smAbove i (m.filter p) = true := by
  induction m with
  | nil => rfl
  | cons e m ih =>
    obtain ⟨k, v⟩ := e
    simp only [smAbove, Bool.and_eq_true, decide_eq_true_eq] at h
    rw [List.filter_cons]
    split
    · simp [smAbove, h.1, ih h.2]
    · exact ih h.2

theorem smWf_filter (d : Nat → α) (p : Nat × α → Bool) (m : SMap α) (h : smWf d m = true) : smWf d (m.filter p) = true := by
  induction m with
  | nil => rfl
  | cons e m ih =>
    obtain ⟨k, v⟩ := e
    simp only [smWf, Bool.and_eq_true] at h
    rw [List.filter_cons]
    split
    · simp only [smWf, Bool.and_eq_true]
      exact ⟨⟨h.1.1, smAbove_filter p m h.1.2⟩, ih h.2⟩
    · exact ih h.2

/-- Clearing a range keeps the canonical form. -/
theorem smWf_smClear (d : Nat → α) (m : SMap α) (lo hi : Nat) (h : smWf d m = true) : smWf d (smClear m lo hi) = true :=
  smWf_filter d _ m h

end Sys2Proof.Machine
end

