-- ==== Sys2Proof/Laws/State.lean ====
section
/-! SUPPORT. What each update of the state leaves alone: one lemma per field and update, true by definition. -/

namespace Sys2Proof.Machine

/-! ### State.setReg -/

@[simp] theorem State.setReg_pending (s : State) (a : Nat) (v : W32) : (s.setReg a v).pending = s.pending := rfl
@[simp] theorem State.setReg_clk (s : State) (a : Nat) (v : W32) : (s.setReg a v).clk = s.clk := rfl
@[simp] theorem State.setReg_freeCtr (s : State) (a : Nat) (v : W32) : (s.setReg a v).freeCtr = s.freeCtr := rfl
@[simp] theorem State.setReg_holdEnd (s : State) (a : Nat) (v : W32) : (s.setReg a v).holdEnd = s.holdEnd := rfl
@[simp] theorem State.setReg_latches (s : State) (a : Nat) (v : W32) : (s.setReg a v).latches = s.latches := rfl
@[simp] theorem State.setReg_rdata (s : State) (a : Nat) (v : W32) : (s.setReg a v).rdata = s.rdata := rfl
@[simp] theorem State.setReg_doneAt (s : State) (a : Nat) (v : W32) : (s.setReg a v).doneAt = s.doneAt := rfl
@[simp] theorem State.setReg_outs (s : State) (a : Nat) (v : W32) : (s.setReg a v).outs = s.outs := rfl
@[simp] theorem State.setReg_time (s : State) (a : Nat) (v : W32) : (s.setReg a v).time = s.time := rfl
@[simp] theorem State.setReg_thrs (s : State) (a : Nat) (v : W32) : (s.setReg a v).thrs = s.thrs := rfl
@[simp] theorem State.setReg_engs (s : State) (a : Nat) (v : W32) : (s.setReg a v).engs = s.engs := rfl
@[simp] theorem State.setReg_tasks (s : State) (a : Nat) (v : W32) : (s.setReg a v).tasks = s.tasks := rfl
@[simp] theorem State.setReg_ready (s : State) (a : Nat) (v : W32) : (s.setReg a v).ready = s.ready := rfl
@[simp] theorem State.setReg_delays (s : State) (a : Nat) (v : W32) : (s.setReg a v).delays = s.delays := rfl
@[simp] theorem State.setReg_tmouts (s : State) (a : Nat) (v : W32) : (s.setReg a v).tmouts = s.tmouts := rfl
@[simp] theorem State.setReg_locks (s : State) (a : Nat) (v : W32) : (s.setReg a v).locks = s.locks := rfl
@[simp] theorem State.setReg_tephra (s : State) (a : Nat) (v : W32) : (s.setReg a v).tephra = s.tephra := rfl
@[simp] theorem State.setReg_mem (s : State) (a : Nat) (v : W32) : (s.setReg a v).mem = s.mem := rfl
@[simp] theorem State.setReg_coreWakes (s : State) (a : Nat) (v : W32) : (s.setReg a v).coreWakes = s.coreWakes := rfl
@[simp] theorem State.setReg_pkts (s : State) (a : Nat) (v : W32) : (s.setReg a v).pkts = s.pkts := rfl
@[simp] theorem State.setReg_nextId (s : State) (a : Nat) (v : W32) : (s.setReg a v).nextId = s.nextId := rfl
@[simp] theorem State.setReg_srcQ (s : State) (a : Nat) (v : W32) : (s.setReg a v).srcQ = s.srcQ := rfl
@[simp] theorem State.setReg_parsed (s : State) (a : Nat) (v : W32) : (s.setReg a v).parsed = s.parsed := rfl
@[simp] theorem State.setReg_lkps (s : State) (a : Nat) (v : W32) : (s.setReg a v).lkps = s.lkps := rfl
@[simp] theorem State.setReg_srcChks (s : State) (a : Nat) (v : W32) : (s.setReg a v).srcChks = s.srcChks := rfl
@[simp] theorem State.setReg_near (s : State) (a : Nat) (v : W32) : (s.setReg a v).near = s.near := rfl
@[simp] theorem State.setReg_bufs (s : State) (a : Nat) (v : W32) : (s.setReg a v).bufs = s.bufs := rfl
@[simp] theorem State.setReg_pools (s : State) (a : Nat) (v : W32) : (s.setReg a v).pools = s.pools := rfl
@[simp] theorem State.setReg_accts (s : State) (a : Nat) (v : W32) : (s.setReg a v).accts = s.accts := rfl
@[simp] theorem State.setReg_pfcSent (s : State) (a : Nat) (v : W32) : (s.setReg a v).pfcSent = s.pfcSent := rfl
@[simp] theorem State.setReg_deepStk (s : State) (a : Nat) (v : W32) : (s.setReg a v).deepStk = s.deepStk := rfl
@[simp] theorem State.setReg_deepNext (s : State) (a : Nat) (v : W32) : (s.setReg a v).deepNext = s.deepNext := rfl
@[simp] theorem State.setReg_deepRefs (s : State) (a : Nat) (v : W32) : (s.setReg a v).deepRefs = s.deepRefs := rfl
@[simp] theorem State.setReg_deepOpen (s : State) (a : Nat) (v : W32) : (s.setReg a v).deepOpen = s.deepOpen := rfl
@[simp] theorem State.setReg_audSkip (s : State) (a : Nat) (v : W32) : (s.setReg a v).audSkip = s.audSkip := rfl
@[simp] theorem State.setReg_voqIn (s : State) (a : Nat) (v : W32) : (s.setReg a v).voqIn = s.voqIn := rfl
@[simp] theorem State.setReg_voqs (s : State) (a : Nat) (v : W32) : (s.setReg a v).voqs = s.voqs := rfl
@[simp] theorem State.setReg_copies (s : State) (a : Nat) (v : W32) : (s.setReg a v).copies = s.copies := rfl
@[simp] theorem State.setReg_conns (s : State) (a : Nat) (v : W32) : (s.setReg a v).conns = s.conns := rfl
@[simp] theorem State.setReg_gp (s : State) (a : Nat) (v : W32) : (s.setReg a v).gp = s.gp := rfl
@[simp] theorem State.setReg_ap (s : State) (a : Nat) (v : W32) : (s.setReg a v).ap = s.ap := rfl
@[simp] theorem State.setReg_pp (s : State) (a : Nat) (v : W32) : (s.setReg a v).pp = s.pp := rfl
@[simp] theorem State.setReg_round (s : State) (a : Nat) (v : W32) : (s.setReg a v).round = s.round := rfl
@[simp] theorem State.setReg_cellT (s : State) (a : Nat) (v : W32) : (s.setReg a v).cellT = s.cellT := rfl
@[simp] theorem State.setReg_txq (s : State) (a : Nat) (v : W32) : (s.setReg a v).txq = s.txq := rfl
@[simp] theorem State.setReg_txs (s : State) (a : Nat) (v : W32) : (s.setReg a v).txs = s.txs := rfl
@[simp] theorem State.setReg_creds (s : State) (a : Nat) (v : W32) : (s.setReg a v).creds = s.creds := rfl
@[simp] theorem State.setReg_vts (s : State) (a : Nat) (v : W32) : (s.setReg a v).vts = s.vts := rfl
@[simp] theorem State.setReg_wheel (s : State) (a : Nat) (v : W32) : (s.setReg a v).wheel = s.wheel := rfl
@[simp] theorem State.setReg_ovf (s : State) (a : Nat) (v : W32) : (s.setReg a v).ovf = s.ovf := rfl
@[simp] theorem State.setReg_slotNow (s : State) (a : Nat) (v : W32) : (s.setReg a v).slotNow = s.slotNow := rfl
@[simp] theorem State.setReg_quanta (s : State) (a : Nat) (v : W32) : (s.setReg a v).quanta = s.quanta := rfl
@[simp] theorem State.setReg_stamps (s : State) (a : Nat) (v : W32) : (s.setReg a v).stamps = s.stamps := rfl
@[simp] theorem State.setReg_meters (s : State) (a : Nat) (v : W32) : (s.setReg a v).meters = s.meters := rfl
@[simp] theorem State.setReg_cycBase (s : State) (a : Nat) (v : W32) : (s.setReg a v).cycBase = s.cycBase := rfl
@[simp] theorem State.setReg_poison (s : State) (a : Nat) (v : W32) : (s.setReg a v).poison = s.poison := rfl
@[simp] theorem State.setReg_hbmQ (s : State) (a : Nat) (v : W32) : (s.setReg a v).hbmQ = s.hbmQ := rfl
@[simp] theorem State.setReg_hbmWait (s : State) (a : Nat) (v : W32) : (s.setReg a v).hbmWait = s.hbmWait := rfl
@[simp] theorem State.setReg_hbmLast (s : State) (a : Nat) (v : W32) : (s.setReg a v).hbmLast = s.hbmLast := rfl
@[simp] theorem State.setReg_refilled (s : State) (a : Nat) (v : W32) : (s.setReg a v).refilled = s.refilled := rfl
@[simp] theorem State.setReg_hbmFill (s : State) (a : Nat) (v : W32) : (s.setReg a v).hbmFill = s.hbmFill := rfl
@[simp] theorem State.setReg_rasLog (s : State) (a : Nat) (v : W32) : (s.setReg a v).rasLog = s.rasLog := rfl
@[simp] theorem State.setReg_vecOpen (s : State) (a : Nat) (v : W32) : (s.setReg a v).vecOpen = s.vecOpen := rfl
@[simp] theorem State.setReg_vecPend (s : State) (a : Nat) (v : W32) : (s.setReg a v).vecPend = s.vecPend := rfl
@[simp] theorem State.setReg_vecMsg (s : State) (a : Nat) (v : W32) : (s.setReg a v).vecMsg = s.vecMsg := rfl
@[simp] theorem State.setReg_going (s : State) (a : Nat) (v : W32) : (s.setReg a v).going = s.going := rfl
@[simp] theorem State.setReg_goCommit (s : State) (a : Nat) (v : W32) : (s.setReg a v).goCommit = s.goCommit := rfl
@[simp] theorem State.setReg_linkReps (s : State) (a : Nat) (v : W32) : (s.setReg a v).linkReps = s.linkReps := rfl
@[simp] theorem State.setReg_wakePend (s : State) (a : Nat) (v : W32) : (s.setReg a v).wakePend = s.wakePend := rfl
@[simp] theorem State.setReg_replay (s : State) (a : Nat) (v : W32) : (s.setReg a v).replay = s.replay := rfl
@[simp] theorem State.setReg_hold (s : State) (a : Nat) (v : W32) : (s.setReg a v).hold = s.hold := rfl
@[simp] theorem State.setReg_dbHeld (s : State) (a : Nat) (v : W32) : (s.setReg a v).dbHeld = s.dbHeld := rfl
@[simp] theorem State.setReg_wdogAt (s : State) (a : Nat) (v : W32) : (s.setReg a v).wdogAt = s.wdogAt := rfl
@[simp] theorem State.setReg_ueAt (s : State) (a : Nat) (v : W32) : (s.setReg a v).ueAt = s.ueAt := rfl
@[simp] theorem State.setReg_rtDue (s : State) (a : Nat) (v : W32) : (s.setReg a v).rtDue = s.rtDue := rfl
@[simp] theorem State.setReg_rtFails (s : State) (a : Nat) (v : W32) : (s.setReg a v).rtFails = s.rtFails := rfl
@[simp] theorem State.setReg_withdrawn (s : State) (a : Nat) (v : W32) : (s.setReg a v).withdrawn = s.withdrawn := rfl
@[simp] theorem State.setReg_pins (s : State) (a : Nat) (v : W32) : (s.setReg a v).pins = s.pins := rfl
@[simp] theorem State.setReg_fuses (s : State) (a : Nat) (v : W32) : (s.setReg a v).fuses = s.fuses := rfl
@[simp] theorem State.setReg_flash (s : State) (a : Nat) (v : W32) : (s.setReg a v).flash = s.flash := rfl
@[simp] theorem State.setReg_mrs (s : State) (a : Nat) (v : W32) : (s.setReg a v).mrs = s.mrs := rfl
@[simp] theorem State.setReg_progs (s : State) (a : Nat) (v : W32) : (s.setReg a v).progs = s.progs := rfl
@[simp] theorem State.setReg_em (s : State) (a : Nat) (v : W32) : (s.setReg a v).em = s.em := rfl
@[simp] theorem State.setReg_tcr (s : State) (a : Nat) (v : W32) : (s.setReg a v).tcr = s.tcr := rfl
@[simp] theorem State.setReg_commitPend (s : State) (a : Nat) (v : W32) : (s.setReg a v).commitPend = s.commitPend := rfl
@[simp] theorem State.setReg_mrMoves (s : State) (a : Nat) (v : W32) : (s.setReg a v).mrMoves = s.mrMoves := rfl
@[simp] theorem State.setReg_mrIns (s : State) (a : Nat) (v : W32) : (s.setReg a v).mrIns = s.mrIns := rfl
@[simp] theorem State.setReg_bcache (s : State) (a : Nat) (v : W32) : (s.setReg a v).bcache = s.bcache := rfl
@[simp] theorem State.setReg_emBad (s : State) (a : Nat) (v : W32) : (s.setReg a v).emBad = s.emBad := rfl
@[simp] theorem State.setReg_tcBad (s : State) (a : Nat) (v : W32) : (s.setReg a v).tcBad = s.tcBad := rfl
@[simp] theorem State.setReg_ctrs (s : State) (a : Nat) (v : W32) : (s.setReg a v).ctrs = s.ctrs := rfl
@[simp] theorem State.setReg_dirty (s : State) (a : Nat) (v : W32) : (s.setReg a v).dirty = s.dirty := rfl
@[simp] theorem State.setReg_learnQ (s : State) (a : Nat) (v : W32) : (s.setReg a v).learnQ = s.learnQ := rfl
@[simp] theorem State.setReg_lrnIn (s : State) (a : Nat) (v : W32) : (s.setReg a v).lrnIn = s.lrnIn := rfl
@[simp] theorem State.setReg_lrnRecs (s : State) (a : Nat) (v : W32) : (s.setReg a v).lrnRecs = s.lrnRecs := rfl
@[simp] theorem State.setReg_lrnOpen (s : State) (a : Nat) (v : W32) : (s.setReg a v).lrnOpen = s.lrnOpen := rfl
@[simp] theorem State.setReg_peers (s : State) (a : Nat) (v : W32) : (s.setReg a v).peers = s.peers := rfl
@[simp] theorem State.setReg_damps (s : State) (a : Nat) (v : W32) : (s.setReg a v).damps = s.damps := rfl
@[simp] theorem State.setReg_rfAt (s : State) (a : Nat) (v : W32) : (s.setReg a v).rfAt = s.rfAt := rfl
@[simp] theorem State.setReg_lrnPos (s : State) (a : Nat) (v : W32) : (s.setReg a v).lrnPos = s.lrnPos := rfl
@[simp] theorem State.setReg_dumpPos (s : State) (a : Nat) (v : W32) : (s.setReg a v).dumpPos = s.dumpPos := rfl
@[simp] theorem State.setReg_vfEn (s : State) (a : Nat) (v : W32) : (s.setReg a v).vfEn = s.vfEn := rfl
@[simp] theorem State.setReg_instRes (s : State) (a : Nat) (v : W32) : (s.setReg a v).instRes = s.instRes := rfl
@[simp] theorem State.setReg_instStg (s : State) (a : Nat) (v : W32) : (s.setReg a v).instStg = s.instStg := rfl
@[simp] theorem State.setReg_rstHeld (s : State) (a : Nat) (v : W32) : (s.setReg a v).rstHeld = s.rstHeld := rfl
@[simp] theorem State.setReg_dmas (s : State) (a : Nat) (v : W32) : (s.setReg a v).dmas = s.dmas := rfl
@[simp] theorem State.setReg_dmaQ (s : State) (a : Nat) (v : W32) : (s.setReg a v).dmaQ = s.dmaQ := rfl
@[simp] theorem State.setReg_rings (s : State) (a : Nat) (v : W32) : (s.setReg a v).rings = s.rings := rfl
@[simp] theorem State.setReg_cfgReady (s : State) (a : Nat) (v : W32) : (s.setReg a v).cfgReady = s.cfgReady := rfl
@[simp] theorem State.setReg_fumEntry (s : State) (a : Nat) (v : W32) : (s.setReg a v).fumEntry = s.fumEntry := rfl
@[simp] theorem State.setReg_bootSvn (s : State) (a : Nat) (v : W32) : (s.setReg a v).bootSvn = s.bootSvn := rfl
@[simp] theorem State.setReg_mbx (s : State) (a : Nat) (v : W32) : (s.setReg a v).mbx = s.mbx := rfl
@[simp] theorem State.setReg_bsr (s : State) (a : Nat) (v : W32) : (s.setReg a v).bsr = s.bsr := rfl
@[simp] theorem State.setReg_released (s : State) (a : Nat) (v : W32) : (s.setReg a v).released = s.released := rfl

/-! ### State.setThr -/

@[simp] theorem State.setThr_pending (s : State) (a : Nat) (t : Thr) : (s.setThr a t).pending = s.pending := rfl
@[simp] theorem State.setThr_clk (s : State) (a : Nat) (t : Thr) : (s.setThr a t).clk = s.clk := rfl
@[simp] theorem State.setThr_freeCtr (s : State) (a : Nat) (t : Thr) : (s.setThr a t).freeCtr = s.freeCtr := rfl
@[simp] theorem State.setThr_holdEnd (s : State) (a : Nat) (t : Thr) : (s.setThr a t).holdEnd = s.holdEnd := rfl
@[simp] theorem State.setThr_regs (s : State) (a : Nat) (t : Thr) : (s.setThr a t).regs = s.regs := rfl
@[simp] theorem State.setThr_latches (s : State) (a : Nat) (t : Thr) : (s.setThr a t).latches = s.latches := rfl
@[simp] theorem State.setThr_rdata (s : State) (a : Nat) (t : Thr) : (s.setThr a t).rdata = s.rdata := rfl
@[simp] theorem State.setThr_doneAt (s : State) (a : Nat) (t : Thr) : (s.setThr a t).doneAt = s.doneAt := rfl
@[simp] theorem State.setThr_outs (s : State) (a : Nat) (t : Thr) : (s.setThr a t).outs = s.outs := rfl
@[simp] theorem State.setThr_time (s : State) (a : Nat) (t : Thr) : (s.setThr a t).time = s.time := rfl
@[simp] theorem State.setThr_engs (s : State) (a : Nat) (t : Thr) : (s.setThr a t).engs = s.engs := rfl
@[simp] theorem State.setThr_tasks (s : State) (a : Nat) (t : Thr) : (s.setThr a t).tasks = s.tasks := rfl
@[simp] theorem State.setThr_ready (s : State) (a : Nat) (t : Thr) : (s.setThr a t).ready = s.ready := rfl
@[simp] theorem State.setThr_delays (s : State) (a : Nat) (t : Thr) : (s.setThr a t).delays = s.delays := rfl
@[simp] theorem State.setThr_tmouts (s : State) (a : Nat) (t : Thr) : (s.setThr a t).tmouts = s.tmouts := rfl
@[simp] theorem State.setThr_locks (s : State) (a : Nat) (t : Thr) : (s.setThr a t).locks = s.locks := rfl
@[simp] theorem State.setThr_tephra (s : State) (a : Nat) (t : Thr) : (s.setThr a t).tephra = s.tephra := rfl
@[simp] theorem State.setThr_mem (s : State) (a : Nat) (t : Thr) : (s.setThr a t).mem = s.mem := rfl
@[simp] theorem State.setThr_coreWakes (s : State) (a : Nat) (t : Thr) : (s.setThr a t).coreWakes = s.coreWakes := rfl
@[simp] theorem State.setThr_pkts (s : State) (a : Nat) (t : Thr) : (s.setThr a t).pkts = s.pkts := rfl
@[simp] theorem State.setThr_nextId (s : State) (a : Nat) (t : Thr) : (s.setThr a t).nextId = s.nextId := rfl
@[simp] theorem State.setThr_srcQ (s : State) (a : Nat) (t : Thr) : (s.setThr a t).srcQ = s.srcQ := rfl
@[simp] theorem State.setThr_parsed (s : State) (a : Nat) (t : Thr) : (s.setThr a t).parsed = s.parsed := rfl
@[simp] theorem State.setThr_lkps (s : State) (a : Nat) (t : Thr) : (s.setThr a t).lkps = s.lkps := rfl
@[simp] theorem State.setThr_srcChks (s : State) (a : Nat) (t : Thr) : (s.setThr a t).srcChks = s.srcChks := rfl
@[simp] theorem State.setThr_near (s : State) (a : Nat) (t : Thr) : (s.setThr a t).near = s.near := rfl
@[simp] theorem State.setThr_bufs (s : State) (a : Nat) (t : Thr) : (s.setThr a t).bufs = s.bufs := rfl
@[simp] theorem State.setThr_pools (s : State) (a : Nat) (t : Thr) : (s.setThr a t).pools = s.pools := rfl
@[simp] theorem State.setThr_accts (s : State) (a : Nat) (t : Thr) : (s.setThr a t).accts = s.accts := rfl
@[simp] theorem State.setThr_pfcSent (s : State) (a : Nat) (t : Thr) : (s.setThr a t).pfcSent = s.pfcSent := rfl
@[simp] theorem State.setThr_deepStk (s : State) (a : Nat) (t : Thr) : (s.setThr a t).deepStk = s.deepStk := rfl
@[simp] theorem State.setThr_deepNext (s : State) (a : Nat) (t : Thr) : (s.setThr a t).deepNext = s.deepNext := rfl
@[simp] theorem State.setThr_deepRefs (s : State) (a : Nat) (t : Thr) : (s.setThr a t).deepRefs = s.deepRefs := rfl
@[simp] theorem State.setThr_deepOpen (s : State) (a : Nat) (t : Thr) : (s.setThr a t).deepOpen = s.deepOpen := rfl
@[simp] theorem State.setThr_audSkip (s : State) (a : Nat) (t : Thr) : (s.setThr a t).audSkip = s.audSkip := rfl
@[simp] theorem State.setThr_voqIn (s : State) (a : Nat) (t : Thr) : (s.setThr a t).voqIn = s.voqIn := rfl
@[simp] theorem State.setThr_voqs (s : State) (a : Nat) (t : Thr) : (s.setThr a t).voqs = s.voqs := rfl
@[simp] theorem State.setThr_copies (s : State) (a : Nat) (t : Thr) : (s.setThr a t).copies = s.copies := rfl
@[simp] theorem State.setThr_conns (s : State) (a : Nat) (t : Thr) : (s.setThr a t).conns = s.conns := rfl
@[simp] theorem State.setThr_gp (s : State) (a : Nat) (t : Thr) : (s.setThr a t).gp = s.gp := rfl
@[simp] theorem State.setThr_ap (s : State) (a : Nat) (t : Thr) : (s.setThr a t).ap = s.ap := rfl
@[simp] theorem State.setThr_pp (s : State) (a : Nat) (t : Thr) : (s.setThr a t).pp = s.pp := rfl
@[simp] theorem State.setThr_round (s : State) (a : Nat) (t : Thr) : (s.setThr a t).round = s.round := rfl
@[simp] theorem State.setThr_cellT (s : State) (a : Nat) (t : Thr) : (s.setThr a t).cellT = s.cellT := rfl
@[simp] theorem State.setThr_txq (s : State) (a : Nat) (t : Thr) : (s.setThr a t).txq = s.txq := rfl
@[simp] theorem State.setThr_txs (s : State) (a : Nat) (t : Thr) : (s.setThr a t).txs = s.txs := rfl
@[simp] theorem State.setThr_creds (s : State) (a : Nat) (t : Thr) : (s.setThr a t).creds = s.creds := rfl
@[simp] theorem State.setThr_vts (s : State) (a : Nat) (t : Thr) : (s.setThr a t).vts = s.vts := rfl
@[simp] theorem State.setThr_wheel (s : State) (a : Nat) (t : Thr) : (s.setThr a t).wheel = s.wheel := rfl
@[simp] theorem State.setThr_ovf (s : State) (a : Nat) (t : Thr) : (s.setThr a t).ovf = s.ovf := rfl
@[simp] theorem State.setThr_slotNow (s : State) (a : Nat) (t : Thr) : (s.setThr a t).slotNow = s.slotNow := rfl
@[simp] theorem State.setThr_quanta (s : State) (a : Nat) (t : Thr) : (s.setThr a t).quanta = s.quanta := rfl
@[simp] theorem State.setThr_stamps (s : State) (a : Nat) (t : Thr) : (s.setThr a t).stamps = s.stamps := rfl
@[simp] theorem State.setThr_meters (s : State) (a : Nat) (t : Thr) : (s.setThr a t).meters = s.meters := rfl
@[simp] theorem State.setThr_cycBase (s : State) (a : Nat) (t : Thr) : (s.setThr a t).cycBase = s.cycBase := rfl
@[simp] theorem State.setThr_poison (s : State) (a : Nat) (t : Thr) : (s.setThr a t).poison = s.poison := rfl
@[simp] theorem State.setThr_hbmQ (s : State) (a : Nat) (t : Thr) : (s.setThr a t).hbmQ = s.hbmQ := rfl
@[simp] theorem State.setThr_hbmWait (s : State) (a : Nat) (t : Thr) : (s.setThr a t).hbmWait = s.hbmWait := rfl
@[simp] theorem State.setThr_hbmLast (s : State) (a : Nat) (t : Thr) : (s.setThr a t).hbmLast = s.hbmLast := rfl
@[simp] theorem State.setThr_refilled (s : State) (a : Nat) (t : Thr) : (s.setThr a t).refilled = s.refilled := rfl
@[simp] theorem State.setThr_hbmFill (s : State) (a : Nat) (t : Thr) : (s.setThr a t).hbmFill = s.hbmFill := rfl
@[simp] theorem State.setThr_rasLog (s : State) (a : Nat) (t : Thr) : (s.setThr a t).rasLog = s.rasLog := rfl
@[simp] theorem State.setThr_vecOpen (s : State) (a : Nat) (t : Thr) : (s.setThr a t).vecOpen = s.vecOpen := rfl
@[simp] theorem State.setThr_vecPend (s : State) (a : Nat) (t : Thr) : (s.setThr a t).vecPend = s.vecPend := rfl
@[simp] theorem State.setThr_vecMsg (s : State) (a : Nat) (t : Thr) : (s.setThr a t).vecMsg = s.vecMsg := rfl
@[simp] theorem State.setThr_going (s : State) (a : Nat) (t : Thr) : (s.setThr a t).going = s.going := rfl
@[simp] theorem State.setThr_goCommit (s : State) (a : Nat) (t : Thr) : (s.setThr a t).goCommit = s.goCommit := rfl
@[simp] theorem State.setThr_linkReps (s : State) (a : Nat) (t : Thr) : (s.setThr a t).linkReps = s.linkReps := rfl
@[simp] theorem State.setThr_wakePend (s : State) (a : Nat) (t : Thr) : (s.setThr a t).wakePend = s.wakePend := rfl
@[simp] theorem State.setThr_replay (s : State) (a : Nat) (t : Thr) : (s.setThr a t).replay = s.replay := rfl
@[simp] theorem State.setThr_hold (s : State) (a : Nat) (t : Thr) : (s.setThr a t).hold = s.hold := rfl
@[simp] theorem State.setThr_dbHeld (s : State) (a : Nat) (t : Thr) : (s.setThr a t).dbHeld = s.dbHeld := rfl
@[simp] theorem State.setThr_wdogAt (s : State) (a : Nat) (t : Thr) : (s.setThr a t).wdogAt = s.wdogAt := rfl
@[simp] theorem State.setThr_ueAt (s : State) (a : Nat) (t : Thr) : (s.setThr a t).ueAt = s.ueAt := rfl
@[simp] theorem State.setThr_rtDue (s : State) (a : Nat) (t : Thr) : (s.setThr a t).rtDue = s.rtDue := rfl
@[simp] theorem State.setThr_rtFails (s : State) (a : Nat) (t : Thr) : (s.setThr a t).rtFails = s.rtFails := rfl
@[simp] theorem State.setThr_withdrawn (s : State) (a : Nat) (t : Thr) : (s.setThr a t).withdrawn = s.withdrawn := rfl
@[simp] theorem State.setThr_pins (s : State) (a : Nat) (t : Thr) : (s.setThr a t).pins = s.pins := rfl
@[simp] theorem State.setThr_fuses (s : State) (a : Nat) (t : Thr) : (s.setThr a t).fuses = s.fuses := rfl
@[simp] theorem State.setThr_flash (s : State) (a : Nat) (t : Thr) : (s.setThr a t).flash = s.flash := rfl
@[simp] theorem State.setThr_mrs (s : State) (a : Nat) (t : Thr) : (s.setThr a t).mrs = s.mrs := rfl
@[simp] theorem State.setThr_progs (s : State) (a : Nat) (t : Thr) : (s.setThr a t).progs = s.progs := rfl
@[simp] theorem State.setThr_em (s : State) (a : Nat) (t : Thr) : (s.setThr a t).em = s.em := rfl
@[simp] theorem State.setThr_tcr (s : State) (a : Nat) (t : Thr) : (s.setThr a t).tcr = s.tcr := rfl
@[simp] theorem State.setThr_commitPend (s : State) (a : Nat) (t : Thr) : (s.setThr a t).commitPend = s.commitPend := rfl
@[simp] theorem State.setThr_mrMoves (s : State) (a : Nat) (t : Thr) : (s.setThr a t).mrMoves = s.mrMoves := rfl
@[simp] theorem State.setThr_mrIns (s : State) (a : Nat) (t : Thr) : (s.setThr a t).mrIns = s.mrIns := rfl
@[simp] theorem State.setThr_bcache (s : State) (a : Nat) (t : Thr) : (s.setThr a t).bcache = s.bcache := rfl
@[simp] theorem State.setThr_emBad (s : State) (a : Nat) (t : Thr) : (s.setThr a t).emBad = s.emBad := rfl
@[simp] theorem State.setThr_tcBad (s : State) (a : Nat) (t : Thr) : (s.setThr a t).tcBad = s.tcBad := rfl
@[simp] theorem State.setThr_ctrs (s : State) (a : Nat) (t : Thr) : (s.setThr a t).ctrs = s.ctrs := rfl
@[simp] theorem State.setThr_dirty (s : State) (a : Nat) (t : Thr) : (s.setThr a t).dirty = s.dirty := rfl
@[simp] theorem State.setThr_learnQ (s : State) (a : Nat) (t : Thr) : (s.setThr a t).learnQ = s.learnQ := rfl
@[simp] theorem State.setThr_lrnIn (s : State) (a : Nat) (t : Thr) : (s.setThr a t).lrnIn = s.lrnIn := rfl
@[simp] theorem State.setThr_lrnRecs (s : State) (a : Nat) (t : Thr) : (s.setThr a t).lrnRecs = s.lrnRecs := rfl
@[simp] theorem State.setThr_lrnOpen (s : State) (a : Nat) (t : Thr) : (s.setThr a t).lrnOpen = s.lrnOpen := rfl
@[simp] theorem State.setThr_peers (s : State) (a : Nat) (t : Thr) : (s.setThr a t).peers = s.peers := rfl
@[simp] theorem State.setThr_damps (s : State) (a : Nat) (t : Thr) : (s.setThr a t).damps = s.damps := rfl
@[simp] theorem State.setThr_rfAt (s : State) (a : Nat) (t : Thr) : (s.setThr a t).rfAt = s.rfAt := rfl
@[simp] theorem State.setThr_lrnPos (s : State) (a : Nat) (t : Thr) : (s.setThr a t).lrnPos = s.lrnPos := rfl
@[simp] theorem State.setThr_dumpPos (s : State) (a : Nat) (t : Thr) : (s.setThr a t).dumpPos = s.dumpPos := rfl
@[simp] theorem State.setThr_vfEn (s : State) (a : Nat) (t : Thr) : (s.setThr a t).vfEn = s.vfEn := rfl
@[simp] theorem State.setThr_instRes (s : State) (a : Nat) (t : Thr) : (s.setThr a t).instRes = s.instRes := rfl
@[simp] theorem State.setThr_instStg (s : State) (a : Nat) (t : Thr) : (s.setThr a t).instStg = s.instStg := rfl
@[simp] theorem State.setThr_rstHeld (s : State) (a : Nat) (t : Thr) : (s.setThr a t).rstHeld = s.rstHeld := rfl
@[simp] theorem State.setThr_dmas (s : State) (a : Nat) (t : Thr) : (s.setThr a t).dmas = s.dmas := rfl
@[simp] theorem State.setThr_dmaQ (s : State) (a : Nat) (t : Thr) : (s.setThr a t).dmaQ = s.dmaQ := rfl
@[simp] theorem State.setThr_rings (s : State) (a : Nat) (t : Thr) : (s.setThr a t).rings = s.rings := rfl
@[simp] theorem State.setThr_cfgReady (s : State) (a : Nat) (t : Thr) : (s.setThr a t).cfgReady = s.cfgReady := rfl
@[simp] theorem State.setThr_fumEntry (s : State) (a : Nat) (t : Thr) : (s.setThr a t).fumEntry = s.fumEntry := rfl
@[simp] theorem State.setThr_bootSvn (s : State) (a : Nat) (t : Thr) : (s.setThr a t).bootSvn = s.bootSvn := rfl
@[simp] theorem State.setThr_mbx (s : State) (a : Nat) (t : Thr) : (s.setThr a t).mbx = s.mbx := rfl
@[simp] theorem State.setThr_bsr (s : State) (a : Nat) (t : Thr) : (s.setThr a t).bsr = s.bsr := rfl
@[simp] theorem State.setThr_released (s : State) (a : Nat) (t : Thr) : (s.setThr a t).released = s.released := rfl

/-! ### State.setTime -/

@[simp] theorem State.setTime_pending (s : State) (t : TimeSt) : (s.setTime t).pending = s.pending := rfl
@[simp] theorem State.setTime_clk (s : State) (t : TimeSt) : (s.setTime t).clk = s.clk := rfl
@[simp] theorem State.setTime_freeCtr (s : State) (t : TimeSt) : (s.setTime t).freeCtr = s.freeCtr := rfl
@[simp] theorem State.setTime_holdEnd (s : State) (t : TimeSt) : (s.setTime t).holdEnd = s.holdEnd := rfl
@[simp] theorem State.setTime_regs (s : State) (t : TimeSt) : (s.setTime t).regs = s.regs := rfl
@[simp] theorem State.setTime_latches (s : State) (t : TimeSt) : (s.setTime t).latches = s.latches := rfl
@[simp] theorem State.setTime_rdata (s : State) (t : TimeSt) : (s.setTime t).rdata = s.rdata := rfl
@[simp] theorem State.setTime_doneAt (s : State) (t : TimeSt) : (s.setTime t).doneAt = s.doneAt := rfl
@[simp] theorem State.setTime_outs (s : State) (t : TimeSt) : (s.setTime t).outs = s.outs := rfl
@[simp] theorem State.setTime_thrs (s : State) (t : TimeSt) : (s.setTime t).thrs = s.thrs := rfl
@[simp] theorem State.setTime_engs (s : State) (t : TimeSt) : (s.setTime t).engs = s.engs := rfl
@[simp] theorem State.setTime_tasks (s : State) (t : TimeSt) : (s.setTime t).tasks = s.tasks := rfl
@[simp] theorem State.setTime_ready (s : State) (t : TimeSt) : (s.setTime t).ready = s.ready := rfl
@[simp] theorem State.setTime_delays (s : State) (t : TimeSt) : (s.setTime t).delays = s.delays := rfl
@[simp] theorem State.setTime_tmouts (s : State) (t : TimeSt) : (s.setTime t).tmouts = s.tmouts := rfl
@[simp] theorem State.setTime_locks (s : State) (t : TimeSt) : (s.setTime t).locks = s.locks := rfl
@[simp] theorem State.setTime_tephra (s : State) (t : TimeSt) : (s.setTime t).tephra = s.tephra := rfl
@[simp] theorem State.setTime_mem (s : State) (t : TimeSt) : (s.setTime t).mem = s.mem := rfl
@[simp] theorem State.setTime_coreWakes (s : State) (t : TimeSt) : (s.setTime t).coreWakes = s.coreWakes := rfl
@[simp] theorem State.setTime_pkts (s : State) (t : TimeSt) : (s.setTime t).pkts = s.pkts := rfl
@[simp] theorem State.setTime_nextId (s : State) (t : TimeSt) : (s.setTime t).nextId = s.nextId := rfl
@[simp] theorem State.setTime_srcQ (s : State) (t : TimeSt) : (s.setTime t).srcQ = s.srcQ := rfl
@[simp] theorem State.setTime_parsed (s : State) (t : TimeSt) : (s.setTime t).parsed = s.parsed := rfl
@[simp] theorem State.setTime_lkps (s : State) (t : TimeSt) : (s.setTime t).lkps = s.lkps := rfl
@[simp] theorem State.setTime_srcChks (s : State) (t : TimeSt) : (s.setTime t).srcChks = s.srcChks := rfl
@[simp] theorem State.setTime_near (s : State) (t : TimeSt) : (s.setTime t).near = s.near := rfl
@[simp] theorem State.setTime_bufs (s : State) (t : TimeSt) : (s.setTime t).bufs = s.bufs := rfl
@[simp] theorem State.setTime_pools (s : State) (t : TimeSt) : (s.setTime t).pools = s.pools := rfl
@[simp] theorem State.setTime_accts (s : State) (t : TimeSt) : (s.setTime t).accts = s.accts := rfl
@[simp] theorem State.setTime_pfcSent (s : State) (t : TimeSt) : (s.setTime t).pfcSent = s.pfcSent := rfl
@[simp] theorem State.setTime_deepStk (s : State) (t : TimeSt) : (s.setTime t).deepStk = s.deepStk := rfl
@[simp] theorem State.setTime_deepNext (s : State) (t : TimeSt) : (s.setTime t).deepNext = s.deepNext := rfl
@[simp] theorem State.setTime_deepRefs (s : State) (t : TimeSt) : (s.setTime t).deepRefs = s.deepRefs := rfl
@[simp] theorem State.setTime_deepOpen (s : State) (t : TimeSt) : (s.setTime t).deepOpen = s.deepOpen := rfl
@[simp] theorem State.setTime_audSkip (s : State) (t : TimeSt) : (s.setTime t).audSkip = s.audSkip := rfl
@[simp] theorem State.setTime_voqIn (s : State) (t : TimeSt) : (s.setTime t).voqIn = s.voqIn := rfl
@[simp] theorem State.setTime_voqs (s : State) (t : TimeSt) : (s.setTime t).voqs = s.voqs := rfl
@[simp] theorem State.setTime_copies (s : State) (t : TimeSt) : (s.setTime t).copies = s.copies := rfl
@[simp] theorem State.setTime_conns (s : State) (t : TimeSt) : (s.setTime t).conns = s.conns := rfl
@[simp] theorem State.setTime_gp (s : State) (t : TimeSt) : (s.setTime t).gp = s.gp := rfl
@[simp] theorem State.setTime_ap (s : State) (t : TimeSt) : (s.setTime t).ap = s.ap := rfl
@[simp] theorem State.setTime_pp (s : State) (t : TimeSt) : (s.setTime t).pp = s.pp := rfl
@[simp] theorem State.setTime_round (s : State) (t : TimeSt) : (s.setTime t).round = s.round := rfl
@[simp] theorem State.setTime_cellT (s : State) (t : TimeSt) : (s.setTime t).cellT = s.cellT := rfl
@[simp] theorem State.setTime_txq (s : State) (t : TimeSt) : (s.setTime t).txq = s.txq := rfl
@[simp] theorem State.setTime_txs (s : State) (t : TimeSt) : (s.setTime t).txs = s.txs := rfl
@[simp] theorem State.setTime_creds (s : State) (t : TimeSt) : (s.setTime t).creds = s.creds := rfl
@[simp] theorem State.setTime_vts (s : State) (t : TimeSt) : (s.setTime t).vts = s.vts := rfl
@[simp] theorem State.setTime_wheel (s : State) (t : TimeSt) : (s.setTime t).wheel = s.wheel := rfl
@[simp] theorem State.setTime_ovf (s : State) (t : TimeSt) : (s.setTime t).ovf = s.ovf := rfl
@[simp] theorem State.setTime_slotNow (s : State) (t : TimeSt) : (s.setTime t).slotNow = s.slotNow := rfl
@[simp] theorem State.setTime_quanta (s : State) (t : TimeSt) : (s.setTime t).quanta = s.quanta := rfl
@[simp] theorem State.setTime_stamps (s : State) (t : TimeSt) : (s.setTime t).stamps = s.stamps := rfl
@[simp] theorem State.setTime_meters (s : State) (t : TimeSt) : (s.setTime t).meters = s.meters := rfl
@[simp] theorem State.setTime_cycBase (s : State) (t : TimeSt) : (s.setTime t).cycBase = s.cycBase := rfl
@[simp] theorem State.setTime_poison (s : State) (t : TimeSt) : (s.setTime t).poison = s.poison := rfl
@[simp] theorem State.setTime_hbmQ (s : State) (t : TimeSt) : (s.setTime t).hbmQ = s.hbmQ := rfl
@[simp] theorem State.setTime_hbmWait (s : State) (t : TimeSt) : (s.setTime t).hbmWait = s.hbmWait := rfl
@[simp] theorem State.setTime_hbmLast (s : State) (t : TimeSt) : (s.setTime t).hbmLast = s.hbmLast := rfl
@[simp] theorem State.setTime_refilled (s : State) (t : TimeSt) : (s.setTime t).refilled = s.refilled := rfl
@[simp] theorem State.setTime_hbmFill (s : State) (t : TimeSt) : (s.setTime t).hbmFill = s.hbmFill := rfl
@[simp] theorem State.setTime_rasLog (s : State) (t : TimeSt) : (s.setTime t).rasLog = s.rasLog := rfl
@[simp] theorem State.setTime_vecOpen (s : State) (t : TimeSt) : (s.setTime t).vecOpen = s.vecOpen := rfl
@[simp] theorem State.setTime_vecPend (s : State) (t : TimeSt) : (s.setTime t).vecPend = s.vecPend := rfl
@[simp] theorem State.setTime_vecMsg (s : State) (t : TimeSt) : (s.setTime t).vecMsg = s.vecMsg := rfl
@[simp] theorem State.setTime_going (s : State) (t : TimeSt) : (s.setTime t).going = s.going := rfl
@[simp] theorem State.setTime_goCommit (s : State) (t : TimeSt) : (s.setTime t).goCommit = s.goCommit := rfl
@[simp] theorem State.setTime_linkReps (s : State) (t : TimeSt) : (s.setTime t).linkReps = s.linkReps := rfl
@[simp] theorem State.setTime_wakePend (s : State) (t : TimeSt) : (s.setTime t).wakePend = s.wakePend := rfl
@[simp] theorem State.setTime_replay (s : State) (t : TimeSt) : (s.setTime t).replay = s.replay := rfl
@[simp] theorem State.setTime_hold (s : State) (t : TimeSt) : (s.setTime t).hold = s.hold := rfl
@[simp] theorem State.setTime_dbHeld (s : State) (t : TimeSt) : (s.setTime t).dbHeld = s.dbHeld := rfl
@[simp] theorem State.setTime_wdogAt (s : State) (t : TimeSt) : (s.setTime t).wdogAt = s.wdogAt := rfl
@[simp] theorem State.setTime_ueAt (s : State) (t : TimeSt) : (s.setTime t).ueAt = s.ueAt := rfl
@[simp] theorem State.setTime_rtDue (s : State) (t : TimeSt) : (s.setTime t).rtDue = s.rtDue := rfl
@[simp] theorem State.setTime_rtFails (s : State) (t : TimeSt) : (s.setTime t).rtFails = s.rtFails := rfl
@[simp] theorem State.setTime_withdrawn (s : State) (t : TimeSt) : (s.setTime t).withdrawn = s.withdrawn := rfl
@[simp] theorem State.setTime_pins (s : State) (t : TimeSt) : (s.setTime t).pins = s.pins := rfl
@[simp] theorem State.setTime_fuses (s : State) (t : TimeSt) : (s.setTime t).fuses = s.fuses := rfl
@[simp] theorem State.setTime_flash (s : State) (t : TimeSt) : (s.setTime t).flash = s.flash := rfl
@[simp] theorem State.setTime_mrs (s : State) (t : TimeSt) : (s.setTime t).mrs = s.mrs := rfl
@[simp] theorem State.setTime_progs (s : State) (t : TimeSt) : (s.setTime t).progs = s.progs := rfl
@[simp] theorem State.setTime_em (s : State) (t : TimeSt) : (s.setTime t).em = s.em := rfl
@[simp] theorem State.setTime_tcr (s : State) (t : TimeSt) : (s.setTime t).tcr = s.tcr := rfl
@[simp] theorem State.setTime_commitPend (s : State) (t : TimeSt) : (s.setTime t).commitPend = s.commitPend := rfl
@[simp] theorem State.setTime_mrMoves (s : State) (t : TimeSt) : (s.setTime t).mrMoves = s.mrMoves := rfl
@[simp] theorem State.setTime_mrIns (s : State) (t : TimeSt) : (s.setTime t).mrIns = s.mrIns := rfl
@[simp] theorem State.setTime_bcache (s : State) (t : TimeSt) : (s.setTime t).bcache = s.bcache := rfl
@[simp] theorem State.setTime_emBad (s : State) (t : TimeSt) : (s.setTime t).emBad = s.emBad := rfl
@[simp] theorem State.setTime_tcBad (s : State) (t : TimeSt) : (s.setTime t).tcBad = s.tcBad := rfl
@[simp] theorem State.setTime_ctrs (s : State) (t : TimeSt) : (s.setTime t).ctrs = s.ctrs := rfl
@[simp] theorem State.setTime_dirty (s : State) (t : TimeSt) : (s.setTime t).dirty = s.dirty := rfl
@[simp] theorem State.setTime_learnQ (s : State) (t : TimeSt) : (s.setTime t).learnQ = s.learnQ := rfl
@[simp] theorem State.setTime_lrnIn (s : State) (t : TimeSt) : (s.setTime t).lrnIn = s.lrnIn := rfl
@[simp] theorem State.setTime_lrnRecs (s : State) (t : TimeSt) : (s.setTime t).lrnRecs = s.lrnRecs := rfl
@[simp] theorem State.setTime_lrnOpen (s : State) (t : TimeSt) : (s.setTime t).lrnOpen = s.lrnOpen := rfl
@[simp] theorem State.setTime_peers (s : State) (t : TimeSt) : (s.setTime t).peers = s.peers := rfl
@[simp] theorem State.setTime_damps (s : State) (t : TimeSt) : (s.setTime t).damps = s.damps := rfl
@[simp] theorem State.setTime_rfAt (s : State) (t : TimeSt) : (s.setTime t).rfAt = s.rfAt := rfl
@[simp] theorem State.setTime_lrnPos (s : State) (t : TimeSt) : (s.setTime t).lrnPos = s.lrnPos := rfl
@[simp] theorem State.setTime_dumpPos (s : State) (t : TimeSt) : (s.setTime t).dumpPos = s.dumpPos := rfl
@[simp] theorem State.setTime_vfEn (s : State) (t : TimeSt) : (s.setTime t).vfEn = s.vfEn := rfl
@[simp] theorem State.setTime_instRes (s : State) (t : TimeSt) : (s.setTime t).instRes = s.instRes := rfl
@[simp] theorem State.setTime_instStg (s : State) (t : TimeSt) : (s.setTime t).instStg = s.instStg := rfl
@[simp] theorem State.setTime_rstHeld (s : State) (t : TimeSt) : (s.setTime t).rstHeld = s.rstHeld := rfl
@[simp] theorem State.setTime_dmas (s : State) (t : TimeSt) : (s.setTime t).dmas = s.dmas := rfl
@[simp] theorem State.setTime_dmaQ (s : State) (t : TimeSt) : (s.setTime t).dmaQ = s.dmaQ := rfl
@[simp] theorem State.setTime_rings (s : State) (t : TimeSt) : (s.setTime t).rings = s.rings := rfl
@[simp] theorem State.setTime_cfgReady (s : State) (t : TimeSt) : (s.setTime t).cfgReady = s.cfgReady := rfl
@[simp] theorem State.setTime_fumEntry (s : State) (t : TimeSt) : (s.setTime t).fumEntry = s.fumEntry := rfl
@[simp] theorem State.setTime_bootSvn (s : State) (t : TimeSt) : (s.setTime t).bootSvn = s.bootSvn := rfl
@[simp] theorem State.setTime_mbx (s : State) (t : TimeSt) : (s.setTime t).mbx = s.mbx := rfl
@[simp] theorem State.setTime_bsr (s : State) (t : TimeSt) : (s.setTime t).bsr = s.bsr := rfl
@[simp] theorem State.setTime_released (s : State) (t : TimeSt) : (s.setTime t).released = s.released := rfl

/-! ### State.wrBytes -/

@[simp] theorem State.wrBytes_pending (s : State) (a : Nat) (bs : List Byte) : (s.wrBytes a bs).pending = s.pending := rfl
@[simp] theorem State.wrBytes_clk (s : State) (a : Nat) (bs : List Byte) : (s.wrBytes a bs).clk = s.clk := rfl
@[simp] theorem State.wrBytes_freeCtr (s : State) (a : Nat) (bs : List Byte) : (s.wrBytes a bs).freeCtr = s.freeCtr := rfl
@[simp] theorem State.wrBytes_holdEnd (s : State) (a : Nat) (bs : List Byte) : (s.wrBytes a bs).holdEnd = s.holdEnd := rfl
@[simp] theorem State.wrBytes_regs (s : State) (a : Nat) (bs : List Byte) : (s.wrBytes a bs).regs = s.regs := rfl
@[simp] theorem State.wrBytes_latches (s : State) (a : Nat) (bs : List Byte) : (s.wrBytes a bs).latches = s.latches := rfl
@[simp] theorem State.wrBytes_rdata (s : State) (a : Nat) (bs : List Byte) : (s.wrBytes a bs).rdata = s.rdata := rfl
@[simp] theorem State.wrBytes_doneAt (s : State) (a : Nat) (bs : List Byte) : (s.wrBytes a bs).doneAt = s.doneAt := rfl
@[simp] theorem State.wrBytes_outs (s : State) (a : Nat) (bs : List Byte) : (s.wrBytes a bs).outs = s.outs := rfl
@[simp] theorem State.wrBytes_time (s : State) (a : Nat) (bs : List Byte) : (s.wrBytes a bs).time = s.time := rfl
@[simp] theorem State.wrBytes_thrs (s : State) (a : Nat) (bs : List Byte) : (s.wrBytes a bs).thrs = s.thrs := rfl
@[simp] theorem State.wrBytes_engs (s : State) (a : Nat) (bs : List Byte) : (s.wrBytes a bs).engs = s.engs := rfl
@[simp] theorem State.wrBytes_tasks (s : State) (a : Nat) (bs : List Byte) : (s.wrBytes a bs).tasks = s.tasks := rfl
@[simp] theorem State.wrBytes_ready (s : State) (a : Nat) (bs : List Byte) : (s.wrBytes a bs).ready = s.ready := rfl
@[simp] theorem State.wrBytes_delays (s : State) (a : Nat) (bs : List Byte) : (s.wrBytes a bs).delays = s.delays := rfl
@[simp] theorem State.wrBytes_tmouts (s : State) (a : Nat) (bs : List Byte) : (s.wrBytes a bs).tmouts = s.tmouts := rfl
@[simp] theorem State.wrBytes_locks (s : State) (a : Nat) (bs : List Byte) : (s.wrBytes a bs).locks = s.locks := rfl
@[simp] theorem State.wrBytes_tephra (s : State) (a : Nat) (bs : List Byte) : (s.wrBytes a bs).tephra = s.tephra := rfl
@[simp] theorem State.wrBytes_coreWakes (s : State) (a : Nat) (bs : List Byte) : (s.wrBytes a bs).coreWakes = s.coreWakes := rfl
@[simp] theorem State.wrBytes_pkts (s : State) (a : Nat) (bs : List Byte) : (s.wrBytes a bs).pkts = s.pkts := rfl
@[simp] theorem State.wrBytes_nextId (s : State) (a : Nat) (bs : List Byte) : (s.wrBytes a bs).nextId = s.nextId := rfl
@[simp] theorem State.wrBytes_srcQ (s : State) (a : Nat) (bs : List Byte) : (s.wrBytes a bs).srcQ = s.srcQ := rfl
@[simp] theorem State.wrBytes_parsed (s : State) (a : Nat) (bs : List Byte) : (s.wrBytes a bs).parsed = s.parsed := rfl
@[simp] theorem State.wrBytes_lkps (s : State) (a : Nat) (bs : List Byte) : (s.wrBytes a bs).lkps = s.lkps := rfl
@[simp] theorem State.wrBytes_srcChks (s : State) (a : Nat) (bs : List Byte) : (s.wrBytes a bs).srcChks = s.srcChks := rfl
@[simp] theorem State.wrBytes_near (s : State) (a : Nat) (bs : List Byte) : (s.wrBytes a bs).near = s.near := rfl
@[simp] theorem State.wrBytes_bufs (s : State) (a : Nat) (bs : List Byte) : (s.wrBytes a bs).bufs = s.bufs := rfl
@[simp] theorem State.wrBytes_pools (s : State) (a : Nat) (bs : List Byte) : (s.wrBytes a bs).pools = s.pools := rfl
@[simp] theorem State.wrBytes_accts (s : State) (a : Nat) (bs : List Byte) : (s.wrBytes a bs).accts = s.accts := rfl
@[simp] theorem State.wrBytes_pfcSent (s : State) (a : Nat) (bs : List Byte) : (s.wrBytes a bs).pfcSent = s.pfcSent := rfl
@[simp] theorem State.wrBytes_deepStk (s : State) (a : Nat) (bs : List Byte) : (s.wrBytes a bs).deepStk = s.deepStk := rfl
@[simp] theorem State.wrBytes_deepNext (s : State) (a : Nat) (bs : List Byte) : (s.wrBytes a bs).deepNext = s.deepNext := rfl
@[simp] theorem State.wrBytes_deepRefs (s : State) (a : Nat) (bs : List Byte) : (s.wrBytes a bs).deepRefs = s.deepRefs := rfl
@[simp] theorem State.wrBytes_deepOpen (s : State) (a : Nat) (bs : List Byte) : (s.wrBytes a bs).deepOpen = s.deepOpen := rfl
@[simp] theorem State.wrBytes_audSkip (s : State) (a : Nat) (bs : List Byte) : (s.wrBytes a bs).audSkip = s.audSkip := rfl
@[simp] theorem State.wrBytes_voqIn (s : State) (a : Nat) (bs : List Byte) : (s.wrBytes a bs).voqIn = s.voqIn := rfl
@[simp] theorem State.wrBytes_voqs (s : State) (a : Nat) (bs : List Byte) : (s.wrBytes a bs).voqs = s.voqs := rfl
@[simp] theorem State.wrBytes_copies (s : State) (a : Nat) (bs : List Byte) : (s.wrBytes a bs).copies = s.copies := rfl
@[simp] theorem State.wrBytes_conns (s : State) (a : Nat) (bs : List Byte) : (s.wrBytes a bs).conns = s.conns := rfl
@[simp] theorem State.wrBytes_gp (s : State) (a : Nat) (bs : List Byte) : (s.wrBytes a bs).gp = s.gp := rfl
@[simp] theorem State.wrBytes_ap (s : State) (a : Nat) (bs : List Byte) : (s.wrBytes a bs).ap = s.ap := rfl
@[simp] theorem State.wrBytes_pp (s : State) (a : Nat) (bs : List Byte) : (s.wrBytes a bs).pp = s.pp := rfl
@[simp] theorem State.wrBytes_round (s : State) (a : Nat) (bs : List Byte) : (s.wrBytes a bs).round = s.round := rfl
@[simp] theorem State.wrBytes_cellT (s : State) (a : Nat) (bs : List Byte) : (s.wrBytes a bs).cellT = s.cellT := rfl
@[simp] theorem State.wrBytes_txq (s : State) (a : Nat) (bs : List Byte) : (s.wrBytes a bs).txq = s.txq := rfl
@[simp] theorem State.wrBytes_txs (s : State) (a : Nat) (bs : List Byte) : (s.wrBytes a bs).txs = s.txs := rfl
@[simp] theorem State.wrBytes_creds (s : State) (a : Nat) (bs : List Byte) : (s.wrBytes a bs).creds = s.creds := rfl
@[simp] theorem State.wrBytes_vts (s : State) (a : Nat) (bs : List Byte) : (s.wrBytes a bs).vts = s.vts := rfl
@[simp] theorem State.wrBytes_wheel (s : State) (a : Nat) (bs : List Byte) : (s.wrBytes a bs).wheel = s.wheel := rfl
@[simp] theorem State.wrBytes_ovf (s : State) (a : Nat) (bs : List Byte) : (s.wrBytes a bs).ovf = s.ovf := rfl
@[simp] theorem State.wrBytes_slotNow (s : State) (a : Nat) (bs : List Byte) : (s.wrBytes a bs).slotNow = s.slotNow := rfl
@[simp] theorem State.wrBytes_quanta (s : State) (a : Nat) (bs : List Byte) : (s.wrBytes a bs).quanta = s.quanta := rfl
@[simp] theorem State.wrBytes_stamps (s : State) (a : Nat) (bs : List Byte) : (s.wrBytes a bs).stamps = s.stamps := rfl
@[simp] theorem State.wrBytes_meters (s : State) (a : Nat) (bs : List Byte) : (s.wrBytes a bs).meters = s.meters := rfl
@[simp] theorem State.wrBytes_cycBase (s : State) (a : Nat) (bs : List Byte) : (s.wrBytes a bs).cycBase = s.cycBase := rfl
@[simp] theorem State.wrBytes_poison (s : State) (a : Nat) (bs : List Byte) : (s.wrBytes a bs).poison = s.poison := rfl
@[simp] theorem State.wrBytes_hbmQ (s : State) (a : Nat) (bs : List Byte) : (s.wrBytes a bs).hbmQ = s.hbmQ := rfl
@[simp] theorem State.wrBytes_hbmWait (s : State) (a : Nat) (bs : List Byte) : (s.wrBytes a bs).hbmWait = s.hbmWait := rfl
@[simp] theorem State.wrBytes_hbmLast (s : State) (a : Nat) (bs : List Byte) : (s.wrBytes a bs).hbmLast = s.hbmLast := rfl
@[simp] theorem State.wrBytes_refilled (s : State) (a : Nat) (bs : List Byte) : (s.wrBytes a bs).refilled = s.refilled := rfl
@[simp] theorem State.wrBytes_hbmFill (s : State) (a : Nat) (bs : List Byte) : (s.wrBytes a bs).hbmFill = s.hbmFill := rfl
@[simp] theorem State.wrBytes_rasLog (s : State) (a : Nat) (bs : List Byte) : (s.wrBytes a bs).rasLog = s.rasLog := rfl
@[simp] theorem State.wrBytes_vecOpen (s : State) (a : Nat) (bs : List Byte) : (s.wrBytes a bs).vecOpen = s.vecOpen := rfl
@[simp] theorem State.wrBytes_vecPend (s : State) (a : Nat) (bs : List Byte) : (s.wrBytes a bs).vecPend = s.vecPend := rfl
@[simp] theorem State.wrBytes_vecMsg (s : State) (a : Nat) (bs : List Byte) : (s.wrBytes a bs).vecMsg = s.vecMsg := rfl
@[simp] theorem State.wrBytes_going (s : State) (a : Nat) (bs : List Byte) : (s.wrBytes a bs).going = s.going := rfl
@[simp] theorem State.wrBytes_goCommit (s : State) (a : Nat) (bs : List Byte) : (s.wrBytes a bs).goCommit = s.goCommit := rfl
@[simp] theorem State.wrBytes_linkReps (s : State) (a : Nat) (bs : List Byte) : (s.wrBytes a bs).linkReps = s.linkReps := rfl
@[simp] theorem State.wrBytes_wakePend (s : State) (a : Nat) (bs : List Byte) : (s.wrBytes a bs).wakePend = s.wakePend := rfl
@[simp] theorem State.wrBytes_replay (s : State) (a : Nat) (bs : List Byte) : (s.wrBytes a bs).replay = s.replay := rfl
@[simp] theorem State.wrBytes_hold (s : State) (a : Nat) (bs : List Byte) : (s.wrBytes a bs).hold = s.hold := rfl
@[simp] theorem State.wrBytes_dbHeld (s : State) (a : Nat) (bs : List Byte) : (s.wrBytes a bs).dbHeld = s.dbHeld := rfl
@[simp] theorem State.wrBytes_wdogAt (s : State) (a : Nat) (bs : List Byte) : (s.wrBytes a bs).wdogAt = s.wdogAt := rfl
@[simp] theorem State.wrBytes_ueAt (s : State) (a : Nat) (bs : List Byte) : (s.wrBytes a bs).ueAt = s.ueAt := rfl
@[simp] theorem State.wrBytes_rtDue (s : State) (a : Nat) (bs : List Byte) : (s.wrBytes a bs).rtDue = s.rtDue := rfl
@[simp] theorem State.wrBytes_rtFails (s : State) (a : Nat) (bs : List Byte) : (s.wrBytes a bs).rtFails = s.rtFails := rfl
@[simp] theorem State.wrBytes_withdrawn (s : State) (a : Nat) (bs : List Byte) : (s.wrBytes a bs).withdrawn = s.withdrawn := rfl
@[simp] theorem State.wrBytes_pins (s : State) (a : Nat) (bs : List Byte) : (s.wrBytes a bs).pins = s.pins := rfl
@[simp] theorem State.wrBytes_fuses (s : State) (a : Nat) (bs : List Byte) : (s.wrBytes a bs).fuses = s.fuses := rfl
@[simp] theorem State.wrBytes_flash (s : State) (a : Nat) (bs : List Byte) : (s.wrBytes a bs).flash = s.flash := rfl
@[simp] theorem State.wrBytes_mrs (s : State) (a : Nat) (bs : List Byte) : (s.wrBytes a bs).mrs = s.mrs := rfl
@[simp] theorem State.wrBytes_progs (s : State) (a : Nat) (bs : List Byte) : (s.wrBytes a bs).progs = s.progs := rfl
@[simp] theorem State.wrBytes_em (s : State) (a : Nat) (bs : List Byte) : (s.wrBytes a bs).em = s.em := rfl
@[simp] theorem State.wrBytes_tcr (s : State) (a : Nat) (bs : List Byte) : (s.wrBytes a bs).tcr = s.tcr := rfl
@[simp] theorem State.wrBytes_commitPend (s : State) (a : Nat) (bs : List Byte) : (s.wrBytes a bs).commitPend = s.commitPend := rfl
@[simp] theorem State.wrBytes_mrMoves (s : State) (a : Nat) (bs : List Byte) : (s.wrBytes a bs).mrMoves = s.mrMoves := rfl
@[simp] theorem State.wrBytes_mrIns (s : State) (a : Nat) (bs : List Byte) : (s.wrBytes a bs).mrIns = s.mrIns := rfl
@[simp] theorem State.wrBytes_bcache (s : State) (a : Nat) (bs : List Byte) : (s.wrBytes a bs).bcache = s.bcache := rfl
@[simp] theorem State.wrBytes_emBad (s : State) (a : Nat) (bs : List Byte) : (s.wrBytes a bs).emBad = s.emBad := rfl
@[simp] theorem State.wrBytes_tcBad (s : State) (a : Nat) (bs : List Byte) : (s.wrBytes a bs).tcBad = s.tcBad := rfl
@[simp] theorem State.wrBytes_ctrs (s : State) (a : Nat) (bs : List Byte) : (s.wrBytes a bs).ctrs = s.ctrs := rfl
@[simp] theorem State.wrBytes_dirty (s : State) (a : Nat) (bs : List Byte) : (s.wrBytes a bs).dirty = s.dirty := rfl
@[simp] theorem State.wrBytes_learnQ (s : State) (a : Nat) (bs : List Byte) : (s.wrBytes a bs).learnQ = s.learnQ := rfl
@[simp] theorem State.wrBytes_lrnIn (s : State) (a : Nat) (bs : List Byte) : (s.wrBytes a bs).lrnIn = s.lrnIn := rfl
@[simp] theorem State.wrBytes_lrnRecs (s : State) (a : Nat) (bs : List Byte) : (s.wrBytes a bs).lrnRecs = s.lrnRecs := rfl
@[simp] theorem State.wrBytes_lrnOpen (s : State) (a : Nat) (bs : List Byte) : (s.wrBytes a bs).lrnOpen = s.lrnOpen := rfl
@[simp] theorem State.wrBytes_peers (s : State) (a : Nat) (bs : List Byte) : (s.wrBytes a bs).peers = s.peers := rfl
@[simp] theorem State.wrBytes_damps (s : State) (a : Nat) (bs : List Byte) : (s.wrBytes a bs).damps = s.damps := rfl
@[simp] theorem State.wrBytes_rfAt (s : State) (a : Nat) (bs : List Byte) : (s.wrBytes a bs).rfAt = s.rfAt := rfl
@[simp] theorem State.wrBytes_lrnPos (s : State) (a : Nat) (bs : List Byte) : (s.wrBytes a bs).lrnPos = s.lrnPos := rfl
@[simp] theorem State.wrBytes_dumpPos (s : State) (a : Nat) (bs : List Byte) : (s.wrBytes a bs).dumpPos = s.dumpPos := rfl
@[simp] theorem State.wrBytes_vfEn (s : State) (a : Nat) (bs : List Byte) : (s.wrBytes a bs).vfEn = s.vfEn := rfl
@[simp] theorem State.wrBytes_instRes (s : State) (a : Nat) (bs : List Byte) : (s.wrBytes a bs).instRes = s.instRes := rfl
@[simp] theorem State.wrBytes_instStg (s : State) (a : Nat) (bs : List Byte) : (s.wrBytes a bs).instStg = s.instStg := rfl
@[simp] theorem State.wrBytes_rstHeld (s : State) (a : Nat) (bs : List Byte) : (s.wrBytes a bs).rstHeld = s.rstHeld := rfl
@[simp] theorem State.wrBytes_dmas (s : State) (a : Nat) (bs : List Byte) : (s.wrBytes a bs).dmas = s.dmas := rfl
@[simp] theorem State.wrBytes_dmaQ (s : State) (a : Nat) (bs : List Byte) : (s.wrBytes a bs).dmaQ = s.dmaQ := rfl
@[simp] theorem State.wrBytes_rings (s : State) (a : Nat) (bs : List Byte) : (s.wrBytes a bs).rings = s.rings := rfl
@[simp] theorem State.wrBytes_cfgReady (s : State) (a : Nat) (bs : List Byte) : (s.wrBytes a bs).cfgReady = s.cfgReady := rfl
@[simp] theorem State.wrBytes_fumEntry (s : State) (a : Nat) (bs : List Byte) : (s.wrBytes a bs).fumEntry = s.fumEntry := rfl
@[simp] theorem State.wrBytes_bootSvn (s : State) (a : Nat) (bs : List Byte) : (s.wrBytes a bs).bootSvn = s.bootSvn := rfl
@[simp] theorem State.wrBytes_mbx (s : State) (a : Nat) (bs : List Byte) : (s.wrBytes a bs).mbx = s.mbx := rfl
@[simp] theorem State.wrBytes_bsr (s : State) (a : Nat) (bs : List Byte) : (s.wrBytes a bs).bsr = s.bsr := rfl
@[simp] theorem State.wrBytes_released (s : State) (a : Nat) (bs : List Byte) : (s.wrBytes a bs).released = s.released := rfl

/-! ### State.setEng -/

@[simp] theorem State.setEng_pending (s : State) (e : Nat) (g : Eng) : (s.setEng e g).pending = s.pending := rfl
@[simp] theorem State.setEng_clk (s : State) (e : Nat) (g : Eng) : (s.setEng e g).clk = s.clk := rfl
@[simp] theorem State.setEng_freeCtr (s : State) (e : Nat) (g : Eng) : (s.setEng e g).freeCtr = s.freeCtr := rfl
@[simp] theorem State.setEng_holdEnd (s : State) (e : Nat) (g : Eng) : (s.setEng e g).holdEnd = s.holdEnd := rfl
@[simp] theorem State.setEng_regs (s : State) (e : Nat) (g : Eng) : (s.setEng e g).regs = s.regs := rfl
@[simp] theorem State.setEng_latches (s : State) (e : Nat) (g : Eng) : (s.setEng e g).latches = s.latches := rfl
@[simp] theorem State.setEng_rdata (s : State) (e : Nat) (g : Eng) : (s.setEng e g).rdata = s.rdata := rfl
@[simp] theorem State.setEng_doneAt (s : State) (e : Nat) (g : Eng) : (s.setEng e g).doneAt = s.doneAt := rfl
@[simp] theorem State.setEng_outs (s : State) (e : Nat) (g : Eng) : (s.setEng e g).outs = s.outs := rfl
@[simp] theorem State.setEng_time (s : State) (e : Nat) (g : Eng) : (s.setEng e g).time = s.time := rfl
@[simp] theorem State.setEng_thrs (s : State) (e : Nat) (g : Eng) : (s.setEng e g).thrs = s.thrs := rfl
@[simp] theorem State.setEng_tasks (s : State) (e : Nat) (g : Eng) : (s.setEng e g).tasks = s.tasks := rfl
@[simp] theorem State.setEng_ready (s : State) (e : Nat) (g : Eng) : (s.setEng e g).ready = s.ready := rfl
@[simp] theorem State.setEng_delays (s : State) (e : Nat) (g : Eng) : (s.setEng e g).delays = s.delays := rfl
@[simp] theorem State.setEng_tmouts (s : State) (e : Nat) (g : Eng) : (s.setEng e g).tmouts = s.tmouts := rfl
@[simp] theorem State.setEng_locks (s : State) (e : Nat) (g : Eng) : (s.setEng e g).locks = s.locks := rfl
@[simp] theorem State.setEng_tephra (s : State) (e : Nat) (g : Eng) : (s.setEng e g).tephra = s.tephra := rfl
@[simp] theorem State.setEng_mem (s : State) (e : Nat) (g : Eng) : (s.setEng e g).mem = s.mem := rfl
@[simp] theorem State.setEng_coreWakes (s : State) (e : Nat) (g : Eng) : (s.setEng e g).coreWakes = s.coreWakes := rfl
@[simp] theorem State.setEng_pkts (s : State) (e : Nat) (g : Eng) : (s.setEng e g).pkts = s.pkts := rfl
@[simp] theorem State.setEng_nextId (s : State) (e : Nat) (g : Eng) : (s.setEng e g).nextId = s.nextId := rfl
@[simp] theorem State.setEng_srcQ (s : State) (e : Nat) (g : Eng) : (s.setEng e g).srcQ = s.srcQ := rfl
@[simp] theorem State.setEng_parsed (s : State) (e : Nat) (g : Eng) : (s.setEng e g).parsed = s.parsed := rfl
@[simp] theorem State.setEng_lkps (s : State) (e : Nat) (g : Eng) : (s.setEng e g).lkps = s.lkps := rfl
@[simp] theorem State.setEng_srcChks (s : State) (e : Nat) (g : Eng) : (s.setEng e g).srcChks = s.srcChks := rfl
@[simp] theorem State.setEng_near (s : State) (e : Nat) (g : Eng) : (s.setEng e g).near = s.near := rfl
@[simp] theorem State.setEng_bufs (s : State) (e : Nat) (g : Eng) : (s.setEng e g).bufs = s.bufs := rfl
@[simp] theorem State.setEng_pools (s : State) (e : Nat) (g : Eng) : (s.setEng e g).pools = s.pools := rfl
@[simp] theorem State.setEng_accts (s : State) (e : Nat) (g : Eng) : (s.setEng e g).accts = s.accts := rfl
@[simp] theorem State.setEng_pfcSent (s : State) (e : Nat) (g : Eng) : (s.setEng e g).pfcSent = s.pfcSent := rfl
@[simp] theorem State.setEng_deepStk (s : State) (e : Nat) (g : Eng) : (s.setEng e g).deepStk = s.deepStk := rfl
@[simp] theorem State.setEng_deepNext (s : State) (e : Nat) (g : Eng) : (s.setEng e g).deepNext = s.deepNext := rfl
@[simp] theorem State.setEng_deepRefs (s : State) (e : Nat) (g : Eng) : (s.setEng e g).deepRefs = s.deepRefs := rfl
@[simp] theorem State.setEng_deepOpen (s : State) (e : Nat) (g : Eng) : (s.setEng e g).deepOpen = s.deepOpen := rfl
@[simp] theorem State.setEng_audSkip (s : State) (e : Nat) (g : Eng) : (s.setEng e g).audSkip = s.audSkip := rfl
@[simp] theorem State.setEng_voqIn (s : State) (e : Nat) (g : Eng) : (s.setEng e g).voqIn = s.voqIn := rfl
@[simp] theorem State.setEng_voqs (s : State) (e : Nat) (g : Eng) : (s.setEng e g).voqs = s.voqs := rfl
@[simp] theorem State.setEng_copies (s : State) (e : Nat) (g : Eng) : (s.setEng e g).copies = s.copies := rfl
@[simp] theorem State.setEng_conns (s : State) (e : Nat) (g : Eng) : (s.setEng e g).conns = s.conns := rfl
@[simp] theorem State.setEng_gp (s : State) (e : Nat) (g : Eng) : (s.setEng e g).gp = s.gp := rfl
@[simp] theorem State.setEng_ap (s : State) (e : Nat) (g : Eng) : (s.setEng e g).ap = s.ap := rfl
@[simp] theorem State.setEng_pp (s : State) (e : Nat) (g : Eng) : (s.setEng e g).pp = s.pp := rfl
@[simp] theorem State.setEng_round (s : State) (e : Nat) (g : Eng) : (s.setEng e g).round = s.round := rfl
@[simp] theorem State.setEng_cellT (s : State) (e : Nat) (g : Eng) : (s.setEng e g).cellT = s.cellT := rfl
@[simp] theorem State.setEng_txq (s : State) (e : Nat) (g : Eng) : (s.setEng e g).txq = s.txq := rfl
@[simp] theorem State.setEng_txs (s : State) (e : Nat) (g : Eng) : (s.setEng e g).txs = s.txs := rfl
@[simp] theorem State.setEng_creds (s : State) (e : Nat) (g : Eng) : (s.setEng e g).creds = s.creds := rfl
@[simp] theorem State.setEng_vts (s : State) (e : Nat) (g : Eng) : (s.setEng e g).vts = s.vts := rfl
@[simp] theorem State.setEng_wheel (s : State) (e : Nat) (g : Eng) : (s.setEng e g).wheel = s.wheel := rfl
@[simp] theorem State.setEng_ovf (s : State) (e : Nat) (g : Eng) : (s.setEng e g).ovf = s.ovf := rfl
@[simp] theorem State.setEng_slotNow (s : State) (e : Nat) (g : Eng) : (s.setEng e g).slotNow = s.slotNow := rfl
@[simp] theorem State.setEng_quanta (s : State) (e : Nat) (g : Eng) : (s.setEng e g).quanta = s.quanta := rfl
@[simp] theorem State.setEng_stamps (s : State) (e : Nat) (g : Eng) : (s.setEng e g).stamps = s.stamps := rfl
@[simp] theorem State.setEng_meters (s : State) (e : Nat) (g : Eng) : (s.setEng e g).meters = s.meters := rfl
@[simp] theorem State.setEng_cycBase (s : State) (e : Nat) (g : Eng) : (s.setEng e g).cycBase = s.cycBase := rfl
@[simp] theorem State.setEng_poison (s : State) (e : Nat) (g : Eng) : (s.setEng e g).poison = s.poison := rfl
@[simp] theorem State.setEng_hbmQ (s : State) (e : Nat) (g : Eng) : (s.setEng e g).hbmQ = s.hbmQ := rfl
@[simp] theorem State.setEng_hbmWait (s : State) (e : Nat) (g : Eng) : (s.setEng e g).hbmWait = s.hbmWait := rfl
@[simp] theorem State.setEng_hbmLast (s : State) (e : Nat) (g : Eng) : (s.setEng e g).hbmLast = s.hbmLast := rfl
@[simp] theorem State.setEng_refilled (s : State) (e : Nat) (g : Eng) : (s.setEng e g).refilled = s.refilled := rfl
@[simp] theorem State.setEng_hbmFill (s : State) (e : Nat) (g : Eng) : (s.setEng e g).hbmFill = s.hbmFill := rfl
@[simp] theorem State.setEng_rasLog (s : State) (e : Nat) (g : Eng) : (s.setEng e g).rasLog = s.rasLog := rfl
@[simp] theorem State.setEng_vecOpen (s : State) (e : Nat) (g : Eng) : (s.setEng e g).vecOpen = s.vecOpen := rfl
@[simp] theorem State.setEng_vecPend (s : State) (e : Nat) (g : Eng) : (s.setEng e g).vecPend = s.vecPend := rfl
@[simp] theorem State.setEng_vecMsg (s : State) (e : Nat) (g : Eng) : (s.setEng e g).vecMsg = s.vecMsg := rfl
@[simp] theorem State.setEng_going (s : State) (e : Nat) (g : Eng) : (s.setEng e g).going = s.going := rfl
@[simp] theorem State.setEng_goCommit (s : State) (e : Nat) (g : Eng) : (s.setEng e g).goCommit = s.goCommit := rfl
@[simp] theorem State.setEng_linkReps (s : State) (e : Nat) (g : Eng) : (s.setEng e g).linkReps = s.linkReps := rfl
@[simp] theorem State.setEng_wakePend (s : State) (e : Nat) (g : Eng) : (s.setEng e g).wakePend = s.wakePend := rfl
@[simp] theorem State.setEng_replay (s : State) (e : Nat) (g : Eng) : (s.setEng e g).replay = s.replay := rfl
@[simp] theorem State.setEng_hold (s : State) (e : Nat) (g : Eng) : (s.setEng e g).hold = s.hold := rfl
@[simp] theorem State.setEng_dbHeld (s : State) (e : Nat) (g : Eng) : (s.setEng e g).dbHeld = s.dbHeld := rfl
@[simp] theorem State.setEng_wdogAt (s : State) (e : Nat) (g : Eng) : (s.setEng e g).wdogAt = s.wdogAt := rfl
@[simp] theorem State.setEng_ueAt (s : State) (e : Nat) (g : Eng) : (s.setEng e g).ueAt = s.ueAt := rfl
@[simp] theorem State.setEng_rtDue (s : State) (e : Nat) (g : Eng) : (s.setEng e g).rtDue = s.rtDue := rfl
@[simp] theorem State.setEng_rtFails (s : State) (e : Nat) (g : Eng) : (s.setEng e g).rtFails = s.rtFails := rfl
@[simp] theorem State.setEng_withdrawn (s : State) (e : Nat) (g : Eng) : (s.setEng e g).withdrawn = s.withdrawn := rfl
@[simp] theorem State.setEng_pins (s : State) (e : Nat) (g : Eng) : (s.setEng e g).pins = s.pins := rfl
@[simp] theorem State.setEng_fuses (s : State) (e : Nat) (g : Eng) : (s.setEng e g).fuses = s.fuses := rfl
@[simp] theorem State.setEng_flash (s : State) (e : Nat) (g : Eng) : (s.setEng e g).flash = s.flash := rfl
@[simp] theorem State.setEng_mrs (s : State) (e : Nat) (g : Eng) : (s.setEng e g).mrs = s.mrs := rfl
@[simp] theorem State.setEng_progs (s : State) (e : Nat) (g : Eng) : (s.setEng e g).progs = s.progs := rfl
@[simp] theorem State.setEng_em (s : State) (e : Nat) (g : Eng) : (s.setEng e g).em = s.em := rfl
@[simp] theorem State.setEng_tcr (s : State) (e : Nat) (g : Eng) : (s.setEng e g).tcr = s.tcr := rfl
@[simp] theorem State.setEng_commitPend (s : State) (e : Nat) (g : Eng) : (s.setEng e g).commitPend = s.commitPend := rfl
@[simp] theorem State.setEng_mrMoves (s : State) (e : Nat) (g : Eng) : (s.setEng e g).mrMoves = s.mrMoves := rfl
@[simp] theorem State.setEng_mrIns (s : State) (e : Nat) (g : Eng) : (s.setEng e g).mrIns = s.mrIns := rfl
@[simp] theorem State.setEng_bcache (s : State) (e : Nat) (g : Eng) : (s.setEng e g).bcache = s.bcache := rfl
@[simp] theorem State.setEng_emBad (s : State) (e : Nat) (g : Eng) : (s.setEng e g).emBad = s.emBad := rfl
@[simp] theorem State.setEng_tcBad (s : State) (e : Nat) (g : Eng) : (s.setEng e g).tcBad = s.tcBad := rfl
@[simp] theorem State.setEng_ctrs (s : State) (e : Nat) (g : Eng) : (s.setEng e g).ctrs = s.ctrs := rfl
@[simp] theorem State.setEng_dirty (s : State) (e : Nat) (g : Eng) : (s.setEng e g).dirty = s.dirty := rfl
@[simp] theorem State.setEng_learnQ (s : State) (e : Nat) (g : Eng) : (s.setEng e g).learnQ = s.learnQ := rfl
@[simp] theorem State.setEng_lrnIn (s : State) (e : Nat) (g : Eng) : (s.setEng e g).lrnIn = s.lrnIn := rfl
@[simp] theorem State.setEng_lrnRecs (s : State) (e : Nat) (g : Eng) : (s.setEng e g).lrnRecs = s.lrnRecs := rfl
@[simp] theorem State.setEng_lrnOpen (s : State) (e : Nat) (g : Eng) : (s.setEng e g).lrnOpen = s.lrnOpen := rfl
@[simp] theorem State.setEng_peers (s : State) (e : Nat) (g : Eng) : (s.setEng e g).peers = s.peers := rfl
@[simp] theorem State.setEng_damps (s : State) (e : Nat) (g : Eng) : (s.setEng e g).damps = s.damps := rfl
@[simp] theorem State.setEng_rfAt (s : State) (e : Nat) (g : Eng) : (s.setEng e g).rfAt = s.rfAt := rfl
@[simp] theorem State.setEng_lrnPos (s : State) (e : Nat) (g : Eng) : (s.setEng e g).lrnPos = s.lrnPos := rfl
@[simp] theorem State.setEng_dumpPos (s : State) (e : Nat) (g : Eng) : (s.setEng e g).dumpPos = s.dumpPos := rfl
@[simp] theorem State.setEng_vfEn (s : State) (e : Nat) (g : Eng) : (s.setEng e g).vfEn = s.vfEn := rfl
@[simp] theorem State.setEng_instRes (s : State) (e : Nat) (g : Eng) : (s.setEng e g).instRes = s.instRes := rfl
@[simp] theorem State.setEng_instStg (s : State) (e : Nat) (g : Eng) : (s.setEng e g).instStg = s.instStg := rfl
@[simp] theorem State.setEng_rstHeld (s : State) (e : Nat) (g : Eng) : (s.setEng e g).rstHeld = s.rstHeld := rfl
@[simp] theorem State.setEng_dmas (s : State) (e : Nat) (g : Eng) : (s.setEng e g).dmas = s.dmas := rfl
@[simp] theorem State.setEng_dmaQ (s : State) (e : Nat) (g : Eng) : (s.setEng e g).dmaQ = s.dmaQ := rfl
@[simp] theorem State.setEng_rings (s : State) (e : Nat) (g : Eng) : (s.setEng e g).rings = s.rings := rfl
@[simp] theorem State.setEng_cfgReady (s : State) (e : Nat) (g : Eng) : (s.setEng e g).cfgReady = s.cfgReady := rfl
@[simp] theorem State.setEng_fumEntry (s : State) (e : Nat) (g : Eng) : (s.setEng e g).fumEntry = s.fumEntry := rfl
@[simp] theorem State.setEng_bootSvn (s : State) (e : Nat) (g : Eng) : (s.setEng e g).bootSvn = s.bootSvn := rfl
@[simp] theorem State.setEng_mbx (s : State) (e : Nat) (g : Eng) : (s.setEng e g).mbx = s.mbx := rfl
@[simp] theorem State.setEng_bsr (s : State) (e : Nat) (g : Eng) : (s.setEng e g).bsr = s.bsr := rfl
@[simp] theorem State.setEng_released (s : State) (e : Nat) (g : Eng) : (s.setEng e g).released = s.released := rfl

/-! ### State.setTask -/

@[simp] theorem State.setTask_pending (s : State) (k : Nat) (t : Tce) : (s.setTask k t).pending = s.pending := rfl
@[simp] theorem State.setTask_clk (s : State) (k : Nat) (t : Tce) : (s.setTask k t).clk = s.clk := rfl
@[simp] theorem State.setTask_freeCtr (s : State) (k : Nat) (t : Tce) : (s.setTask k t).freeCtr = s.freeCtr := rfl
@[simp] theorem State.setTask_holdEnd (s : State) (k : Nat) (t : Tce) : (s.setTask k t).holdEnd = s.holdEnd := rfl
@[simp] theorem State.setTask_regs (s : State) (k : Nat) (t : Tce) : (s.setTask k t).regs = s.regs := rfl
@[simp] theorem State.setTask_latches (s : State) (k : Nat) (t : Tce) : (s.setTask k t).latches = s.latches := rfl
@[simp] theorem State.setTask_rdata (s : State) (k : Nat) (t : Tce) : (s.setTask k t).rdata = s.rdata := rfl
@[simp] theorem State.setTask_doneAt (s : State) (k : Nat) (t : Tce) : (s.setTask k t).doneAt = s.doneAt := rfl
@[simp] theorem State.setTask_outs (s : State) (k : Nat) (t : Tce) : (s.setTask k t).outs = s.outs := rfl
@[simp] theorem State.setTask_time (s : State) (k : Nat) (t : Tce) : (s.setTask k t).time = s.time := rfl
@[simp] theorem State.setTask_thrs (s : State) (k : Nat) (t : Tce) : (s.setTask k t).thrs = s.thrs := rfl
@[simp] theorem State.setTask_engs (s : State) (k : Nat) (t : Tce) : (s.setTask k t).engs = s.engs := rfl
@[simp] theorem State.setTask_ready (s : State) (k : Nat) (t : Tce) : (s.setTask k t).ready = s.ready := rfl
@[simp] theorem State.setTask_delays (s : State) (k : Nat) (t : Tce) : (s.setTask k t).delays = s.delays := rfl
@[simp] theorem State.setTask_tmouts (s : State) (k : Nat) (t : Tce) : (s.setTask k t).tmouts = s.tmouts := rfl
@[simp] theorem State.setTask_locks (s : State) (k : Nat) (t : Tce) : (s.setTask k t).locks = s.locks := rfl
@[simp] theorem State.setTask_tephra (s : State) (k : Nat) (t : Tce) : (s.setTask k t).tephra = s.tephra := rfl
@[simp] theorem State.setTask_mem (s : State) (k : Nat) (t : Tce) : (s.setTask k t).mem = s.mem := rfl
@[simp] theorem State.setTask_coreWakes (s : State) (k : Nat) (t : Tce) : (s.setTask k t).coreWakes = s.coreWakes := rfl
@[simp] theorem State.setTask_pkts (s : State) (k : Nat) (t : Tce) : (s.setTask k t).pkts = s.pkts := rfl
@[simp] theorem State.setTask_nextId (s : State) (k : Nat) (t : Tce) : (s.setTask k t).nextId = s.nextId := rfl
@[simp] theorem State.setTask_srcQ (s : State) (k : Nat) (t : Tce) : (s.setTask k t).srcQ = s.srcQ := rfl
@[simp] theorem State.setTask_parsed (s : State) (k : Nat) (t : Tce) : (s.setTask k t).parsed = s.parsed := rfl
@[simp] theorem State.setTask_lkps (s : State) (k : Nat) (t : Tce) : (s.setTask k t).lkps = s.lkps := rfl
@[simp] theorem State.setTask_srcChks (s : State) (k : Nat) (t : Tce) : (s.setTask k t).srcChks = s.srcChks := rfl
@[simp] theorem State.setTask_near (s : State) (k : Nat) (t : Tce) : (s.setTask k t).near = s.near := rfl
@[simp] theorem State.setTask_bufs (s : State) (k : Nat) (t : Tce) : (s.setTask k t).bufs = s.bufs := rfl
@[simp] theorem State.setTask_pools (s : State) (k : Nat) (t : Tce) : (s.setTask k t).pools = s.pools := rfl
@[simp] theorem State.setTask_accts (s : State) (k : Nat) (t : Tce) : (s.setTask k t).accts = s.accts := rfl
@[simp] theorem State.setTask_pfcSent (s : State) (k : Nat) (t : Tce) : (s.setTask k t).pfcSent = s.pfcSent := rfl
@[simp] theorem State.setTask_deepStk (s : State) (k : Nat) (t : Tce) : (s.setTask k t).deepStk = s.deepStk := rfl
@[simp] theorem State.setTask_deepNext (s : State) (k : Nat) (t : Tce) : (s.setTask k t).deepNext = s.deepNext := rfl
@[simp] theorem State.setTask_deepRefs (s : State) (k : Nat) (t : Tce) : (s.setTask k t).deepRefs = s.deepRefs := rfl
@[simp] theorem State.setTask_deepOpen (s : State) (k : Nat) (t : Tce) : (s.setTask k t).deepOpen = s.deepOpen := rfl
@[simp] theorem State.setTask_audSkip (s : State) (k : Nat) (t : Tce) : (s.setTask k t).audSkip = s.audSkip := rfl
@[simp] theorem State.setTask_voqIn (s : State) (k : Nat) (t : Tce) : (s.setTask k t).voqIn = s.voqIn := rfl
@[simp] theorem State.setTask_voqs (s : State) (k : Nat) (t : Tce) : (s.setTask k t).voqs = s.voqs := rfl
@[simp] theorem State.setTask_copies (s : State) (k : Nat) (t : Tce) : (s.setTask k t).copies = s.copies := rfl
@[simp] theorem State.setTask_conns (s : State) (k : Nat) (t : Tce) : (s.setTask k t).conns = s.conns := rfl
@[simp] theorem State.setTask_gp (s : State) (k : Nat) (t : Tce) : (s.setTask k t).gp = s.gp := rfl
@[simp] theorem State.setTask_ap (s : State) (k : Nat) (t : Tce) : (s.setTask k t).ap = s.ap := rfl
@[simp] theorem State.setTask_pp (s : State) (k : Nat) (t : Tce) : (s.setTask k t).pp = s.pp := rfl
@[simp] theorem State.setTask_round (s : State) (k : Nat) (t : Tce) : (s.setTask k t).round = s.round := rfl
@[simp] theorem State.setTask_cellT (s : State) (k : Nat) (t : Tce) : (s.setTask k t).cellT = s.cellT := rfl
@[simp] theorem State.setTask_txq (s : State) (k : Nat) (t : Tce) : (s.setTask k t).txq = s.txq := rfl
@[simp] theorem State.setTask_txs (s : State) (k : Nat) (t : Tce) : (s.setTask k t).txs = s.txs := rfl
@[simp] theorem State.setTask_creds (s : State) (k : Nat) (t : Tce) : (s.setTask k t).creds = s.creds := rfl
@[simp] theorem State.setTask_vts (s : State) (k : Nat) (t : Tce) : (s.setTask k t).vts = s.vts := rfl
@[simp] theorem State.setTask_wheel (s : State) (k : Nat) (t : Tce) : (s.setTask k t).wheel = s.wheel := rfl
@[simp] theorem State.setTask_ovf (s : State) (k : Nat) (t : Tce) : (s.setTask k t).ovf = s.ovf := rfl
@[simp] theorem State.setTask_slotNow (s : State) (k : Nat) (t : Tce) : (s.setTask k t).slotNow = s.slotNow := rfl
@[simp] theorem State.setTask_quanta (s : State) (k : Nat) (t : Tce) : (s.setTask k t).quanta = s.quanta := rfl
@[simp] theorem State.setTask_stamps (s : State) (k : Nat) (t : Tce) : (s.setTask k t).stamps = s.stamps := rfl
@[simp] theorem State.setTask_meters (s : State) (k : Nat) (t : Tce) : (s.setTask k t).meters = s.meters := rfl
@[simp] theorem State.setTask_cycBase (s : State) (k : Nat) (t : Tce) : (s.setTask k t).cycBase = s.cycBase := rfl
@[simp] theorem State.setTask_poison (s : State) (k : Nat) (t : Tce) : (s.setTask k t).poison = s.poison := rfl
@[simp] theorem State.setTask_hbmQ (s : State) (k : Nat) (t : Tce) : (s.setTask k t).hbmQ = s.hbmQ := rfl
@[simp] theorem State.setTask_hbmWait (s : State) (k : Nat) (t : Tce) : (s.setTask k t).hbmWait = s.hbmWait := rfl
@[simp] theorem State.setTask_hbmLast (s : State) (k : Nat) (t : Tce) : (s.setTask k t).hbmLast = s.hbmLast := rfl
@[simp] theorem State.setTask_refilled (s : State) (k : Nat) (t : Tce) : (s.setTask k t).refilled = s.refilled := rfl
@[simp] theorem State.setTask_hbmFill (s : State) (k : Nat) (t : Tce) : (s.setTask k t).hbmFill = s.hbmFill := rfl
@[simp] theorem State.setTask_rasLog (s : State) (k : Nat) (t : Tce) : (s.setTask k t).rasLog = s.rasLog := rfl
@[simp] theorem State.setTask_vecOpen (s : State) (k : Nat) (t : Tce) : (s.setTask k t).vecOpen = s.vecOpen := rfl
@[simp] theorem State.setTask_vecPend (s : State) (k : Nat) (t : Tce) : (s.setTask k t).vecPend = s.vecPend := rfl
@[simp] theorem State.setTask_vecMsg (s : State) (k : Nat) (t : Tce) : (s.setTask k t).vecMsg = s.vecMsg := rfl
@[simp] theorem State.setTask_going (s : State) (k : Nat) (t : Tce) : (s.setTask k t).going = s.going := rfl
@[simp] theorem State.setTask_goCommit (s : State) (k : Nat) (t : Tce) : (s.setTask k t).goCommit = s.goCommit := rfl
@[simp] theorem State.setTask_linkReps (s : State) (k : Nat) (t : Tce) : (s.setTask k t).linkReps = s.linkReps := rfl
@[simp] theorem State.setTask_wakePend (s : State) (k : Nat) (t : Tce) : (s.setTask k t).wakePend = s.wakePend := rfl
@[simp] theorem State.setTask_replay (s : State) (k : Nat) (t : Tce) : (s.setTask k t).replay = s.replay := rfl
@[simp] theorem State.setTask_hold (s : State) (k : Nat) (t : Tce) : (s.setTask k t).hold = s.hold := rfl
@[simp] theorem State.setTask_dbHeld (s : State) (k : Nat) (t : Tce) : (s.setTask k t).dbHeld = s.dbHeld := rfl
@[simp] theorem State.setTask_wdogAt (s : State) (k : Nat) (t : Tce) : (s.setTask k t).wdogAt = s.wdogAt := rfl
@[simp] theorem State.setTask_ueAt (s : State) (k : Nat) (t : Tce) : (s.setTask k t).ueAt = s.ueAt := rfl
@[simp] theorem State.setTask_rtDue (s : State) (k : Nat) (t : Tce) : (s.setTask k t).rtDue = s.rtDue := rfl
@[simp] theorem State.setTask_rtFails (s : State) (k : Nat) (t : Tce) : (s.setTask k t).rtFails = s.rtFails := rfl
@[simp] theorem State.setTask_withdrawn (s : State) (k : Nat) (t : Tce) : (s.setTask k t).withdrawn = s.withdrawn := rfl
@[simp] theorem State.setTask_pins (s : State) (k : Nat) (t : Tce) : (s.setTask k t).pins = s.pins := rfl
@[simp] theorem State.setTask_fuses (s : State) (k : Nat) (t : Tce) : (s.setTask k t).fuses = s.fuses := rfl
@[simp] theorem State.setTask_flash (s : State) (k : Nat) (t : Tce) : (s.setTask k t).flash = s.flash := rfl
@[simp] theorem State.setTask_mrs (s : State) (k : Nat) (t : Tce) : (s.setTask k t).mrs = s.mrs := rfl
@[simp] theorem State.setTask_progs (s : State) (k : Nat) (t : Tce) : (s.setTask k t).progs = s.progs := rfl
@[simp] theorem State.setTask_em (s : State) (k : Nat) (t : Tce) : (s.setTask k t).em = s.em := rfl
@[simp] theorem State.setTask_tcr (s : State) (k : Nat) (t : Tce) : (s.setTask k t).tcr = s.tcr := rfl
@[simp] theorem State.setTask_commitPend (s : State) (k : Nat) (t : Tce) : (s.setTask k t).commitPend = s.commitPend := rfl
@[simp] theorem State.setTask_mrMoves (s : State) (k : Nat) (t : Tce) : (s.setTask k t).mrMoves = s.mrMoves := rfl
@[simp] theorem State.setTask_mrIns (s : State) (k : Nat) (t : Tce) : (s.setTask k t).mrIns = s.mrIns := rfl
@[simp] theorem State.setTask_bcache (s : State) (k : Nat) (t : Tce) : (s.setTask k t).bcache = s.bcache := rfl
@[simp] theorem State.setTask_emBad (s : State) (k : Nat) (t : Tce) : (s.setTask k t).emBad = s.emBad := rfl
@[simp] theorem State.setTask_tcBad (s : State) (k : Nat) (t : Tce) : (s.setTask k t).tcBad = s.tcBad := rfl
@[simp] theorem State.setTask_ctrs (s : State) (k : Nat) (t : Tce) : (s.setTask k t).ctrs = s.ctrs := rfl
@[simp] theorem State.setTask_dirty (s : State) (k : Nat) (t : Tce) : (s.setTask k t).dirty = s.dirty := rfl
@[simp] theorem State.setTask_learnQ (s : State) (k : Nat) (t : Tce) : (s.setTask k t).learnQ = s.learnQ := rfl
@[simp] theorem State.setTask_lrnIn (s : State) (k : Nat) (t : Tce) : (s.setTask k t).lrnIn = s.lrnIn := rfl
@[simp] theorem State.setTask_lrnRecs (s : State) (k : Nat) (t : Tce) : (s.setTask k t).lrnRecs = s.lrnRecs := rfl
@[simp] theorem State.setTask_lrnOpen (s : State) (k : Nat) (t : Tce) : (s.setTask k t).lrnOpen = s.lrnOpen := rfl
@[simp] theorem State.setTask_peers (s : State) (k : Nat) (t : Tce) : (s.setTask k t).peers = s.peers := rfl
@[simp] theorem State.setTask_damps (s : State) (k : Nat) (t : Tce) : (s.setTask k t).damps = s.damps := rfl
@[simp] theorem State.setTask_rfAt (s : State) (k : Nat) (t : Tce) : (s.setTask k t).rfAt = s.rfAt := rfl
@[simp] theorem State.setTask_lrnPos (s : State) (k : Nat) (t : Tce) : (s.setTask k t).lrnPos = s.lrnPos := rfl
@[simp] theorem State.setTask_dumpPos (s : State) (k : Nat) (t : Tce) : (s.setTask k t).dumpPos = s.dumpPos := rfl
@[simp] theorem State.setTask_vfEn (s : State) (k : Nat) (t : Tce) : (s.setTask k t).vfEn = s.vfEn := rfl
@[simp] theorem State.setTask_instRes (s : State) (k : Nat) (t : Tce) : (s.setTask k t).instRes = s.instRes := rfl
@[simp] theorem State.setTask_instStg (s : State) (k : Nat) (t : Tce) : (s.setTask k t).instStg = s.instStg := rfl
@[simp] theorem State.setTask_rstHeld (s : State) (k : Nat) (t : Tce) : (s.setTask k t).rstHeld = s.rstHeld := rfl
@[simp] theorem State.setTask_dmas (s : State) (k : Nat) (t : Tce) : (s.setTask k t).dmas = s.dmas := rfl
@[simp] theorem State.setTask_dmaQ (s : State) (k : Nat) (t : Tce) : (s.setTask k t).dmaQ = s.dmaQ := rfl
@[simp] theorem State.setTask_rings (s : State) (k : Nat) (t : Tce) : (s.setTask k t).rings = s.rings := rfl
@[simp] theorem State.setTask_cfgReady (s : State) (k : Nat) (t : Tce) : (s.setTask k t).cfgReady = s.cfgReady := rfl
@[simp] theorem State.setTask_fumEntry (s : State) (k : Nat) (t : Tce) : (s.setTask k t).fumEntry = s.fumEntry := rfl
@[simp] theorem State.setTask_bootSvn (s : State) (k : Nat) (t : Tce) : (s.setTask k t).bootSvn = s.bootSvn := rfl
@[simp] theorem State.setTask_mbx (s : State) (k : Nat) (t : Tce) : (s.setTask k t).mbx = s.mbx := rfl
@[simp] theorem State.setTask_bsr (s : State) (k : Nat) (t : Tce) : (s.setTask k t).bsr = s.bsr := rfl
@[simp] theorem State.setTask_released (s : State) (k : Nat) (t : Tce) : (s.setTask k t).released = s.released := rfl

/-! ### State.setPkt -/

@[simp] theorem State.setPkt_pending (s : State) (k : Nat) (q : Pkt) : (s.setPkt k q).pending = s.pending := rfl
@[simp] theorem State.setPkt_clk (s : State) (k : Nat) (q : Pkt) : (s.setPkt k q).clk = s.clk := rfl
@[simp] theorem State.setPkt_freeCtr (s : State) (k : Nat) (q : Pkt) : (s.setPkt k q).freeCtr = s.freeCtr := rfl
@[simp] theorem State.setPkt_holdEnd (s : State) (k : Nat) (q : Pkt) : (s.setPkt k q).holdEnd = s.holdEnd := rfl
@[simp] theorem State.setPkt_regs (s : State) (k : Nat) (q : Pkt) : (s.setPkt k q).regs = s.regs := rfl
@[simp] theorem State.setPkt_latches (s : State) (k : Nat) (q : Pkt) : (s.setPkt k q).latches = s.latches := rfl
@[simp] theorem State.setPkt_rdata (s : State) (k : Nat) (q : Pkt) : (s.setPkt k q).rdata = s.rdata := rfl
@[simp] theorem State.setPkt_doneAt (s : State) (k : Nat) (q : Pkt) : (s.setPkt k q).doneAt = s.doneAt := rfl
@[simp] theorem State.setPkt_outs (s : State) (k : Nat) (q : Pkt) : (s.setPkt k q).outs = s.outs := rfl
@[simp] theorem State.setPkt_time (s : State) (k : Nat) (q : Pkt) : (s.setPkt k q).time = s.time := rfl
@[simp] theorem State.setPkt_thrs (s : State) (k : Nat) (q : Pkt) : (s.setPkt k q).thrs = s.thrs := rfl
@[simp] theorem State.setPkt_engs (s : State) (k : Nat) (q : Pkt) : (s.setPkt k q).engs = s.engs := rfl
@[simp] theorem State.setPkt_tasks (s : State) (k : Nat) (q : Pkt) : (s.setPkt k q).tasks = s.tasks := rfl
@[simp] theorem State.setPkt_ready (s : State) (k : Nat) (q : Pkt) : (s.setPkt k q).ready = s.ready := rfl
@[simp] theorem State.setPkt_delays (s : State) (k : Nat) (q : Pkt) : (s.setPkt k q).delays = s.delays := rfl
@[simp] theorem State.setPkt_tmouts (s : State) (k : Nat) (q : Pkt) : (s.setPkt k q).tmouts = s.tmouts := rfl
@[simp] theorem State.setPkt_locks (s : State) (k : Nat) (q : Pkt) : (s.setPkt k q).locks = s.locks := rfl
@[simp] theorem State.setPkt_tephra (s : State) (k : Nat) (q : Pkt) : (s.setPkt k q).tephra = s.tephra := rfl
@[simp] theorem State.setPkt_mem (s : State) (k : Nat) (q : Pkt) : (s.setPkt k q).mem = s.mem := rfl
@[simp] theorem State.setPkt_coreWakes (s : State) (k : Nat) (q : Pkt) : (s.setPkt k q).coreWakes = s.coreWakes := rfl
@[simp] theorem State.setPkt_nextId (s : State) (k : Nat) (q : Pkt) : (s.setPkt k q).nextId = s.nextId := rfl
@[simp] theorem State.setPkt_srcQ (s : State) (k : Nat) (q : Pkt) : (s.setPkt k q).srcQ = s.srcQ := rfl
@[simp] theorem State.setPkt_parsed (s : State) (k : Nat) (q : Pkt) : (s.setPkt k q).parsed = s.parsed := rfl
@[simp] theorem State.setPkt_lkps (s : State) (k : Nat) (q : Pkt) : (s.setPkt k q).lkps = s.lkps := rfl
@[simp] theorem State.setPkt_srcChks (s : State) (k : Nat) (q : Pkt) : (s.setPkt k q).srcChks = s.srcChks := rfl
@[simp] theorem State.setPkt_near (s : State) (k : Nat) (q : Pkt) : (s.setPkt k q).near = s.near := rfl
@[simp] theorem State.setPkt_bufs (s : State) (k : Nat) (q : Pkt) : (s.setPkt k q).bufs = s.bufs := rfl
@[simp] theorem State.setPkt_pools (s : State) (k : Nat) (q : Pkt) : (s.setPkt k q).pools = s.pools := rfl
@[simp] theorem State.setPkt_accts (s : State) (k : Nat) (q : Pkt) : (s.setPkt k q).accts = s.accts := rfl
@[simp] theorem State.setPkt_pfcSent (s : State) (k : Nat) (q : Pkt) : (s.setPkt k q).pfcSent = s.pfcSent := rfl
@[simp] theorem State.setPkt_deepStk (s : State) (k : Nat) (q : Pkt) : (s.setPkt k q).deepStk = s.deepStk := rfl
@[simp] theorem State.setPkt_deepNext (s : State) (k : Nat) (q : Pkt) : (s.setPkt k q).deepNext = s.deepNext := rfl
@[simp] theorem State.setPkt_deepRefs (s : State) (k : Nat) (q : Pkt) : (s.setPkt k q).deepRefs = s.deepRefs := rfl
@[simp] theorem State.setPkt_deepOpen (s : State) (k : Nat) (q : Pkt) : (s.setPkt k q).deepOpen = s.deepOpen := rfl
@[simp] theorem State.setPkt_audSkip (s : State) (k : Nat) (q : Pkt) : (s.setPkt k q).audSkip = s.audSkip := rfl
@[simp] theorem State.setPkt_voqIn (s : State) (k : Nat) (q : Pkt) : (s.setPkt k q).voqIn = s.voqIn := rfl
@[simp] theorem State.setPkt_voqs (s : State) (k : Nat) (q : Pkt) : (s.setPkt k q).voqs = s.voqs := rfl
@[simp] theorem State.setPkt_copies (s : State) (k : Nat) (q : Pkt) : (s.setPkt k q).copies = s.copies := rfl
@[simp] theorem State.setPkt_conns (s : State) (k : Nat) (q : Pkt) : (s.setPkt k q).conns = s.conns := rfl
@[simp] theorem State.setPkt_gp (s : State) (k : Nat) (q : Pkt) : (s.setPkt k q).gp = s.gp := rfl
@[simp] theorem State.setPkt_ap (s : State) (k : Nat) (q : Pkt) : (s.setPkt k q).ap = s.ap := rfl
@[simp] theorem State.setPkt_pp (s : State) (k : Nat) (q : Pkt) : (s.setPkt k q).pp = s.pp := rfl
@[simp] theorem State.setPkt_round (s : State) (k : Nat) (q : Pkt) : (s.setPkt k q).round = s.round := rfl
@[simp] theorem State.setPkt_cellT (s : State) (k : Nat) (q : Pkt) : (s.setPkt k q).cellT = s.cellT := rfl
@[simp] theorem State.setPkt_txq (s : State) (k : Nat) (q : Pkt) : (s.setPkt k q).txq = s.txq := rfl
@[simp] theorem State.setPkt_txs (s : State) (k : Nat) (q : Pkt) : (s.setPkt k q).txs = s.txs := rfl
@[simp] theorem State.setPkt_creds (s : State) (k : Nat) (q : Pkt) : (s.setPkt k q).creds = s.creds := rfl
@[simp] theorem State.setPkt_vts (s : State) (k : Nat) (q : Pkt) : (s.setPkt k q).vts = s.vts := rfl
@[simp] theorem State.setPkt_wheel (s : State) (k : Nat) (q : Pkt) : (s.setPkt k q).wheel = s.wheel := rfl
@[simp] theorem State.setPkt_ovf (s : State) (k : Nat) (q : Pkt) : (s.setPkt k q).ovf = s.ovf := rfl
@[simp] theorem State.setPkt_slotNow (s : State) (k : Nat) (q : Pkt) : (s.setPkt k q).slotNow = s.slotNow := rfl
@[simp] theorem State.setPkt_quanta (s : State) (k : Nat) (q : Pkt) : (s.setPkt k q).quanta = s.quanta := rfl
@[simp] theorem State.setPkt_stamps (s : State) (k : Nat) (q : Pkt) : (s.setPkt k q).stamps = s.stamps := rfl
@[simp] theorem State.setPkt_meters (s : State) (k : Nat) (q : Pkt) : (s.setPkt k q).meters = s.meters := rfl
@[simp] theorem State.setPkt_cycBase (s : State) (k : Nat) (q : Pkt) : (s.setPkt k q).cycBase = s.cycBase := rfl
@[simp] theorem State.setPkt_poison (s : State) (k : Nat) (q : Pkt) : (s.setPkt k q).poison = s.poison := rfl
@[simp] theorem State.setPkt_hbmQ (s : State) (k : Nat) (q : Pkt) : (s.setPkt k q).hbmQ = s.hbmQ := rfl
@[simp] theorem State.setPkt_hbmWait (s : State) (k : Nat) (q : Pkt) : (s.setPkt k q).hbmWait = s.hbmWait := rfl
@[simp] theorem State.setPkt_hbmLast (s : State) (k : Nat) (q : Pkt) : (s.setPkt k q).hbmLast = s.hbmLast := rfl
@[simp] theorem State.setPkt_refilled (s : State) (k : Nat) (q : Pkt) : (s.setPkt k q).refilled = s.refilled := rfl
@[simp] theorem State.setPkt_hbmFill (s : State) (k : Nat) (q : Pkt) : (s.setPkt k q).hbmFill = s.hbmFill := rfl
@[simp] theorem State.setPkt_rasLog (s : State) (k : Nat) (q : Pkt) : (s.setPkt k q).rasLog = s.rasLog := rfl
@[simp] theorem State.setPkt_vecOpen (s : State) (k : Nat) (q : Pkt) : (s.setPkt k q).vecOpen = s.vecOpen := rfl
@[simp] theorem State.setPkt_vecPend (s : State) (k : Nat) (q : Pkt) : (s.setPkt k q).vecPend = s.vecPend := rfl
@[simp] theorem State.setPkt_vecMsg (s : State) (k : Nat) (q : Pkt) : (s.setPkt k q).vecMsg = s.vecMsg := rfl
@[simp] theorem State.setPkt_going (s : State) (k : Nat) (q : Pkt) : (s.setPkt k q).going = s.going := rfl
@[simp] theorem State.setPkt_goCommit (s : State) (k : Nat) (q : Pkt) : (s.setPkt k q).goCommit = s.goCommit := rfl
@[simp] theorem State.setPkt_linkReps (s : State) (k : Nat) (q : Pkt) : (s.setPkt k q).linkReps = s.linkReps := rfl
@[simp] theorem State.setPkt_wakePend (s : State) (k : Nat) (q : Pkt) : (s.setPkt k q).wakePend = s.wakePend := rfl
@[simp] theorem State.setPkt_replay (s : State) (k : Nat) (q : Pkt) : (s.setPkt k q).replay = s.replay := rfl
@[simp] theorem State.setPkt_hold (s : State) (k : Nat) (q : Pkt) : (s.setPkt k q).hold = s.hold := rfl
@[simp] theorem State.setPkt_dbHeld (s : State) (k : Nat) (q : Pkt) : (s.setPkt k q).dbHeld = s.dbHeld := rfl
@[simp] theorem State.setPkt_wdogAt (s : State) (k : Nat) (q : Pkt) : (s.setPkt k q).wdogAt = s.wdogAt := rfl
@[simp] theorem State.setPkt_ueAt (s : State) (k : Nat) (q : Pkt) : (s.setPkt k q).ueAt = s.ueAt := rfl
@[simp] theorem State.setPkt_rtDue (s : State) (k : Nat) (q : Pkt) : (s.setPkt k q).rtDue = s.rtDue := rfl
@[simp] theorem State.setPkt_rtFails (s : State) (k : Nat) (q : Pkt) : (s.setPkt k q).rtFails = s.rtFails := rfl
@[simp] theorem State.setPkt_withdrawn (s : State) (k : Nat) (q : Pkt) : (s.setPkt k q).withdrawn = s.withdrawn := rfl
@[simp] theorem State.setPkt_pins (s : State) (k : Nat) (q : Pkt) : (s.setPkt k q).pins = s.pins := rfl
@[simp] theorem State.setPkt_fuses (s : State) (k : Nat) (q : Pkt) : (s.setPkt k q).fuses = s.fuses := rfl
@[simp] theorem State.setPkt_flash (s : State) (k : Nat) (q : Pkt) : (s.setPkt k q).flash = s.flash := rfl
@[simp] theorem State.setPkt_mrs (s : State) (k : Nat) (q : Pkt) : (s.setPkt k q).mrs = s.mrs := rfl
@[simp] theorem State.setPkt_progs (s : State) (k : Nat) (q : Pkt) : (s.setPkt k q).progs = s.progs := rfl
@[simp] theorem State.setPkt_em (s : State) (k : Nat) (q : Pkt) : (s.setPkt k q).em = s.em := rfl
@[simp] theorem State.setPkt_tcr (s : State) (k : Nat) (q : Pkt) : (s.setPkt k q).tcr = s.tcr := rfl
@[simp] theorem State.setPkt_commitPend (s : State) (k : Nat) (q : Pkt) : (s.setPkt k q).commitPend = s.commitPend := rfl
@[simp] theorem State.setPkt_mrMoves (s : State) (k : Nat) (q : Pkt) : (s.setPkt k q).mrMoves = s.mrMoves := rfl
@[simp] theorem State.setPkt_mrIns (s : State) (k : Nat) (q : Pkt) : (s.setPkt k q).mrIns = s.mrIns := rfl
@[simp] theorem State.setPkt_bcache (s : State) (k : Nat) (q : Pkt) : (s.setPkt k q).bcache = s.bcache := rfl
@[simp] theorem State.setPkt_emBad (s : State) (k : Nat) (q : Pkt) : (s.setPkt k q).emBad = s.emBad := rfl
@[simp] theorem State.setPkt_tcBad (s : State) (k : Nat) (q : Pkt) : (s.setPkt k q).tcBad = s.tcBad := rfl
@[simp] theorem State.setPkt_ctrs (s : State) (k : Nat) (q : Pkt) : (s.setPkt k q).ctrs = s.ctrs := rfl
@[simp] theorem State.setPkt_dirty (s : State) (k : Nat) (q : Pkt) : (s.setPkt k q).dirty = s.dirty := rfl
@[simp] theorem State.setPkt_learnQ (s : State) (k : Nat) (q : Pkt) : (s.setPkt k q).learnQ = s.learnQ := rfl
@[simp] theorem State.setPkt_lrnIn (s : State) (k : Nat) (q : Pkt) : (s.setPkt k q).lrnIn = s.lrnIn := rfl
@[simp] theorem State.setPkt_lrnRecs (s : State) (k : Nat) (q : Pkt) : (s.setPkt k q).lrnRecs = s.lrnRecs := rfl
@[simp] theorem State.setPkt_lrnOpen (s : State) (k : Nat) (q : Pkt) : (s.setPkt k q).lrnOpen = s.lrnOpen := rfl
@[simp] theorem State.setPkt_peers (s : State) (k : Nat) (q : Pkt) : (s.setPkt k q).peers = s.peers := rfl
@[simp] theorem State.setPkt_damps (s : State) (k : Nat) (q : Pkt) : (s.setPkt k q).damps = s.damps := rfl
@[simp] theorem State.setPkt_rfAt (s : State) (k : Nat) (q : Pkt) : (s.setPkt k q).rfAt = s.rfAt := rfl
@[simp] theorem State.setPkt_lrnPos (s : State) (k : Nat) (q : Pkt) : (s.setPkt k q).lrnPos = s.lrnPos := rfl
@[simp] theorem State.setPkt_dumpPos (s : State) (k : Nat) (q : Pkt) : (s.setPkt k q).dumpPos = s.dumpPos := rfl
@[simp] theorem State.setPkt_vfEn (s : State) (k : Nat) (q : Pkt) : (s.setPkt k q).vfEn = s.vfEn := rfl
@[simp] theorem State.setPkt_instRes (s : State) (k : Nat) (q : Pkt) : (s.setPkt k q).instRes = s.instRes := rfl
@[simp] theorem State.setPkt_instStg (s : State) (k : Nat) (q : Pkt) : (s.setPkt k q).instStg = s.instStg := rfl
@[simp] theorem State.setPkt_rstHeld (s : State) (k : Nat) (q : Pkt) : (s.setPkt k q).rstHeld = s.rstHeld := rfl
@[simp] theorem State.setPkt_dmas (s : State) (k : Nat) (q : Pkt) : (s.setPkt k q).dmas = s.dmas := rfl
@[simp] theorem State.setPkt_dmaQ (s : State) (k : Nat) (q : Pkt) : (s.setPkt k q).dmaQ = s.dmaQ := rfl
@[simp] theorem State.setPkt_rings (s : State) (k : Nat) (q : Pkt) : (s.setPkt k q).rings = s.rings := rfl
@[simp] theorem State.setPkt_cfgReady (s : State) (k : Nat) (q : Pkt) : (s.setPkt k q).cfgReady = s.cfgReady := rfl
@[simp] theorem State.setPkt_fumEntry (s : State) (k : Nat) (q : Pkt) : (s.setPkt k q).fumEntry = s.fumEntry := rfl
@[simp] theorem State.setPkt_bootSvn (s : State) (k : Nat) (q : Pkt) : (s.setPkt k q).bootSvn = s.bootSvn := rfl
@[simp] theorem State.setPkt_mbx (s : State) (k : Nat) (q : Pkt) : (s.setPkt k q).mbx = s.mbx := rfl
@[simp] theorem State.setPkt_bsr (s : State) (k : Nat) (q : Pkt) : (s.setPkt k q).bsr = s.bsr := rfl
@[simp] theorem State.setPkt_released (s : State) (k : Nat) (q : Pkt) : (s.setPkt k q).released = s.released := rfl

/-! ### State.emit -/

@[simp] theorem State.emit_pending (s : State) (o : Out) : (s.emit o).pending = s.pending := rfl
@[simp] theorem State.emit_clk (s : State) (o : Out) : (s.emit o).clk = s.clk := rfl
@[simp] theorem State.emit_freeCtr (s : State) (o : Out) : (s.emit o).freeCtr = s.freeCtr := rfl
@[simp] theorem State.emit_holdEnd (s : State) (o : Out) : (s.emit o).holdEnd = s.holdEnd := rfl
@[simp] theorem State.emit_regs (s : State) (o : Out) : (s.emit o).regs = s.regs := rfl
@[simp] theorem State.emit_latches (s : State) (o : Out) : (s.emit o).latches = s.latches := rfl
@[simp] theorem State.emit_rdata (s : State) (o : Out) : (s.emit o).rdata = s.rdata := rfl
@[simp] theorem State.emit_doneAt (s : State) (o : Out) : (s.emit o).doneAt = s.doneAt := rfl
@[simp] theorem State.emit_time (s : State) (o : Out) : (s.emit o).time = s.time := rfl
@[simp] theorem State.emit_thrs (s : State) (o : Out) : (s.emit o).thrs = s.thrs := rfl
@[simp] theorem State.emit_engs (s : State) (o : Out) : (s.emit o).engs = s.engs := rfl
@[simp] theorem State.emit_tasks (s : State) (o : Out) : (s.emit o).tasks = s.tasks := rfl
@[simp] theorem State.emit_ready (s : State) (o : Out) : (s.emit o).ready = s.ready := rfl
@[simp] theorem State.emit_delays (s : State) (o : Out) : (s.emit o).delays = s.delays := rfl
@[simp] theorem State.emit_tmouts (s : State) (o : Out) : (s.emit o).tmouts = s.tmouts := rfl
@[simp] theorem State.emit_locks (s : State) (o : Out) : (s.emit o).locks = s.locks := rfl
@[simp] theorem State.emit_tephra (s : State) (o : Out) : (s.emit o).tephra = s.tephra := rfl
@[simp] theorem State.emit_mem (s : State) (o : Out) : (s.emit o).mem = s.mem := rfl
@[simp] theorem State.emit_coreWakes (s : State) (o : Out) : (s.emit o).coreWakes = s.coreWakes := rfl
@[simp] theorem State.emit_pkts (s : State) (o : Out) : (s.emit o).pkts = s.pkts := rfl
@[simp] theorem State.emit_nextId (s : State) (o : Out) : (s.emit o).nextId = s.nextId := rfl
@[simp] theorem State.emit_srcQ (s : State) (o : Out) : (s.emit o).srcQ = s.srcQ := rfl
@[simp] theorem State.emit_parsed (s : State) (o : Out) : (s.emit o).parsed = s.parsed := rfl
@[simp] theorem State.emit_lkps (s : State) (o : Out) : (s.emit o).lkps = s.lkps := rfl
@[simp] theorem State.emit_srcChks (s : State) (o : Out) : (s.emit o).srcChks = s.srcChks := rfl
@[simp] theorem State.emit_near (s : State) (o : Out) : (s.emit o).near = s.near := rfl
@[simp] theorem State.emit_bufs (s : State) (o : Out) : (s.emit o).bufs = s.bufs := rfl
@[simp] theorem State.emit_pools (s : State) (o : Out) : (s.emit o).pools = s.pools := rfl
@[simp] theorem State.emit_accts (s : State) (o : Out) : (s.emit o).accts = s.accts := rfl
@[simp] theorem State.emit_pfcSent (s : State) (o : Out) : (s.emit o).pfcSent = s.pfcSent := rfl
@[simp] theorem State.emit_deepStk (s : State) (o : Out) : (s.emit o).deepStk = s.deepStk := rfl
@[simp] theorem State.emit_deepNext (s : State) (o : Out) : (s.emit o).deepNext = s.deepNext := rfl
@[simp] theorem State.emit_deepRefs (s : State) (o : Out) : (s.emit o).deepRefs = s.deepRefs := rfl
@[simp] theorem State.emit_deepOpen (s : State) (o : Out) : (s.emit o).deepOpen = s.deepOpen := rfl
@[simp] theorem State.emit_audSkip (s : State) (o : Out) : (s.emit o).audSkip = s.audSkip := rfl
@[simp] theorem State.emit_voqIn (s : State) (o : Out) : (s.emit o).voqIn = s.voqIn := rfl
@[simp] theorem State.emit_voqs (s : State) (o : Out) : (s.emit o).voqs = s.voqs := rfl
@[simp] theorem State.emit_copies (s : State) (o : Out) : (s.emit o).copies = s.copies := rfl
@[simp] theorem State.emit_conns (s : State) (o : Out) : (s.emit o).conns = s.conns := rfl
@[simp] theorem State.emit_gp (s : State) (o : Out) : (s.emit o).gp = s.gp := rfl
@[simp] theorem State.emit_ap (s : State) (o : Out) : (s.emit o).ap = s.ap := rfl
@[simp] theorem State.emit_pp (s : State) (o : Out) : (s.emit o).pp = s.pp := rfl
@[simp] theorem State.emit_round (s : State) (o : Out) : (s.emit o).round = s.round := rfl
@[simp] theorem State.emit_cellT (s : State) (o : Out) : (s.emit o).cellT = s.cellT := rfl
@[simp] theorem State.emit_txq (s : State) (o : Out) : (s.emit o).txq = s.txq := rfl
@[simp] theorem State.emit_txs (s : State) (o : Out) : (s.emit o).txs = s.txs := rfl
@[simp] theorem State.emit_creds (s : State) (o : Out) : (s.emit o).creds = s.creds := rfl
@[simp] theorem State.emit_vts (s : State) (o : Out) : (s.emit o).vts = s.vts := rfl
@[simp] theorem State.emit_wheel (s : State) (o : Out) : (s.emit o).wheel = s.wheel := rfl
@[simp] theorem State.emit_ovf (s : State) (o : Out) : (s.emit o).ovf = s.ovf := rfl
@[simp] theorem State.emit_slotNow (s : State) (o : Out) : (s.emit o).slotNow = s.slotNow := rfl
@[simp] theorem State.emit_quanta (s : State) (o : Out) : (s.emit o).quanta = s.quanta := rfl
@[simp] theorem State.emit_stamps (s : State) (o : Out) : (s.emit o).stamps = s.stamps := rfl
@[simp] theorem State.emit_meters (s : State) (o : Out) : (s.emit o).meters = s.meters := rfl
@[simp] theorem State.emit_cycBase (s : State) (o : Out) : (s.emit o).cycBase = s.cycBase := rfl
@[simp] theorem State.emit_poison (s : State) (o : Out) : (s.emit o).poison = s.poison := rfl
@[simp] theorem State.emit_hbmQ (s : State) (o : Out) : (s.emit o).hbmQ = s.hbmQ := rfl
@[simp] theorem State.emit_hbmWait (s : State) (o : Out) : (s.emit o).hbmWait = s.hbmWait := rfl
@[simp] theorem State.emit_hbmLast (s : State) (o : Out) : (s.emit o).hbmLast = s.hbmLast := rfl
@[simp] theorem State.emit_refilled (s : State) (o : Out) : (s.emit o).refilled = s.refilled := rfl
@[simp] theorem State.emit_hbmFill (s : State) (o : Out) : (s.emit o).hbmFill = s.hbmFill := rfl
@[simp] theorem State.emit_rasLog (s : State) (o : Out) : (s.emit o).rasLog = s.rasLog := rfl
@[simp] theorem State.emit_vecOpen (s : State) (o : Out) : (s.emit o).vecOpen = s.vecOpen := rfl
@[simp] theorem State.emit_vecPend (s : State) (o : Out) : (s.emit o).vecPend = s.vecPend := rfl
@[simp] theorem State.emit_vecMsg (s : State) (o : Out) : (s.emit o).vecMsg = s.vecMsg := rfl
@[simp] theorem State.emit_going (s : State) (o : Out) : (s.emit o).going = s.going := rfl
@[simp] theorem State.emit_goCommit (s : State) (o : Out) : (s.emit o).goCommit = s.goCommit := rfl
@[simp] theorem State.emit_linkReps (s : State) (o : Out) : (s.emit o).linkReps = s.linkReps := rfl
@[simp] theorem State.emit_wakePend (s : State) (o : Out) : (s.emit o).wakePend = s.wakePend := rfl
@[simp] theorem State.emit_replay (s : State) (o : Out) : (s.emit o).replay = s.replay := rfl
@[simp] theorem State.emit_hold (s : State) (o : Out) : (s.emit o).hold = s.hold := rfl
@[simp] theorem State.emit_dbHeld (s : State) (o : Out) : (s.emit o).dbHeld = s.dbHeld := rfl
@[simp] theorem State.emit_wdogAt (s : State) (o : Out) : (s.emit o).wdogAt = s.wdogAt := rfl
@[simp] theorem State.emit_ueAt (s : State) (o : Out) : (s.emit o).ueAt = s.ueAt := rfl
@[simp] theorem State.emit_rtDue (s : State) (o : Out) : (s.emit o).rtDue = s.rtDue := rfl
@[simp] theorem State.emit_rtFails (s : State) (o : Out) : (s.emit o).rtFails = s.rtFails := rfl
@[simp] theorem State.emit_withdrawn (s : State) (o : Out) : (s.emit o).withdrawn = s.withdrawn := rfl
@[simp] theorem State.emit_pins (s : State) (o : Out) : (s.emit o).pins = s.pins := rfl
@[simp] theorem State.emit_fuses (s : State) (o : Out) : (s.emit o).fuses = s.fuses := rfl
@[simp] theorem State.emit_flash (s : State) (o : Out) : (s.emit o).flash = s.flash := rfl
@[simp] theorem State.emit_mrs (s : State) (o : Out) : (s.emit o).mrs = s.mrs := rfl
@[simp] theorem State.emit_progs (s : State) (o : Out) : (s.emit o).progs = s.progs := rfl
@[simp] theorem State.emit_em (s : State) (o : Out) : (s.emit o).em = s.em := rfl
@[simp] theorem State.emit_tcr (s : State) (o : Out) : (s.emit o).tcr = s.tcr := rfl
@[simp] theorem State.emit_commitPend (s : State) (o : Out) : (s.emit o).commitPend = s.commitPend := rfl
@[simp] theorem State.emit_mrMoves (s : State) (o : Out) : (s.emit o).mrMoves = s.mrMoves := rfl
@[simp] theorem State.emit_mrIns (s : State) (o : Out) : (s.emit o).mrIns = s.mrIns := rfl
@[simp] theorem State.emit_bcache (s : State) (o : Out) : (s.emit o).bcache = s.bcache := rfl
@[simp] theorem State.emit_emBad (s : State) (o : Out) : (s.emit o).emBad = s.emBad := rfl
@[simp] theorem State.emit_tcBad (s : State) (o : Out) : (s.emit o).tcBad = s.tcBad := rfl
@[simp] theorem State.emit_ctrs (s : State) (o : Out) : (s.emit o).ctrs = s.ctrs := rfl
@[simp] theorem State.emit_dirty (s : State) (o : Out) : (s.emit o).dirty = s.dirty := rfl
@[simp] theorem State.emit_learnQ (s : State) (o : Out) : (s.emit o).learnQ = s.learnQ := rfl
@[simp] theorem State.emit_lrnIn (s : State) (o : Out) : (s.emit o).lrnIn = s.lrnIn := rfl
@[simp] theorem State.emit_lrnRecs (s : State) (o : Out) : (s.emit o).lrnRecs = s.lrnRecs := rfl
@[simp] theorem State.emit_lrnOpen (s : State) (o : Out) : (s.emit o).lrnOpen = s.lrnOpen := rfl
@[simp] theorem State.emit_peers (s : State) (o : Out) : (s.emit o).peers = s.peers := rfl
@[simp] theorem State.emit_damps (s : State) (o : Out) : (s.emit o).damps = s.damps := rfl
@[simp] theorem State.emit_rfAt (s : State) (o : Out) : (s.emit o).rfAt = s.rfAt := rfl
@[simp] theorem State.emit_lrnPos (s : State) (o : Out) : (s.emit o).lrnPos = s.lrnPos := rfl
@[simp] theorem State.emit_dumpPos (s : State) (o : Out) : (s.emit o).dumpPos = s.dumpPos := rfl
@[simp] theorem State.emit_vfEn (s : State) (o : Out) : (s.emit o).vfEn = s.vfEn := rfl
@[simp] theorem State.emit_instRes (s : State) (o : Out) : (s.emit o).instRes = s.instRes := rfl
@[simp] theorem State.emit_instStg (s : State) (o : Out) : (s.emit o).instStg = s.instStg := rfl
@[simp] theorem State.emit_rstHeld (s : State) (o : Out) : (s.emit o).rstHeld = s.rstHeld := rfl
@[simp] theorem State.emit_dmas (s : State) (o : Out) : (s.emit o).dmas = s.dmas := rfl
@[simp] theorem State.emit_dmaQ (s : State) (o : Out) : (s.emit o).dmaQ = s.dmaQ := rfl
@[simp] theorem State.emit_rings (s : State) (o : Out) : (s.emit o).rings = s.rings := rfl
@[simp] theorem State.emit_cfgReady (s : State) (o : Out) : (s.emit o).cfgReady = s.cfgReady := rfl
@[simp] theorem State.emit_fumEntry (s : State) (o : Out) : (s.emit o).fumEntry = s.fumEntry := rfl
@[simp] theorem State.emit_bootSvn (s : State) (o : Out) : (s.emit o).bootSvn = s.bootSvn := rfl
@[simp] theorem State.emit_mbx (s : State) (o : Out) : (s.emit o).mbx = s.mbx := rfl
@[simp] theorem State.emit_bsr (s : State) (o : Out) : (s.emit o).bsr = s.bsr := rfl
@[simp] theorem State.emit_released (s : State) (o : Out) : (s.emit o).released = s.released := rfl

end Sys2Proof.Machine
end

