-- ==== Sys2Proof/Laws/Regs.lean ====
section
/-! SUPPORT. What a write of a register, of a field, of a cause bit or of a counter leaves, and what it leaves alone. -/

namespace Sys2Proof.Machine

/-! ### Fields of a word -/

/-- The parts of a word above, in and below a field. -/
theorem split_field (v lo hi : Nat) (h : lo ≤ hi) :
    v = v / 2 ^ (hi + 1) * 2 ^ (hi + 1) + bits v hi lo * 2 ^ lo + v % 2 ^ lo := by
  have e : 2 ^ (hi + 1) = 2 ^ lo * 2 ^ (hi + 1 - lo) := by rw [← Nat.pow_add]; congr 1; omega
  have d1 := Nat.div_add_mod v (2 ^ lo)
  have d2 := Nat.div_add_mod (v / 2 ^ lo) (2 ^ (hi + 1 - lo))
  rw [Nat.div_div_eq_div_mul, ← e] at d2
  unfold bits
  generalize v / 2 ^ lo % 2 ^ (hi + 1 - lo) = f at *
  generalize v / 2 ^ (hi + 1) = q at *
  rw [← d2, Nat.mul_add, ← Nat.mul_assoc, ← e] at d1
  rw [Nat.mul_comm q, Nat.mul_comm f]
  exact d1.symm

/-- What a word with a field replaced is as a number. -/
theorem setF_toNat (v : W32) (f : Fld) (x : Nat) (h : f.lo ≤ f.hi) (h32 : f.hi < 32) :
    (setF v f x).toNat =
      v.toNat / 2 ^ (f.hi + 1) * 2 ^ (f.hi + 1) + x % 2 ^ (f.hi + 1 - f.lo) * 2 ^ f.lo + v.toNat % 2 ^ f.lo := by
  have hs := split_field v.toNat f.lo f.hi h
  have hx : x % 2 ^ (f.hi + 1 - f.lo) * 2 ^ f.lo + v.toNat % 2 ^ f.lo < 2 ^ (f.hi + 1) := by
    have e : 2 ^ (f.hi + 1) = 2 ^ (f.hi + 1 - f.lo) * 2 ^ f.lo := by rw [← Nat.pow_add]; congr 1; omega
    have a := Nat.mod_lt x (Nat.two_pow_pos (f.hi + 1 - f.lo))
    have b := Nat.mod_lt v.toNat (Nat.two_pow_pos f.lo)
    rw [e]
    calc x % 2 ^ (f.hi + 1 - f.lo) * 2 ^ f.lo + v.toNat % 2 ^ f.lo
        < x % 2 ^ (f.hi + 1 - f.lo) * 2 ^ f.lo + 2 ^ f.lo := by omega
      _ = (x % 2 ^ (f.hi + 1 - f.lo) + 1) * 2 ^ f.lo := by rw [Nat.add_mul, Nat.one_mul]
      _ ≤ _ := Nat.mul_le_mul_right _ a
  have hq : v.toNat / 2 ^ (f.hi + 1) * 2 ^ (f.hi + 1) + 2 ^ (f.hi + 1) ≤ 2 ^ 32 := by
    have e : (2 : Nat) ^ 32 = 2 ^ (31 - f.hi) * 2 ^ (f.hi + 1) := by rw [← Nat.pow_add]; congr 1; omega
    have : v.toNat / 2 ^ (f.hi + 1) < 2 ^ (31 - f.hi) := by
      apply Nat.div_lt_of_lt_mul; rw [Nat.mul_comm, ← e]; exact v.isLt
    rw [e, ← Nat.succ_mul]
    exact Nat.mul_le_mul_right _ this
  unfold setF
  rw [BitVec.toNat_ofNat]
  have e2 : v.toNat - getF v f * 2 ^ f.lo + x % 2 ^ (f.hi + 1 - f.lo) * 2 ^ f.lo =
      v.toNat / 2 ^ (f.hi + 1) * 2 ^ (f.hi + 1) + x % 2 ^ (f.hi + 1 - f.lo) * 2 ^ f.lo + v.toNat % 2 ^ f.lo := by
    unfold getF; omega
  rw [e2]; exact Nat.mod_eq_of_lt (by omega)

/-- A field reads as it was set. -/
theorem getF_setF (v : W32) (f : Fld) (x : Nat) (h : f.lo ≤ f.hi) (h32 : f.hi < 32) :
    getF (setF v f x) f = x % 2 ^ (f.hi + 1 - f.lo) := by
  have e : 2 ^ (f.hi + 1) = 2 ^ (f.hi + 1 - f.lo) * 2 ^ f.lo := by rw [← Nat.pow_add]; congr 1; omega
  have b := Nat.mod_lt v.toNat (Nat.two_pow_pos f.lo)
  unfold getF bits
  rw [setF_toNat v f x h h32, e, ← Nat.mul_assoc, ← Nat.add_mul, Nat.mul_comm _ (2 ^ f.lo),
    Nat.mul_add_div (Nat.two_pow_pos f.lo), Nat.div_eq_of_lt b, Nat.add_zero, Nat.mul_add_mod_self_right, Nat.mod_mod]

/-- A field above another keeps its value. -/
theorem getF_setF_above (v : W32) (f g : Fld) (x : Nat) (h : f.lo ≤ f.hi) (h32 : f.hi < 32) (hg : f.hi < g.lo) :
    getF (setF v f x) g = getF v g := by
  have e : 2 ^ (f.hi + 1) = 2 ^ (f.hi + 1 - f.lo) * 2 ^ f.lo := by rw [← Nat.pow_add]; congr 1; omega
  have d : ∀ n : Nat, n / 2 ^ g.lo = n / 2 ^ (f.hi + 1) / 2 ^ (g.lo - (f.hi + 1)) := fun n => by
    rw [Nat.div_div_eq_div_mul, ← Nat.pow_add]; congr 2; omega
  have a := Nat.mod_lt x (Nat.two_pow_pos (f.hi + 1 - f.lo))
  have b := Nat.mod_lt v.toNat (Nat.two_pow_pos f.lo)
  have hx : x % 2 ^ (f.hi + 1 - f.lo) * 2 ^ f.lo + v.toNat % 2 ^ f.lo < 2 ^ (f.hi + 1) := by
    rw [e]
    calc _ < x % 2 ^ (f.hi + 1 - f.lo) * 2 ^ f.lo + 2 ^ f.lo := by omega
      _ = (x % 2 ^ (f.hi + 1 - f.lo) + 1) * 2 ^ f.lo := by rw [Nat.add_mul, Nat.one_mul]
      _ ≤ _ := Nat.mul_le_mul_right _ a
  unfold getF bits
  rw [setF_toNat v f x h h32, d, d v.toNat, Nat.add_assoc, Nat.mul_comm, Nat.mul_add_div (Nat.two_pow_pos _), Nat.div_eq_of_lt hx,
    Nat.add_zero]

/-- A field below another keeps its value. -/
theorem getF_setF_below (v : W32) (f g : Fld) (x : Nat) (h : f.lo ≤ f.hi) (h32 : f.hi < 32) (hg : g.hi < f.lo) :
    getF (setF v f x) g = getF v g := by
  have m : ∀ n : Nat, n / 2 ^ g.lo % 2 ^ (g.hi + 1 - g.lo) = n % 2 ^ f.lo / 2 ^ g.lo % 2 ^ (g.hi + 1 - g.lo) := fun n => by
    by_cases c : g.lo ≤ g.hi
    · have e : 2 ^ f.lo = 2 ^ g.lo * 2 ^ (f.lo - g.lo) := by rw [← Nat.pow_add]; congr 1; omega
      rw [e, Nat.mod_mul_right_div_self, Nat.mod_mod_of_dvd _ (Nat.pow_dvd_pow 2 (by omega))]
    · have z : g.hi + 1 - g.lo = 0 := by omega
      rw [z, Nat.pow_zero, Nat.mod_one, Nat.mod_one]
  have e1 : 2 ^ (f.hi + 1) = 2 ^ (f.hi + 1 - f.lo) * 2 ^ f.lo := by rw [← Nat.pow_add]; congr 1; omega
  unfold getF bits
  rw [setF_toNat v f x h h32, m, m v.toNat, e1, ← Nat.mul_assoc, ← Nat.add_mul, Nat.add_comm, Nat.add_mul_mod_self_right, Nat.mod_mod]

/-! ### Registers -/

theorem reg_setReg_same (s : State) (a : Nat) (v : W32) : (s.setReg a v).reg a = v := smGet_smSet_same _ _ _ _
theorem reg_setReg_other (s : State) (a b : Nat) (v : W32) (h : b ≠ a) : (s.setReg a v).reg b = s.reg b := smGet_smSet_other _ _ _ h
theorem reg_setReg (s : State) (a b : Nat) (v : W32) : (s.setReg a v).reg b = if b = a then v else s.reg b := by
  split
  · next h => subst h; exact reg_setReg_same s b v
  · next h => exact reg_setReg_other s a b v h

theorem fld_setFld_same (s : State) (a : Nat) (f : Fld) (x : Nat) (h : f.lo ≤ f.hi) (h32 : f.hi < 32) :
    (s.setFld a f x).fld a f = x % 2 ^ (f.hi + 1 - f.lo) := by
  unfold State.fld State.setFld; rw [reg_setReg_same]; exact getF_setF _ f x h h32

theorem reg_setFld_other (s : State) (a b : Nat) (f : Fld) (x : Nat) (h : b ≠ a) : (s.setFld a f x).reg b = s.reg b :=
  reg_setReg_other s a b _ h

theorem reg_raise_same (s : State) (p b : Nat) : (s.raise p b).reg (p + 0x10) = s.reg (p + 0x10) ||| BitVec.ofNat 32 (2 ^ b) :=
  reg_setReg_same s _ _

theorem reg_raise_other (s : State) (p b a : Nat) (h : a ≠ p + 0x10) : (s.raise p b).reg a = s.reg a := reg_setReg_other s _ a _ h

/-- A counter counts one more and stops at its largest value. -/
theorem reg_cnt_same (s : State) (a : Nat) : (s.cnt a).reg a = if s.reg a = 0xFFFFFFFF then s.reg a else s.reg a + 1 := by
  unfold State.cnt
  split
  · rfl
  · exact reg_setReg_same s a _

theorem reg_cnt_other (s : State) (a b : Nat) (h : b ≠ a) : (s.cnt a).reg b = s.reg b := by
  unfold State.cnt
  split
  · rfl
  · exact reg_setReg_other s a b _ h

/-- A captured violation: AGENT, TYPE, SEG and OFFSET of VIOL_CAP (R584). -/
theorem reg_viol_cap (s : State) (page agent type seg off : Nat) :
    (s.viol page agent type seg off).reg (page + 0x1C) =
      BitVec.ofNat 32 (agent % 4096 * 2 ^ 20 + type % 16 * 2 ^ 16 + seg % 16 * 2 ^ 12 + off % 4096) := reg_setReg_same _ _ _

theorem reg_viol_other (s : State) (page agent type seg off a : Nat) (h1 : a ≠ page + 0x1C) (h2 : a ≠ page + 0xC) :
    (s.viol page agent type seg off).reg a = s.reg a := by
  unfold State.viol
  rw [reg_setReg_other _ _ _ _ h1]
  split
  · rfl
  · exact reg_setReg_other s _ a _ h2

/-! ### Threads -/

theorem thr_setThr_same (s : State) (a : Nat) (t : Thr) : (s.setThr a t).thr a = t := smGet_smSet_same _ _ _ _
theorem thr_setThr_other (s : State) (a b : Nat) (t : Thr) (h : b ≠ a) : (s.setThr a t).thr b = s.thr b := smGet_smSet_other _ _ _ h

theorem reg_setThr (s : State) (a b : Nat) (t : Thr) : (s.setThr a t).reg b = s.reg b := rfl

/-- The registers of a frame lie at different places of the ring. -/
theorem phys_inj (t : Thr) (m n : Nat) (hm : m < 32) (hn : n < 32) (h : t.phys m = t.phys n) : m = n := by
  unfold Thr.phys at h
  split at h <;> split at h <;> omega

theorem get_set_same (t : Thr) (n : Nat) (v : Word) : (t.set n v).get n = v := smGet_smSet_same _ _ _ _
theorem get_set_other (t : Thr) (m n : Nat) (v : Word) (hm : m < 32) (hn : n < 32) (h : m ≠ n) : (t.set n v).get m = t.get m :=
  smGet_smSet_other _ _ _ fun e => h (phys_inj t m n hm hn e)

theorem x_setX_same (s : State) (a n : Nat) (v : Word) : (s.setX a n v).x a n = v := by
  unfold State.x State.setX; rw [thr_setThr_same]; exact get_set_same _ _ _

theorem x_setX_other (s : State) (a m n : Nat) (v : Word) (hm : m < 32) (hn : n < 32) (h : m ≠ n) : (s.setX a n v).x a m = s.x a m := by
  unfold State.x State.setX; rw [thr_setThr_same]; exact get_set_other _ _ _ _ hm hn h

theorem x_setX_agent (s : State) (a b m n : Nat) (v : Word) (h : b ≠ a) : (s.setX a n v).x b m = s.x b m := by
  unfold State.x State.setX; rw [thr_setThr_other _ _ _ _ h]

/-! ### Memory -/

theorem rd8_wr8_same (s : State) (a : Nat) (b : Byte) : (s.wr8 a b).rd8 a = b := smGet_smSet_same _ _ _ _
theorem rd8_wr8_other (s : State) (a c : Nat) (b : Byte) (h : c ≠ a) : (s.wr8 a b).rd8 c = s.rd8 c := smGet_smSet_other _ _ _ h

/-- A byte outside those stored is as before. -/
theorem wrMap_other (m : SMap Byte) (a c : Nat) (bs : List Byte) (h : ¬ (a ≤ c ∧ c < a + bs.length)) :
    smGet byte0 (wrMap m a bs) c = smGet byte0 m c := by
  induction bs generalizing m a with
  | nil => rfl
  | cons b bs ih =>
    simp only [List.length_cons] at h
    unfold wrMap
    rw [ih _ _ (by omega), smGet_smSet_other _ _ _ (by omega)]

/-- The bytes stored are read back. -/
theorem rdMap_wrMap (m : SMap Byte) (a : Nat) (bs : List Byte) : rdMap (wrMap m a bs) a bs.length = bs := by
  induction bs generalizing m a with
  | nil => rfl
  | cons b bs ih =>
    unfold wrMap
    rw [List.length_cons, rdMap, ih, wrMap_other _ _ _ _ (by omega), smGet_smSet_same]

theorem rd8_wrBytes_other (s : State) (a c : Nat) (bs : List Byte) (h : ¬ (a ≤ c ∧ c < a + bs.length)) :
    (s.wrBytes a bs).rd8 c = s.rd8 c := wrMap_other _ _ _ _ h

theorem rdBytes_wrBytes (s : State) (a : Nat) (bs : List Byte) : (s.wrBytes a bs).rdBytes a bs.length = bs := rdMap_wrMap _ _ _

/-- Storing bytes keeps the canonical form of a byte map. -/
theorem smWf_wrMap (m : SMap Byte) (a : Nat) (bs : List Byte) (h : smWf byte0 m = true) : smWf byte0 (wrMap m a bs) = true := by
  induction bs generalizing m a with
  | nil => exact h
  | cons b bs ih => exact ih _ _ (smWf_smSet _ _ _ _ h)

end Sys2Proof.Machine
end

