-- ==== Sys2Proof/Tests/Slice0.lean ====
section
/-! SUPPORT. Tests: ill-formed commands are refused by the check, and for every statement with hypotheses a theorem that shows a state and
operands that meet them (clause by clause where a statement has several). -/

namespace Sys2Proof.Tests

open Sys2Proof Sys2Proof.Machine

set_option Elab.async false

/-! ### States -/

/-- A device in a mode, with some registers written. -/
def st (mode : Nat) (rs : List (Nat × W32)) : State := { released := true, regs := (R.DEV_MODE, BitVec.ofNat 32 mode) :: rs }

/-- FORWARD, nothing else written. -/
def fw : State := st 4 []

/-- Engine 0 runs, its threads are packet threads; thread 3 holds packet 9; a context of core 0 runs. -/
def en : State :=
  { st 4 [(R.ENG_THR_CFG 0, 0x5555), (R.ENG_CTL 0, 0x80000000)] with
    thrs := [(3, { pc := 100, tvec := 0x200, status := 1, rf := [(3, 77), (20, 0xF00FF00F), (30, 5)], pkt := some 9 }),
             (0x803, { pc := 1000, tvec := 0x4000, status := 1, rf := [(3, 77), (20, 0xF00FF00F), (30, 5)] })],
    pkts := [(9, { loc := .ing 0 })], engs := [(256, { arb := { ptr := 2 } })] }

/-- The same with another record of thread 3. -/
def en3 (f : Thr → Thr) : State := en.setThr 3 (f (en.thr 3))

/-- The same with another record of the context. -/
def cx (f : Thr → Thr) : State := en.setThr 0x803 (f (en.thr 0x803))

/-! ### Well-formed commands -/

theorem test_wf_shortForm : (Instr.add 3 false 4 5 6).wf = false ∧ (Instr.add 3 false 4 4 6).wf = true := by decide
theorem test_wf_shortRegister : (Instr.add 3 false 20 20 6).wf = false := by decide
theorem test_wf_shortImmediate : (Instr.addi 3 false 4 4 64).wf = false ∧ (Instr.addi 3 false 4 4 63).wf = true := by decide
theorem test_wf_mov : (Instr.mov 3 (.regShort 20) 4).wf = false ∧ (Instr.mov 3 (.regLong 20) 4).wf = true := by decide
theorem test_wf_wordForm : (Instr.ldd 3 .s1 4 5).wf = false ∧ (Instr.ldd 3 (.word true 1) 4 0).wf = true := by decide
theorem test_wf_s1Form : (Instr.ldnh 3 (.word true 1) 4 0).wf = false ∧ (Instr.ldnh 3 .s1 4 5).wf = true := by decide
theorem test_wf_requester : (Instr.portModeWrite 0x12 3 0).wf = false ∧ (Instr.portModeWrite 0x811 3 0).wf = true := by decide
theorem test_wf_reason : (Instr.linkDown 3 0).wf = false ∧ (Instr.linkDown 3 6).wf = false ∧ (Instr.linkDown 3 7).wf = true := by decide
theorem test_wf_order : (Instr.emInsert 0x800 0 0x80000000).wf = false ∧ (Instr.emInsert 0x800 0 0x00C00100).wf = true := by decide
theorem test_wf_bytes : (Instr.frameReceive 0 ⟨[], 0, 0⟩).wf = false := by decide

/-! ### The block as a machine -/

theorem witness_StepRunsTheFrontCommand : ({ pending := [.ppsEdge, .slewEnd] } : State).pending = .ppsEdge :: [.slewEnd] := by decide
theorem witness_EmptyQueuePassesOneTick : State.reset.pending = [] ∧ ({ State.reset with regs := [(R.DEV_MODE, 0)] } : State).mode = mOFF := by decide

/-! ### Velkor -/

theorem witness_RegisterArithmetic : en.canIssue 3 [3, 20, 30] = true ∧ en.canIssue 0x803 [3, 20, 30] = true := by decide +kernel
theorem witness_Pair : (en.issued 3 1 { writes := [5] }).joins 3 1 [3, 20, 30] { writes := [3] } = true := by decide +kernel
theorem witness_FlagInstructions : en.canIssue 3 [31, 0, 8] = true ∧ en.canIssue 0x803 [20, 30] = true ∧ en.canIssue 0x803 [3] = true := by decide +kernel
theorem witness_OneOperandAndImmediate : en.canIssue 3 [3, 20, 30] = true ∧ (0xE : Cond) ≠ 0xF ∧ ¬ ((3 : Reg) = 0 ∧ (0 : Reg) = 0) ∧
    (1 : BitVec 2) ≠ 0 ∧ en.canIssue 0x803 [3, 20] = true := by decide +kernel

/-- The state `en` with segments of cluster 0: s0 instruction RAM, s3 and s7 data RAM, s4 shared RAM. -/
def sg (f : Thr → Thr) : State := { en3 f with
  regs := [(R.CLU_SEG_LO 0 0, 0x43000000), (R.CLU_SEG_HI 0 0, 0x9000FF00), (R.CLU_SEG_LO 0 3, 0x40000000), (R.CLU_SEG_HI 0 3, 0xE000FF00),
           (R.CLU_SEG_LO 0 4, 0x41000000), (R.CLU_SEG_HI 0 4, 0xE800FF00), (R.CLU_SEG_LO 0 7, 0x40000100), (R.CLU_SEG_HI 0 7, 0xE000FF00)] ++ en.regs }

/-- Where an access goes, or nothing at a violation. -/
def goes (e : Except Nat Place) : Option Place := match e with
  | .ok p => some p
  | .error _ => none

theorem witness_Loads : (sg id).canIssue 3 [4, 0] = true ∧ goes (((sg id).took 3 2 [4, 0] (kLoad 4)).place 3 3 0xF8 8 .load) = some (.mem 0x10000000F8) ∧
    goes (((sg id).took 3 2 [4, 0] (kLoad 4)).place 3 2 0x10 8 .load) = some (.slot 0x10) ∧ goes (((sg id).took 3 2 [4, 0] (kLoad 4)).place 3 1 0 4 .load) = some (.hdr 9 0) ∧
    goes (((sg id).took 3 2 [4, 0] (kLoad 4)).place 3 3 0xF9 8 .load) = none := by decide +kernel
theorem witness_Stores : (sg id).canIssue 3 [3, 30] = true ∧ goes (((sg id).took 3 2 [3, 30] kStore).place 3 3 0xF8 8 .store) = some (.mem 0x10000000F8) ∧
    goes (((sg id).took 3 2 [3, 30] kStore).place 3 2 0x78 8 .store) = some (.slot 0x78) ∧ goes (((sg id).took 3 2 [3, 30] kStore).place 3 0 0 4 .store) = none := by decide +kernel
theorem witness_Atomics : (sg id).canIssue 3 [3, 30, 20] = true ∧ goes (((sg id).took 3 2 [3, 30, 20] (kLoad 3)).place 3 4 0xF8 8 .atom) = some (.mem 0x11000000F8) ∧
    goes (((sg id).took 3 2 [3, 30, 20] (kLoad 3)).place 3 4 0xFC 8 .atom) = none := by decide +kernel
theorem witness_OnlyAllowedAccesses : goes ((sg id).place 3 3 0xF8 8 .load) = some (.mem 0x10000000F8) := by decide +kernel
theorem witness_Branches : en.canIssue 3 [] = true ∧ en.canIssue 3 [3] = true ∧ (0xE : Cond) ≠ 0xF ∧ en.x 3 3 ≠ 0 ∧ en.x 3 4 = 0 := by decide +kernel
theorem witness_WindowsMove : (en3 id).canIssue 3 [] = true ∧ ((en3 id).thr 3).fu = [] ∧ ((en3 id).thr 3).depth < 4 ∧
    1 < ((en3 fun t => { t with depth := 2 }).thr 3).depth ∧ (en3 fun t => { t with depth := 2 }).canIssue 3 [] = true := by decide +kernel
theorem witness_WindowsSpill : let s := sg fun t => { t with depth := 4 }
    s.canIssue 3 [] = true ∧ (s.thr 3).fu = [] ∧ (s.thr 3).depth = 4 ∧
    goes ((s.took 3 2 [] kTail).place 3 7 (s.thr 3).wsp.toNat 128 .spill) = some (.mem 0x1000000100) := by decide +kernel
theorem witness_SystemInstructions : en.canIssue 3 [] = true ∧ (en.thr 3).pkt.isSome = true ∧
    (let s := en3 fun t => { t with evPend := 0x4001 }
     s.canIssue 3 [4, 3] = true ∧ (s.thr 3).evPend &&& ((s.x 3 3).truncate 16 ||| 0xC000) ≠ 0) ∧
    (en.thr 3).evPend &&& ((en.x 3 3).truncate 16 ||| 0xC000) = 0 ∧ (en.x 3 4).toNat % 2 ^ 31 = 0 ∧ (en.x 3 3).toNat % 2 ^ 31 ≠ 0 ∧
    en.canIssue 0x803 [] = true ∧ (en.thr 0x803).status.getLsbD 3 = false ∧ en.wakePending (coreOf 0x803) = false ∧
    (let s := en.setFld R.DBG_CTL F.DBG_CTL_ATTACH 1
     s.canIssue 3 [] = true ∧ s.flag R.DBG_CTL F.DBG_CTL_ATTACH = true) := by decide +kernel
theorem witness_ExceptionsSaveTheThread : en.canIssue 3 [] = true ∧ en.pc 3 < pcMod 3 ∧ en.flag R.DBG_CTL F.DBG_CTL_ATTACH = false ∧
    (en.thr 3).status.getLsbD 2 = false ∧ en.canIssue 3 [4, 5, 6] = true ∧
    (let s := cx fun t => { t with status := 8 }
     s.canIssue 0x803 [] = true ∧ s.pc 0x803 < pcMod 0x803 ∧ (s.thr 0x803).status.getLsbD 3 = true) ∧
    (let s := { en3 (fun t => { t with pkt := none }) with regs := [(R.DEV_MODE, 4), (R.ENG_CTL 0, 0x80000000), (R.ENG_THR_CFG 0, 0x80)] }
     s.canIssue 3 [] = true ∧ (s.thr 3).pkt = none) := by decide +kernel
theorem witness_UndefinedInstruction : let s := { sg id with mem := [(0x13000000C8, 0), (0x13000000C9, 0x7F)] }
    s.canIssue 3 [] = true ∧ s.pc 3 < pcMod 3 ∧ (s.thr 3).status.getLsbD 2 = false ∧ goes (s.place 3 0 (2 * s.pc 3) 2 .fetch) = some (.mem 0x13000000C8) ∧
    s.rdLE 0x13000000C8 2 = 0x7F00 ∧ shortOk true 0x7F00 = false := by decide +kernel
theorem witness_FusedRefusals : en.pc 3 < pcMod 3 ∧ en.canIssue 3 [4, 5] = true ∧ 64 < bits (0x1FFF : Nat) 12 7 + bits 0x1FFF 6 1 + 1 ∧
    en.canIssue 3 [4, 5, 0] = true ∧ 2 ≤ bits (0x40 : Nat) 7 5 ∧ 52 < bits (53 : Nat) 5 0 ∧ bits (0xC0 : Nat) 7 6 = 3 ∧ 2 ≤ bits (0x80 : Nat) 7 6 ∧
    en.canIssue 0x803 [4, 5] = true := by decide +kernel
theorem witness_ReturnInterruptDoubleFault :
    (let s := en3 fun t => { t with status := 4 }
     s.canIssue 3 [] = true ∧ (s.thr 3).status.getLsbD 2 = true) ∧
    (let s := cx fun t => { t with status := 4 }
     s.canIssue 0x803 [] = true ∧ (s.thr 0x803).status.getLsbD 2 = true) := by decide +kernel
theorem witness_SpecialRegisters : en.canIssue 3 [4] = true ∧ (en.sregGet 3 6).isSome = true ∧ en.sregGet 3 0x7FF = none ∧
    en.userMode 3 = false ∧ (let s := cx fun t => { t with status := 8 }
    s.canIssue 0x803 [3] = true ∧ s.userMode 0x803 = true ∧ s.pc 0x803 < pcMod 0x803) := by decide +kernel
theorem witness_FusedInstructions : en.canIssue 3 [4, 5] = true ∧ bits (0x7E : Nat) 12 7 + bits 0x7E 6 1 + 1 ≤ 64 ∧ en.canIssue 3 [4, 5, 0] = true ∧
    bits (52 : Nat) 5 0 ≤ 52 ∧ ((en3 fun t => { t with fu := [⟨4, 5, some (31, 6), 0, 5⟩] }).thr 3).fu = [] ++ ⟨4, 5, some (31, 6), 0, 5⟩ :: [] := by decide +kernel
theorem witness_LockInstructions : en.canIssue 3 [4, 3] = true ∧ (en.lock 77).held = false ∧
    (let s := en.setLock 77 { held := true, owner := 0x803, otask := 0xFFF }
     s.canIssue 3 [3] = true ∧ (s.lock 77).held = true ∧ ¬ ((s.lock 77).owner = 3 ∧ (s.lock 77).otask = s.curTask 3) ∧ (s.lock 77).owner < 2 ^ 12 ∧
       (s.thr 3).lockReq = none ∧ (s.lock 77).otask = 0xFFF) ∧
    (let s := en.setLock 77 { held := true, owner := 3, otask := 0xFFF }
     (s.lock 77).owner = 3 ∧ (s.lock 77).otask = s.curTask 3 ∧ (s.lock 77).q = []) := by decide +kernel
theorem witness_LookupInstructions :
    (let s := en3 fun t => { t with rf := [(3, 77), (4, 0x100010)] }
     s.canIssue 3 [4, 4, 3] = true ∧ (s.thr 3).pkt = some 9 ∧ bits (s.x 3 4).toNat 23 20 = 1 ∧ ctxWord (s.thr 3).slot 8 / 2 ^ 60 ≠ 1 ∧
       ¬ (4 ≤ (s.pkt 9).fwd ∨ bits (s.x 3 4).toNat 6 3 < 2 ∨ 11 < bits (s.x 3 4).toNat 6 3)) ∧
    (let s := en3 fun t => { t with wait := .wfe 0 12 2, evPend := 0x8000, tmr := some 5 }
     (s.thr 3).wait = .wfe 0 12 2 ∧ (s.thr 3).evPend &&& (0 ||| 0xC000) ≠ 0 ∧ (s.thr 3).tmr ≠ none) ∧
    ({ en with coreWakes := [0] } : State).wakePending 0 = true := by decide +kernel

/-! ### Ports and the packet path -/

/-- Fields of registers set one after the other. -/
def put (s : State) (l : List (Nat × Fld × Nat)) : State := l.foldl (fun t x => t.setFld x.1 x.2.1 x.2.2) s

/-- FORWARD with port 0 enabled and its link up, in pause mode with a quanta of 9. -/
def pt : State := put fw [(R.PORT_CTL 0, F.PORT_CTL_EN, 1), (R.PORT_LINK 0, F.PORT_LINK_UP, 1), (R.PORT_FC 0, F.PORT_FC_MODE, 1),
  (R.PORT_FC 0, F.PORT_FC_QUANTA, 9), (R.PORT_MODE 0, F.PORT_MODE_MODE, 3)]

/-- Sixty bytes with a type, and their FCS. -/
def frame (ety : Nat) (rest : List Byte) : List Byte :=
  let b := List.replicate 12 (0x22 : Byte) ++ bytesBE 2 ety ++ rest
  let c := b ++ List.replicate (60 - b.length) 0
  c ++ fcs c

/-- A packet record that waits at a place. -/
def pk (loc : Loc) : Pkt := { loc := loc, len := 64, ptr := 5, crossed := true }

/-- A context that names port 3 and class 2 (R97), with DROP clear. -/
def ctx32 : SMap Byte := setCtxWord [] 7 (3 * 2 ^ 32)

theorem witness_FramesAreReceived : pt.takesFrames 0 ∧ 3 ≤ pt.pMode 0 ∧ frame 0x0800 [] ≠ [] ∧ (frame 0x0800 []).length = 64 ∧ 64 ≤ pt.fld (R.PORT_CTL 0) F.PORT_CTL_MAXFRM ∧
    valBE (((frame 0x0800 []).drop 12).take 2) ≠ 0x8808 ∧ valBE (((frame 0x8808 [0, 1, 0, 7]).drop 12).take 2) = 0x8808 ∧
    valBE (((frame 0x8808 [0, 1, 0, 7]).drop 14).take 2) = 1 ∧ 0 < valBE (((frame 0x8808 [0, 1, 0, 7]).drop 16).take 2) := by decide +kernel
theorem witness_FramesAreStored : ((pt.cnt64 (R.RX_FRM 0) 1).storeFrame 0 0 0xA00 9216 true (frame 0x0800 [])).1 = .stored 0 ∧
    ({ pt with pools := [(0, { cnt := 0 }), (1, { cnt := 0 }), (2, { cnt := 0 }), (3, { cnt := 0 })] }.storeFrame 0 0 0xA00 9216 true (frame 0x0800 [])).1 = .refused := by decide +kernel
theorem witness_FcsFailure : let s := { pt with pkts := [(9, { pk .src with bad := true }), (10, { pk (.egr 0) with bad := true })] }
    s.hasPkt 9 = true ∧ (s.pkt 9).bad = true ∧ (s.pkt 9).store = none ∧ s.conns = [] ∧ smWf (fun _ => ({} : Pkt)) s.pkts = true ∧ (s.pkt 9).loc = .src ∧
    (s.pkt 10).loc = .egr 0 ∧ smGet (fun _ => none) s.txs (s.pkt 10).dest = none := by decide +kernel
theorem witness_FlowControl : (put pt [(R.TM_PORT_STAT 0, F.TM_PORT_STAT_PAUSED, 4)]).paused 0 2 = true ∧
    (let s := { pt with accts := [(2, { xoff := true })] }
     s.macSends 0 = true ∧ s.fld (R.PORT_FC 0) F.PORT_FC_MODE = 1 ∧ s.sentX 0 = 0 ∧ s.xoffClasses 0 ≠ 0) ∧
    (let s := { pt with pfcSent := [(0, 4)] }
     s.sentX 0 ≠ 0 ∧ s.xoffClasses 0 = 0) ∧
    (let s := { pt with accts := [(2, { xoff := true })], pfcSent := [(0, 4)] }
     s.sentX 0 &&& s.xoffClasses 0 ≠ 0) := by decide +kernel
theorem witness_LinkTransitions : (let s := put pt [(R.PORT_LINK 0, F.PORT_LINK_UP, 0), (R.PORT_MODE 0, F.PORT_MODE_LT, 1)]
     s.portLive 0 = true ∧ s.linkUp 0 = false ∧ s.pMode 0 ≠ 0 ∧ s.flag (R.PORT_MODE 0) F.PORT_MODE_LT = true) ∧
    (pt.portLive 0 = true ∧ pt.linkUp 0 = true ∧ pt.wakeable = false ∧ pt.tx 0 = none ∧ pt.pkts = []) ∧
    (let s := put pt [(R.XB_FLAP, F.XB_FLAP_HOLD_MS, 50)]
     s.fld R.XB_FLAP F.XB_FLAP_HOLD_MS ≠ 0 ∧ s.voqs = [] ∧ s.linkReps = []) ∧
    (put pt [(R.XB_PORT 0, F.XB_PORT_HOLD, 1)]).flag (R.XB_PORT 0) F.XB_PORT_HOLD = true := by decide +kernel
theorem witness_PacketsMove :
    (let s := { en with srcQ := [(2, [9])] }
     s.pipeOn 0 = true ∧ s.fenced 0 = false ∧ s.ingUsed 0 < 256 ∧ (s.eng 0).q.length < 16 ∧ s.nextSrc 0 = some 2 ∧ s.src 0 2 = [9]) ∧
    (let s := { en3 (fun t => { t with pkt := none }) with engs := [(0, { q := [9] })] }
     (s.eng 0).q = [9] ∧ s.pipeOn 0 = true ∧ s.engRun 0 = true ∧ (s.pkt 9).discard = false ∧ s.landed 9 0 = true ∧
       [1, 2, 3, 4, 5, 6, 7, 8].find? (fun i => s.suits 0 (((s.eng 0).last + i) % 8) 9) = some 1) ∧
    (let s := { en3 (fun t => { t with wait := .sendWait }) with engs := [(0, { held := [9] })] }
     s.sendReady 0 = some (9, 3) ∧ s.hasRoom 0 = true) ∧
    (let s := { en3 (fun t => { t with pkt := none }) with engs := [(0, { q := [9] })], pkts := [(9, { loc := .ing 0, discard := true })] }
     s.discardReady 0 = some 9 ∧ s.hasRoom 0 = true) := by decide +kernel
theorem witness_VoqEnqueue :
    (let s := { fw with voqIn := [(0, [9])], pkts := [(9, { loc := .ing 0, ctx := ctx32 })] }
     s.voqInL 0 = [9] ∧ s.pipeOn 0 = true ∧ s.srcChks = [] ∧ (s.pkt 9).discard = false ∧ (s.pkt 9).failed = false ∧ cDrop (s.pkt 9).ctx = false ∧
     cMc (s.pkt 9).ctx = false ∧ cDest (s.pkt 9).ctx < 64 ∧ (∀ ses, ses < 16 → s.flag (R.XB_MIR_CFG ses) F.XB_MIR_CFG_EN = false) ∧
     s.fld (R.MTR_PIPE_EN 0) F.MTR_PIPE_EN_ING_EN = 0 ∧ s.flag (R.SINT_SPILL (cClass (s.pkt 9).ctx)) F.SINT_SPILL_EN = false) ∧
    (let s := { fw with voqIn := [(0, [9])], pkts := [(9, { loc := .ing 0, discard := true })] }
     s.voqInL 0 = [9] ∧ (s.pkt 9).discard = true) ∧
    (let s := { fw with voqIn := [(0, [9])], pkts := [(9, { loc := .ing 0, failed := true })] }
     s.voqInL 0 = [9] ∧ (s.pkt 9).discard = false ∧ (s.pkt 9).failed = true) := by decide +kernel
theorem witness_Crossbar : let s := { put fw [(R.XB_CTL, F.XB_CTL_RUN, 1)] with round := 2 }
    let c : Conn := { queue := 0, pkt := 9, marker := false, outs := List.range 18, copies := [9] }
    s.mainClk = true ∧ s.flag R.XB_CTL F.XB_CTL_RUN = true ∧ s.round ≠ 3 ∧
    (let t := { s with conns := [(0, c)], pkts := [(9, { pk (.voq 0) with len := 600 })] }
     (∀ o, o < 18 → t.outFree (t.cellT + 4 - t.round) o = false) ∧ t.outTaken 0 c = false ∧ t.conn 0 = some c ∧ (t.pkt 9).bad = false ∧ c.sent + 1 < cellsOf (t.pkt 9).len) ∧
    (let t := { s with conns := [(0, { c with sent := 2 })], pkts := [(9, { pk (.voq 0) with len := 600 })] }
     cellsOf (t.pkt 9).len ≤ 2 + 1) := by decide +kernel
theorem witness_SpillAndRefill : let v : VEnt := { pkt := 9, part := .marked }
    let p : Pkt := { loc := .voq 0, len := 64, ptr := 0 }
    let s := { fw with voqs := [(voqKey 0 3 2, [v])], pkts := [(9, p)] }
    s.voq (voqKey 0 3 2) = [] ++ v :: [] ∧ s.mainClk = true ∧ (s.pkt 9).bad = false ∧ s.smallFrame 9 ∧ s.deepOpen = [] ∧
    s.fld (R.SINT_SPILL 2) F.SINT_SPILL_DEEP_MAX = 0 ∧ s.withdrawn = false ∧ s.deepStk = [] ∧ s.deepNext < 10485759 ∧
    (let d := { put s [(R.SINT_SPILL 2, F.SINT_SPILL_SPILL_TH, 1)] with voqs := [(voqKey 0 3 2, [{ pkt := 9, part := .deep [0] 0 192 }])] }
     d.nearBytes (voqKey 0 3 2) < d.fld (R.SINT_SPILL 2) F.SINT_SPILL_SPILL_TH * 512 ∧
     ((List.range 192).all fun i => !(d.poisoned (deepAddr [0] 0 i)) && (d.hbmPlace (deepAddr [0] 0 i)).isSome) = true ∧
     (d.storeFrame 0 0 0xA00 64 false (List.replicate 64 0)).1 = .stored 0) ∧
    ({ s with deepNext := deepTotal } : State).deepFree = 0 ∧ s.fld (R.SINT_SPILL 2) F.SINT_SPILL_SPILL_TH * 512 ≤ (2 ^ 30 : Nat) := by decide +kernel

/-! ### Egress and meters -/

/-- The scheduler runs; port 3 has a frame of class 2 that has crossed. -/
def eg : State := { put fw [(R.TM_CTL, F.TM_CTL_RUN, 1), (R.PORT_LINK 3, F.PORT_LINK_UP, 1)] with
  txq := [(26, [9])], pkts := [(9, { pk (.egr 0) with dest := 3, cls := 2, data := List.replicate 60 1 })] }

theorem witness_Transmission :
    (eg.mainClk = true ∧ eg.tx 3 = none ∧ eg.flag R.TM_CTL F.TM_CTL_RUN = true ∧ eg.linkUp 3 = true ∧ eg.pipeOn 0 = true ∧
      eg.flag (R.TM_GCL_CTL 3) F.TM_GCL_CTL_EN = false ∧ (∀ d, d < 8 → (eg.txqL 3 d).all (fun j => !(eg.pkt j).discard && !(eg.pkt j).late && !(eg.overMax 3 j)) = true) ∧
      eg.ranked.find? (fun d => eg.startableNoGate 3 d) = some 2 ∧ eg.txqL 3 2 = [9] ∧ editBad (eg.pkt 9).ctx = false ∧ cRecirc (eg.pkt 9).ctx = false) ∧
    (let s := { eg with txs := [(3, some { pkt := 9, cls := 2, stamp := 0 }), (68, some { pkt := 9, cls := 2, stamp := 0 })] }
     s.tx 3 = some { pkt := 9, cls := 2, stamp := 0 } ∧ s.fld (R.PORT_CTL 3) F.PORT_CTL_LPBK = 0 ∧ (s.pkt 9).crossed = true ∧ (s.pkt 9).bad = false ∧ ePtp (s.pkt 9).ctx = 0 ∧
     s.tx 68 = some { pkt := 9, cls := 2, stamp := 0 } ∧ s.flag R.LRN_CFG F.LRN_CFG_RX_EN = false) := by decide +kernel
theorem witness_Eligibility : eg.mainClk = true ∧ eg.flag R.TM_CTL F.TM_CTL_RUN = true ∧
    eg.time.skipFrom.isNone = true ∧
    (let s := { put eg [(R.TM_SHP_SLOPE 3 2, ⟨31, 0⟩, 8000)] with creds := [(26, -5)] }
     s.cred 3 2 < 0 ∧ (0 : Int) ≤ s.cred 3 2 + 2 * ((s.slope 3 2 : Nat) : Int) ∧ s.shaped 3 2 = true ∧ s.sendingCls 3 2 = false ∧ s.paused 3 2 = false ∧ s.gateOpen 3 2 s.sNs = true) := by decide +kernel
theorem witness_GateLists : (let s := put fw [(R.TM_GCL_ADM_CYCLE 0, F.TM_GCL_ADM_CYCLE, 1000000000)]
     s.open 0x800 (R.TM_GCL_CTL 0) ∧ s.flag (R.TM_GCL_CTL 0) F.TM_GCL_CTL_PEND = false ∧ bits (256 : Nat) 8 0 = 256 ∧
     s.fld (R.TM_GCL_ADM_CYCLE 0) F.TM_GCL_ADM_CYCLE = 1000000000 ∧ s.timeAt (R.TM_GCL_ADM_BASE_NS 0) < 2 ^ 48 * 1000000000 ∧
     ceilDiv s.time.sched nsU < 2 ^ 48 * 1000000000 - 1000000000) ∧
    (let s := put fw [(R.TM_GCL_CTL 0, F.TM_GCL_CTL_PEND, 1)]
     s.mainClk = true ∧ s.flag (R.TM_GCL_CTL 0) F.TM_GCL_CTL_PEND = true ∧ s.timeAt (R.TM_GCL_CHG_NS 0) ≤ s.sNs ∧ s.txq = []) := by decide +kernel
theorem witness_Meters : let s := put fw [(R.MTR_CMD_CIR 0, ⟨31, 0⟩, 8), (R.MTR_CMD_CBS 0, F.MTR_CMD_CBS, 64), (R.MTR_CMD_XBS 0, F.MTR_CMD_XBS, 64)]
    s.open 0x800 (R.MTR_CMD_CTL 0) ∧ (s.reg (R.MTR_CMD_CIR 0)).toNat = 8 ∧ (s.reg (R.MTR_CMD_PIR 0)).toNat = 0 ∧ 64 ≤ s.fld (R.MTR_CMD_CBS 0) F.MTR_CMD_CBS ∧
    64 ≤ s.fld (R.MTR_CMD_XBS 0) F.MTR_CMD_XBS ∧ (s.reg (R.MTR_CMD_CFG 0)).getLsbD 31 = false ∧
    ({ cir := 8 } : Meter).aware = false ∧ ({ cir := 8 } : Meter).tr = false ∧ ({ cir := 8, cfg := 0x80000000 } : Meter).tr = true := by decide +kernel
theorem witness_LanePermutation : ∀ l : Fin 8, ∃ k : Fin 8, bits (0xFAC688 : Nat) (3 * k + 2) (3 * k) = l := by decide +kernel
theorem witness_PortRegisters : fw.open 0x800 (R.PORT_MODE 0) ∧ fw.flag (R.PORT_CTL 0) F.PORT_CTL_EN = false ∧ fw.modeOk 0 2 = true ∧ fw.modeOk 0 15 = false ∧
    fw.open 0x800 (R.SDS_LANE_MAP_TX 7) ∧ fw.macroOff 7 = true ∧ fw.open 0x800 (R.PORT_TS_TAG 63) ∧ fw.stampL 63 = [] ∧
    pt.open 0x80F (R.PORT_CTL 0) ∧ pt.flag (R.PORT_CTL 0) F.PORT_CTL_EN = true ∧ bits (9216 : Nat) 13 0 = 9216 ∧ pt.tx 0 = none ∧ pt.pkts = [] ∧
    pt.macroOff 0 = false := by decide +kernel
theorem witness_StampFifo : let s := { fw with stamps := [(0, [(7, 70000)])] }
    s.stampL 0 = [(7, 70000)] ∧ s.latched 0x800 (R.PORT_TS_TAG 0) = none ∧
    ((s.setLatch 0x800 (R.PORT_TS_SEC_HI 0) (some 5)).latched 0x800 (R.PORT_TS_SEC_HI 0)) = some 5 := by decide +kernel
theorem witness_CrossbarRegisters : fw.open 0x800 R.XB_MCG_SEL ∧ fw.open 0x800 R.XB_MCG_MAP_2 ∧ fw.open 0x800 (R.XB_PORT 71) ∧ fw.voqs = [] := by
  decide +kernel

/-! ### Time -/

/-- A time-of-day message of second 0 with flag bit 0 and its check. -/
def todMsg : List Byte := (put fw [(R.TIME_STAT, F.TIME_STAT_STATE, tLOCKED)]).todMessage 0 37

theorem witness_TimeEvents : fw.mode ≠ mOFF ∧ fw.time.stepTick ≠ some fw.clk ∧
    fw.time.edge = none ∧ fw.time.slew = 0 ∧ todOk [] = false ∧ fw.rasLog.length < 512 ∧ fw.secondAnd 0 = true ∧ fw.time.skipFrom = none := by decide +kernel
theorem witness_PpsRejected :
    let s := { put fw [(R.TIME_STAT, F.TIME_STAT_STATE, tLOCKED), (R.TIME_CTL, F.TIME_CTL_SRC, 2)] with time := { d := 400000000 * nsU, rej := 2 } }
    s.tState = tLOCKED ∧ s.fld R.TIME_IO F.TIME_IO_PPS_REJ * 1000 < s.dNs % 1000000000 ∧ s.dNs % 1000000000 ≤ 500000000 ∧ s.time.rej + 1 ≠ 4 ∧
    s.tSrc ≠ 0 ∧ s.tState ≠ tHOLDOVER := by decide +kernel
theorem witness_TimeOutputs :
    (let s := { fw with time := { w := some 5, d := 5 } }
     s.time.w = some 5 ∧ 5 ≤ s.time.d) ∧
    (put fw [(R.TIME_IO, F.TIME_IO_PPS_OUT_EN, 1)]).flag R.TIME_IO F.TIME_IO_PPS_OUT_EN = true ∧
    (put fw [(R.TIME_IO, F.TIME_IO_TOD_OUT_EN, 1)]).flag R.TIME_IO F.TIME_IO_TOD_OUT_EN = true := by decide +kernel
theorem witness_TodMessage : let s := { put fw [(R.TIME_CTL, F.TIME_CTL_AUTOSET, 0)] with time := { edge := some (0, 0), run := 10000000 * nsU } }
    todMsg = 0x5A :: todMsg.drop 1 ∧ s.time.edge = some (0, 0) ∧ 10000000 * nsU ≤ s.time.run - 0 ∧ s.time.run - 0 ≤ 900000000 * nsU ∧ todOk (todMsg) = true ∧ ((todMsg).getD 3 0).getLsbD 0 = true ∧
    valBE (((todMsg).drop 4).take 6) = (0 / nsU + 500000000) / 1000000000 ∧ s.flag R.TIME_CTL F.TIME_CTL_AUTOSET = false := by decide +kernel
theorem witness_StepsAndTriggers :
    (let s := { fw with time := { ordered := true, d := 9 * nsU } }
     s.time.ordered = true ∧ s.mode ≠ mOFF ∧ s.stepTarget < s.time.d) ∧
    (let s := { fw with time := { ordered := true } }
     s.time.d ≤ s.stepTarget) ∧
    (let s := put fw [(R.TIME_TRIG_CTL 7, F.TIME_TRIG_CTL_ARM, 1), (R.TIME_TRIG_CTL 7, F.TIME_TRIG_CTL_ACT, 1)]
     s.flag (R.TIME_TRIG_CTL 7) F.TIME_TRIG_CTL_ARM = true ∧ s.trigNs 7 ≤ s.sNs ∧ s.fld (R.TIME_TRIG_CTL 7) F.TIME_TRIG_CTL_ACT = 1 ∧
     s.fld (R.TIME_TRIG_CTL 7) F.TIME_TRIG_CTL_PERIOD_US = 0 ∧ s.mode ≠ mDORMANT) := by decide +kernel
theorem witness_TimeRegisters : fw.open 0x80F R.TIME_ADJ_NS ∧ fw.tSrc = 0 ∧ (put fw [(R.TIME_CTL, F.TIME_CTL_SRC, 2)]).tSrc = 2 ∧
    fw.open 0x800 R.TIME_STEP ∧ fw.flag R.TIME_STEP F.TIME_STEP_BUSY = false ∧
    (put fw [(R.TIME_STEP, F.TIME_STEP_BUSY, 1)]).flag R.TIME_STEP F.TIME_STEP_BUSY = true ∧ fw.open 0x800 R.TIME_NOW_FRAC ∧
    fw.latched 0x800 R.TIME_NOW_FRAC = none ∧ fw.open 0x800 R.TIME_CTL ∧ bits (3 : Nat) (F.TIME_CTL_SRC).hi (F.TIME_CTL_SRC).lo = 3 := by decide +kernel

/-! ### Tables, views and learning -/

/-- Exact-match table 1, on-die, with keys of 8 bytes and 6 data bytes; the command registers name an empty key. -/
def tb : State := put fw [(R.EM_TBL_CFG 0 1, F.EM_TBL_CFG_EN, 1), (R.EM_TBL_CFG 0 1, F.EM_TBL_CFG_KEY_B, 8), (R.EM_TBL_CFG 0 1, F.EM_TBL_CFG_DATA_B, 6)]

/-- An entry of that table. -/
def ent (vw : Nat) : EmEnt :=
  { tbl := 1, view := vw, age := 0, inst := 0, stat := false, learned := false, frozen := false, ctr := 0, key := List.replicate 8 0, data := List.replicate 6 1 }

/-- The place of that entry: the first slot of its bucket. -/
def slot0 : Nat := tb.bucketOf 1 (List.replicate 8 0) false * 4

/-- The table with the entry. -/
def te (vw : Nat) : State := { tb with em := [(slot0, ent vw)] }

theorem witness_ExactMatch : let v : W32 := 0x00400100
    let g (s : State) (op : Nat) : State := s.setReg (R.EM_CMD_CTL 0) (goOp op v &&& 0x0FE0FF00)
    tb.open 0x800 (R.EM_CMD_CTL 1) ∧ tb.emBusy = false ∧ tb.bulkRuns = false ∧ tb.commitPend = false ∧ bits v.toNat 15 8 = 1 ∧ bits v.toNat 23 22 = 1 ∧
    tb.emEn 1 = true ∧ (g tb 1).cmdBad 1 (tb.keyRegs.take (tb.keyB 1)) = false ∧ (g tb 1).keyEnts 1 (tb.keyRegs.take (tb.keyB 1)) = [] ∧
    (g tb 1).quotaFull 0 = false ∧ (g tb 1).placeEnt (tb.emDeep 1) ((g tb 1).bucketOf 1 (tb.keyRegs.take (tb.keyB 1)) (tb.emDeep 1)) 1 = some slot0 ∧
    slot0 < deep0 := by decide +kernel
theorem witness_ExactMatchFound : let v : W32 := 0x00400100
    let g (s : State) (op : Nat) : State := s.setReg (R.EM_CMD_CTL 0) (goOp op v &&& 0x0FE0FF00)
    ((g (te 3) 2).keyEnts 1 (tb.keyRegs.take (tb.keyB 1))).filter (fun e => e.2.view &&& 1 != 0) = [(slot0, ent 3)] ∧
    (g (te 2) 5).keyEnts 1 (tb.keyRegs.take (tb.keyB 1)) = [(slot0, ent 2)] ∧ locPlace 0 = some 0 ∧ locPlace 0xC0000000 = none ∧
    (put tb [(R.EM_CMD_STAT 0, F.EM_CMD_STAT_BUSY, 1)]).emBusy = true := by decide +kernel
theorem witness_BulkLoads : (put fw [(R.EM_BULK_CTL 0, F.EM_BULK_CTL_STATE, 1), (R.EM_BULK_CNT 0, F.EM_BULK_CNT_CNT, 2)]).bulkRuns = true ∧
    fw.bulkRuns = false ∧ (0 : Nat) + 1 < 2 ∧ fw.open 0x800 (R.EM_BULK_CTL 1) ∧ fw.open 0x800 (R.EM_SEED 0) ∧ fw.seedOk = true ∧
    (put fw [(R.EM_TBL_CNT 0 0, ⟨31, 0⟩, 1)]).seedOk = false ∧ fw.open 0x800 (R.EM_TBL_CFG 1 255) ∧ fw.reg (R.EM_TBL_CNT 0 255) = 0 ∧
    (let v : W32 := 0x0FA00000
     1 ≤ bits v.toNat 27 21 ∧ bits v.toNat 20 18 ≤ 6 ∧ bits v.toNat 27 21 + bits v.toNat 20 18 ≤ 128) := by decide +kernel

/-- Ternary table 2 with one row of priority 5 in view 0, value and mask zero. -/
def tr : State := { put fw [(R.TC_TBL 0 2, F.TC_TBL_EN, 1)] with tcr := [(7, some { tag := 2, view := 1, prio := 5, inst := 0, ctr := 0, val := 0, mask := 0, data := 9 })] }

theorem witness_Ternary : tr.open 0x800 (R.TC_CMD_CTL 0) ∧ tr.tcBusy = false ∧ tr.commitPend = false ∧ tr.tcEn 2 = true ∧
    (tr.rows.filter fun e => (e.2.tag == 2) && (e.2.mask == tr.tcWide (R.TC_CMD_MASK 0)) && (e.2.val == (tr.tcWide (R.TC_CMD_VAL 0) &&& tr.tcWide (R.TC_CMD_MASK 0)))).length = 1 ∧
    (makeRoom tr.rows 4).isSome = true ∧ tr.quotaFull 0 = false ∧ (tr.row 7).isSome = true ∧ (tr.tcSearch 2 0 0).isSome = true ∧ tr.tcSearch 2 0 1 = none ∧
    ({ tr with mrMoves := [(7, 9)] } : State).row 7 = tr.row 7 ∧ tr.domOn 16 = true ∧ tr.reg (R.TC_PAR 0) ≠ 0xFFFFFFFF ∧
    (put tr [(R.TC_CMD_STAT 0, F.TC_CMD_STAT_BUSY, 1)]).tcBusy = true := by decide +kernel
theorem witness_Views : fw.open 0x800 (R.VIEW_CTL 0) ∧ fw.drained = true ∧ fw.bulkRuns = false ∧ fw.commitPend = false ∧ fw.syncNeeded = false ∧
    fw.fld (R.VIEW_STAT 0) F.VIEW_STAT_S_STATE ≠ 1 ∧ fw.emBusy = false ∧ fw.tcBusy = false ∧ fw.instStg = [] ∧ fw.dirty = [] ∧
    (put fw [(R.VIEW_STAT 0, F.VIEW_STAT_DRAINED, 0)]).drained = false ∧ (put fw [(R.VIEW_STAT 0, F.VIEW_STAT_SYNC_NEEDED, 1)]).syncNeeded = true ∧
    (put fw [(R.VIEW_STAT 0, F.VIEW_STAT_DRAINED, 0), (R.VIEW_CTL 0, F.VIEW_CTL_DRAIN_LIMIT, 1)]).fld (R.VIEW_CTL 0) F.VIEW_CTL_DRAIN_LIMIT ≠ 0 ∧
    (let s := { put tr [(R.VIEW_STAT 0, F.VIEW_STAT_S_STATE, 1)] with dirty := [(2 ^ 21 + 7, true)] }
     s.fld (R.VIEW_STAT 0) F.VIEW_STAT_S_STATE = 1 ∧ (s.row (2 ^ 21 + 7 - 2 ^ 21)).isSome = true) ∧
    (te 1).bucketEnts false (slot0 / 4) = [(slot0, ent 1)] ∧ slot0 / 4 < 2 ^ 19 := by decide +kernel
theorem witness_Lookups : let l : Lkp := { pkt := 9, slot := 1, stage := 3, kind := 0, table := 1, key := List.replicate 8 0, half := 0, view := 0, fwd := false }
    let s := { te 1 with lkps := [(4, l)], pkts := [(9, { loc := .ing 0 })] }
    smFind s.lkps 4 = some l ∧ s.mainClk = true ∧ s.domOn (16 + s.servedBy l) = true ∧ s.emEn 1 = true ∧ s.emDeep 1 = false ∧
    (s.keyEnts 1 (fitKey (s.keyB 1) l.key)).find? (fun e => e.2.inView 0) = some (slot0, ent 1) ∧
    (s.keyEnts 1 (fitKey (s.keyB 1) l.key)).find? (fun e => e.2.inView 1) = none ∧ s.flag (R.LRN_AGE 1) F.LRN_AGE_EN = false ∧ s.hasPkt 9 = true ∧
    s.holderOf 9 = none ∧ s.emEn 2 = false ∧
    (let d := put s [(R.EM_TBL_CFG 0 1, F.EM_TBL_CFG_STORE, 1)]
     d.emDeep 1 = true ∧ d.cached (d.servedBy l) (d.bucketOf 1 l.key true) = false ∧ d.bucketBad (d.bucketOf 1 l.key true) = false ∧
     (d.keyEnts 1 (fitKey (d.keyB 1) l.key)).find? (fun e => e.2.inView 0) = none) := by decide +kernel

/-- Table 1 is the learn table, with one learned address of this device at port 3. -/
def ln (es : List (Nat × EmEnt)) : State :=
  { put tb [(R.LRN_CFG, F.LRN_CFG_TABLE_ID, 1), (R.LRN_CFG, F.LRN_CFG_EN, 1), (R.LRN_CFG, F.LRN_CFG_TX_EN, 1), (R.LRN_PORT 3, F.LRN_PORT_LIMIT, 9),
            (R.LRN_INST 0, F.LRN_INST_LIMIT, 9)] with em := es }

/-- The learned address: BD 0, MAC 0, port 3. -/
def lent : EmEnt := { ent 3 with learned := true, data := learnData 3 0 0, sw := false }

theorem witness_Learning : let c : SrcChk := { bd := 0, mac := 0, port := 3, view := 0, inst := 0, pkt := 9 }
    let s := { ln [] with srcChks := [(0, [c])], learnQ := [(0, [{ bd := 0, mac := 0, port := 3, inst := 0 }])], lrnRecs := [{ op := 1, bd := 0, mac := 0, dev := 5, port := 2, ts := 0 }] }
    s.mainClk = true ∧ s.lrnOk = true ∧ smGet (fun _ => []) s.srcChks 0 = [c] ∧ s.flag R.LRN_CFG F.LRN_CFG_EN = true ∧ s.halfFenced 0 = false ∧
    (s.keyEnts 1 (learnKey 0 0)).find? (fun e => e.2.inView 0) = none ∧ s.portCnt 3 < s.fld (R.LRN_PORT 3) F.LRN_PORT_LIMIT ∧
    s.instCnt 0 < s.fld (R.LRN_INST 0) F.LRN_INST_LIMIT ∧ (smGet (fun _ => []) s.learnQ (s.lrnHome 0 0)).length < 4096 ∧ s.lrnRun 0 = true ∧
    s.lrnFind 0 0 = none ∧ s.placeEnt false (s.lrnBucket 0 0) 1 = some slot0 ∧ slot0 < deep0 ∧ s.lrnRun (s.lrnHome 0 0) = true := by decide +kernel
theorem witness_LearnedEntries : let s := { ln [(slot0, lent)] with damps := [(0, { moves := [1], frozen := true })], time := { d := 2 ^ 20 * 1000 * nsU }, lrnRecs := [{ op := 2, bd := 0, mac := 0, dev := 0, port := 3, ts := 9 }] }
    s.lrnOk = true ∧ (∀ e ∈ s.em, e.1 < deep0) ∧ s.lrnFind 0 0 = some (slot0, lent) ∧ lent.lPort = 3 ∧ lent.lDev = 0 ∧ lent.stat = false ∧ lent.frozen = false ∧
    tsLater s.dUs lent.lts = true ∧ tsLater 9 lent.lts = true ∧ s.ownDev = 0 ∧
    (s.damps.reverse.find? fun d => d.2.frozen && (d.1 / 2 ^ 64 == 0)) = some (0, { moves := [1], frozen := true }) ∧
    ({ s with peers := [(5, { known := true })] } : State).lrnOk = true := by decide +kernel
theorem witness_LearnFrames : let s := { ln [(slot0, lent)] with lrnIn := [List.replicate 14 0 ++ [1, 1, 0, 0, 0, 0, 0, 5] ++ List.replicate 4 0], lrnOpen := List.replicate 20 { op := 1, bd := 0, mac := 0, dev := 0, port := 3, ts := 0 } }
    s.mainClk = true ∧ s.flag R.LRN_CFG F.LRN_CFG_TX_EN = true ∧ 20 ≤ s.lrnOpen.length ∧ ((s.lrnIn.headD []).length = 26) ∧
    valBE (((s.lrnIn.headD []).drop 18).take 2) = s.fld R.LRN_DOM F.LRN_DOM_DOMAIN_ID ∧ valBE (((s.lrnIn.headD []).drop 20).take 2) % 2 ^ 14 ≠ s.ownDev ∧
    s.open 0x800 R.LRN_FLUSH ∧ s.lrnState false ≠ 1 ∧ s.open 0x800 R.LRN_DUMP ∧ s.lrnState true ≠ 1 ∧
    s.visits (homeHalf (slot0 / 4)) (slot0 / 4) = true ∧ s.visitEnts (slot0 / 4) = [(slot0, lent)] ∧ slot0 / 4 < 2 ^ 19 ∧
    (put s [(R.LRN_AGE 1, F.LRN_AGE_EN, 1)]).flag (R.LRN_AGE 1) F.LRN_AGE_EN = true ∧ (put s [(R.LRN_FLUSH, F.LRN_FLUSH_STATE, 1)]).lrnState false = 1 ∧
    s.lrnEnts = [(slot0, lent)] ∧ slot0 < ovf0 ∧ s.flushes lent = true ∧ (ln []).lrnEnts = [] := by decide +kernel

/-! ### Sinter, tasks, locks, interrupts, engines -/

/-- Agent 0x800 owns buffer 5 of pool 0; the command registers name it. -/
def sb : State := (put fw [(R.SINT_CMD_PTR, F.SINT_CMD_PTR, 5), (R.SINT_CMD_LEN, F.SINT_CMD_LEN, 64)]).setDesc 5 (mkDesc 0x800 768 noBuf 64)

theorem witness_SinterBuffers : let g (s : State) (op : Nat) : State := s.putW { at_ := R.SINT_CMD_CTL, cap := R.SINT_CMD_CTL } (goOp op 0)
    sb.open 0x800 R.SINT_CMD_CTL ∧ sb.ptrOk 5 = true ∧ sb.ptrOk (descNext (sb.desc 5)) = false ∧ descOwner (sb.desc 5) = 0x800 ∧ descOwner (sb.desc 5) ≠ 0x801 ∧
    sb.fld R.SINT_CMD_LEN F.SINT_CMD_LEN = 64 ∧ sb.fenced 0 = false ∧ (put sb [(R.SINT_CMD_PTR, F.SINT_CMD_PTR, 0xFFFFFF)]).ptrOk 0xFFFFFF = false ∧
    ((g { sb with pools := [(0, { cnt := 32768, stack := [5], next := 6 })] } 1).admission 768 256).isSome = true ∧
    (g { sb with accts := [(768, { sh := 2 ^ 40 })] } 1).admission 768 256 = none ∧
    ({ sb with pools := [(0, { cnt := 32768, stack := [], next := 6 })] } : State).pool 0 = { cnt := 32768, stack := [], next := 6 } ∧
    (put sb [(R.SINT_WIN_PTR, F.SINT_WIN_PTR, 5)]).winPlace 63 = some (5, 252) ∧
    (put sb [(R.SINT_WIN_PTR, F.SINT_WIN_PTR, 0xFFFFFF)]).winPlace 0 = none ∧ sb.latched 0x800 (R.SINT_WIN 63) = none := by decide +kernel
theorem witness_SinterPoolsAndAudit : let s := put (st mCONFIGURE []) [(R.SINT_POOL_CNT 0, F.SINT_POOL_CNT, 4194303)]
    let sum (s : State) := (List.range 4).foldl (fun n k => n + s.fld (R.SINT_POOL_CNT k) F.SINT_POOL_CNT * poolSize k) 0
    s.mode = mCONFIGURE ∧ s.accts = [] ∧ s.fld R.SINT_AUDIT F.SINT_AUDIT_STATE = 0 ∧ 100663296 < sum s ∧ sum (st mCONFIGURE []) ≤ 100663296 ∧
    s.open 0x800 R.SINT_POOL_CTL ∧ s.open 0x80F R.SINT_AUDIT ∧ (put fw [(R.SINT_AUDIT, F.SINT_AUDIT_STATE, 1)]).fld R.SINT_AUDIT F.SINT_AUDIT_STATE = 1 ∧
    fw.mode ≠ mCONFIGURE ∧ fw.flag R.SINT_AUDIT F.SINT_AUDIT_RECLAIM = false := by decide +kernel

/-- Context 3 runs tasks; task 7 is its own, with base priority 5 in group 0. -/
def tk (x : TaskSt) : State :=
  (put en [(R.TSK_CTX_CFG 3, F.TSK_CTX_CFG_EN, 1), (R.TSK_GRP_CFG 0, F.TSK_GRP_CFG_EN, 1)]).setTask 7
    { cfg := setF (setF 0 F.TSK_TCE_CFG_AGENT 0x803) F.TSK_TCE_CFG_BPRIO 5, tcbHi := 0x20, st := x, eprio := 5 }

/-- Task 7 runs on the context. -/
def tkr : State := (tk .running).setThr 0x803 { en.thr 0x803 with task := some 7 }

theorem witness_Tasks : (tk .off).open 0x800 R.TSK_CMD ∧ ((tk .off).task 7).st = .off ∧ ((tk .off).task 7).agent = 0x803 ∧ (tk .off).runsTasks 0x803 = true ∧
    ((tk .off).task 7).tcbOk = true ∧ (tk .off).flag (R.TSK_GRP_CFG 0) F.TSK_GRP_CFG_EN = true ∧ en.runsTasks 0x803 = false ∧ ((tk .idle).task 7).st = .idle ∧
    ((tk .ready).task 7).st = .ready ∧ (tk .ready).locks = [] ∧ tkr.portOk 0x803 = true ∧ (tkr.thr 0x803).task = some 7 ∧ (tkr.task 7).st = .running ∧
    tkr.flag R.TSK_CTL F.TSK_CTL_RUN = false ∧ (tkr.task 7).pend = 0 ∧ tkr.portOk 3 = false ∧ (en.thr 0x803).task = none ∧ en.portOk 0x803 = true ∧
    ((tkr.setTask 7 { tkr.task 7 with pend := 1 }).task 7).pend = 1 ∧ (tkr.task 7).group = 0 ∧ tkr.flag (R.TSK_GRP_CFG 0) F.TSK_GRP_CFG_MODE = false := by
  decide +kernel
theorem witness_TaskReleaseByPort : let s := tkr.setTask 8 { st := .idle }
    s.portOk 0x803 = true ∧ (s.thr 0x803).task = some 7 ∧ (s.task 8).st = .idle ∧ (s.task 9).st = .off := by decide +kernel
theorem witness_TaskDispatch : let s := (put (tk .ready) [(R.TSK_CTL, F.TSK_CTL_RUN, 1)]).setReadyL 0x803 5 [7]
    let r := (put tkr [(R.TSK_CTL, F.TSK_CTL_RUN, 1)]).setTask 8 { (tk .ready).task 7 with eprio := 6 }
    (s.setThr 0x803 { s.thr 0x803 with wait := .wfe 32 0 1 }).atIdle 0x803 = true ∧ s.bestTask 0x803 0 = some 7 ∧ s.atIdle 0x803 = false ∧
    (tk .ready).bestTask 0x803 0 = none ∧ (r.setReadyL 0x803 6 [8]).switchReq 0x803 = true ∧ (r.setReadyL 0x803 6 [8]).switchable 0x803 = true ∧
    (r.thr 0x803).stopReq = false ∧ (r.setReadyL 0x803 6 [8]).bestTask 0x803 6 = some 8 ∧ tkr.switchReq 0x803 = false := by decide +kernel
theorem witness_TaskTicks : let s := { tk .delayed with delays := [(0, [(1, 7)])] }
    s.mainClk = true ∧ s.time.w = none ∧ s.delayL 0 = [(1, 7)] ∧ (s.task 7).st = .delayed ∧ (tk .off).delayL 0 = [] ∧
    ({ tk .delayed with delays := [(0, [(0 + 2, 7)])] } : State).delayL 0 = [(0 + 2, 7)] ∧
    ({ tk .idle with tmouts := [(0, 7)] } : State).tmouts.find? (fun x => x.2 == 7) = some (0, 7) ∧ (tk .idle).time.sched = 0 ∧
    ({ tk .idle with tmouts := [(1, 7)] } : State).tmouts.find? (fun x => x.2 == 7) = some (1, 7) := by decide +kernel

theorem witness_Locks : fw.open 0x80F (R.LCK_ACQ 1023) ∧ (fw.lock 1023).held = false ∧ fw.open 0x80F (R.LCK_REL 1023) ∧ fw.holds 0x80F 1023 = false ∧
    (let s := fw.setLock 0 { held := true, owner := 0x800, otask := 0xFFF }
     (s.lock 0).held = true ∧ (s.lock 0).owner ≠ 0x801 ∧ (s.lock 0).owner < 4096 ∧ s.holds 0x800 0 = true ∧ (s.lock 0).q = []) ∧
    (let s := fw.setLock 0 { held := true, owner := 0x800, otask := 0xFFF, q := [⟨0x803, 7, 5⟩] }
     s.holds 0x800 0 = true ∧ (s.lock 0).q = [⟨0x803, 7, 5⟩]) := by decide +kernel

/-- Soft source 0 is set, enabled, of priority 3, for a target and a vector. -/
def iq (tgt vec : Nat) : State :=
  put fw [(R.IRQ_SRC 0x380, F.IRQ_SRC_EN, 1), (R.IRQ_SRC 0x380, F.IRQ_SRC_PRIO, 3), (R.IRQ_SRC 0x380, F.IRQ_SRC_TGT, tgt), (R.IRQ_SRC 0x380, F.IRQ_SRC_VEC, vec),
          (R.IRQ_SOFT_STAT_LO, ⟨0, 0⟩, 1), (R.IRQ_CTL, F.IRQ_CTL_EN, 1)]

theorem witness_Interrupts : fw.asserted 0x380 = false ∧ (iq 1 0).asserted 0x380 = true ∧ (iq 1 0).srcEn 0x380 = true ∧ (iq 1 0).srcTgt 0x380 = 1 ∧
    (let s := (iq 1 0).setThr 0x804 { wait := .sleep }
     (s.thr (0x800 + s.srcTgt 0x380 * 4)).wait = .sleep ∧ s.coreWakes = []) ∧ (iq 4 0).srcTgt 0x380 = 4 ∧
    (iq 1 0).open 0x804 (R.IRQ_CLAIM 1) ∧ mayClaim 0x804 1 = true ∧ (iq 1 0).topSource 1 = some 0x380 ∧ (iq 1 0).topSource 0 = none ∧ mayClaim 0x800 0 = true ∧
    mayClaim 0x800 1 = false ∧ (iq 1 0).open 0x804 (R.IRQ_EOI 1) ∧ (iq 1 0).inService 0x380 = false ∧ ((iq 1 0).setService 0x380 true).inService 0x380 = true ∧
    fw.open 0x800 R.IRQ_SOFT ∧ fw.inService (0x380 + 63) = false ∧ fw.open 0x800 R.IRQ_HEOI ∧
    (iq 5 2047).mainClk = true ∧ (iq 5 2047).flag R.IRQ_CTL F.IRQ_CTL_EN = true ∧ (iq 5 2047).srcTgt 0x380 = 5 ∧ (iq 5 2047).srcPending 0x380 = true ∧
    (iq 5 2047).srcVec 0x380 = 2047 ∧ smGet (fun _ => false) (iq 5 2047).vecOpen 2047 = false ∧
    smGet (fun _ => false) ({ iq 5 2047 with vecOpen := [(2047, true)] } : State).vecOpen 2047 = true ∧ fw.srcPending 0 = false ∧ fw.configured = [] := by
  decide +kernel
theorem witness_WakeWatcher : let s := put { (iq 1 0).setReg R.DEV_MODE (BitVec.ofNat 32 mSIMMER) with going := none } [
      (R.IRQ_WAKE 31, F.IRQ_WAKE_EN, 1), (R.IRQ_WAKE 31, F.IRQ_WAKE_SRC, 0x380), (R.AON_WAKE, F.AON_WAKE_EN, 1)]
    s.wakeable = true ∧ s.flag (R.IRQ_WAKE 31) F.IRQ_WAKE_EN = true ∧ s.asserted (s.fld (R.IRQ_WAKE 31) F.IRQ_WAKE_SRC) = true ∧
    (s.fld R.AON_WAKE F.AON_WAKE_EN).testBit 0 = true ∧ fw.wakeable = false := by decide +kernel

theorem witness_EngineRegisters : fw.open 0x800 (R.ENG_THR_RST (2047 / 8)) ∧ fw.open 0x800 (0x200008 + 255 * 0x1000) ∧ en.open 0x800 (R.ENG_CTL 0) ∧ en.engRun 0 = true ∧
    bits (0x80000000 : W32).toNat 30 24 = bits (en.reg (R.ENG_CTL 0)).toNat 30 24 ∧ bits (0x7F000000 : W32).toNat 30 24 ≠ bits (en.reg (R.ENG_CTL 0)).toNat 30 24 ∧
    fw.engRun 255 = false ∧ fw.ploadBars 255 = false ∧ fw.open 0x80F (R.ENG_THR_CFG 255) ∧ fixRoles 0x5555 = (fw.reg (R.ENG_THR_CFG 255)).toNat % 65536 ∧
    (put fw [(R.ENG_THR_CFG 255, ⟨15, 0⟩, 2)]).role (255 * 8 + 0) = rService ∧
    ((put fw [(R.ENG_THR_CFG 255, ⟨15, 0⟩, 2)]).setThr (255 * 8) { fresh := true }).thr (255 * 8) = { fresh := true } ∧
    fw.open 0x800 (R.CLU_IRAM_DATA 63) ∧ fw.latched 0x800 (R.CLU_IRAM_DATA 63) = none ∧ fw.clusterRuns 63 = false ∧ fw.reqSigned = false ∧ en.clusterRuns 0 = true ∧
    (put fw [(R.SEC_CTL, F.SEC_CTL_REQ_SIGNED, 1)]).reqSigned = true := by decide +kernel
theorem witness_DataRegisters : fw.open 0x800 (R.CLU_SHR_DATA 63) ∧ fw.open 0x800 (R.CLU_IRAM_FIX_DATA 63) ∧
    fw.open 0x800 (R.ENG_HKEY_LO 255) ∧ fw.latched 0x800 (R.ENG_HKEY_LO 255) = none ∧ fw.open 0x800 (R.ENG_HKEY_HI 255) := by decide +kernel
theorem witness_PloadBars : ((put fw [(R.SEC_CMD_CTL, F.SEC_CMD_CTL_STATE, 1), (R.SEC_CMD_CTL, F.SEC_CMD_CTL_OP, 2), (R.SEC_CMD_ADDR_HI, ⟨31, 0⟩, 0x20)]).wr8
    0x200000003C 1).ploadBars 3 = true := by decide +kernel
theorem witness_Watchdog :
    let s (act : Nat) : State := { put (en3 id) [(R.ENG_WDOG 0, F.ENG_WDOG_ACT, act)] with engs := [(0, { held := [9] })] }
    (s 1).wdogCounts 0 = true ∧ (s 1).fld (R.ENG_WDOG 0) F.ENG_WDOG_ACT ≠ 2 ∧ (s 2).wdogCounts 0 = true ∧ (s 2).fld (R.ENG_WDOG 0) F.ENG_WDOG_ACT = 2 ∧
    (put (s 2) [(R.RAS_CFG, F.RAS_CFG_AF_WDOG, 0)]).flag R.RAS_CFG F.RAS_CFG_AF_WDOG = false ∧ (s 2).oldest 0 = some 9 ∧ (s 2).holder 0 9 = some 3 ∧
    fw.wdogCounts 0 = false := by decide +kernel
theorem witness_EventDeadlock : let s := (put fw [(R.ENG_CTL 0, F.ENG_CTL_RUN, 1), (R.ENG_THR_CFG 0, ⟨15, 0⟩, 16)]).setThr 2 { wait := .wfe 64 0 1 }
    s.pipeOn 0 = true ∧ s.deadlocked 0 = true ∧ s.role 2 ≠ rOff ∧ (∀ j : Fin 8, j.val < 2 → s.role (0 * 8 + j) = rOff) ∧ en.deadlocked 0 = false := by
  decide +kernel

/-! ### Hosts, instances and rings -/

/-- The link of host 0 is up; instance 0 is active with rings 0–3 and vectors 0–3. -/
def hi : State := { put fw [(R.HIF_LINK 0, F.HIF_LINK_UP, 1), (R.HIF_INST_STAT 0, F.HIF_INST_STAT_STATE, iACTIVE)] with
  instRes := [(0, some [4, 4, 0, 0, 0, 0, 0, 0, 0xFFFFFFFF, 0xFFFFFFFF, 0, 0xFF])] }

/-- Ring 0 of it runs in both directions, with 64 descriptors. -/
def ri : State := put hi [(ringReg 0 0x84, ⟨31, 31⟩, 1), (ringReg 0 0x84, ⟨30, 30⟩, 1), (ringReg 0 0x84, F.HIF_RING_CTL_LOG2, 6)]

theorem witness_Instances : let g (s : State) (op : Nat) : State := s.putW { at_ := R.HIF_INST_CMD, cap := R.HIF_INST_CMD } (goOp op 0)
    let bad := put fw [(instPg 0 + 0x50, ⟨31, 0⟩, 257)]
    fw.open 0x800 R.HIF_INST_CMD ∧ fw.iState 0 = iABSENT ∧ hi.iState 0 ≠ iABSENT ∧ fw.rstBusy 0 = false ∧ inPools (fw.params 0) = true ∧
    fw.clashes 0 (fw.params 0) = false ∧ (g fw 1).minFits 0 (fw.params 0) = true ∧ inPools (bad.params 0) = false ∧
    ((ringsOf (ri.res 0)).filter fun r => ri.ringInst r == 0 && (ri.txEn r || ri.rxEn r)) = [0] ∧
    ((ringsOf (hi.res 0)).filter fun r => hi.ringInst r == 0 && (hi.txEn r || hi.rxEn r)) = [] ∧ hi.rstBusy 0 = false ∧
    hi.fld (R.HIF_INST_TCNT 0) F.HIF_INST_TCNT = 0 ∧ hi.acct (512 + 0) = {} ∧ fw.mode ≠ mCOMPAT ∧
    (let c := hi.setReg R.DEV_MODE (BitVec.ofNat 32 mCOMPAT)
     c.mode = mCOMPAT ∧ c.iState 0 = iACTIVE ∧ inPools (c.params 0) = true ∧ c.clashes 0 (c.params 0) = false ∧ (g c 4).minFits 0 (c.params 0) = true) := by
  decide +kernel
theorem witness_InstanceReset : fw.open 0x80F R.HIF_INST_SEL ∧ fw.iState 255 = iABSENT ∧ (∀ k < 4, hi.staged k = []) ∧ (hi.thr (0x900 + 0)).lockReq = none ∧
    hi.locks = [] ∧ fw.rstBusy 255 = false ∧ (put fw [(R.HIF_INST_STAT 255, F.HIF_INST_STAT_RST_BUSY, 1)]).rstBusy 255 = true ∧ fw.dmas = [] ∧
    smGet (fun _ => false) fw.rstHeld 255 = false ∧ hi.fnOn 0 = true ∧ hi.fnOn 255 = false := by decide +kernel
theorem witness_Mailbox : hi.reach 0x900 (ownAddr 0 0x48) true = .reg { at_ := instPg 0 + 0x48, cap := instPg 0 + 0x48, own := true } ∧
    hi.fld (R.HIF_MBX_CTL 0) F.HIF_MBX_CTL_BUSY = 0 ∧
    (let s := put hi [(R.HIF_MBX_CTL 0, F.HIF_MBX_CTL_BUSY, 1)]
     s.reach 0x900 (ownAddr 0 0x48) true = .reg { at_ := instPg 0 + 0x48, cap := instPg 0 + 0x48, own := true } ∧ s.fld (R.HIF_MBX_CTL 0) F.HIF_MBX_CTL_BUSY = 1) := by
  decide +kernel
theorem witness_Links :
    let v := { put hi [(R.HIF_PF_CFG 0, F.HIF_PF_CFG_FIRST, 4), (R.HIF_PF_CFG 0, F.HIF_PF_CFG_NUM, 1), (R.HIF_INST_STAT 4, F.HIF_INST_STAT_STATE, iACTIVE)] with
      vfEn := [(0, true)] }
    fw.hostOf 255 = none ∧ v.hostOf 4 = some 0 ∧ v.linkHUp 0 = true ∧ v.iState 4 ≠ iABSENT ∧ v.rstBusy 4 = false ∧ smGet (fun _ => false) v.vfEn 0 = true ∧
    smGet (fun _ => false) fw.vfEn 3 = false ∧ fw.linkHUp 3 = false ∧
    (let u := put fw [(R.HIF_LINK 0, F.HIF_LINK_UP, 1)]
     u.linkHUp 0 = true ∧ u.instsOf 0 = [0] ∧ u.iState 0 = iABSENT ∧ smGet (fun _ => false) u.vfEn 0 = false ∧
     smGet (fun _ => false) ({ u with vfEn := [(0, true)] } : State).vfEn 0 = true) ∧
    fw.mainClk = true ∧ fw.mode ≠ mBOOT ∧ (0 : Nat) < fw.hosts ∧ fw.domOn (18 + 0) = true ∧ fw.instsOf 0 = [0] ∧ fw.iState 0 = iABSENT := by decide +kernel

theorem witness_Doorbells : ri.mode ≠ mDORMANT ∧ ri.mainOn = true ∧ ri.fnOn 0 = true ∧ ri.sleeping = false ∧ 0 < qpNum (ri.res 0) ∧ qpFirst (ri.res 0) = 0 ∧
    ri.rstBusy 0 = false ∧ ri.iState 0 = iACTIVE ∧ ri.ringInst 0 = 0 ∧ ri.txEn 0 = true ∧ ri.rxEn 0 = true ∧ (64 + 65536 - ri.txCi 0) % 65536 ≤ ri.ringSize 0 ∧
    (64 + 65536 - ri.rxCi 0) % 65536 ≤ ri.ringSize 0 ∧ qpNum (ri.res 0) ≤ 511 ∧ fw.fnOn 255 = false ∧
    (let s := ri.setReg R.DEV_MODE (BitVec.ofNat 32 mSIMMER)
     s.mode ≠ mDORMANT ∧ s.mainOn = true ∧ s.fnOn 0 = true ∧ s.sleeping = true) := by decide +kernel

/-- Ring 0 has a transmit descriptor of a frame of `len` bytes. -/
def rd (len : Nat) : State := ri.setRing 0 { txPi := 1, txD := some (len * 2 ^ 64 + 0x1000) }

theorem witness_TransmitDescriptors : (rd 13).txEn 0 = true ∧ (rd 13).mainClk = true ∧ ((rd 13).ring 0).txD = some (13 * 2 ^ 64 + 0x1000) ∧ (ri.ring 0).txD = none ∧
    bits (13 * 2 ^ 64 + 0x1000) 77 64 < 14 ∧ 9212 < bits (9213 * 2 ^ 64) 77 64 ∧ bits (60 * 2 ^ 64 + 0x1000) 77 64 = 60 ∧
    ((rd 60).ring 0).txD = some (60 * 2 ^ 64 + 0x1000) ∧ (rd 60).fenced (getF ((rd 60).ringCtl 0) F.HIF_RING_CTL_PIPE) = false ∧
    (match (rd 60).storeFrame (poolFor 64) 512 0x900 9216 true (List.replicate 64 0) with
     | (.stored p, _) => p == 0
     | _ => false) = true := by decide +kernel
theorem witness_Completions : let s (k : DmaKind) (gen : Nat) : State := { rd 60 with dmas := [(5, some { inst := 0, gen := gen, ring := 0, kind := k })] }
    smGet (fun _ => none) ri.dmas 5 = none ∧ smGet (fun _ => none) (s .txDesc 0).dmas 5 = some { inst := 0, gen := 0, ring := 0, kind := .txDesc } ∧
    ri.iGen 0 = 0 ∧ smGet (fun _ => none) (s .txDesc 1).dmas 5 = some { inst := 0, gen := 1, ring := 0, kind := .txDesc } ∧
    smGet (fun _ => none) (s (.rxDesc 2) 0).dmas 5 = some { inst := 0, gen := 0, ring := 0, kind := .rxDesc 2 } := by decide +kernel
theorem witness_Delivery : let p : Pkt := { loc := .out 64, len := 60, inPort := 3 }
    let s (x : List (Nat × Nat)) : State := { (ri.setRing 0 { rxPi := 4, rxD := x }).setStaged 0 [9] with pkts := [(9, p)] }
    (s [(0, 0x2000)]).staged 0 = [9] ∧ fw.staged 3 = [] ∧ (s [(0, 0x2000)]).rxFate 0 9 = .ring 0 0 0x2000 ∧ (s []).rxFate 0 9 = .wait ∧
    ({ hi.setStaged 0 [9] with pkts := [(9, p)] } : State).rxFate 0 9 = .noRing := by decide +kernel
theorem witness_Moderation : ((ri.setRing 0 { mod_ := 2 }).ring 0).mod_ = 2 ∧ (ri.ring 0).mod_ ≠ 2 ∧
    smGet (fun _ => false) ({ ri with vecOpen := [(0, true)] } : State).vecOpen (bits (ri.reg (ringReg 0 0x98)).toNat 26 16) = true := by decide +kernel

/-! ### HBM, modes, power -/

/-- HBM is trained. -/
def hb : State := put fw [(R.HBM_CTL, F.HBM_CTL_TRAINED, 1), (R.HBM_CTL, F.HBM_CTL_RUN, 1), (R.HBM_CTL, F.HBM_CTL_RT_EN, 1), (R.HBM_CTL, F.HBM_CTL_SR_EN, 1), (R.HBM_CTL, F.HBM_CTL_SCRUB_EN, 1)]

/-- The register of pseudo-channel 63 shows something. -/
def p63 (f : Fld) : State := put hb [(R.HBM_PC_STAT 31 1, f, 1)]

theorem witness_HbmWords : hb.hbmOn = true ∧ hb.hbmWord hbmBase = true ∧ hb.poisoned hbmBase = false ∧ fw.hbmOn = false ∧
    hb.flag R.HBM_CTL F.HBM_CTL_SCRUB_EN = true ∧ hb.fencedPc = none ∧ (put hb [(R.HBM_CTL, F.HBM_CTL_SCRUB_EN, 0)]).flag R.HBM_CTL F.HBM_CTL_SCRUB_EN = false ∧
    (put hb [(R.HBM_FENCE_CFG, F.HBM_FENCE_CFG_AUTO, 0)]).flag R.HBM_FENCE_CFG F.HBM_FENCE_CFG_AUTO = false := by decide +kernel
theorem witness_HbmRetrain : hb.flag R.HBM_CTL F.HBM_CTL_RT_EN = true ∧ (∀ p < 64, hb.pcStat p F.HBM_PC_STAT_PAUSE = false) ∧ hb.pcStat 63 F.HBM_PC_STAT_SR = false ∧
    (p63 F.HBM_PC_STAT_PAUSE).pcStat 63 F.HBM_PC_STAT_PAUSE = true ∧ hb.fencedPc ≠ some 63 ∧
    (let s := put (p63 F.HBM_PC_STAT_PAUSE) [(R.HBM_TRAIN, F.HBM_TRAIN_STATE, 1), (R.HBM_TRAIN, F.HBM_TRAIN_PC, 63), (R.HBM_FENCE_CFG, F.HBM_FENCE_CFG_AUTO, 0)]
     s.fld R.HBM_TRAIN F.HBM_TRAIN_STATE = 1 ∧ s.fld R.HBM_TRAIN F.HBM_TRAIN_PC = 63 ∧ s.hbmOn = true ∧ s.open 0x800 R.HBM_TRAIN ∧
     s.flag R.HBM_FENCE_CFG F.HBM_FENCE_CFG_AUTO = false) ∧ hb.open 0x800 R.HBM_TRAIN ∧ hb.fld R.HBM_TRAIN F.HBM_TRAIN_STATE ≠ 1 := by decide +kernel
theorem witness_HbmSelfRefresh : hb.flag R.HBM_CTL F.HBM_CTL_SR_EN = true ∧ hb.anyDeep = false ∧ hb.pcStat 62 F.HBM_PC_STAT_PAUSE = false ∧
    (put hb [(R.HBM_PC_STAT 31 0, F.HBM_PC_STAT_SR, 1)]).pcStat (2 * 31) F.HBM_PC_STAT_SR = true ∧
    (p63 F.HBM_PC_STAT_SR).pcStat 63 F.HBM_PC_STAT_SR = true ∧ (∀ p < 64, (p63 F.HBM_PC_STAT_SR).pcStat p F.HBM_PC_STAT_PAUSE = false) ∧
    (put fw [(R.EM_TBL_CFG 0 255, F.EM_TBL_CFG_EN, 1), (R.EM_TBL_CFG 0 255, F.EM_TBL_CFG_STORE, 1)]).anyDeep = true ∧
    smGet (fun _ => false) ({ hb with rtDue := [(62, true)] } : State).rtDue (2 * 31) = true := by decide +kernel
theorem witness_HbmFence : let s := put hb [(R.HBM_FENCE_CFG, F.HBM_FENCE_CFG_AUTO, 1), (R.RAS_CFG, F.RAS_CFG_AR_HBM, 0)]
    let f := put hb [(R.HBM_FENCE, F.HBM_FENCE_FENCED, 1), (R.HBM_FENCE, F.HBM_FENCE_PC, 63)]
    s.flag R.HBM_FENCE_CFG F.HBM_FENCE_CFG_AUTO = true ∧ s.fencedPc = none ∧ s.flag R.RAS_CFG F.RAS_CFG_AR_HBM = false ∧ f.fencedPc = some 63 ∧
    s.open 0x800 (R.HBM_PC_STAT 31 1) ∧ f.open 0x800 (R.HBM_PC_STAT 31 1) ∧ fw.open 0x800 R.HBM_CTL ∧ fw.flag R.HBM_CTL F.HBM_CTL_RUN = false ∧
    (put fw [(R.HBM_CTL, F.HBM_CTL_SR_US, 1)]).fld R.HBM_CTL F.HBM_CTL_SR_US ≠ 0 ∧ hb.mainClk = true ∧ hb.flag R.HBM_CTL F.HBM_CTL_RUN = true := by decide +kernel

theorem witness_ModeRequests : let g (s : State) (n : Nat) : State := s.putW { at_ := R.DEV_MODE_REQ, cap := R.DEV_MODE_REQ } (goOp n 0)
    let c := put (st mCONFIGURE []) [(R.HBM_CTL, F.HBM_CTL_TRAINED, 1), (R.XB_CTL, F.XB_CTL_RUN, 1), (R.TM_CTL, F.TM_CTL_RUN, 1)]
    c.open 0x800 R.DEV_MODE_REQ ∧ (put c [(R.DEV_MODE_REQ, F.DEV_MODE_REQ_STATUS, 1)]).reqStatus = 1 ∧ c.reqStatus ≠ 1 ∧ (g c 15).modeAllowed 15 = false ∧
    (g c mFORWARD).modeAllowed mFORWARD = true ∧ (g c mFORWARD).modeCond mFORWARD = true ∧ (g (st mCONFIGURE []) mFORWARD).modeAllowed mFORWARD = true ∧
    (g (st mCONFIGURE []) mFORWARD).modeCond mFORWARD = false ∧ c.replay = false ∧ (g fw mMAINTAIN).modeAllowed mMAINTAIN = true ∧
    (g fw mMAINTAIN).modeCond mMAINTAIN = true ∧ fw.mode ≠ mRECOVER ∧ (g fw mSIMMER).modeAllowed mSIMMER = true ∧ (g fw mSIMMER).modeCond mSIMMER = true ∧
    (g fw mDORMANT).modeAllowed mDORMANT = true ∧ (g fw mDORMANT).modeCond mDORMANT = true := by decide +kernel
theorem witness_Maintain : let s := { fw with going := some mMAINTAIN }
    s.going = some mMAINTAIN ∧ (∀ x < 64, s.maintPort x = true → s.portEmpty x = true) ∧ fw.going ≠ some mMAINTAIN := by decide +kernel

/-- A sleep is under way, before or after its commit point. -/
def sl (mode target : Nat) (commit : Bool) : State := { st mode [] with going := some target, goCommit := commit }

theorem witness_Sleeps : (sl 4 mSIMMER false).going = some mSIMMER ∧ (sl 4 mSIMMER false).mode ≠ mSIMMER ∧ (sl 4 mSIMMER false).goCommit = false ∧
    (sl 4 mSIMMER false).noneInFlight = true ∧ (sl 4 mSIMMER false).dmas = [] ∧ (sl 4 mSIMMER false).enPorts = [] ∧ (sl 4 mSIMMER false).dbHeld = [] ∧
    (sl 4 mSIMMER false).hold = [] ∧ (sl 4 mSIMMER true).goCommit = true ∧ (sl 4 mSIMMER true).sampleWakes.wakePend = 0 ∧ (sl 4 mSIMMER true).enPorts = [] ∧
    (sl 4 mDORMANT true).sampleWakes.wakePend = 0 ∧ (sl 4 mDORMANT true).enPorts = [] ∧ ({ sl 4 mSIMMER true with wakePend := 1 } : State).sampleWakes.wakePend ≠ 0 := by
  decide +kernel
theorem witness_Wakes : let s : State := { st mSIMMER [] with wakePend := 1 }
    s.mode = mSIMMER ∧ s.wakePend ≠ 0 ∧ s.going = none ∧ s.enPorts = [] ∧ fw.wakePend = 0 ∧
    (put (st mSIMMER []) [(R.AON_DORMANT, F.AON_DORMANT_AUTO_S, 1)]).fld R.AON_DORMANT F.AON_DORMANT_AUTO_S ≠ 0 ∧
    (put fw [(R.AON_DORMANT, F.AON_DORMANT_AUTO_S, 0)]).fld R.AON_DORMANT F.AON_DORMANT_AUTO_S = 0 ∧
    (sl mSIMMER mDORMANT false).mode = mSIMMER ∧ (sl mSIMMER mDORMANT false).going = some mDORMANT ∧ (sl mSIMMER mDORMANT false).enPorts = [] ∧
    (sl mSIMMER mDORMANT false).sampleWakes.wakePend = 0 ∧ ({ sl mSIMMER mDORMANT false with wakePend := 2 } : State).sampleWakes.wakePend ≠ 0 := by decide +kernel
theorem witness_WakeFromDormant : let s : State := { st mDORMANT [] with wakePend := 1 }
    let off : Pins := { pgMain := false, pgHbm := false, enMain := false, enHbm := false }
    s.mode = mDORMANT ∧ s.wakePend ≠ 0 ∧ s.pins.pgMain = true ∧ s.pins.pgHbm = true ∧
    ({ s with pins := off } : State).pins.pgMain = false ∧ ({ s with pins := off } : State).pins.retry = false := by decide +kernel
theorem witness_WakeSources : let s := put (st mSIMMER []) [(R.AON_WAKE, F.AON_WAKE_EN, 127), (R.AON_WAKE_TMR, ⟨31, 0⟩, 5)]
    s.reach 0x800 R.DEV_WAKE true = .reg { at_ := R.DEV_WAKE, cap := R.DEV_WAKE } ∧ s.mode = mSIMMER ∧ s.going = none ∧
    (s.fld R.AON_WAKE F.AON_WAKE_EN).testBit 5 = true ∧ (s.fld R.AON_WAKE F.AON_WAKE_EN).testBit 6 = true ∧ s.reg R.AON_WAKE_TMR ≠ 0 ∧
    fw.open 0x80F R.DEV_WAKE ∧ fw.going = none ∧ fw.reg R.AON_WAKE_TMR = 0 ∧ (fw.reg R.AON_GPIO_IN).toNat.testBit 31 = false := by decide +kernel

/-- A device in SIMMER with front port 0 kept alive in slot 0. -/
def ka : State := put (st mSIMMER []) [(R.PORT_CTL 0, F.PORT_CTL_EN, 1), (R.PORT_KA 0, F.PORT_KA_KA_EN, 1), (R.PORT_KA 0, F.PORT_KA_KA_SLOT, 0), (R.PORT_LINK 0, F.PORT_LINK_UP, 1),
  (R.AON_HOLD, F.AON_HOLD_MODE, 1), (R.AON_HOLD, F.AON_HOLD_WM_KB, 0), (R.AON_KA_SVC, F.AON_KA_SVC, 31)]

/-- A frame of zeros with its FCS. -/
def zf : List Byte := List.replicate 60 0 ++ fcs (List.replicate 60 0)

theorem witness_KeepAlive : fw.slotPort 3 = none ∧ ka.slotPort 0 = some 0 ∧ 64 ≤ zf.length ∧ fcs (zf.take (zf.length - 4)) = zf.drop (zf.length - 4) ∧
    kaService zf = none ∧ (put ka [(R.AON_WAKE_DA_HI, F.AON_WAKE_DA_HI_ETYPE, 0x22F0)]).isWakeFrame zf = false ∧ ka.fld R.AON_HOLD F.AON_HOLD_MODE = 1 ∧
    ka.holdBytes + zf.length ≤ 1048576 ∧ ka.fld R.AON_HOLD F.AON_HOLD_WM_KB = 0 ∧ (ka.fld R.AON_KA_SVC F.AON_KA_SVC).testBit (KaSvc.bit .lacp) = true := by
  decide +kernel

/-- A device with other pins. -/
def pn (mode : Nat) (p : Pins) : State := { st mode [] with pins := p }

theorem witness_PowerDomains : let c := st mCONFIGURE []
    let o := (c.reg R.DEV_PWR_STAT).toNat % 2 ^ 22
    let b := put c [(R.DEV_PWR_STAT, F.DEV_PWR_STAT_BUSY, 1)]
    let d := put b [(R.DEV_PWR_STAT, ⟨16, 16⟩, 0)]
    fw.open 0x800 R.DEV_CORE_RST ∧ fw.open 0x800 R.DEV_PWR ∧ fw.pwrOk 0 = false ∧ c.open 0x800 R.DEV_PWR ∧ c.pwrOk o = true ∧
    b.flag R.DEV_PWR_STAT F.DEV_PWR_STAT_BUSY = true ∧ (b.reg R.DEV_PWR).toNat = (b.reg R.DEV_PWR_STAT).toNat % 2 ^ 22 ∧ c.flag R.DEV_PWR_STAT F.DEV_PWR_STAT_BUSY = false ∧
    (∀ k ∈ [16, 17], (b.reg R.DEV_PWR).toNat.testBit k = true → ((b.reg R.DEV_PWR_STAT).toNat % 2 ^ 22).testBit k = true) ∧ (b.reg R.DEV_PWR).toNat < 2 ^ 22 ∧
    d.flag R.DEV_PWR_STAT F.DEV_PWR_STAT_BUSY = true ∧ (d.reg R.DEV_PWR).toNat.testBit 16 = true ∧ ((d.reg R.DEV_PWR_STAT).toNat % 2 ^ 22).testBit 16 = false := by
  decide +kernel
theorem witness_Fences : fw.open 0x800 R.DEV_FENCE ∧ fw.mode ≠ mRECOVER ∧ fw.mode ≠ mDEGRADED ∧ fw.voqs = [] ∧ fw.srcQ = [] ∧ fw.enPorts = [] ∧
    (st mRECOVER []).open 0x800 R.DEV_FENCE ∧ (st mDEGRADED []).mode = mDEGRADED ∧ (1 : W32).toNat.testBit (0 / 16) = true ∧
    (fw.reg R.DEV_FENCE).toNat.testBit (0 / 16) = false := by decide +kernel
theorem witness_Sequencer : (st mOFF []).mode = mOFF ∧ fw.mode ≠ mOFF ∧ (pn mRESET { pgMain := false, pgHbm := false }).sequencing = true ∧
    (pn mRESET { pgMain := false, pgHbm := false }).pins.enMain = true ∧ (pn mRESET { pgMain := false, pgHbm := false }).pins.enHbm = true ∧
    (pn mOFF { pgMain := false, pgHbm := false }).sequencing = true ∧ fw.sequencing = false ∧ (pn mRESET { retry := true }).pins.retry = true ∧ fw.pins.retry = false ∧
    fw.mode ≠ mRESET ∧ (st mRESET []).mode = mRESET ∧ (st mRESET []).railsOk = true ∧ (pn mRESET { pgMain := false }).railsOk = false ∧
    (st mRESET []).pins.por = true := by decide +kernel

theorem witness_InterruptTake : let s := (iq 1 0).setThr 0x804 { status := 1 }
    s.irqInput 0x804 = true ∧ s.eligible 0x804 = true ∧ (s.thr 0x804).halted = false ∧ (s.thr 0x804).status.getLsbD 0 = true ∧ (s.thr 0x804).status.getLsbD 2 = false := by decide +kernel

/-! ### Security, self-tests, debug, registers -/

/-- SEC runs a command. -/
def sc (op arg : Nat) : State := put (st mCONFIGURE []) [(R.SEC_CMD_CTL, F.SEC_CMD_CTL_OP, op), (R.SEC_CMD_CTL, F.SEC_CMD_CTL_STATE, 1), (R.SEC_CMD_ARG, ⟨31, 0⟩, arg),
  (R.SEC_CMD_ADDR_HI, ⟨31, 0⟩, 0x20), (R.SEC_CMD_OUT_HI, ⟨31, 0⟩, 0x20), (R.SEC_CMD_LEN, ⟨31, 0⟩, 8)]

theorem witness_SecOrders : fw.open 0x800 R.SEC_CMD_CTL ∧ fw.userMode 0x800 = false ∧ fw.fld R.SEC_CMD_CTL F.SEC_CMD_CTL_STATE ≠ 1 ∧
    (fw.setThr 0x800 { status := 8 }).userMode 0x800 = true ∧ (fw.setThr 0x800 { status := 8 }).open 0x800 R.SEC_CMD_CTL ∧
    (sc 8 0).open 0x800 R.SEC_CMD_CTL ∧ (sc 8 0).fld R.SEC_CMD_CTL F.SEC_CMD_CTL_STATE = 1 ∧ (sc 9 0).fld R.SEC_CMD_CTL F.SEC_CMD_CTL_OP ≠ 8 ∧
    (maskClus (imgLE (fw.secRead fw.secAddr 0x44) 0x3C 8)).any fw.clusterRuns = false ∧ fw.open 0x800 R.SEC_CTL ∧
    fw.flag R.DBG_MBX_CTL F.DBG_MBX_CTL_BUSY = false := by decide +kernel
theorem witness_SecBusyTarget : let s := (put en [(R.SEC_CMD_ADDR_HI, ⟨31, 0⟩, 0x20)]).wr8 0x200000003C 1
    (maskClus (imgLE (s.secRead s.secAddr 0x44) 0x3C 8)).any s.clusterRuns = true ∧ s.open 0x800 R.SEC_CMD_CTL := by decide +kernel
theorem witness_SecRefusals : (sc 2 0).accept_ [] [2] false ≠ sOK ∧ (sc 7 0).accept_ [] [3] false ≠ sOK ∧ (sc 3 6).secArg ≠ 7 ∧ (sc 3 7).secArg = 7 ∧
    secMem (sc 3 7) (sc 3 7).secAddr 48 = true ∧ (sc 4 0).flag R.SEC_STAT F.SEC_STAT_ID_READY = false ∧ fw.mode ≠ mCONFIGURE ∧ fw.mode ≠ mMAINTAIN ∧
    64 < (sc 5 65).secArg ∧ ({ sc 6 0 with fuses := { ownEn := true } } : State).fuses.ownEn = true ∧
    smGet (fun _ => none) (sc 11 0).progs ((sc 11 0).secArg % 64) = none := by decide +kernel
theorem witness_SecRanges : secMem (sc 4 0) (sc 4 0).secAddr 32 = true ∧ secOut (sc 4 0) (sc 4 0).secOutAddr 36560 = true ∧ (sc 4 0).secOutAddr + 36560 ≤ hbmBase ∧
    (put (sc 4 0) [(R.SEC_STAT, F.SEC_STAT_ID_READY, 1)]).flag R.SEC_STAT F.SEC_STAT_ID_READY = true ∧
    (let s := { sc 5 64 with bootSvn := 64 }
     s.mode = mCONFIGURE ∧ s.fuses.svn ≤ s.secArg ∧ s.secArg ≤ 64 ∧ s.secArg ≤ s.bootSvn) ∧
    secMem (sc 9 0) (sc 9 0).secAddr (sc 9 0).secLen = true ∧ secOut (sc 9 0) (sc 9 0).secOutAddr 48 = true ∧ secMem (sc 10 0) (sc 10 0).secAddr 1152 = true ∧
    secOut (sc 10 0) (sc 10 0).secOutAddr 384 = true ∧ (put (sc 9 0) [(R.SEC_CMD_ADDR_HI, ⟨31, 0⟩, 0xFF)]).secLen = 8 ∧
    secMem (put (sc 9 0) [(R.SEC_CMD_ADDR_HI, ⟨31, 0⟩, 0xFF)]) (0xFF * 2 ^ 32) 8 = false := by decide +kernel
theorem witness_SecModulus : let s := (sc 10 0).wr8 (0x2000000000 + 1151) 5
    valBE (s.secRead (s.secAddr + 384 * 2) 384) ≠ 0 := by decide +kernel
theorem witness_FlashWrite (f : 0x40008 ≤ Config.flashSize) : (sc 8 0).flashOk (sc 8 0).secArg (sc 8 0).secLen = true ∧ ∀ n, Config.flashSize < n → (sc 8 0).flashOk n 8 = false := by
  refine ⟨?_, fun n h => ?_⟩
  · rw [show (sc 8 0).secArg = 0 by decide +kernel, show (sc 8 0).secLen = 8 by decide +kernel]
    simp only [State.flashOk, show (sc 8 0).fuses.slotB = 0 by decide +kernel]
    simpa using f
  · simp only [State.flashOk, Bool.and_eq_false_imp, decide_eq_true_eq]; omega
theorem witness_IdentityDerive : fw.released = true ∧ fw.mainOn = true ∧ fw.mode ≠ mBOOT ∧ fw.flag R.SEC_STAT F.SEC_STAT_ID_READY = false ∧ State.reset.released = false ∧
    (st mBOOT []).mode = mBOOT ∧ (st mBOOT []).fld R.SEC_STAT F.SEC_STAT_BOOT_RES = 0 ∧
    (put (st mBOOT []) [(R.SEC_STAT, F.SEC_STAT_BOOT_RES, 3)]).fld R.SEC_STAT F.SEC_STAT_BOOT_RES = 3 ∧ (st mBOOT []).accept_ [] [1] false ≠ sOK := by decide +kernel

/-- DIAGNOSE, with a test running. -/
def tt : State := put (st mDIAGNOSE []) [(R.RAS_TEST_CTL, F.RAS_TEST_CTL_STATE, 1)]

theorem witness_SelfTests : tt.open 0x800 R.RAS_TEST_CTL ∧ tt.testRuns = true ∧ (st mDIAGNOSE []).testRuns = false ∧ testTarget 1 263 = true ∧ testTarget 1 264 = false ∧
    (st mDIAGNOSE []).testMode 1 263 = true ∧ (st mDIAGNOSE []).halfFenced (1 - 263 / 256) = false ∧ fw.testMode 1 0 = false ∧ testTarget 9 0 = true ∧
    (st mDIAGNOSE []).testMode 9 0 = true ∧ fw.open 0x800 R.RAS_LOG_CLR := by decide +kernel

/-- The debug level opens everything; the debugger's target is thread 3, halted. -/
def db (lvl : Nat) : State := put ((en3 fun t => { t with halted := true })) [(R.SEC_STAT, F.SEC_STAT_DBG_LVL, lvl), (R.DBG_HALT, F.DBG_HALT_ID, 3)]

theorem witness_DebugOrders : let g (s : State) (v : W32) : State := s.setReg R.DBG_HALT (v &&& 0x060007FF)
    (db 3).open 0x800 (0xF00000 + 0x44) ∧ (db 3).dbgMay 0x44 = true ∧ (db 0).dbgMay 0x44 = false ∧ (g (db 2) 3).dbgTargetOpen = false ∧ (g (db 3) 3).dbgTargetOpen = true ∧
    (g (db 3) 3).dbgTarget = some [3] ∧ (g (db 3) 0x02000100).dbgTarget = none ∧ (g (db 3) 0x02000000).dbgScope ≠ 0 ∧ (g (db 3) 3).dbgScope = 0 ∧
    (en.thr 3).halted = false := by decide +kernel
theorem witness_Breakpoints : let b (k : Nat) : State := put (en3 id) [(R.DBG_BP_CTL 15, F.DBG_BP_CTL_EN, 1), (R.DBG_BP_CTL 15, F.DBG_BP_CTL_ENGINE, 0),
      (R.DBG_BP_CTL 15, F.DBG_BP_CTL_THR, 8), (R.DBG_BP_CTL 15, F.DBG_BP_CTL_KIND, k), (R.DBG_BP_ADDR 15, ⟨31, 0⟩, 100), (R.DBG_BP_LIM 15, ⟨31, 0⟩, 100)]
    (b 1).flag (R.DBG_BP_CTL 15) F.DBG_BP_CTL_EN = true ∧ (b 1).fld (R.DBG_BP_CTL 15) F.DBG_BP_CTL_ENGINE = 0 ∧
    ((b 1).fld (R.DBG_BP_CTL 15) F.DBG_BP_CTL_THR).testBit 3 = true ∧ (b 1).pipeOn 0 = true ∧ (b 1).fld (R.DBG_BP_CTL 15) F.DBG_BP_CTL_KIND = 1 ∧
    ((b 1).reg (R.DBG_BP_ADDR 15)).toNat % 65536 = 100 ∧ (b 1).pc 3 = 100 ∧ (b 1).eligible 3 = true ∧ 2 ≤ (b 2).fld (R.DBG_BP_CTL 15) F.DBG_BP_CTL_KIND ∧
    ((b 2).reg (R.DBG_BP_LIM 15)).toNat = 100 ∧ en.flag (R.DBG_BP_CTL 15) F.DBG_BP_CTL_EN = false := by decide +kernel
theorem witness_DebugAccess : let d := put (db 3) [(R.DBG_ACC_ADDR_LO, ⟨31, 0⟩, 0x40000000)]
    (db 3).open 0x800 (0xF00000 + 0x68) ∧ d.dbgMay 0x68 = true ∧ d.accPlace d.accAddr 8 true = .ok (.mem (dataAt 0)) ∧
    d.accPlace d.accAddr 8 false = .ok (.mem (dataAt 0)) ∧ (db 3).accPlace 0x50000000 8 false = .error 2 ∧ (db 3).accPlace 0x50000000 8 true = .error 2 ∧
    (db 3).open 0x800 (0xF00000 + 0x50) ∧ (db 3).dbgMay 0x50 = true ∧ (db 0).dbgMay 0x50 = false ∧ (db 3).dbgOne = .ok 3 ∧
    (db 3).flag R.DBG_TREG_SEL F.DBG_TREG_SEL_SPECIAL = false := by decide +kernel
theorem witness_DebugReadout : (db 3).fld R.DBG_TREG_SEL F.DBG_TREG_SEL_NUM < 32 ∧ (db 3).tregGet = .ok 0 ∧ (db 2).tregGet = .error 1 ∧
    (db 2).dbgMay 0x50 = true ∧ (db 3).latched 0x800 0xF00050 = none ∧ (db 3).latched 0x800 0xF00054 = none ∧
    fw.open 0x800 (0xF00000 + 0x74) ∧ fw.open 0x800 (0xF00000 + 0x78) ∧ fw.fld R.SEC_CMD_CTL F.SEC_CMD_CTL_STATE ≠ 1 ∧
    (put fw [(R.DBG_MBX_CTL, F.DBG_MBX_CTL_BUSY, 1)]).flag R.DBG_MBX_CTL F.DBG_MBX_CTL_BUSY = true ∧ fw.accept_ [] [3] false ≠ sOK ∧
    (db 3).dbgMay 0x84 = true ∧ (db 0).dbgMay 0x84 = false ∧ (db 3).open 0x800 (0xF00000 + 0x84) ∧ (db 3).latched 0x800 0xF00084 = none ∧
    fw.latched 0x811 0xF00304 = none ∧ fw.dbgLvl 0 = false ∧ fw.dbgLvl 1 = false := by decide +kernel

theorem witness_LowWord : let a := R.RX_FRM 63
    fw.open 0x800 a ∧ fw.open 0x800 (a + 4) ∧ fw.lands a ∧ fw.lands (a + 4) ∧ plainReg a = true ∧ plainReg (a + 4) = true ∧ (descOf a).isSome = true ∧
    isHigh a = false ∧ isHigh (a + 4) = true ∧ a ≠ R.RAS_LOG_W 0 ∧ ((descOf a).map fun r => r.wide) = some true ∧
    ((descOf a).map fun r => r.flds) = some [⟨⟨31, 0⟩, .rc, 0⟩] ∧ fw.latched 0x800 a = none ∧ fw.latched 0x800 (a + 4) = none ∧
    (fw.setLatch 0x800 (a + 4) (some 7)).latched 0x800 (a + 4) = some 7 := by decide +kernel
theorem witness_LatchingPair : let a := R.DEV_CORE_ENTRY_LO
    fw.open 0x80F a ∧ fw.lands a ∧ plainReg a = true ∧ ((descOf a).map fun r => r.latch) = some [4] := by decide +kernel
theorem witness_ReadOnlyHost : let s := put fw [(R.HIF_CTL, F.HIF_CTL_BIF, 1), (R.HIF_LINK 1, F.HIF_LINK_UP, 1), (R.HIF_PF_CFG 1, F.HIF_PF_CFG_ACC, 1)]
    s.reach 0x901 (R.RX_FRM 0) false = .reg { at_ := R.RX_FRM 0, cap := R.RX_FRM 0, quiet := true } ∧ plainReg (R.RX_FRM 0) = true ∧ R.RX_FRM 0 % 4 = 0 := by decide +kernel
theorem witness_Violations : fw.open 0x800 0x42 ∧ (pageOf 0x42).isSome = true ∧ descOf 0xFFC = none ∧ fw.open 0x800 0xFFC ∧
    ((descOf R.DEV_MODE).map fun r => r.writable) = some false ∧ fw.open 0x800 R.DEV_MODE ∧ (pageOf 0x3C).isSome = true ∧
    (match pageOf 0x10 with | some (k, _) => intMask k != 0 | none => false) = true ∧ (pageOf 8).map Prod.fst ≠ none ∧ pageOf 0xFF000 = none ∧
    0xFF000 / 0x1000 ≠ 0xB01 ∧ (st mSIMMER []).mode = mSIMMER ∧ (0x10008 : Nat) / 0x1000 ≠ 0xF80 ∧ (st mRESET []).mode = mRESET := by decide +kernel
theorem witness_PageWithoutPower : let s := put fw [(R.DEV_PWR_STAT, ⟨0, 0⟩, 0)]
    s.pageOn 0x200040 = false ∧ (pageOf 0x200040).isSome = true ∧ 0x200040 / 0x1000 ≠ 0xB01 ∧ (pageOf 0x200008).isSome = true := by decide +kernel
theorem witness_DeniedHost : let s := put fw [(R.HIF_CTL, F.HIF_CTL_BIF, 1), (R.HIF_LINK 1, F.HIF_LINK_UP, 1)]
    s.reach 0x901 0x70044 true = .viol 0 1 0x44 ∧ s.reach 0x901 0x20044 true = .viol 0x20000 4 0x44 := by decide +kernel
theorem witness_PlainWrite : let a := R.LRN_PORT 0
    fw.open 0x800 a ∧ a % 4 = 0 ∧ 0x40 ≤ a % 0x1000 ∧ ((descOf a).map fun r => r.writable) = some true ∧ isHigh a = false ∧ pageOf a = some (.lrnLim, 0) ∧ fw.lands a := by
  decide +kernel

/-! ### What every step keeps -/

theorem witness_Canonical : State.reset.canon ∧ ({ pending := [.ppsEdge] } : State).canon ∧
    (match step { pending := [.ppsEdge] } with
     | .next t => t.pending == []
     | _ => false) = true := by decide +kernel
theorem witness_CommandCompletes : (match exec .thermtrip fw with
     | .next t => t.pending == fw.pending && t.mode == mRESET
     | _ => false) = true := by decide +kernel
theorem witness_FuseBlown : let s := { sc 5 3 with bootSvn := 3 }
    s.fld R.SEC_CMD_CTL F.SEC_CMD_CTL_STATE = 1 ∧ (match exec .secCmdComplete s with
     | .next t => t.fuses.svn == 3 && s.fuses.svn == 0
     | _ => false) = true := by decide +kernel

/-! ### Single steps, with the values the spec works out -/

/-- Steps 4 and 5 of the example after R590: PF 2 with read access writes TM_PORT_RATE of port 20; VIOL_CAP of the page reads 0x9024_0044. -/
theorem test_violCap : (match exec (.registerWrite 0x902 0x924044 0x0BEBC200) (put fw [(R.HIF_CTL, F.HIF_CTL_BIF, 2), (R.HIF_LINK 2, F.HIF_LINK_UP, 1), (R.HIF_PF_CFG 2, F.HIF_PF_CFG_ACC, 1)]) with
     | .next t => t.reg 0x92401C == 0x90240044 && t.reg 0x924044 == regDefault 0x924044
     | _ => false) = true := by decide +kernel
/-- R584: a second violation before the capture is read sets VOVF. -/
theorem test_vovf : ((fw.viol 0x20000 0x902 4 0 0x44).viol 0x20000 0x800 1 0 0x48).reg 0x2000C = 0x20000000 := by decide +kernel
/-- FIPS 180-4: SHA-384 of "abc" begins CB00753F 45A35E8B. -/
theorem test_sha384 : valBE ((sha384 [0x61, 0x62, 0x63]).take 8) = 0xCB00753F45A35E8B := by decide +kernel
/-- CRC-16 of R66 on "123456789": polynomial 0x1021, initial value 0xFFFF give 0x29B1. -/
theorem test_crc16 : crc16 [0x31, 0x32, 0x33, 0x34, 0x35, 0x36, 0x37, 0x38, 0x39] = 0x29B1 := by decide +kernel
/-- The Ethernet FCS of "123456789" is CRC-32 0xCBF43926, lowest byte first. -/
theorem test_fcs : fcs [0x31, 0x32, 0x33, 0x34, 0x35, 0x36, 0x37, 0x38, 0x39] = [0x26, 0x39, 0xF4, 0xCB] := by decide +kernel

/-- The uplink packet of the example before R109: one tag, IPv4 with UDP to port 2152, GTP-U with one extension of length 1, IPv4 and UDP. -/
def uplink : List Byte :=
  List.replicate 12 2 ++ [0x81, 0x00, 0x00, 0x64, 0x08, 0x00] ++
  [0x45, 0, 0, 72, 0, 0, 0, 0, 64, 17, 0x66, 0xA3, 10, 0, 0, 1, 10, 0, 0, 2] ++ [0x08, 0x68, 0x08, 0x68, 0, 52, 0, 0] ++
  [0x34, 0xFF, 0, 36, 0x11, 0x22, 0x33, 0x44, 0, 0, 0, 0x85, 1, 0x10, 9, 0] ++
  [0x45, 0, 0, 28, 0, 0, 0, 0, 64, 17, 0x66, 0xCB, 10, 0, 0, 3, 10, 0, 0, 4] ++ [0, 1, 0, 2, 0, 8, 0, 0]

/-- The offsets, HDR_PRESENT, STOP and FLAGS of that example. -/
theorem test_headerWalk : let h := headerWalk { tpidX := none, peek := false, vxlan := 4789, geneve := 6081, gtpu := 2152 } { bs := uplink, lim := 90, dend := 90 }
    [h.l3, h.l4, h.tun, h.il3, h.il4, h.offStop, h.stop] = [18, 38, 46, 62, 82, 90, 0] ∧ h.pres = 0xA3020023 ∧ h.flags = 0x300000 ∧ h.tunId = 0x11223344 := by
  decide +kernel

/-! ### What later clauses take -/

/-- The completion point of the operation of register `a` falls in this cycle. -/
def lt (a : Nat) : State := { fw with doneAt := [(a, 1)] }

theorem witness_TooLate : (lt R.HBM_TRAIN).atPoint R.HBM_TRAIN = true ∧ (lt R.HBM_TRAIN).fld R.HBM_TRAIN F.HBM_TRAIN_STATE ≠ 1 ∧
    (lt R.SEC_CMD_CTL).atPoint R.SEC_CMD_CTL = true ∧ (lt R.SEC_CMD_CTL).open 0x800 R.SEC_CMD_CTL ∧ (lt R.RAS_TEST_CTL).testRuns = false ∧
    (lt R.RAS_TEST_CTL).atPoint R.RAS_TEST_CTL = true ∧ (lt (R.EM_BULK_CTL 0)).bulkRuns = false ∧ (lt (R.EM_BULK_CTL 0)).atPoint (R.EM_BULK_CTL 0) = true ∧
    (lt (R.VIEW_STAT 0)).commitPend = false ∧ (lt (R.VIEW_STAT 0)).atPoint (R.VIEW_STAT 0) = true ∧ (lt (lrnOp true)).lrnState true ≠ 1 ∧
    (lt (lrnOp true)).atPoint (lrnOp true) = true ∧ (lt R.SINT_AUDIT).atPoint R.SINT_AUDIT = true ∧ fw.atPoint R.SINT_AUDIT = false := by decide +kernel
theorem witness_SoftReset : (lt (0x200008 + 255 * 0x1000)).softNow (R.ENG_CTL 255) = true ∧ (lt (0x200008 + 255 * 0x1000)).open 0x800 (R.ENG_CTL 255) ∧
    fw.softNow (R.ENG_CTL 255) = false ∧ fw.softNow R.DEV_MODE = false ∧
    ({ en3 (fun t => { t with wait := .sendWait }) with engs := [(0, { held := [9] })] } : State).sendsNow 3 = some 9 ∧ en.sendsNow 3 = none := by decide +kernel
theorem witness_DeepFill : let l : Lkp := { pkt := 9, slot := 1, stage := 3, kind := 1, table := 1, key := List.replicate 8 0, half := 0, view := 0, fwd := false, miss := true, unread := false }
    let s (m : Lkp) : State := { put (te 2) [(R.EM_TBL_CFG 0 1, F.EM_TBL_CFG_STORE, 1)] with lkps := [(4, m)], pkts := [(9, { loc := .ing 0 })] }
    (s l).servedBy l = 0 ∧ (BitVec.ofNat 25 ((s l).bucketOf 1 (fitKey ((s l).keyB 1) l.key) true)).toNat = (s l).bucketOf 1 (fitKey ((s l).keyB 1) l.key) true ∧
    (s l).emDeep 1 = true ∧ (s l).reads cDEEP (deepAt ((s l).bucketOf 1 (fitKey ((s l).keyB 1) l.key) true)) 128 = false ∧
    (s l).bucketBad ((s l).bucketOf 1 (fitKey ((s l).keyB 1) l.key) true) = false ∧ l.stale = false ∧ smFind (s { l with stale := true }).lkps 4 = some { l with stale := true } ∧
    ((s l).keyEnts 1 (fitKey ((s l).keyB 1) l.key)).find? (fun e => e.2.inView 0) = none := by decide +kernel
theorem witness_FreezeExpire : let s := { ln [(slot0, lent)] with damps := [(0, { moves := [1], frozen := true })] }
    oldestFreeze (s.damps.filter fun d => d.2.frozen && (d.1 / 2 ^ 64 == 0)) = some 0 ∧ s.lrnRun 0 = true ∧ s.lrnFind (0 / 2 ^ 48 % 65536) (0 % 2 ^ 48) = some (slot0, lent) := by
  decide +kernel
theorem witness_SkippedEvents : ({ fw with time := { skipFrom := some (0, 5) } } : State).time.skipFrom = some (0, 5) := by decide +kernel
theorem witness_Stopped : let s := tkr.setThr 0x803 { tkr.thr 0x803 with stopReq := true }
    s.portOk 0x803 = true ∧ (s.thr 0x803).task = some 7 ∧ (s.thr 0x803).stopReq = true ∧ s.flag R.TSK_CTL F.TSK_CTL_RUN = false := by decide +kernel
theorem witness_Vectors : hi.vecOwned 0 = true ∧ hi.vecOwned 2047 = false ∧ hi.configured = [] ∧ vecIn (hi.res 0) 0 = true ∧ vecIn (hi.res 0) 9 = false ∧
    isAgent 0x8FF = false ∧ isAgent 0x810 = true := by decide +kernel
theorem witness_QueuedOperations : let s (g : Nat) : State := { hi with dmaQ := [.write 0 g 0x1000 [1]] }
    (s 0).pending = [] ∧ (s 0).mainClk = true ∧ (s 0).dmaQ = [.write 0 0 0x1000 [1]] ∧ (s 0).iGen 0 = 0 ∧ (1 : Nat) ≠ (s 1).iGen 0 := by decide +kernel
theorem witness_Banks : let r (wr : Bool) : HbmReq := { client := 0, word := hbmBase / 64, wr := wr }
    let s (wr : Bool) : State := { hb with hbmQ := [(0, [r wr])] }
    (s true).pcServes 0 = true ∧ (s false).nextBank 0 1 = some 0 ∧ (s false).nextBank 0 0 = none ∧ (s false).bankQ 0 = r false :: [] ∧ (s false).hbmWait = [] ∧
    (s false).poisoned (64 * (hbmBase / 64)) = false ∧ (s true).qDepth 0 ≠ 0 ∧ hb.qDepth 62 = 0 ∧ fw.pcServes 0 = false ∧
    ({ hb with hbmWait := [r false] } : State).promote 0 [r false] ≠ [r false] ∧ hb.promote 0 [] = [] := by decide +kernel
theorem witness_NoHalf : let b := put (st mCONFIGURE []) [(R.DEV_PWR_STAT, F.DEV_PWR_STAT_BUSY, 1), (R.DEV_PWR, ⟨17, 16⟩, 0)]
    b.flag R.DEV_PWR_STAT F.DEV_PWR_STAT_BUSY = true ∧ (b.reg R.DEV_PWR).toNat.testBit 16 = false ∧ (b.reg R.DEV_PWR).toNat.testBit 17 = false ∧
    (fw.reg R.DEV_PWR).toNat.testBit 16 = true ∧ (sl 4 mSIMMER false).dmaQ = [] := by decide +kernel

/-! ### Accepted images: digests and signatures were computed by another program from FIPS 180-4 and RFC 8017 -/

/-- An image in the layout of R515 with RSA modulus 2^3071 and exponent 1, so that the encoded message is its own signature. -/
def image (ty ks ph : Nat) (sub : List Byte) (sig : Nat) (payload : List Byte) : List Byte :=
  bytesLE 4 0x5A524C49 ++ ([BitVec.ofNat 8 ty, 0] ++ (bytesLE 2 ks ++ (bytesLE 4 payload.length ++ (bytesBE 48 ph ++ (sub ++ (List.replicate (68 - sub.length) 0 ++
  (bytesBE 384 (2 ^ 3071) ++ (bytesBE 4 1 ++ (List.replicate 0x1FC 0 ++ (bytesBE 384 sig ++ (List.replicate 0x4280 0 ++ payload)))))))))))

/-- A stage-1 image with four bytes for each processor. -/
def stage1 : List Byte := image 1 0 0xcfb18f81f4bb672b03214f1fede456f882a0de40120212a1feba8fdc48f763c86acbbfb684d34b70f99f4d8d81fe3a28 (bytesLE 4 0 ++ bytesLE 4 4 ++ bytesLE 4 1 ++ bytesLE 4 4 ++ bytesLE 4 4 ++ bytesLE 4 1 ++ bytesLE 4 8 ++ bytesLE 4 0)
  0x1eabafebcbd56f3b074559a3daede9983b4b4251ee81c9d1b07c13086f9b56b6730a8054f8f3f2e253405b6b34c48538cdd14a90692f6186a615c8ae710a0f9383eed024e8dedee0b7817f534dcec398e26d9a6518d4cb98b9904be008014352ebd74224ef29de0d9165ee6a11f99b629ef00508d58264352743613e5fd7120b48e682152066a10c0a775eba4830cbe4130e9555d54ad06c6f7341139a2c10b3b6000902822524a3574c5c27cc2b8b0d06e03e5a16a7a27b786c802a145b705cd4cb70c4b2ff26593ca89a52b800eb26d1455cd378a5a693f54918917e5221422b3da4d1db98b363136712203d1e362c21de0530268d0ddf82a8cda1482c45950de412ae840d5179fc9e42200a01c7defc79386ac39449aa75424ab959fb42e826bf959d46408f77f5425eef87d868dc36c57c0f9189bba6bcb17951d5b5f99bdcbe2e38ae9cdfbbed70c22c0044ad7f20dfa1943d35736d818e1d86e784377d51d0c0833e8a54315f445a80297bb329ff23455fc5b55f8aa3d60061d2f1f7bc ([0, 1, 2, 3, 4, 5, 6, 7])
/-- A program of one word for cluster 63. -/
def program : List Byte := image 2 0 0x5a667d62430a8c253ebae433333904dc6e1d41dcdc479704773159b905a3ad82d2bad7762d81a366cc46fbb2e2327f5c (bytesLE 8 (2 ^ 63))
  0x023aa38d38617d61b694cd8385515d6c7f10344ee450b75cd66e1e5015230732893d29bfbf21aec5b7fb41edcc40b8e89bdd77ea87806a2b7ebc6b75828e4d7b121e48339e149a5d2e9db6c39b5f1b37149c83515164c6ab7e7e46429de7c3043dc87cfda9d46d2561639d3ef41d590eab3ecf9e65bc2eace8aa9d57e23038974bb103eb0b795b4b8ef4a3e57bbb58374f5b6914b152cd0439075b7cf8f8f777bcf510d109f2f87154aca4599f25c8149f88c1e3cb32f8e510bc34e9eb5c02de1181f0f34273cc1bc4fc7633086dab3a5f346b60ac36f8e5c57a5eb280f80815889bf7c90f06d87814cb32f0e45d95ce074a4214753d0f4abaf4f56b4a32c77be14a4f97f60e292acfe7ac88d3ca34f2e2397e31d75e12ed8695b48b84aba7f9d69f4537595fc4ef29ba68830d937a47a21f52e86b7611b36feaf16d56c61cdb665d6b48b6ca950dcb6f58ff78178c40666b81382eddf9240921f972447117e6cc8bfc76fe8b703ac3f2c0fa263164009f757029d0cfa0f2939a5bec44aa4abc ([1, 2, 3, 4])
/-- A debug token for level 1 of the device with serial number and nonce 0. -/
def token : List Byte := image 3 0 0x4c1626f66f733d4dcce5215b74e3847f905548005a372d01f0b5750de543d6222382009f3f012983bf00c06d78781fdb ([])
  0x60eda5e656258a6f630ab517ccd2abd2640876faaa14d644cf34cf5f68e1312ec4324f5a2ea2462627382844a4c9bf28f4cccd4ae3ff8224c059ec1e38e800765874382f0ee5cd41fe9810c10894e5299171d62b7aa7e5cf7fe02882b1d87906514eb8685cb1f2042c77b5bd88da331dfa196a6e01f4586efae3f96a4e60487769a1d2d4a5b01c9e48fbf9e294692ef2f5b33407591743f5662157a301f2b891154314c9e9b5321666b47c2b19046e4f2cd6b53ab94019d9ff04f62b181375806ad5368ce3bf5c81449f78ef2a9130db4831d6197b3a1da0df7735cb7a74ecad232e259bffb9f74ab8f2435cac47bf94de25ecb379504aa4519509f26dd79f188c9e9b1717dbab5a5d51b696ba719ff5748c6872516e908121b25ef4ecdb57453a8a204906ebf14226ffa03cfd82ebbdac7e264b6b46e1d20c828dcd73a288c9e1747792bb401d9a8a303c933e48679014f68ec2f0770c7c813069d18cb963397c515787ba6b121ab84f6a4a921ccb1a7cca58ef21bc36035759cca834aa14bc (List.replicate 40 0 ++ [1])
/-- An owner enrolment that makes signed programs required. -/
def enrolment : List Byte := image 4 1 0x8d2ce87d86f55fcfab770a047b090da23270fa206832dfea7e0c946fff451f819add242374be551b0d6318ed6c7d41d8 ([])
  0x510a4f2d953740cafe237c87617d5b4fdf298b79cbc204bc99d7b35af7cd319c5cacb31098d8548bb1015c8ecbdfe28f24491320e954c06e0fdc625cde1d8d36e8ea3b433f00ceafa30a4c842ad8bcefa4ad8d96a42d0eb0c9e8c30534fb6489538f13c70183ebf84683db9935258c7268ee04e5ae727f0396f2472bd07a7e77441aec5daed4c4b328be99a0e3ef2b98472815e98c55b96bd5b2a05b6f885cbf43f492c620275b8140fff0e8eedfebc8e72323bcbba82f3dd83bab0d0416b3b44b76f1a19bf1cb63980fec60918f531ee1e1ea8d6f1cad58c2e22dba0349b91a17195a92441f314924b434741aae590434b8e0e1db00b9427263e26ededc9ee3a474a02c47c1093888ee1bc6e2f99e7839f368a493252f4094907b7110c59b79f8b589ba4cb74e5fa9c46ec361f100a9287310746093676bd0c7889fa43b2dfe3395446cad36b21f14c05518a0b44e703d7f1962cb9008e2569b2ffc951e5750ce8addc1fcb5115b3906507b194aa0c4ca689bd4c3f6fd4b26dc37aafc6f98bc ([1])

/-- Fuses with the vendor's keys of these images. -/
def keyFuses : Fuses := {
  vkhRsa := 0xd6812871e42ab8535e91decbd2244e1e7046fb79c54fe8a3ede7fe4c49f65915ff79094437ba351b6ecf61401c99ec35,
  vkhSlh := 0x8f0d145c0368ad6b70be22e41c400eea91b971d96ba220fec9fae25a58dffdaaf72dbe8f6783d55128c9df4efaf6f8a7 }

/-- A state with these fuses. -/
def keyed (s : State) : State := { s with fuses := keyFuses }

/-- What the opaque check of SLH-DSA signatures has to answer for an image to be accepted. -/
def slhGood (im : List Byte) : Prop := Config.slhVerify (img im 0x204 0x30) (img im 0 0x400) (img im 0x580 0x3F60) = true

theorem accept_of (s : State) (b : List Byte) (types : List Nat) (enrol : Bool) (w : wellFormed b types = true)
    (k : enrol = true ∨ (imgKeyset b = 0 ∧ valBE (imgKeyRsa b) = s.fuses.vkhRsa ∧ valBE (imgKeySlh b) = s.fuses.vkhSlh))
    (t : imgSvn b = 0 → s.fuses.svn = 0) (z : imgSvn b = 0)
    (r : rsaVerify (valBE (img b 0x80 0x180)) (valBE (img b 0x200 4)) (img b 0 0x400) (img b 0x400 0x180) = true) (v : slhGood b)
    (p : sha384 (imgPayload b) = img b 0xC 0x30) (c : imgCfg b = [] ∨ imgType b ≠ 1) : s.accept_ b types enrol = sOK := by
  unfold slhGood at v
  rcases k with k | ⟨k1, k2, k3⟩ <;> rcases c with c | c <;> simp [State.accept_, t z, *]
theorem svn_keyed (s : State) : (keyed s).fuses.svn = 0 := by
  show Fuses.svn { vkhRsa := _, vkhSlh := _ } = 0
  rfl
theorem keys_ok : valBE (sha384 (bytesBE 384 (2 ^ 3071) ++ bytesBE 4 1)) = keyFuses.vkhRsa ∧
    valBE (sha384 (List.replicate 0x30 0)) = keyFuses.vkhSlh := by decide +kernel
theorem stage1_facts : stage1.length = 0x4800 + 8 ∧ imgLen stage1 = 8 ∧ wellFormed stage1 [1] = true ∧ imgSvn stage1 = 0 ∧ imgKeyset stage1 = 0 ∧
    (imgCfg stage1 = [] ∨ imgType stage1 ≠ 1) ∧ img stage1 0x80 0x184 = bytesBE 384 (2 ^ 3071) ++ bytesBE 4 1 ∧ img stage1 0x204 0x30 = List.replicate 0x30 0 ∧
    sha384 (imgPayload stage1) = img stage1 0xC 0x30 ∧
    rsaVerify (valBE (img stage1 0x80 0x180)) (valBE (img stage1 0x200 4)) (img stage1 0 0x400) (img stage1 0x400 0x180) = true := by decide +kernel
theorem witness_accepted_stage1 (s : State) (v : slhGood stage1) : (keyed s).accept_ stage1 [1] false = sOK :=
  have ⟨_, _, a, b, d, c, f, g, h, r⟩ := stage1_facts
  accept_of _ _ _ _ a (.inr ⟨d, (congrArg (fun l => valBE (sha384 l)) f).trans keys_ok.1, (congrArg (fun l => valBE (sha384 l)) g).trans keys_ok.2⟩) (fun _ => svn_keyed s) b r v h c
theorem program_facts : program.length = 0x4800 + 4 ∧ imgLen program = 4 ∧ wellFormed program [2] = true ∧ imgSvn program = 0 ∧ imgKeyset program = 0 ∧
    (imgCfg program = [] ∨ imgType program ≠ 1) ∧ img program 0x80 0x184 = bytesBE 384 (2 ^ 3071) ++ bytesBE 4 1 ∧ img program 0x204 0x30 = List.replicate 0x30 0 ∧
    sha384 (imgPayload program) = img program 0xC 0x30 ∧
    rsaVerify (valBE (img program 0x80 0x180)) (valBE (img program 0x200 4)) (img program 0 0x400) (img program 0x400 0x180) = true := by decide +kernel
theorem witness_accepted_program (s : State) (v : slhGood program) : (keyed s).accept_ program [2] false = sOK :=
  have ⟨_, _, a, b, d, c, f, g, h, r⟩ := program_facts
  accept_of _ _ _ _ a (.inr ⟨d, (congrArg (fun l => valBE (sha384 l)) f).trans keys_ok.1, (congrArg (fun l => valBE (sha384 l)) g).trans keys_ok.2⟩) (fun _ => svn_keyed s) b r v h c
theorem token_facts : token.length = 0x4800 + 41 ∧ imgLen token = 41 ∧ wellFormed token [3] = true ∧ imgSvn token = 0 ∧ imgKeyset token = 0 ∧
    (imgCfg token = [] ∨ imgType token ≠ 1) ∧ img token 0x80 0x184 = bytesBE 384 (2 ^ 3071) ++ bytesBE 4 1 ∧ img token 0x204 0x30 = List.replicate 0x30 0 ∧
    sha384 (imgPayload token) = img token 0xC 0x30 ∧
    rsaVerify (valBE (img token 0x80 0x180)) (valBE (img token 0x200 4)) (img token 0 0x400) (img token 0x400 0x180) = true := by decide +kernel
theorem witness_accepted_token (s : State) (v : slhGood token) : (keyed s).accept_ token [3] false = sOK :=
  have ⟨_, _, a, b, d, c, f, g, h, r⟩ := token_facts
  accept_of _ _ _ _ a (.inr ⟨d, (congrArg (fun l => valBE (sha384 l)) f).trans keys_ok.1, (congrArg (fun l => valBE (sha384 l)) g).trans keys_ok.2⟩) (fun _ => svn_keyed s) b r v h c
theorem enrolment_facts : enrolment.length = 0x4800 + 1 ∧ imgLen enrolment = 1 ∧ wellFormed enrolment [4] = true ∧ imgSvn enrolment = 0 ∧ imgKeyset enrolment = 1 ∧
    (imgCfg enrolment = [] ∨ imgType enrolment ≠ 1) ∧ img enrolment 0x80 0x184 = bytesBE 384 (2 ^ 3071) ++ bytesBE 4 1 ∧ img enrolment 0x204 0x30 = List.replicate 0x30 0 ∧
    sha384 (imgPayload enrolment) = img enrolment 0xC 0x30 ∧
    rsaVerify (valBE (img enrolment 0x80 0x180)) (valBE (img enrolment 0x200 4)) (img enrolment 0 0x400) (img enrolment 0x400 0x180) = true := by decide +kernel
theorem witness_accepted_enrolment (s : State) (v : slhGood enrolment) : (keyed s).accept_ enrolment [4] true = sOK :=
  have ⟨_, _, a, b, _, c, _, _, h, r⟩ := enrolment_facts
  accept_of _ _ _ _ a (.inl rfl) (fun _ => svn_keyed s) b r v h c

/-! ### Where such an image lies -/

theorem rdMap_take (m : SMap Byte) : ∀ n k a : Nat, k ≤ n → (rdMap m a n).take k = rdMap m a k
  | _, 0, _, _ => rfl
  | n + 1, k + 1, a, h => by simp [rdMap, rdMap_take m n k (a + 1) (by omega)]

theorem imgLen_take (b : List Byte) (n : Nat) (h : 12 ≤ n) : imgLen (b.take n) = imgLen b := by
  simp [imgLen, imgLE, img, List.drop_take, List.take_take]; congr 2; omega

theorem secImage_of (s : State) (a : Nat) (b : List Byte) (hb : a < hbmBase) (hl : b.length = 0x4800 + imgLen b) (h1 : secMem s a 0x4800 = true)
    (h2 : secMem s a (0x4800 + imgLen b) = true) (h : s.rdBytes a b.length = b) : s.secImage a = b := by
  have e : s.rdBytes a 0x4800 = b.take 0x4800 := by
    rw [← h, State.rdBytes, State.rdBytes, rdMap_take _ _ _ _ (by omega)]
  have n : ¬ hbmBase ≤ a := by omega
  rw [← hl] at h2
  simp [State.secImage, State.secRead, h1, n, e, imgLen_take, ← hl, h, h2]

theorem flashPut_other (c : Nat) : ∀ (bs : List Byte) (s : State) (a : Nat), c < a → smGet byteFF (s.flashPut a bs).flash c = smGet byteFF s.flash c
  | [], _, _, _ => rfl
  | b :: bs, s, a, h => by
    rw [State.flashPut, flashPut_other c bs _ _ (by omega)]; exact smGet_smSet_other _ _ _ (by omega)

theorem flashPut_get : ∀ (bs : List Byte) (s : State) (a i : Nat), i < bs.length → smGet byteFF (s.flashPut a bs).flash (a + i) = bs.getD i 0
  | [], _, _, _, h => by simp at h
  | b :: bs, s, a, 0, _ => by
    rw [Nat.add_zero, State.flashPut, flashPut_other a bs _ _ (by omega)]; exact smGet_smSet_same _ _ _ _
  | b :: bs, s, a, i + 1, h => by
    rw [State.flashPut, show a + (i + 1) = a + 1 + i by omega, flashPut_get bs _ (a + 1) i (by simpa using h)]; simp

theorem flashRead_flashPut (s : State) (a n : Nat) (bs : List Byte) (h : n ≤ bs.length) : (s.flashPut a bs).flashRead a n = bs.take n := by
  apply List.ext_getElem
  · simp [State.flashRead, h]
  · intro i h1 h2
    have : i < bs.length := by simp [State.flashRead] at h1; omega
    simp [State.flashRead, flashPut_get bs s a i this, List.getD_eq_getElem?_getD, this]

theorem slotImage_of (s : State) (a : Nat) (b : List Byte) (hl : b.length = 0x4800 + imgLen b) (hf : a + b.length ≤ Config.flashSize) :
    (s.flashPut a b).slotImage a = b := by
  have e := flashRead_flashPut s a 0x4800 b (by omega)
  have t := flashRead_flashPut s a b.length b (Nat.le_refl _)
  rw [List.take_length] at t
  simp [State.slotImage, e, imgLen_take, ← hl, hf, t]

theorem accept_fuses (s t : State) (h : s.fuses = t.fuses) (b : List Byte) (l : List Nat) (e : Bool) : s.accept_ b l e = t.accept_ b l e := by
  simp only [State.accept_, h]

/-- SEC runs a command on an image at the start of control complex SRAM. -/
def secRun (op : Nat) (im : List Byte) : State :=
  (put (keyed (st mCONFIGURE [])) [(R.SEC_CMD_ADDR_HI, ⟨31, 0⟩, 0x20), (R.SEC_CMD_CTL, F.SEC_CMD_CTL_OP, op), (R.SEC_CMD_CTL, F.SEC_CMD_CTL_STATE, 1)]).wrBytes
    0x2000000000 im

theorem secRun_image (op n : Nat) (im : List Byte) (hl : im.length = 0x4800 + n) (hn : imgLen im = n) (h1 : secMem (secRun op im) 0x2000000000 0x4800 = true)
    (h2 : secMem (secRun op im) 0x2000000000 (0x4800 + n) = true) : (secRun op im).secImage 0x2000000000 = im :=
  secImage_of _ _ _ (by decide +kernel) (hn ▸ hl) h1 (hn ▸ h2) (rdBytes_wrBytes _ _ _)

theorem witness_sec_program (v : slhGood program) : let s := secRun 2 program
    s.fld R.SEC_CMD_CTL F.SEC_CMD_CTL_STATE = 1 ∧ s.fld R.SEC_CMD_CTL F.SEC_CMD_CTL_OP = 2 ∧ s.accept_ (s.secImage s.secAddr) [2] false = sOK := by
  have a : (secRun 2 program).secAddr = 0x2000000000 := by decide +kernel
  refine ⟨by decide +kernel, by decide +kernel, ?_⟩
  rw [a, secRun_image _ 4 _ program_facts.1 program_facts.2.1 (by decide +kernel) (by decide +kernel)]
  exact (accept_fuses _ (keyed fw) rfl _ _ _).trans (witness_accepted_program fw v)
theorem witness_sec_token (v : slhGood token) : let s := secRun 7 token
    s.fld R.SEC_CMD_CTL F.SEC_CMD_CTL_STATE = 1 ∧ s.fld R.SEC_CMD_CTL F.SEC_CMD_CTL_OP = 7 ∧ s.accept_ (s.secImage s.secAddr) [3] false = sOK := by
  have a : (secRun 7 token).secAddr = 0x2000000000 := by decide +kernel
  refine ⟨by decide +kernel, by decide +kernel, ?_⟩
  rw [a, secRun_image _ 41 _ token_facts.1 token_facts.2.1 (by decide +kernel) (by decide +kernel)]
  exact (accept_fuses _ (keyed fw) rfl _ _ _).trans (witness_accepted_token fw v)
theorem witness_sec_enrolment (v : slhGood enrolment) : let s := secRun 6 enrolment
    s.fld R.SEC_CMD_CTL F.SEC_CMD_CTL_STATE = 1 ∧ s.fld R.SEC_CMD_CTL F.SEC_CMD_CTL_OP = 6 ∧ s.accept_ (s.secImage s.secAddr) [4] true = sOK := by
  have a : (secRun 6 enrolment).secAddr = 0x2000000000 := by decide +kernel
  refine ⟨by decide +kernel, by decide +kernel, ?_⟩
  rw [a, secRun_image _ 1 _ enrolment_facts.1 enrolment_facts.2.1 (by decide +kernel) (by decide +kernel)]
  exact (accept_fuses _ (keyed fw) rfl _ _ _).trans (witness_accepted_enrolment fw v)
theorem witness_token : imgLE (imgPayload token) 0 8 = (secRun 7 []).fuses.serial ∧ img (imgPayload token) 8 32 = (secRun 7 []).nonce ∧
    (secRun 7 []).fuses.dbgDis = false ∧ imgLE (imgPayload token) 40 1 = 1 ∧ (secRun 6 []).mode = mCONFIGURE ∧ (secRun 6 []).fuses.ownEn = false := by
  decide +kernel

/-- The flash of a device in BOOT holds the stage-1 image in one slot; slot B starts at 1 MiB. -/
def bootFlash (rs : List (Nat × Fld × Nat)) (at_ : Nat) : State :=
  { put (st mBOOT []) rs with fuses := { keyFuses with slotB := 1 } }.flashPut at_ stage1

theorem bootFlash_accepts (rs : List (Nat × Fld × Nat)) (a : Nat) (h : (bootFlash rs a).fuses = { keyFuses with slotB := 1 })
    (f : a + 0x4808 ≤ Config.flashSize) (v : slhGood stage1) : (bootFlash rs a).slotImage a = stage1 ∧ (bootFlash rs a).accept_ stage1 [1] false = sOK := by
  have ⟨l, n, w, b, d, c, f1, g1, p, r⟩ := stage1_facts
  refine ⟨slotImage_of _ _ _ (n ▸ l) (by rw [l]; exact f), accept_of _ _ _ _ w (.inr ⟨d, ?_, ?_⟩) (fun _ => ?_) b r v p c⟩
  · rw [h]; exact (congrArg (fun l => valBE (sha384 l)) f1).trans keys_ok.1
  · rw [h]; exact (congrArg (fun l => valBE (sha384 l)) g1).trans keys_ok.2
  · rw [h]; decide +kernel
theorem flashPut_fuses : ∀ (bs : List Byte) (s : State) (a : Nat), (s.flashPut a bs).fuses = s.fuses
  | [], _, _ => rfl
  | b :: bs, s, a => flashPut_fuses bs { s with flash := smSet byteFF s.flash a b } (a + 1)
theorem bootFlash_fuses (rs : List (Nat × Fld × Nat)) (a : Nat) : (bootFlash rs a).fuses = { keyFuses with slotB := 1 } :=
  flashPut_fuses stage1 _ a
theorem witness_boot : (bootFlash [] 0).mode = mBOOT ∧ (bootFlash [] 0).fld R.SEC_STAT F.SEC_STAT_BOOT_RES = 0 ∧
    (bootFlash [(R.SEC_STAT, F.SEC_STAT_BOOT_RES, 3)] 0x100000).mode = mBOOT ∧
    (bootFlash [(R.SEC_STAT, F.SEC_STAT_BOOT_RES, 3)] 0x100000).fld R.SEC_STAT F.SEC_STAT_BOOT_RES = 3 ∧ imgLE stage1 0x58 4 = 0 ∧
    (bootFlash [] 0x100000).accept_ [] [1] false ≠ sOK := by decide +kernel

end Sys2Proof.Tests
end

section
/-! PROOFS. The state after reset: what its registers show. -/

namespace Sys2Proof.Machine

/-- After reset a register holds its reset value. -/
theorem reg_reset (a : Nat) : State.reset.reg a = regDefault a := rfl

/-- The addresses of the ENG pages (R575). -/
theorem pageOf_eng (e : EngN) (o : Nat) (ho : o < 0x1000) : pageOf (0x200000 + e * 0x1000 + o) = some (.eng, e.val) := by
  have hn : (0x200000 + e.val * 0x1000 + o) / 0x1000 = e.val + 0x200 := by omega
  have lo (n : Nat) (h : n ≤ 0x200) : ¬ e.val + 0x200 < n := by omega
  have hi : e.val + 0x200 < 0x300 := by have := e.isLt; omega
  simp [pageOf, hn, lo, hi]

/-- PAGE_ID of an ENG page after reset: the type and the number of the page (R575, R576). -/
theorem regDefault_eng_id (e : EngN) : (regDefault (0x200000 + e * 0x1000)).toNat = 0x200001 + e * 0x100 := by
  have he := e.isLt
  have hp : pageOf (0x200000 + e * 0x1000) = some (.eng, e.val) := pageOf_eng e 0 (by omega)
  have ho : (0x200000 + e.val * 0x1000) % 0x1000 = 0 := by omega
  have h1 : ¬ 0x11000000 ≤ 0x200000 + e.val * 0x1000 := by omega
  have h2 : ¬ 0x700048 ≤ 0x200000 + e.val * 0x1000 := by omega
  unfold regDefault
  rw [if_neg h1, if_neg fun h => h2 h.1, hp]
  change (ite _ (BitVec.ofNat 32 (0x0020 * 0x10000 + e.val * 0x100 + 1)) _).toNat = _
  rw [if_pos ho, BitVec.toNat_ofNat]
  omega

/-- Beyond PAGE_ID, the ENG pages hold the same reset values. -/
theorem regDefault_eng (e : EngN) (o : Nat) (h0 : o ≠ 0) (ho : o < 0x1000) :
    regDefault (0x200000 + e * 0x1000 + o) = regDefault (0x200000 + o) := by
  have he := e.isLt
  have hp : pageOf (0x200000 + o) = some (.eng, 0) := pageOf_eng 0 o ho
  have hm : (0x200000 + e.val * 0x1000 + o) % 0x1000 = o := by omega
  have hm0 : (0x200000 + o) % 0x1000 = o := by omega
  have h1 : ¬ 0x11000000 ≤ 0x200000 + e.val * 0x1000 + o := by omega
  have h2 : ¬ 0x700048 ≤ 0x200000 + e.val * 0x1000 + o := by omega
  have h3 : ¬ 0x11000000 ≤ 0x200000 + o := by omega
  have h4 : ¬ 0x700048 ≤ 0x200000 + o := by omega
  unfold regDefault
  rw [if_neg h1, if_neg fun h => h2 h.1, if_neg h3, if_neg fun h => h4 h.1, pageOf_eng e o ho, hp]
  simp only [hm, hm0, h0, if_false]
  rfl

theorem engRun_reset (e : EngN) : State.reset.engRun e = false := by
  have h : R.ENG_CTL e = 0x200000 + e * 0x1000 + 0x40 := by unfold R.ENG_CTL; omega
  have hr : State.reset.reg (R.ENG_CTL e) = regDefault 0x200040 := by
    rw [h, reg_reset]; exact regDefault_eng e 0x40 (by decide) (by decide)
  have hc : getF (regDefault 0x200040) F.ENG_CTL_RUN = 0 := by decide +kernel
  simp only [State.engRun, State.flag, State.fld, hr, hc]
  decide

/-- Settles O57: a register is listed nowhere and shows its reset value, the memories are empty (R10, R576, R579, R603; what no rule gives is
the model's choice, assumption log, entries 4, 5, 8, 9 and 10). -/
theorem resetLeavesTheSpecsValues : Obligations.ResetLeavesTheSpecsValues := by
  have hctl (e : EngN) : State.reset.reg (0x200008 + e * 0x1000) = 0x80000000 := by
    have h : 0x200008 + e.val * 0x1000 = 0x200000 + e * 0x1000 + 8 := by omega
    rw [h, reg_reset]
    exact (regDefault_eng e 8 (by decide) (by decide)).trans (by decide +kernel)
  have hpages : ∀ p ∈ [0x0, 0x10000, 0x20000, 0x30000, 0x40000, 0x400000, 0x600000, 0x700000, 0x800000, 0x900000, 0xA00000, 0xB00000, 0xC00000,
      0xD00000, 0xE00000, 0xF00000, 0xF80000], (State.reset.reg (p + 8)).getLsbD 31 = true ∧ State.reset.reg (p + 0x10) = 0 ∧
      State.reset.reg (p + 0x14) = 0 ∧ State.reset.reg (p + 0x1C) = 0 := by decide +kernel
  exact ⟨⟨rfl, rfl, rfl, rfl⟩, by decide +kernel, rfl, rfl, rfl, rfl, rfl, rfl, rfl, fun _ _ => rfl, fun _ => rfl, fun _ => rfl, by decide +kernel,
    by decide +kernel, by decide +kernel, fun e => ⟨regDefault_eng_id e, hctl e, engRun_reset e⟩, hpages⟩

end Sys2Proof.Machine
end

section
/-! PROOFS. Every command completes: what a command answers, from the shape of its meaning. -/

namespace Sys2Proof.Machine

/-- An outcome is a next state. -/
def Answers (r : Result) : Prop := ∃ t, r = .next t

namespace Answers

/-! ### The shapes that meanings are built from -/

theorem next {t : State} : Answers (.next t) := ⟨t, rfl⟩

theorem ite {c : Prop} {_ : Decidable c} {x y : Result} (hx : Answers x) (hy : Answers y) : Answers (if c then x else y) := by
  split
  · exact hx
  · exact hy

section
variable {s : State} {who : Req} {a : Nat} {v : W32} {acc : RegAcc}

theorem regRead : Answers (s.regRead who a) := .next
theorem regWrite : Answers (s.regWrite who a v) := .next
theorem regAcc : Answers (s.regAcc who a acc) := by
  cases acc with
  | read => exact .regRead
  | write v => exact .regWrite

end

end Answers

/-! ### Commands that look for something to act on -/

section
variable (s : State)

theorem execParseStart_answers (pipe : PipeN) : Answers (execParseStart pipe s) := by
  refine .ite .next ?_
  split
  · exact .next
  · split <;> exact .next

theorem execPacketDelivery_answers (eng : EngN) : Answers (execPacketDelivery eng s) := by
  unfold execPacketDelivery
  dsimp only
  split
  · exact .next
  · refine .ite .next ?_
    split <;> exact .next

theorem execSendCommit_answers (eng : EngN) : Answers (execSendCommit eng s) := by
  unfold execSendCommit
  split
  · exact .ite .next .next
  · exact .next

theorem execDiscardCommit_answers (eng : EngN) : Answers (execDiscardCommit eng s) := by
  unfold execDiscardCommit
  split
  · exact .ite .next .next
  · exact .next

theorem execVoqEnqueue_answers (pipe : PipeN) : Answers (execVoqEnqueue pipe s) := by
  unfold execVoqEnqueue
  dsimp only
  split
  · exact .next
  · refine .ite .next (.ite .next (.ite .next (.ite .next (.ite .next ?_))))
    split
    · exact .next
    · exact .ite .next (.ite .next .next)

theorem execSpillWrite_answers (pipe : PipeN) (port : AnyPort) (cls : ClassN) : Answers (execSpillWrite pipe port cls s) := by
  unfold execSpillWrite
  extract_lets key l pre
  split
  · exact .next
  · refine .ite .next (.ite .next ?_)
    -- the answer does not turn on the blocks taken and on who owns the entry then
    generalize s.popBlocks _ = blocks
    obtain ⟨newB, s1⟩ := blocks
    generalize State.ownEnt _ _ _ = owned
    exact .next

theorem execDeepRefill_answers (pipe : PipeN) (port : AnyPort) (cls : ClassN) : Answers (execDeepRefill pipe port cls s) := by
  unfold execDeepRefill
  dsimp only
  split
  · exact .next
  · split
    · refine .ite .next (.ite .next ?_)
      split <;> exact .next
    · exact .next

theorem execCellTransfer_answers (input : Fin 18) : Answers (execCellTransfer input s) := by
  unfold execCellTransfer
  dsimp only
  split
  · exact .next
  · exact .ite .next (.ite .next .next)

theorem execTxSelect_answers (out : AnyPort) : Answers (execTxSelect out s) := by
  refine .ite .next (.ite ?_ (.ite .next ?_))
  · extract_lets s1
    split
    · exact .next
    · split <;> exact .next
  · extract_lets s1 ok fits s2
    split
    · exact .next
    · split <;> exact .next

theorem execFrameTxEnd_answers (out : AnyPort) : Answers (execFrameTxEnd out s) := by
  unfold execFrameTxEnd
  dsimp only
  split
  · exact .next
  · refine .ite .next (.ite .next (.ite ?_ (.ite .next .next)))
    split <;> exact .next

theorem execTodMessage_answers (first : Byte) (rest : List Byte) : Answers (execTodMessage first rest s) := by
  unfold execTodMessage
  dsimp only
  split
  · exact .next
  · exact .ite .next (.ite .next (.ite .next .next))

theorem execSkippedEventRelease_answers : Answers (execSkippedEventRelease s) := by
  unfold execSkippedEventRelease
  split <;> exact .next

theorem execWatermarkReached_answers : Answers (execWatermarkReached s) := by
  unfold execWatermarkReached
  split
  · exact .next
  · exact .ite .next .next

theorem execWfeWake_answers (a : Agent) : Answers (execWfeWake a s) := by
  unfold execWfeWake
  dsimp only
  split
  · exact .ite .next .next
  · exact .next

theorem execThreadTimerExpire_answers (a : Agent) : Answers (execThreadTimerExpire a s) := by
  unfold execThreadTimerExpire
  split <;> exact .next

theorem execEventDeadlock_answers (eng : EngN) : Answers (execEventDeadlock eng s) := by
  refine .ite ?_ .next
  split <;> exact .next

theorem execMov_answers (a : Agent) (form : MovForm) (rd : Reg) : Answers (execMov a form rd s) := by
  cases form with
  | regShort rs => exact .ite (.ite .next .next) (.ite .next .next)
  | regLong rs => exact .ite .next .next
  | imm7 i => exact .ite .next .next

theorem execLookupLand_answers (id : Nat) (ecc : LkEcc) : Answers (execLookupLand id ecc s) := by
  unfold execLookupLand
  split <;> exact .next

theorem execDeepFillArrive_answers (half : HalfN) (id : Nat) (bucket : BitVec 25) : Answers (execDeepFillArrive half id bucket s) := by
  unfold execDeepFillArrive
  split
  · exact .next
  · exact .ite .next (.ite .next .next)

theorem execMakeRoomMove_answers : Answers (execMakeRoomMove s) := by
  unfold execMakeRoomMove
  split
  · exact .next
  · split <;> exact .next

theorem execViewSyncLocation_answers : Answers (execViewSyncLocation s) := by
  refine .ite .next ?_
  split <;> exact .next

theorem execSourceCheck_answers (half : HalfN) : Answers (execSourceCheck half s) := by
  unfold execSourceCheck
  dsimp only
  split
  · exact .next
  · exact .ite .next .next

theorem execLearnApply_answers (half : HalfN) : Answers (execLearnApply half s) := by
  unfold execLearnApply
  dsimp only
  split
  · exact .next
  · exact .ite .next .next

theorem execFreezeExpire_answers (half : HalfN) : Answers (execFreezeExpire half s) := by
  unfold execFreezeExpire
  dsimp only
  split
  · exact .next
  · refine .ite .next ?_
    split <;> exact .next

theorem execLearnFrameReceive_answers : Answers (execLearnFrameReceive s) := by
  unfold execLearnFrameReceive
  split <;> exact .next

theorem execTaskDispatch_answers (a : Agent) : Answers (execTaskDispatch a s) := by
  unfold execTaskDispatch
  split
  · exact .ite .next .next
  · exact .next

theorem execTaskPreempt_answers (a : Agent) : Answers (execTaskPreempt a s) := by
  unfold execTaskPreempt
  dsimp only
  split
  · exact .next
  · refine .ite .next (.ite .next ?_)
    split <;> exact .next

theorem execTimeoutExpire_answers (task : TaskN) : Answers (execTimeoutExpire task s) := by
  unfold execTimeoutExpire
  split
  · exact .next
  · exact .ite .next .next

theorem execTxDescriptorProcess_answers (ring : RingN) : Answers (execTxDescriptorProcess ring s) := by
  unfold execTxDescriptorProcess
  dsimp only
  split
  · exact .next
  · refine .ite .next (.ite .next (.ite .next ?_))
    split <;> exact .next

theorem execDmaCompletion_answers (id : Nat) (data : List Byte) : Answers (execDmaCompletion id data s) := by
  unfold execDmaCompletion
  dsimp only
  split
  · exact .next
  · refine .ite .next ?_
    split
    · exact .next
    · exact .next
    · exact .ite .next (.ite .next .next)

theorem execCplTimeout_answers (id : Nat) : Answers (execCplTimeout id s) := by
  unfold execCplTimeout
  dsimp only
  split
  · exact .next
  · refine .ite .next ?_
    split <;> exact .next

theorem execRxDelivery_answers (host : Fin 4) : Answers (execRxDelivery host s) := by
  unfold execRxDelivery
  dsimp only
  split
  · exact .next
  · split <;> exact .next

theorem execRxStagingTimeout_answers (host : Fin 4) : Answers (execRxStagingTimeout host s) := by
  unfold execRxStagingTimeout
  dsimp only
  split <;> exact .next

theorem execKeepaliveFrameReceive_answers (slot : Fin 4) (bytes : List Byte) : Answers (execKeepaliveFrameReceive slot bytes s) := by
  unfold execKeepaliveFrameReceive
  split <;> exact .next

theorem execUndefinedInstruction_answers (a : Agent) : Answers (execUndefinedInstruction a s) := by
  refine .ite .next ?_
  split
  refine .ite (.ite .next .next) ?_
  split
  split <;> exact .next

end

/-- Every command answers a next state: a register access by the bus, an instruction by its issue, an event by the tests of its meaning. -/
theorem exec_answers (c : Instr) (s : State) : Answers (exec c s) := by
  unfold exec
  cases c with
  | portTsTagRead | portTsSecHiRead | timeNowFracRead | engHkeyLoRead | lckAcqRead | irqClaim | dbgTrLoRead | violCapRead
  | lowWordLatchRead | rcRegisterRead => exact .regRead
  | portModeWrite | portDisable | sdsLaneMapWrite | xbPortFlush | gclSwitchRequest | mtrNop | mtrWrite | mtrRead | mtrFill
  | timeAdjNsWrite | timeStepGo | timeCtlWrite | threadReset | engineReset | engCtlWrite | engThrCfgWrite | cluIramFixDataWrite | emNop
  | emInsert | emDelete | emSearch | emModify | emViewAdd | emReadAt | emCtrRead | emWritePage | emBulkStart | emBulkAbort | emSeedWrite
  | emTblCfgWrite | tcNop | tcInsert | tcDelete | tcSearch | tcModify | tcViewAdd | tcReadAt | tcMatch | viewCommit | viewAbort
  | viewSync | lrnFlush | lrnDump | sintNop | sintAlloc | sintHandover | sintFree | sintInject | sintRead | sintPoolApply
  | sintAuditStart | sintAuditAbort | xbMcgSelWrite | xbMcgMap2Write | tskStart | tskRelease | tskStop | lckRelWrite | irqEoi | irqHeoi
  | irqSoftSet | irqSoftClear | instCreate | instDestroy | instStage | mbxSend | mbxDone | hbmTrainGo | hbmTrainAbort | hbmPcFenceWrite
  | hbmRun | devModeReq | devWakeWrite | controlCoreReset | fumaroleReset | devPwrWrite | devFenceWrite | secVerify | secPload
  | secExtend | secAttest | secSvnAdvance | secOwnEnrol | secDbgUnlock | secFlashWrite | secSha384 | secModexp | secIrepair | secAbort
  | secReqSignedWrite | rasTestEmSlice | rasTestTcSlice | rasTestBucketCache | rasTestMeterCtr | rasTestEngineMem | rasTestSinterMem
  | rasTestSerdesRecal | rasTestEyeScan | rasTestFull | rasTestAbort | rasLogClr | dbgHalt | dbgResume | dbgStep | dbgRst | dbgEv14
  | dbgAccRead | dbgAccWrite | dbgMbxDataWrite | dbgMbxSubmit | registerWrite => exact .regWrite
  | cluIramDataAccess | cluShrDataAccess | engHkeyHiAccess | sintWinAccess | dbgTregAccess => exact .regAcc
  | jtagDbgreg => exact .ite .next .regAcc
  | add | sub | addf | subf | and | or | xor | andnot | ornot | sll | srl | sra | ror | mul | mulhi | quo | rem | min | max | minu | maxu
  | cmp | tst | pick | bool | neg | not | clz | ctz | popc | bswap | zext | sext | addi | andi | ori | xori | slli | srli | srai | cmpi
  | ldiz | ldik | ldis | ldb | ldh | ldw | ldd | ldsb | ldsh | ldsw | ldnh | ldnw | ldnd | stb | sth | stw | std | stnh | stnw | stnd
  | aadd | asadd | acas | lkup | lka | lkq | lkr | bc | brz | brnz | j | jr | eret | nop | send | wfe | sig | tmr | sleep | fence | brk
  | trap | mfs | mts | xchs | fext | fins | fscn | hcrc | htoe | hvndHash | hvndKeyWrite | hvndKeyRead | cksa | cksu | cksf =>
    -- an instruction issues and has its effect, or its thread cannot issue now (`State.instr`)
    exact .ite .next .next
  | call | callr | ret | rget | rput =>
    -- an instruction that may name any register also waits for the unit results in flight (`State.instrAll`)
    exact .ite (.ite .next .next) .next
  | frameReceive | fcsFailure | macControlFrameReceive | pauseQuantaExpire | sintXoffEval | pfcRepeatExpire | ltRestart | linkUpReport
  | fuWriteback | emCmdComplete | tcSweepVisit | learnFrameSend | learnFlushTimerExpire | learnHelloExpire | learnRecordLearn
  | learnRecordWithdraw | learnRecordReplay | lrnBulkBucket | sintAuditComplete | taskYield | taskWait | taskDelay | taskRelease
  | taskExit | groupTick | irqSourceAssert | msixSend | wakeWatcherTrigger | flr | pcieLinkDown | perst | mbxTimeout | txDoorbell
  | rxDoorbell | hbmBankIssue | hbmPromote | hbmRetrainDue | hbmSrEntry | hbmScrubRead | hbmFence | hbmRemapFillDone | hbmSpillWithdraw
  | hbmTrained | maintainEntry | maintainDrainTimeout | simmerEntry | sleepDrainTimeout | dormantAutoExpire | wakeTimerExpire
  | keepaliveServiceSend | lkpHalfCopyDone | vddAonUp | pgMainUp | pgTimeout | pwrSeqRetry | porReset | sysReset | thermtrip
  | bootSequence | bootRetry | identityDerive | jtagIdcode | jtagBypass | jtagSamplePreload | jtagExtest | timePllLockLost | powerLoss
  | configurationRequest | strapChange => exact .next
  | linkDown | linkUp | holdTimerExpire | xbarMatchingRound | eligibilityVectorPublish | wheelSlotRelease | gateChange | gclSwitch
  | holdoverTimeout | timeTriggerFire | timePllLock | timeDistBroadcast | ppsOutEdge | todOutSend | stageWatchdogExpire | interruptTake
  | emBulkRecord | tcCmdComplete | viewFlip | viewDrainLimitExpire | peerLost | stampSweepVisit | lrnBulkAbort | agerVisit
  | msixVectorUnmask | coreWake | instReset | instResetDrainEnd | vfEnableClear | ringModExpire | hbmSrExit | simmerWake
  | gpioInputChange | railsValid | resetRelease | rasTestComplete | breakpointHit | slewEnd | shaperCreditRecovery | devPwrChangeComplete
  | vfEnableSet | pcieLinkUp => exact .ite .next .next
  | pfcFrameSend | linkDownReport | hbmRetrainEnd | dormantEntry | secCmdComplete => exact .ite .next (.ite .next .next)
  | forcedStep | simmerCommit | dormantWake => exact .ite .next (.ite .next (.ite .next .next))
  | ppsEdge => exact .ite .next (.ite .next (.ite (.ite .next .next) .next))
  | parseStart pipe => exact execParseStart_answers s pipe
  | packetDelivery eng => exact execPacketDelivery_answers s eng
  | sendCommit eng => exact execSendCommit_answers s eng
  | discardCommit eng => exact execDiscardCommit_answers s eng
  | voqEnqueue pipe => exact execVoqEnqueue_answers s pipe
  | spillWrite pipe port cls => exact execSpillWrite_answers s pipe port cls
  | deepRefill pipe port cls => exact execDeepRefill_answers s pipe port cls
  | cellTransfer input => exact execCellTransfer_answers s input
  | txSelect out => exact execTxSelect_answers s out
  | frameTxEnd out => exact execFrameTxEnd_answers s out
  | todMessage first rest => exact execTodMessage_answers s first rest
  | skippedEventRelease => exact execSkippedEventRelease_answers s
  | watermarkReached => exact execWatermarkReached_answers s
  | wfeWake a => exact execWfeWake_answers s a
  | threadTimerExpire a => exact execThreadTimerExpire_answers s a
  | eventDeadlock eng => exact execEventDeadlock_answers s eng
  | mov a form rd => exact execMov_answers s a form rd
  | lookupLand id ecc => exact execLookupLand_answers s id ecc
  | deepFillArrive half id bucket => exact execDeepFillArrive_answers s half id bucket
  | makeRoomMove => exact execMakeRoomMove_answers s
  | viewSyncLocation => exact execViewSyncLocation_answers s
  | sourceCheck half => exact execSourceCheck_answers s half
  | learnApply half => exact execLearnApply_answers s half
  | freezeExpire half => exact execFreezeExpire_answers s half
  | learnFrameReceive => exact execLearnFrameReceive_answers s
  | taskDispatch a => exact execTaskDispatch_answers s a
  | taskPreempt a => exact execTaskPreempt_answers s a
  | timeoutExpire task => exact execTimeoutExpire_answers s task
  | txDescriptorProcess ring => exact execTxDescriptorProcess_answers s ring
  | dmaCompletion id data => exact execDmaCompletion_answers s id data
  | cplTimeout id => exact execCplTimeout_answers s id
  | rxDelivery host => exact execRxDelivery_answers s host
  | rxStagingTimeout host => exact execRxStagingTimeout_answers s host
  | keepaliveFrameReceive slot bytes => exact execKeepaliveFrameReceive_answers s slot bytes
  | undefinedInstruction a => exact execUndefinedInstruction_answers s a

/-- Settles O3: by the shape of the meaning of each command (R1, R583; that no command faults or is refused is the model's choice, assumption
log, entries 16 and 17). -/
theorem everyCommandCompletes : Obligations.EveryCommandCompletes := exec_answers

end Sys2Proof.Machine
end

section
/-! PROOFS. What writes of registers keep: the rules that the proofs about commands use. -/

namespace Sys2Proof.Machine

/-! ### Fields -/

section
variable {s : State} {a b : Nat} {f g : Fld} {v : W32} {x : Nat}

theorem fld_setReg_other (h : b ≠ a) : (s.setReg a v).fld b g = s.fld b g := by
  unfold State.fld; rw [reg_setReg_other s a b v h]

theorem fld_setFld_other (h : b ≠ a) : (s.setFld a f x).fld b g = s.fld b g := fld_setReg_other h

theorem fld_setFld_above (hf : f.lo ≤ f.hi) (h32 : f.hi < 32) (h : f.hi < g.lo) : (s.setFld a f x).fld a g = s.fld a g := by
  unfold State.fld State.setFld
  rw [reg_setReg_same, getF_setF_above _ f g x hf h32 h]

theorem fld_lt : s.fld a f < 2 ^ (f.hi + 1 - f.lo) := Nat.mod_lt _ (Nat.two_pow_pos _)

theorem mode_lt (s : State) : s.mode < 16 := fld_lt

theorem getLsbD_or_two_pow (w : W32) {i : Nat} (h : i < 32) : (w ||| BitVec.ofNat 32 (2 ^ i)).getLsbD i = true := by
  rw [BitVec.getLsbD_or, BitVec.getLsbD_ofNat, Nat.testBit_two_pow_self, decide_eq_true h, Bool.true_and, Bool.or_true]

/-- A cause bit that is raised is set. -/
theorem getLsbD_raise (s : State) (p : Nat) {i : Nat} (h : i < 32) : ((s.raise p i).reg (p + 0x10)).getLsbD i = true := by
  rw [reg_raise_same]
  exact getLsbD_or_two_pow _ h

end

/-! ### Registers kept -/

namespace State.regsKept
variable {s t u : State} {l m : List Nat} {a x : Nat} {f : Fld} {v : W32}

theorem refl : s.regsKept s l := fun _ _ => rfl

theorem trans (h : s.regsKept t l) (h' : t.regsKept u l) : s.regsKept u l := fun r hr => (h' r hr).trans (h r hr)

theorem mono (h : s.regsKept t l) (hl : ∀ r ∈ l, r ∈ m) : s.regsKept t m := fun r hr => h r fun hm => hr (hl r hm)

theorem setReg (h : s.regsKept t l) (ha : a ∈ l) : s.regsKept (t.setReg a v) l := fun r hr =>
  (reg_setReg_other t a r v fun e => hr (e ▸ ha)).trans (h r hr)

theorem setFld (h : s.regsKept t l) (ha : a ∈ l) : s.regsKept (t.setFld a f x) l := h.setReg ha

theorem raise (h : s.regsKept t l) (ha : a + 0x10 ∈ l) : s.regsKept (t.raise a x) l := h.setReg ha

theorem cnt (h : s.regsKept t l) (ha : a ∈ l) : s.regsKept (t.cnt a) l := fun r hr =>
  (reg_cnt_other t a r fun e => hr (e ▸ ha)).trans (h r hr)

theorem fld (h : s.regsKept t l) (ha : a ∉ l) : t.fld a f = s.fld a f := congrArg (getF · f) (h a ha)

theorem mode (h : s.regsKept t l) (ha : R.DEV_MODE ∉ l) : t.mode = s.mode := h.fld ha

end State.regsKept

/-! ### Nothing but registers -/

/-- Nothing but registers has changed. -/
def State.regsOnly (s t : State) : Prop := ∃ r, t = { s with regs := r }

namespace State.regsOnly
variable {s t u : State} {a b x : Nat} {f : Fld} {v : W32}

theorem refl : s.regsOnly s := ⟨s.regs, rfl⟩

theorem trans (h : s.regsOnly t) (h' : t.regsOnly u) : s.regsOnly u := by
  obtain ⟨r, rfl⟩ := h
  obtain ⟨r', rfl⟩ := h'
  exact ⟨r', rfl⟩

theorem setReg (h : s.regsOnly t) : s.regsOnly (t.setReg a v) := h.trans ⟨_, rfl⟩

theorem setFld (h : s.regsOnly t) : s.regsOnly (t.setFld a f x) := h.setReg

theorem raise (h : s.regsOnly t) : s.regsOnly (t.raise a b) := h.setReg

theorem cnt (h : s.regsOnly t) : s.regsOnly (t.cnt a) := by
  unfold State.cnt
  split
  · exact h
  · exact h.setReg

theorem mem (h : s.regsOnly t) : t.mem = s.mem := by obtain ⟨r, rfl⟩ := h; rfl
theorem hold (h : s.regsOnly t) : t.hold = s.hold := by obtain ⟨r, rfl⟩ := h; rfl
theorem dbHeld (h : s.regsOnly t) : t.dbHeld = s.dbHeld := by obtain ⟨r, rfl⟩ := h; rfl
theorem replay (h : s.regsOnly t) : t.replay = s.replay := by obtain ⟨r, rfl⟩ := h; rfl
theorem going (h : s.regsOnly t) : t.going = s.going := by obtain ⟨r, rfl⟩ := h; rfl
theorem time (h : s.regsOnly t) : t.time = s.time := by obtain ⟨r, rfl⟩ := h; rfl
theorem fuses (h : s.regsOnly t) : t.fuses = s.fuses := by obtain ⟨r, rfl⟩ := h; rfl
theorem wakePend (h : s.regsOnly t) : t.wakePend = s.wakePend := by obtain ⟨r, rfl⟩ := h; rfl

/-- The same in the words of the claims. -/
theorem onlyRegs {l : List Nat} (h : s.regsOnly t) (hk : s.regsKept t l) : s.onlyRegs t l := by
  obtain ⟨r, rfl⟩ := h
  exact ⟨rfl, hk⟩

end State.regsOnly

/-- A field set in each register of a list: every other register is kept. -/
theorem reg_foldl_setFld {α : Type} (l : List α) (at_ : α → Nat) (f : Fld) (x : Nat) (s : State) {r : Nat} (h : ∀ e ∈ l, r ≠ at_ e) :
    (l.foldl (fun s e => s.setFld (at_ e) f x) s).reg r = s.reg r := by
  induction l generalizing s with
  | nil => rfl
  | cons e l ih =>
    rw [List.foldl_cons, ih _ fun e' he => h e' (List.mem_cons_of_mem _ he), reg_setFld_other _ _ _ _ _ (h e List.mem_cons_self)]

theorem regsOnly_foldl_setFld {α : Type} (l : List α) (at_ : α → Nat) (f : Fld) (x : Nat) (s : State) :
    s.regsOnly (l.foldl (fun s e => s.setFld (at_ e) f x) s) := by
  induction l generalizing s with
  | nil => exact .refl
  | cons e l ih => exact State.regsOnly.refl.setFld.trans (ih _)

/-- Filtering a sparse map by its keys keeps the entries of the keys that pass. -/
theorem smFind_filter {α : Type} (p : Nat → Bool) (m : SMap α) {i : Nat} (h : p i = true) : smFind (m.filter fun e => p e.1) i = smFind m i := by
  induction m with
  | nil => rfl
  | cons e m ih =>
    obtain ⟨k, v⟩ := e
    by_cases hk : i = k
    · subst hk; simp [h, smFind]
    · by_cases hp : p k = true <;> simp [hp, smFind, hk, ih]

/-- Filtering a sparse map by its keys drops the entries of the keys that do not pass. -/
theorem smFind_filter_none {α : Type} (p : Nat → Bool) (m : SMap α) {i : Nat} (h : p i = false) : smFind (m.filter fun e => p e.1) i = none := by
  induction m with
  | nil => rfl
  | cons e m ih =>
    obtain ⟨k, v⟩ := e
    by_cases hp : p k = true
    · have hk : i ≠ k := fun e => by rw [e, hp] at h; cases h
      simp [hp, smFind, hk, ih]
    · simp [hp, ih]

/-! ### A control context at a register of the map -/

/-- An access of a control context lands on the register of its address (R587). -/
theorem reach_of_open {s : State} {who : Req} {a : Nat} (ho : s.open who a) (hl : s.lands a) (wr : Bool) :
    s.reach who.toNat a wr = .reg { at_ := a, cap := a } := by
  obtain ⟨⟨h800, h810⟩, hoff, hrst, hsim, hdor, hon⟩ := ho
  obtain ⟨hsel, hb01, hpg, -⟩ := hl
  have hctl : 0x800 ≤ who.toNat ∧ who.toNat ≤ 0x810 := ⟨h800, Nat.le_of_lt h810⟩
  have hpg' : (pageOf a).isNone = false := by simpa using hpg
  simp [State.reach, hoff, hrst, hctl, State.wholeMap, hb01, State.landReg, State.sleepMap, hsim, hdor, hsel, hpg', hon]

/-- A write that reaches a register other than DBG_ACC_CTL is carried out there. -/
theorem busWrite_of_reach {s : State} {who a : Nat} (v : W32) (h : s.reach who a true = .reg { at_ := a, cap := a }) (ha : a ≠ R.DBG_ACC_CTL) :
    s.busWrite who a v = s.writeHit who { at_ := a, cap := a } v := by
  simp [State.busWrite, h, ha]

end Sys2Proof.Machine
end

section
/-! PROOFS. The operations of mode transitions (R493–R508): what a completion point, an end, the sampling of wakes and a loss of the main
rails change. -/

namespace Sys2Proof.Machine

/-! ### Statuses -/

theorem reqStatus_setStatus {s : State} {n : Nat} (h : n < 16) : (s.setStatus n).reqStatus = n :=
  (fld_setFld_same s R.DEV_MODE_REQ F.DEV_MODE_REQ_STATUS n (by decide) (by decide)).trans (Nat.mod_eq_of_lt h)

theorem regsKept_setStatus {s t : State} {n : Nat} {l : List Nat} (h : s.regsKept t l) (hl : R.DEV_MODE_REQ ∈ l) :
    s.regsKept (t.setStatus n) l := h.setFld hl

/-! ### The completion point of a transition -/

/-- The registers that show a transition, as `State.enterMode` writes them before a replay. -/
def State.modeShown (s : State) (n : Nat) : State :=
  let s1 := ((s.setFld R.DEV_MODE F.DEV_MODE_PREV s.mode).setFld R.DEV_MODE F.DEV_MODE_MODE n).cnt R.DEV_MODE_CHG
  let s2 : State := { s1.raise 0 0 with cfgReady := s1.cfgReady || n == mCONFIGURE }
  s2.setFld R.XB_STAT F.XB_STAT_MC_MODE (mcMode n (s.fld R.XB_STAT F.XB_STAT_MC_MODE))

theorem reg_with_cfgReady (s : State) (c : Bool) (a : Nat) : ({ s with cfgReady := c } : State).reg a = s.reg a := rfl

theorem reg_with_replay (s : State) (p : Bool) (a : Nat) : ({ s with replay := p } : State).reg a = s.reg a := rfl

theorem enterMode_eq (s : State) (n : Nat) : s.enterMode n =
    if (n = mFORWARD ∨ n = mCOMPAT) ∧ (s.modeShown n).replay = true then (s.modeShown n).replayAll else s.modeShown n := rfl

/-- The registers of a completion point. -/
def modeRegs : List Nat := [R.DEV_MODE, R.DEV_MODE_CHG, 0x10, R.XB_STAT]

/-- Mode `n` has been entered from the state `s`, and no held frame has been replayed. -/
structure State.Entered (s : State) (n : Nat) (t : State) : Prop where
  mode   : t.mode = n
  prev   : t.fld R.DEV_MODE F.DEV_MODE_PREV = s.mode
  raised : (t.reg 0x10).getLsbD 0 = true
  kept   : s.regsKept t modeRegs
  rest   : ∃ r c p, t = { s with regs := r, cfgReady := c, replay := p }

section
variable (s : State) (n : Nat)

theorem reg_modeShown_mode : (s.modeShown n).reg R.DEV_MODE =
    ((s.setFld R.DEV_MODE F.DEV_MODE_PREV s.mode).setFld R.DEV_MODE F.DEV_MODE_MODE n).reg R.DEV_MODE := by
  unfold State.modeShown
  rw [reg_setFld_other _ _ _ _ _ (by decide), reg_with_cfgReady, reg_raise_other _ _ _ _ (by decide), reg_cnt_other _ _ _ (by decide)]

theorem mode_modeShown : (s.modeShown n).mode = n % 16 :=
  (congrArg (getF · F.DEV_MODE_MODE) (reg_modeShown_mode s n)).trans (fld_setFld_same _ R.DEV_MODE F.DEV_MODE_MODE n (by decide) (by decide))

theorem prev_modeShown : (s.modeShown n).fld R.DEV_MODE F.DEV_MODE_PREV = s.mode := by
  have h := fld_setFld_above (s := s.setFld R.DEV_MODE F.DEV_MODE_PREV s.mode) (a := R.DEV_MODE) (f := F.DEV_MODE_MODE) (g := F.DEV_MODE_PREV) (x := n)
    (by decide) (by decide) (by decide)
  have h' := fld_setFld_same s R.DEV_MODE F.DEV_MODE_PREV s.mode (by decide) (by decide)
  exact (congrArg (getF · F.DEV_MODE_PREV) (reg_modeShown_mode s n)).trans (h.trans (h'.trans (Nat.mod_eq_of_lt (mode_lt s))))

theorem raised_modeShown : ((s.modeShown n).reg 0x10).getLsbD 0 = true := by
  unfold State.modeShown
  rw [reg_setFld_other _ _ _ _ _ (by decide), reg_with_cfgReady]
  exact getLsbD_raise _ 0 (by decide)

theorem regsKept_modeShown : s.regsKept (s.modeShown n) modeRegs := by
  intro r hr
  obtain ⟨h1, h2, h3, h4⟩ : r ≠ R.DEV_MODE ∧ r ≠ R.DEV_MODE_CHG ∧ r ≠ 0x10 ∧ r ≠ R.XB_STAT := by simpa [modeRegs] using hr
  unfold State.modeShown
  rw [reg_setFld_other _ _ _ _ _ h4, reg_with_cfgReady, reg_raise_other _ _ _ _ h3, reg_cnt_other _ _ _ h2, reg_setFld_other _ _ _ _ _ h1,
    reg_setFld_other _ _ _ _ _ h1]

theorem modeShown_eq : ∃ r c, s.modeShown n = { s with regs := r, cfgReady := c } := by
  have h : s.regsOnly (((s.setFld R.DEV_MODE F.DEV_MODE_PREV s.mode).setFld R.DEV_MODE F.DEV_MODE_MODE n).cnt R.DEV_MODE_CHG) :=
    (State.regsOnly.refl.setFld.setFld).cnt
  obtain ⟨r, h⟩ := h
  unfold State.modeShown
  rw [h]
  exact ⟨_, _, rfl⟩

end

/-- With nothing to replay, a mode is entered alone. -/
theorem entered_enterMode {s : State} {n : Nat} (hn : n < 16) (hq : (n ≠ mFORWARD ∧ n ≠ mCOMPAT) ∨ s.replay = false ∨ s.hold = []) :
    s.Entered n (s.enterMode n) := by
  have hshown : ∃ p, s.enterMode n = { s.modeShown n with replay := p } := by
    obtain ⟨r, c, h⟩ := modeShown_eq s n
    rw [enterMode_eq, h]
    split
    · next hr =>
      obtain ⟨hfwd, hrep⟩ := hr
      have hempty : s.hold = [] := by
        obtain ⟨hf, hc⟩ | hr | hh := hq
        · exact (hfwd.elim hf hc).elim
        · exact absurd (hr.symm.trans hrep) Bool.false_ne_true
        · exact hh
      refine ⟨false, ?_⟩
      unfold State.replayAll
      rw [hempty, List.foldl_nil, ← hempty]
    · exact ⟨s.replay, rfl⟩
  obtain ⟨p, h⟩ := hshown
  have hreg : ∀ a, (s.enterMode n).reg a = (s.modeShown n).reg a := fun a => by rw [h, reg_with_replay]
  have hfld : ∀ a f, (s.enterMode n).fld a f = (s.modeShown n).fld a f := fun a f => congrArg (getF · f) (hreg a)
  exact {
    mode := (hfld _ _).trans ((mode_modeShown s n).trans (Nat.mod_eq_of_lt hn))
    prev := (hfld _ _).trans (prev_modeShown s n)
    raised := by rw [hreg]; exact raised_modeShown s n
    kept := fun r hr => (hreg r).trans (regsKept_modeShown s n r hr)
    rest := by
      obtain ⟨r, c, h'⟩ := modeShown_eq s n
      rw [h, h']
      exact ⟨_, _, _, rfl⟩ }

/-- A requested transition to mode `n` has completed from the state `s`. -/
structure State.Completed (s : State) (n : Nat) (t : State) : Prop where
  mode   : t.mode = n
  prev   : t.fld R.DEV_MODE F.DEV_MODE_PREV = s.mode
  status : t.reqStatus = 2
  raised : (t.reg 0x10).getLsbD 0 = true
  kept   : s.regsKept t (R.DEV_MODE_REQ :: modeRegs)
  rest   : ∃ r c p, t = { s with regs := r, cfgReady := c, replay := p, going := none, goCommit := false }

theorem reg_with_settled (s : State) (a : Nat) : ({ s with going := none, goCommit := false } : State).reg a = s.reg a := rfl

theorem reg_completeMode_other (s : State) (n : Nat) {a : Nat} (h : a ≠ R.DEV_MODE_REQ) : (s.completeMode n).reg a = (s.enterMode n).reg a := by
  unfold State.completeMode State.setStatus
  rw [reg_setFld_other _ _ _ _ _ h, reg_with_settled]

theorem reqStatus_completeMode (s : State) (n : Nat) : (s.completeMode n).reqStatus = 2 := by
  unfold State.completeMode
  exact reqStatus_setStatus (by decide)

theorem completed_completeMode {s : State} {n : Nat} (hn : n < 16) (hq : (n ≠ mFORWARD ∧ n ≠ mCOMPAT) ∨ s.replay = false ∨ s.hold = []) :
    s.Completed n (s.completeMode n) := by
  have e := entered_enterMode hn hq
  have hmode : (s.completeMode n).reg R.DEV_MODE = (s.enterMode n).reg R.DEV_MODE := reg_completeMode_other s n (by decide)
  exact {
    mode := (congrArg (getF · F.DEV_MODE_MODE) hmode).trans e.mode
    prev := (congrArg (getF · F.DEV_MODE_PREV) hmode).trans e.prev
    status := reqStatus_completeMode s n
    raised := by rw [reg_completeMode_other s n (by decide)]; exact e.raised
    kept := fun r hr => by
      rw [reg_completeMode_other s n (List.ne_of_not_mem_cons hr)]
      exact e.kept r (List.not_mem_of_not_mem_cons hr)
    rest := by
      obtain ⟨r, c, p, h⟩ := e.rest
      unfold State.completeMode
      rw [h]
      exact ⟨_, _, _, rfl⟩ }

/-! ### A transition that ends without its target -/

/-- The running transition of the state `s` has ended with status `n`. -/
structure State.Ended (s : State) (n : Nat) (t : State) : Prop where
  mode   : t.mode = s.mode
  status : t.reqStatus = n
  raised : (t.reg 0x10).getLsbD 0 = true
  kept   : s.regsKept t [R.DEV_MODE_REQ, 0x10]
  rest   : ∃ r, t = { s with regs := r, going := none, goCommit := false }

theorem reg_endMode_other (s : State) (n : Nat) {a : Nat} (h : a ≠ 0x10) (h' : a ≠ R.DEV_MODE_REQ) : (s.endMode n).reg a = s.reg a := by
  unfold State.endMode State.setStatus
  rw [reg_raise_other _ _ _ _ h, reg_setFld_other _ _ _ _ _ h', reg_with_settled]

theorem reg_endMode_request (s : State) (n : Nat) :
    (s.endMode n).reg R.DEV_MODE_REQ = (State.setStatus { s with going := none, goCommit := false } n).reg R.DEV_MODE_REQ := by
  unfold State.endMode
  rw [reg_raise_other _ _ _ _ (by decide)]

theorem raised_endMode (s : State) (n : Nat) : ((s.endMode n).reg 0x10).getLsbD 0 = true := by
  unfold State.endMode
  exact getLsbD_raise _ 0 (by decide)

theorem ended_endMode (s : State) {n : Nat} (hn : n < 16) : s.Ended n (s.endMode n) where
  mode := congrArg (getF · F.DEV_MODE_MODE) (reg_endMode_other s n (by decide) (by decide))
  status := (congrArg (getF · F.DEV_MODE_REQ_STATUS) (reg_endMode_request s n)).trans (reqStatus_setStatus hn)
  raised := raised_endMode s n
  kept := fun r hr => by
    obtain ⟨h1, h2⟩ : r ≠ R.DEV_MODE_REQ ∧ r ≠ 0x10 := by simpa using hr
    exact reg_endMode_other s n h2 h1
  rest := by
    have h : State.regsOnly { s with going := none, goCommit := false } (s.endMode n) := State.regsOnly.refl.setFld.raise
    obtain ⟨r, h⟩ := h
    exact ⟨r, h⟩

/-! ### Held doorbells and enabled ports -/

theorem applyHeld_of_nil {s : State} (h : s.dbHeld = []) : s.applyHeld = s := by
  unfold State.applyHeld
  rw [h, List.foldl_nil, ← h]

/-- The enabled ports stand in the PORT_CTL registers. -/
theorem enPorts_congr {s t : State} (h : ∀ x < 64, t.reg (R.PORT_CTL x) = s.reg (R.PORT_CTL x)) : t.enPorts = s.enPorts :=
  List.filter_congr fun x hx =>
    congrArg (fun v => decide (getF v F.PORT_CTL_EN ≠ 0)) (h x (List.mem_range.mp hx))

theorem handOver_of_nil {s : State} (h : s.enPorts = []) : s.handOver = s := by
  unfold State.handOver
  rw [h, List.foldl_nil]

theorem handBack_of_nil {s : State} (h : s.enPorts = []) : s.handBack = s := by
  unfold State.handBack
  rw [h, List.filter_nil, List.foldl_nil]

/-! ### Wakes -/

/-- The registers that record wakes (R432, R504). -/
def wakeRegs : List Nat := [R.AON_WAKE_STAT, R.IRQ_WAKE_STAT]

/-- Nothing but the records of wakes has changed. -/
def State.wakesOnly (s t : State) : Prop := (∃ r w, t = { s with regs := r, wakePend := w }) ∧ s.regsKept t wakeRegs

namespace State.wakesOnly
variable {s t u : State}

theorem refl : s.wakesOnly s := ⟨⟨_, _, rfl⟩, .refl⟩

theorem trans (h : s.wakesOnly t) (h' : t.wakesOnly u) : s.wakesOnly u := by
  obtain ⟨⟨r, w, rfl⟩, hk⟩ := h
  obtain ⟨⟨r', w', rfl⟩, hk'⟩ := h'
  exact ⟨⟨r', w', rfl⟩, hk.trans hk'⟩

theorem wakeFire (h : s.wakesOnly t) (b : Nat) : s.wakesOnly (t.wakeFire b) := by
  unfold State.wakeFire
  split
  · exact h.trans ⟨⟨_, _, rfl⟩, .setReg .refl (by decide)⟩
  · exact h

theorem enPorts (h : s.wakesOnly t) : t.enPorts = s.enPorts := enPorts_congr fun x hx => h.2 _ (by
  simp only [wakeRegs, R.PORT_CTL, R.AON_WAKE_STAT, R.IRQ_WAKE_STAT, List.mem_cons, List.not_mem_nil, or_false]
  omega)

theorem mem (h : s.wakesOnly t) : t.mem = s.mem := by obtain ⟨⟨r, w, rfl⟩, -⟩ := h; rfl
theorem going (h : s.wakesOnly t) : t.going = s.going := by obtain ⟨⟨r, w, rfl⟩, -⟩ := h; rfl
theorem hold (h : s.wakesOnly t) : t.hold = s.hold := by obtain ⟨⟨r, w, rfl⟩, -⟩ := h; rfl
theorem dbHeld (h : s.wakesOnly t) : t.dbHeld = s.dbHeld := by obtain ⟨⟨r, w, rfl⟩, -⟩ := h; rfl
theorem time (h : s.wakesOnly t) : t.time = s.time := by obtain ⟨⟨r, w, rfl⟩, -⟩ := h; rfl
theorem fuses (h : s.wakesOnly t) : t.fuses = s.fuses := by obtain ⟨⟨r, w, rfl⟩, -⟩ := h; rfl
theorem flash (h : s.wakesOnly t) : t.flash = s.flash := by obtain ⟨⟨r, w, rfl⟩, -⟩ := h; rfl
theorem mode (h : s.wakesOnly t) : t.mode = s.mode := h.2.mode (by decide)

end State.wakesOnly

/-- The sampling of the wake sources changes nothing but their records. -/
theorem wakesOnly_sampleWakes (s : State) : s.wakesOnly s.sampleWakes := by
  have hirq : s.wakesOnly (match (List.range 32).find? s.watched with | some k => s.watchFire k | none => s) := by
    split
    · exact State.wakesOnly.wakeFire ⟨⟨_, _, rfl⟩, .setReg .refl (by decide)⟩ 0
    · exact .refl
  unfold State.sampleWakes
  extract_lets irq gpio wm s1 s2
  have h1 : s.wakesOnly s1 := hirq
  have h2 : s.wakesOnly s2 := by
    show s.wakesOnly (if gpio then s1.wakeFire 1 else s1)
    split
    · exact h1.wakeFire 1
    · exact h1
  split
  · exact h2.wakeFire 4
  · exact h2

/-- A source that counts and is enabled is recorded. -/
theorem wakeFire_of_fires {s : State} {b : Nat} (hw : s.wakeable = true) (hb : (s.fld R.AON_WAKE F.AON_WAKE_EN).testBit b = true) :
    s.wakeFire b = { s.setReg R.AON_WAKE_STAT (s.reg R.AON_WAKE_STAT ||| BitVec.ofNat 32 (2 ^ b)) with wakePend := s.wakePend ||| 2 ^ b } := by
  simp [State.wakeFire, hw, hb]

theorem wakeFire_of_not_wakeable {s : State} {b : Nat} (hw : s.wakeable = false) : s.wakeFire b = s := by
  simp [State.wakeFire, hw]

/-! ### The registers of HBM that a sleep touches -/

/-- The HBM channel pages lie above every page of the mode and port registers, and below those of the AON domain. -/
theorem reg_allSr (s : State) (b : Nat) {r : Nat} (h : r < 0xC10000 ∨ 0xC30000 ≤ r) : (s.allSr b).reg r = s.reg r := by
  unfold State.allSr
  refine reg_foldl_setFld _ (fun p => R.HBM_PC_STAT (p / 2) (p % 2)) _ _ _ fun p hp => ?_
  have := List.mem_range.mp hp
  unfold R.HBM_PC_STAT
  omega

theorem regsOnly_allSr (s : State) (b : Nat) : s.regsOnly (s.allSr b) :=
  regsOnly_foldl_setFld (List.range 64) (fun p => R.HBM_PC_STAT (p / 2) (p % 2)) F.HBM_PC_STAT_SR b s

theorem reg_dueRetrains (s : State) {r : Nat} (h : r < 0xC10000) : s.dueRetrains.reg r = s.reg r := by
  have hall := reg_foldl_setFld s.rtDue (fun e => R.HBM_PC_STAT (e.1 / 2) (e.1 % 2)) F.HBM_PC_STAT_PAUSE 1 { s with rtDue := [] } (r := r)
    fun e _ => by unfold R.HBM_PC_STAT; omega
  exact hall

theorem regsOnly_dueRetrains (s : State) : ({ s with rtDue := [] } : State).regsOnly s.dueRetrains :=
  regsOnly_foldl_setFld s.rtDue (fun e => R.HBM_PC_STAT (e.1 / 2) (e.1 % 2)) F.HBM_PC_STAT_PAUSE 1 { s with rtDue := [] }

theorem mem_dueRetrains (s : State) : s.dueRetrains.mem = s.mem := (regsOnly_dueRetrains s).mem
theorem hold_dueRetrains (s : State) : s.dueRetrains.hold = s.hold := (regsOnly_dueRetrains s).hold
theorem dbHeld_dueRetrains (s : State) : s.dueRetrains.dbHeld = s.dbHeld := (regsOnly_dueRetrains s).dbHeld
theorem wakePend_dueRetrains (s : State) : s.dueRetrains.wakePend = s.wakePend := (regsOnly_dueRetrains s).wakePend

/-! ### A wake that is served -/

theorem woken_eq (s : State) : ∃ r, s.woken = { s with regs := r, wakePend := 0, replay := true } := by
  have h : s.regsOnly ((s.setFld R.AON_WAKE_STAT F.AON_WAKE_STAT_WOKE 1).cnt R.AON_WAKE_CNT) := State.regsOnly.refl.setFld.cnt
  obtain ⟨r, h⟩ := h
  unfold State.woken
  rw [h]
  exact ⟨r, rfl⟩

theorem reg_with_served (s : State) (a : Nat) : ({ s with wakePend := 0, replay := true } : State).reg a = s.reg a := rfl

theorem reg_woken (s : State) (a : Nat) :
    s.woken.reg a = ((s.setFld R.AON_WAKE_STAT F.AON_WAKE_STAT_WOKE 1).cnt R.AON_WAKE_CNT).reg a := by
  unfold State.woken
  rw [reg_with_served]

theorem regsKept_woken (s : State) : s.regsKept s.woken [R.AON_WAKE_STAT, R.AON_WAKE_CNT] := fun r hr =>
  (reg_woken s r).trans (((State.regsKept.refl.setFld List.mem_cons_self).cnt (List.mem_cons_of_mem _ List.mem_cons_self)) r hr)

theorem mem_woken (s : State) : s.woken.mem = s.mem := by
  obtain ⟨r, h⟩ := woken_eq s
  rw [h]

theorem hold_woken (s : State) : s.woken.hold = s.hold := by
  obtain ⟨r, h⟩ := woken_eq s
  rw [h]

theorem dbHeld_woken (s : State) : s.woken.dbHeld = s.dbHeld := by
  obtain ⟨r, h⟩ := woken_eq s
  rw [h]

theorem time_woken (s : State) : s.woken.time = s.time := by
  obtain ⟨r, h⟩ := woken_eq s
  rw [h]

theorem fuses_woken (s : State) : s.woken.fuses = s.fuses := by
  obtain ⟨r, h⟩ := woken_eq s
  rw [h]

theorem wakePend_woken (s : State) : s.woken.wakePend = 0 := rfl

theorem fld_woke_woken (s : State) : s.woken.fld R.AON_WAKE_STAT F.AON_WAKE_STAT_WOKE = 1 := by
  unfold State.fld
  rw [reg_woken, reg_cnt_other _ _ _ (by decide)]
  exact fld_setFld_same s R.AON_WAKE_STAT F.AON_WAKE_STAT_WOKE 1 (by decide) (by decide)

/-- What SIMMER_WAKE enters the return mode from, with no port to hand back. -/
structure State.Rising (s t : State) : Prop where
  kept   : ∀ r < 0xC10000, t.reg r = s.reg r
  served : t.wakePend = 0
  mem    : t.mem = s.mem
  dbHeld : t.dbHeld = s.dbHeld
  hold   : t.hold = s.hold

theorem rising_woken (s : State) : s.Rising (s.woken.allSr 0).dueRetrains := by
  have hsr := regsOnly_allSr s.woken 0
  exact {
    kept := fun r hr => by
      rw [reg_dueRetrains _ hr, reg_allSr _ _ (.inl hr)]
      refine regsKept_woken s r ?_
      simp only [R.AON_WAKE_STAT, R.AON_WAKE_CNT, List.mem_cons, List.not_mem_nil, or_false]
      omega
    served := (wakePend_dueRetrains _).trans (hsr.wakePend.trans (wakePend_woken s))
    mem := (mem_dueRetrains _).trans (hsr.mem.trans (mem_woken s))
    dbHeld := (dbHeld_dueRetrains _).trans (hsr.dbHeld.trans (dbHeld_woken s))
    hold := (hold_dueRetrains _).trans (hsr.hold.trans (hold_woken s)) }

theorem State.Rising.enPorts {s t : State} (h : s.Rising t) : t.enPorts = s.enPorts := enPorts_congr fun x hx => h.kept _ (by
  unfold R.PORT_CTL
  omega)

/-! ### The main rails are lost -/

theorem reg_loseMain (s : State) {dev : Bool} {r : Nat} (h : s.keepReg dev r = true) : (s.loseMain dev).reg r = s.reg r :=
  congrArg (fun o : Option W32 => o.getD (regDefault r)) (smFind_filter (s.keepReg dev) s.regs h)

/-- The AON page and the watch list keep their registers. -/
theorem keepReg_of_aon (s : State) (dev : Bool) {r : Nat} (h : r / 0x1000 = 0xF80 ∨ (0x20100 ≤ r ∧ r < 0x20200)) : s.keepReg dev r = true := by
  obtain h | ⟨h1, h2⟩ := h
  · simp [State.keepReg, h]
  · simp [State.keepReg, h1, h2]

/-- Every context but Fumarole's is as after reset. -/
theorem thr_loseMain (s : State) (dev : Bool) {a : Nat} (h : a ≠ 0x810) : (s.loseMain dev).thr a = {} :=
  congrArg (fun o : Option Thr => o.getD {}) (smFind_filter_none (· == 0x810) s.thrs (beq_false_of_ne h))

end Sys2Proof.Machine
end

section
/-! PROOFS. Requests of modes and what the sleeping device answers (R493–R508): the commands of mode transitions, one by one. -/

namespace Sys2Proof.Machine

/-! ### What a completed or ended transition leaves -/

section
variable {s t : State} {n : Nat}

theorem State.Entered.mem (h : s.Entered n t) : t.mem = s.mem := by obtain ⟨r, c, p, e⟩ := h.rest; rw [e]
theorem State.Entered.going (h : s.Entered n t) : t.going = s.going := by obtain ⟨r, c, p, e⟩ := h.rest; rw [e]
theorem State.Entered.dbHeld (h : s.Entered n t) : t.dbHeld = s.dbHeld := by obtain ⟨r, c, p, e⟩ := h.rest; rw [e]
theorem State.Entered.wakePend (h : s.Entered n t) : t.wakePend = s.wakePend := by obtain ⟨r, c, p, e⟩ := h.rest; rw [e]
theorem State.Entered.time (h : s.Entered n t) : t.time = s.time := by obtain ⟨r, c, p, e⟩ := h.rest; rw [e]
theorem State.Entered.fuses (h : s.Entered n t) : t.fuses = s.fuses := by obtain ⟨r, c, p, e⟩ := h.rest; rw [e]
theorem State.Completed.mem (h : s.Completed n t) : t.mem = s.mem := by obtain ⟨r, c, p, e⟩ := h.rest; rw [e]
theorem State.Completed.pins (h : s.Completed n t) : t.pins = s.pins := by obtain ⟨r, c, p, e⟩ := h.rest; rw [e]
theorem State.Completed.time (h : s.Completed n t) : t.time = s.time := by obtain ⟨r, c, p, e⟩ := h.rest; rw [e]
theorem State.Completed.fuses (h : s.Completed n t) : t.fuses = s.fuses := by obtain ⟨r, c, p, e⟩ := h.rest; rw [e]
theorem State.Completed.flash (h : s.Completed n t) : t.flash = s.flash := by obtain ⟨r, c, p, e⟩ := h.rest; rw [e]
theorem State.Completed.thrs (h : s.Completed n t) : t.thrs = s.thrs := by obtain ⟨r, c, p, e⟩ := h.rest; rw [e]
theorem State.Completed.going (h : s.Completed n t) : t.going = none := by obtain ⟨r, c, p, e⟩ := h.rest; rw [e]
theorem State.Ended.going (h : s.Ended n t) : t.going = none := by obtain ⟨r, e⟩ := h.rest; rw [e]
theorem State.Ended.dbHeld (h : s.Ended n t) : t.dbHeld = s.dbHeld := by obtain ⟨r, e⟩ := h.rest; rw [e]

end

/-! ### The order of a transition -/

theorem lands_devModeReq (s : State) : s.lands R.DEV_MODE_REQ := by
  refine ⟨?_, by decide, by decide, by decide⟩
  simp [State.selected, R.DEV_MODE_REQ, aliasOf]

theorem lands_devWake (s : State) : s.lands R.DEV_WAKE := by
  refine ⟨?_, by decide, by decide, by decide⟩
  simp [State.selected, R.DEV_WAKE, aliasOf]

/-- A write of a register of the DEV page with a field that can be written is carried out by the page's own rules. -/
theorem writeHit_dev {s : State} {who a : Nat} (v : W32) {r : RegD} (hp : pageOf a = some (.dev, 0)) (hal : a % 4 = 0) (hlow : ¬ a % 0x1000 < 0x40)
    (hd : descOf a = some r) (hw : r.writable = true) (hhigh : isHigh a = false) :
    s.writeHit who { at_ := a, cap := a } v = s.writeDev who { at_ := a, cap := a } v := by
  have hsoft : s.softNow a = false := by unfold State.softNow; rw [hp]; rfl
  simp [State.writeHit, hsoft, hal, hlow, hd, hw, hhigh, State.writeReg, hp]

theorem writeHit_devModeReq (s : State) (who : Nat) (v : W32) :
    s.writeHit who { at_ := R.DEV_MODE_REQ, cap := R.DEV_MODE_REQ } v = s.writeDev who { at_ := R.DEV_MODE_REQ, cap := R.DEV_MODE_REQ } v :=
  writeHit_dev v (by decide) (by decide) (by decide) (r := ((descOf R.DEV_MODE_REQ).get (by decide))) (Option.some_get _).symm (by decide) (by decide)

theorem writeHit_devWake (s : State) (who : Nat) (v : W32) :
    s.writeHit who { at_ := R.DEV_WAKE, cap := R.DEV_WAKE } v = s.writeDev who { at_ := R.DEV_WAKE, cap := R.DEV_WAKE } v :=
  writeHit_dev v (by decide) (by decide) (by decide) (r := ((descOf R.DEV_WAKE).get (by decide))) (Option.some_get _).symm (by decide) (by decide)

theorem isCtl_of_open {s : State} {who : Req} {a : Nat} (ho : s.open who a) : isCtl who.toNat = true := by
  obtain ⟨⟨h, h'⟩, -⟩ := ho
  simp [isCtl, h, Nat.le_of_lt h']

/-- What a mode request orders: GO, and its target. -/
theorem goOp_modeReq (target : BitVec 4) :
    (goOp target.toNat 0).getLsbD 31 = true ∧ getF (goOp target.toNat 0) F.DEV_MODE_REQ_TARGET = target.toNat := by
  revert target
  decide

theorem writeDev_devModeReq {s : State} {who : Nat} {v : W32} (hgo : v.getLsbD 31 = true) (hctl : isCtl who = true) :
    s.writeDev who { at_ := R.DEV_MODE_REQ, cap := R.DEV_MODE_REQ } v = if s.reqStatus = 1 then s.violAt who 3 R.DEV_MODE_REQ
      else (s.putW { at_ := R.DEV_MODE_REQ, cap := R.DEV_MODE_REQ } v).requestMode (getF v F.DEV_MODE_REQ_TARGET) := by
  have hskip : ¬ ¬ v.getLsbD 31 = true := not_not_intro hgo
  have hmay : ¬ (¬ isCtl who = true ∧ who ≠ s.primary) := fun h => h.1 hctl
  exact (if_neg hskip).trans (if_neg hmay)

theorem writeDev_devWake {s : State} {who : Nat} (hm : s.mode ≠ mDORMANT) :
    s.writeDev who { at_ := R.DEV_WAKE, cap := R.DEV_WAKE } (bitW 31) = s.wakeFire 5 :=
  if_pos ⟨by decide, hm⟩

/-- The state in which the target of a mode request stands in its register. -/
def State.targeted (s : State) (target : BitVec 4) : State :=
  s.putW { at_ := R.DEV_MODE_REQ, cap := R.DEV_MODE_REQ } (goOp target.toNat 0)

section
variable {s : State} {who : Req} {target : BitVec 4} (ho : s.open who R.DEV_MODE_REQ)
include ho

theorem exec_devModeReq : exec (.devModeReq who target) s =
    .next (if s.reqStatus = 1 then s.violAt who.toNat 3 R.DEV_MODE_REQ else (s.targeted target).requestMode target.toNat) := by
  obtain ⟨hgo, htarget⟩ := goOp_modeReq target
  have hbus : s.busWrite who.toNat R.DEV_MODE_REQ (goOp target.toNat 0) =
      s.writeDev who.toNat { at_ := R.DEV_MODE_REQ, cap := R.DEV_MODE_REQ } (goOp target.toNat 0) :=
    (busWrite_of_reach _ (reach_of_open ho (lands_devModeReq s) true) (by decide)).trans (writeHit_devModeReq s _ _)
  have hexec : exec (.devModeReq who target) s = .next (s.busWrite who.toNat R.DEV_MODE_REQ (goOp target.toNat 0)) := rfl
  rw [hexec, hbus]
  rw [writeDev_devModeReq hgo (isCtl_of_open ho), htarget]
  rfl

end

theorem exec_devWakeWrite {s : State} {who : Req} (hr : s.reach who.toNat R.DEV_WAKE true = .reg { at_ := R.DEV_WAKE, cap := R.DEV_WAKE })
    (hm : s.mode ≠ mDORMANT) : exec (.devWakeWrite who) s = .next (s.wakeFire 5) := by
  have hbus : s.busWrite who.toNat R.DEV_WAKE (bitW 31) = s.wakeFire 5 :=
    (busWrite_of_reach _ hr (by decide)).trans ((writeHit_devWake s _ _).trans (writeDev_devWake hm))
  have hexec : exec (.devWakeWrite who) s = .next (s.busWrite who.toNat R.DEV_WAKE (bitW 31)) := rfl
  rw [hexec, hbus]

/-! ### Requests (R493, R494) -/

theorem regsOnly_targeted (s : State) (target : BitVec 4) : s.regsOnly (s.targeted target) := State.regsOnly.refl.setReg

theorem regsKept_targeted (s : State) (target : BitVec 4) : s.regsKept (s.targeted target) [R.DEV_MODE_REQ] :=
  State.regsKept.refl.setReg List.mem_cons_self

theorem mode_targeted (s : State) (target : BitVec 4) : (s.targeted target).mode = s.mode := (regsKept_targeted s target).mode (by decide)

theorem onlyRegs_turnedAway (s : State) (target : BitVec 4) (n : Nat) : s.onlyRegs ((s.targeted target).setStatus n) [R.DEV_MODE_REQ] :=
  (regsOnly_targeted s target).setFld.onlyRegs (regsKept_setStatus (regsKept_targeted s target) List.mem_cons_self)

/-- The state that waits for the entry of the transition to mode `n`. -/
def State.awaiting (s : State) (n w : Nat) : State := ({ s with going := some n, goCommit := false, wakePend := w }).setStatus 1

theorem reg_with_going (s : State) (o : Option Nat) (c : Bool) (w a : Nat) :
    ({ s with going := o, goCommit := c, wakePend := w } : State).reg a = s.reg a := rfl

theorem regsKept_awaiting (s : State) (n w : Nat) : s.regsKept (s.awaiting n w) [R.DEV_MODE_REQ] := fun r hr => by
  unfold State.awaiting State.setStatus
  rw [reg_setFld_other _ _ _ _ _ (List.ne_of_not_mem_cons hr), reg_with_going]

theorem reqStatus_awaiting (s : State) (n w : Nat) : (s.awaiting n w).reqStatus = 1 := reqStatus_setStatus (by decide)

theorem going_awaiting (s : State) (n w : Nat) : (s.awaiting n w).going = some n := rfl

theorem startMode_sleep {s : State} {n : Nat} (h : n = mSIMMER ∨ n = mDORMANT) :
    s.startMode n = s.awaiting n (if s.mode = mSIMMER then s.wakePend else 0) := by
  have hn : ¬ (n = mMAINTAIN ∧ s.mode ≠ mRECOVER) := by
    rintro ⟨rfl, -⟩
    exact absurd h (by decide)
  unfold State.startMode State.awaiting
  rw [if_neg hn, if_pos h]

theorem startMode_maintain {s : State} {n : Nat} (h : n = mMAINTAIN ∧ s.mode ≠ mRECOVER) : s.startMode n = s.awaiting n s.wakePend := by
  unfold State.startMode State.awaiting
  rw [if_pos h]

theorem startMode_waits {s : State} {n : Nat} (h : n = mSIMMER ∨ n = mDORMANT ∨ (n = mMAINTAIN ∧ s.mode ≠ mRECOVER)) :
    ∃ w, s.startMode n = s.awaiting n w := by
  obtain hs | hd | hm := h
  · exact ⟨_, startMode_sleep (.inl hs)⟩
  · exact ⟨_, startMode_sleep (.inr hd)⟩
  · exact ⟨_, startMode_maintain hm⟩

theorem startMode_completes {s : State} {n : Nat} (hm : n ≠ mMAINTAIN) (hs : n ≠ mSIMMER) (hd : n ≠ mDORMANT) : s.startMode n = s.completeMode n := by
  unfold State.startMode
  rw [if_neg fun h => hm h.1, if_neg fun h => h.elim hs hd]

section
variable {s : State} {who : Req} {target : BitVec 4} (ho : s.open who R.DEV_MODE_REQ)
include ho

theorem modeReq_while_running (h : s.reqStatus = 1) : exec (.devModeReq who target) s = .next (s.violAt who.toNat 3 R.DEV_MODE_REQ) := by
  rw [exec_devModeReq ho, if_pos h]

theorem modeReq_not_allowed (h : s.reqStatus ≠ 1) (ha : (s.targeted target).modeAllowed target.toNat = false) :
    Completes (.devModeReq who target) s fun t => t.reqStatus = 3 ∧ s.onlyRegs t [R.DEV_MODE_REQ] := by
  refine ⟨(s.targeted target).setStatus 3, ?_, reqStatus_setStatus (by decide), onlyRegs_turnedAway s target 3⟩
  rw [exec_devModeReq ho, if_neg h, State.requestMode, if_pos (by simp [ha])]

theorem modeReq_precondition (h : s.reqStatus ≠ 1) (ha : (s.targeted target).modeAllowed target.toNat = true)
    (hc : (s.targeted target).modeCond target.toNat = false) :
    Completes (.devModeReq who target) s fun t => t.reqStatus = 4 ∧ s.onlyRegs t [R.DEV_MODE_REQ] := by
  refine ⟨(s.targeted target).setStatus 4, ?_, reqStatus_setStatus (by decide), onlyRegs_turnedAway s target 4⟩
  rw [exec_devModeReq ho, if_neg h, State.requestMode, if_neg (by simp [ha]), if_pos (by simp [hc])]

/-- A request that is allowed and whose precondition holds starts its transition. -/
theorem modeReq_starts (h : s.reqStatus ≠ 1) (ha : (s.targeted target).modeAllowed target.toNat = true)
    (hc : (s.targeted target).modeCond target.toNat = true) :
    exec (.devModeReq who target) s = .next ((s.targeted target).startMode target.toNat) := by
  rw [exec_devModeReq ho, if_neg h, State.requestMode, if_neg (by simp [ha]), if_neg (by simp [hc])]

theorem modeReq_completes (h : s.reqStatus ≠ 1) (ha : (s.targeted target).modeAllowed target.toNat = true)
    (hc : (s.targeted target).modeCond target.toNat = true) (hm : target.toNat ≠ mMAINTAIN) (hs : target.toNat ≠ mSIMMER)
    (hd : target.toNat ≠ mDORMANT) (hr : s.replay = false) :
    Completes (.devModeReq who target) s fun t => t.mode = target.toNat ∧ t.reqStatus = 2 ∧ t.fld R.DEV_MODE F.DEV_MODE_PREV = s.mode ∧
      (t.reg 0x10).getLsbD 0 = true ∧ s.regsKept t [R.DEV_MODE, R.DEV_MODE_REQ, R.DEV_MODE_CHG, 0x10, R.XB_STAT] ∧ t.mem = s.mem := by
  have c : (s.targeted target).Completed target.toNat ((s.targeted target).completeMode target.toNat) :=
    completed_completeMode target.isLt (.inr (.inl ((regsOnly_targeted s target).replay.trans hr)))
  have hexec := modeReq_starts ho h ha hc
  rw [startMode_completes hm hs hd] at hexec
  have hkept := ((regsKept_targeted s target).mono (by decide)).trans c.kept
  exact ⟨_, hexec, c.mode, c.status,
    c.prev.trans (mode_targeted s target), c.raised, hkept.mono (by decide), c.mem.trans (regsOnly_targeted s target).mem⟩

theorem modeReq_waits (h : s.reqStatus ≠ 1) (ha : (s.targeted target).modeAllowed target.toNat = true)
    (hc : (s.targeted target).modeCond target.toNat = true)
    (hn : target.toNat = mSIMMER ∨ target.toNat = mDORMANT ∨ (target.toNat = mMAINTAIN ∧ s.mode ≠ mRECOVER)) :
    Completes (.devModeReq who target) s fun t => t.mode = s.mode ∧ t.reqStatus = 1 ∧ t.going = some target.toNat ∧
      s.regsKept t [R.DEV_MODE_REQ] := by
  obtain ⟨w, hw⟩ := startMode_waits (s := s.targeted target) (n := target.toNat) (by rwa [mode_targeted])
  have hkept := (regsKept_targeted s target).trans (regsKept_awaiting (s.targeted target) target.toNat w)
  have hexec := modeReq_starts ho h ha hc
  rw [hw] at hexec
  exact ⟨_, hexec, hkept.mode (by decide), reqStatus_awaiting _ _ _, going_awaiting _ _ _, hkept⟩

end

end Sys2Proof.Machine
end

section
/-! PROOFS. MAINTAIN, the sleeps and the wakes (R495, R499–R504). -/

namespace Sys2Proof.Machine

/-! ### MAINTAIN (R495) -/

section
variable {s : State}

theorem maintain_not_going (h : s.going ≠ some mMAINTAIN) : exec .maintainEntry s = .next s ∧ exec .maintainDrainTimeout s = .next s :=
  ⟨congrArg Host.Outcome.next (if_neg fun hg => h hg.1), congrArg Host.Outcome.next (if_neg h)⟩

theorem maintainEntry_completes (h : s.going = some mMAINTAIN) (he : ∀ x < 64, s.maintPort x = true → s.portEmpty x = true) :
    Completes .maintainEntry s fun t => t.mode = mMAINTAIN ∧ t.reqStatus = 2 ∧ t.going = none ∧ t.fld R.DEV_MODE F.DEV_MODE_PREV = s.mode ∧
      t.mem = s.mem := by
  have hall : ((List.range 64).all fun x => !(s.maintPort x) || s.portEmpty x) = true := List.all_eq_true.mpr fun x hx => by
    cases hm : s.maintPort x with
    | false => rfl
    | true => rw [he x (List.mem_range.mp hx) hm, Bool.or_true]
  have c : s.Completed mMAINTAIN (s.completeMode mMAINTAIN) := completed_completeMode (by decide) (.inl (by decide))
  have hexec : exec .maintainEntry s = .next (s.completeMode mMAINTAIN) := congrArg Host.Outcome.next (if_pos ⟨h, hall⟩)
  exact ⟨_, hexec, c.mode, c.status, c.going, c.prev, c.mem⟩

theorem maintainDrainTimeout_completes (h : s.going = some mMAINTAIN) :
    Completes .maintainDrainTimeout s fun t => t.mode = mMAINTAIN ∧ t.reqStatus = 2 ∧ t.going = none := by
  have hexec : exec .maintainDrainTimeout s =
      .next (((List.range 64).foldl (fun s x => if s.maintPort x then s.flushPort x else s) s).completeMode mMAINTAIN) :=
    congrArg Host.Outcome.next (if_pos h)
  have c := completed_completeMode (s := (List.range 64).foldl (fun s x => if s.maintPort x then s.flushPort x else s) s) (n := mMAINTAIN)
    (by decide) (.inl (by decide))
  exact ⟨_, hexec, c.mode, c.status, c.going⟩

end

/-! ### SIMMER (R499, R500) -/

/-- A sleep has been ordered and SIMMER has not been entered. -/
abbrev State.slept (s : State) : Prop := (s.going = some mSIMMER ∨ s.going = some mDORMANT) ∧ s.mode ≠ mSIMMER

/-- No port is enabled, and neither a doorbell nor a frame is held. -/
abbrev State.bare (s : State) : Prop := s.enPorts = [] ∧ s.dbHeld = [] ∧ s.hold = []

theorem sleepGoing_iff {s : State} : s.sleepGoing = true ↔ s.slept := by
  simp [State.sleepGoing, State.slept]

/-- The state in which the rails are off, from the commit point of DORMANT. -/
def State.railsOff (s : State) : State :=
  { s.loseMain true with pins := { s.pins with enMain := false, enHbm := false, pgMain := false, pgHbm := false } }

theorem time_loseMain (s : State) (dev : Bool) : (s.loseMain dev).time = s.time := rfl
theorem fuses_loseMain (s : State) (dev : Bool) : (s.loseMain dev).fuses = s.fuses := rfl
theorem wakePend_loseMain (s : State) (dev : Bool) : (s.loseMain dev).wakePend = s.wakePend := rfl
theorem time_railsOff (s : State) : s.railsOff.time = s.time := rfl
theorem fuses_railsOff (s : State) : s.railsOff.fuses = s.fuses := rfl
theorem flash_railsOff (s : State) : s.railsOff.flash = s.flash := rfl

theorem thr_railsOff (s : State) {a : Nat} (h : a ≠ 0x810) : s.railsOff.thr a = {} := thr_loseMain s true h

/-- With no enabled port, the commit point of DORMANT samples the wake sources. -/
theorem exec_dormantEntry {s : State} (hm : s.mode = mSIMMER) (hg : s.going = some mDORMANT) (hen : s.enPorts = []) : exec .dormantEntry s =
    if s.sampleWakes.wakePend ≠ 0 then .next (s.sampleWakes.endMode 6) else .next (s.sampleWakes.railsOff.completeMode mDORMANT) := by
  have hexec : exec .dormantEntry s = execDormantEntry s := rfl
  rw [hexec, execDormantEntry, if_neg (by simp [hm, hg]), hen]
  rfl

section
variable {s : State}

theorem sleep_not_going (h : ¬ s.slept) : exec .simmerEntry s = .next s ∧ exec .simmerCommit s = .next s ∧ exec .sleepDrainTimeout s = .next s := by
  have hg : ¬ s.sleepGoing = true := fun h' => h (sleepGoing_iff.mp h')
  exact ⟨congrArg Host.Outcome.next (if_neg fun h' => hg h'.1), if_pos (.inl hg), congrArg Host.Outcome.next (if_neg fun h' => hg h'.1)⟩

theorem simmerEntry_hands_over (h : s.slept) (hc : s.goCommit = false) (hf : s.noneInFlight = true) (hd : s.dmas = []) (hq : s.dmaQ = [])
    (hb : s.bare) : exec .simmerEntry s = .next { s with goCommit := true } := by
  have hexec : exec .simmerEntry s = .next { s.handOver with goCommit := true } :=
    congrArg Host.Outcome.next (if_pos ⟨sleepGoing_iff.mpr h, by simp [hc], hf, by simp [hd], by simp [hq]⟩)
  rw [hexec, handOver_of_nil hb.1]

theorem sleepDrainTimeout_ends (h : s.slept) (hc : s.goCommit = false) (hb : s.bare) :
    Completes .sleepDrainTimeout s fun t => t.going = none ∧ t.reqStatus = 5 ∧ t.mode = s.mode ∧ (t.reg 0x10).getLsbD 0 = true ∧
      s.regsKept t [R.DEV_MODE_REQ, 0x10] := by
  obtain ⟨-, hdb, -⟩ := hb
  have e : s.Ended 5 (s.endMode 5) := ended_endMode s (by decide)
  have hexec : exec .sleepDrainTimeout s = .next (s.endMode 5).applyHeld :=
    congrArg Host.Outcome.next (if_pos ⟨sleepGoing_iff.mpr h, by simp [hc]⟩)
  rw [applyHeld_of_nil (e.dbHeld.trans hdb)] at hexec
  exact ⟨_, hexec, e.going, e.status, e.mode, e.raised, e.kept⟩

/-- A sleep past its entry samples the wake sources. -/
theorem exec_simmerCommit (h : s.slept) (hc : s.goCommit = true) : exec .simmerCommit s =
    if s.sampleWakes.wakePend ≠ 0 then .next ((s.sampleWakes.handBack.endMode 6).applyHeld)
    else if s.going = some mSIMMER then
      .next (((s.sampleWakes.setFld R.AON_WAKE F.AON_WAKE_RET s.mode).allSr 1).completeMode mSIMMER)
    else .next { ((s.sampleWakes.setFld R.AON_WAKE F.AON_WAKE_RET s.mode).allSr 1).enterMode mSIMMER with goCommit := false } :=
  if_neg (by simp [sleepGoing_iff.mpr h, hc])

theorem simmerCommit_woken (h : s.slept) (hc : s.goCommit = true) (hb : s.bare) (hw : s.sampleWakes.wakePend ≠ 0) :
    Completes .simmerCommit s fun t => t.mode = s.mode ∧ t.reqStatus = 6 ∧ t.going = none := by
  obtain ⟨hen, hdb, -⟩ := hb
  have w := wakesOnly_sampleWakes s
  have e : s.sampleWakes.Ended 6 (s.sampleWakes.endMode 6) := ended_endMode _ (by decide)
  have hexec := exec_simmerCommit h hc
  rw [if_pos hw, handBack_of_nil (w.enPorts.trans hen), applyHeld_of_nil (e.dbHeld.trans (w.dbHeld.trans hdb))] at hexec
  exact ⟨_, hexec, e.mode.trans w.mode, e.status, e.going⟩

/-- What SIMMER is entered from: the wake record, the mode to return to, and self-refresh. -/
def State.atSimmer (s : State) : State := (s.sampleWakes.setFld R.AON_WAKE F.AON_WAKE_RET s.mode).allSr 1

theorem reg_atSimmer (s : State) {r : Nat} (h : r < 0xC10000 ∨ 0xC30000 ≤ r) :
    s.atSimmer.reg r = (s.sampleWakes.setFld R.AON_WAKE F.AON_WAKE_RET s.mode).reg r := reg_allSr _ 1 h

theorem ret_atSimmer (s : State) : s.atSimmer.fld R.AON_WAKE F.AON_WAKE_RET = s.mode :=
  (congrArg (getF · F.AON_WAKE_RET) (reg_atSimmer s (.inr (by decide)))).trans
    ((fld_setFld_same s.sampleWakes R.AON_WAKE F.AON_WAKE_RET s.mode (by decide) (by decide)).trans (Nat.mod_eq_of_lt (mode_lt s)))

theorem regsOnly_atSimmer (s : State) : s.sampleWakes.regsOnly s.atSimmer :=
  (State.regsOnly.refl.setFld).trans (regsOnly_allSr (s.sampleWakes.setFld R.AON_WAKE F.AON_WAKE_RET s.mode) 1)

theorem simmerCommit_simmer (h : s.slept) (hc : s.goCommit = true) (hw : s.sampleWakes.wakePend = 0) (hg : s.going = some mSIMMER) :
    Completes .simmerCommit s fun t => t.mode = mSIMMER ∧ t.reqStatus = 2 ∧ t.going = none ∧ t.fld R.AON_WAKE F.AON_WAKE_RET = s.mode ∧
      t.mem = s.mem := by
  have w := wakesOnly_sampleWakes s
  have c : s.atSimmer.Completed mSIMMER (s.atSimmer.completeMode mSIMMER) := completed_completeMode (by decide) (.inl (by decide))
  have hexec := exec_simmerCommit h hc
  rw [if_neg (not_not_intro hw), if_pos hg] at hexec
  exact ⟨_, hexec, c.mode, c.status, c.going, (c.kept.fld (by decide)).trans (ret_atSimmer s),
    c.mem.trans ((regsOnly_atSimmer s).mem.trans w.mem)⟩

theorem mode_with_goCommit (s : State) (b : Bool) : ({ s with goCommit := b } : State).mode = s.mode := rfl

theorem going_with_goCommit (s : State) (b : Bool) : ({ s with goCommit := b } : State).going = s.going := rfl

theorem simmerCommit_dormant (h : s.slept) (hc : s.goCommit = true) (hw : s.sampleWakes.wakePend = 0) (hg : s.going = some mDORMANT) :
    Completes .simmerCommit s fun t => t.mode = mSIMMER ∧ t.going = some mDORMANT := by
  have w := wakesOnly_sampleWakes s
  have e : s.atSimmer.Entered mSIMMER (s.atSimmer.enterMode mSIMMER) := entered_enterMode (by decide) (.inl (by decide))
  have hexec := exec_simmerCommit h hc
  have hns : s.going ≠ some mSIMMER := by rw [hg]; decide
  rw [if_neg (not_not_intro hw), if_neg hns] at hexec
  exact ⟨_, hexec, (mode_with_goCommit _ _).trans e.mode,
    (going_with_goCommit _ _).trans (e.going.trans ((regsOnly_atSimmer s).going.trans (w.going.trans hg)))⟩

/-! ### The wake from SIMMER (R502) -/

theorem wake_not_pending (h : s.wakePend = 0) : exec .simmerWake s = .next s ∧ exec .dormantWake s = .next s :=
  ⟨if_pos (.inr (.inl h)), if_pos (.inr h)⟩

theorem simmerWake_returns (hm : s.mode = mSIMMER) (hw : s.wakePend ≠ 0) (hg : s.going = none) (hb : s.bare) :
    Completes .simmerWake s fun t => t.mode = s.fld R.AON_WAKE F.AON_WAKE_RET ∧ t.wakePend = 0 ∧ (t.reg 0x10).getLsbD 1 = true ∧
      t.mem = s.mem := by
  obtain ⟨hen, hdb, hhold⟩ := hb
  have hexec : exec .simmerWake s =
      .next (((((s.woken.allSr 0).dueRetrains.handBack).enterMode (s.fld R.AON_WAKE F.AON_WAKE_RET)).raise 0 1).applyHeld) :=
    if_neg (by simp [hm, hw, hg])
  have u := rising_woken s
  rw [handBack_of_nil (u.enPorts.trans hen)] at hexec
  generalize (s.woken.allSr 0).dueRetrains = up at u hexec
  have e : up.Entered (s.fld R.AON_WAKE F.AON_WAKE_RET) (up.enterMode (s.fld R.AON_WAKE F.AON_WAKE_RET)) :=
    entered_enterMode fld_lt (.inr (.inr (u.hold.trans hhold)))
  generalize up.enterMode (s.fld R.AON_WAKE F.AON_WAKE_RET) = m at e hexec
  have hraise : m.regsOnly (m.raise 0 1) := State.regsOnly.refl.raise
  rw [applyHeld_of_nil (hraise.dbHeld.trans (e.dbHeld.trans (u.dbHeld.trans hdb)))] at hexec
  exact ⟨_, hexec, (fld_setReg_other (by decide)).trans e.mode, hraise.wakePend.trans (e.wakePend.trans u.served), getLsbD_raise m 0 (by decide),
    hraise.mem.trans (e.mem.trans u.mem)⟩

/-! ### DORMANT (R501, R503) -/

theorem dormantAutoExpire_orders (hm : s.mode = mSIMMER) (hg : s.going = none) (ha : s.fld R.AON_DORMANT F.AON_DORMANT_AUTO_S ≠ 0) :
    Completes .dormantAutoExpire s fun t => t.going = some mDORMANT ∧ t.reqStatus = 1 ∧ s.regsKept t [R.DEV_MODE_REQ] := by
  have hexec : exec .dormantAutoExpire s = .next (s.awaiting mDORMANT s.wakePend) := congrArg Host.Outcome.next (if_pos ⟨hm, hg, ha⟩)
  exact ⟨_, hexec, going_awaiting _ _ _, reqStatus_awaiting _ _ _, regsKept_awaiting _ _ _⟩

theorem dormantAutoExpire_off (h : s.fld R.AON_DORMANT F.AON_DORMANT_AUTO_S = 0) : exec .dormantAutoExpire s = .next s :=
  congrArg Host.Outcome.next (if_neg fun h' => h'.2.2 h)

theorem dormantEntry_not_going (h : ¬ (s.mode = mSIMMER ∧ s.going = some mDORMANT)) : exec .dormantEntry s = .next s :=
  if_pos (not_and_or.mp h)

theorem dormantEntry_woken (hm : s.mode = mSIMMER) (hg : s.going = some mDORMANT) (hb : s.bare) (hw : s.sampleWakes.wakePend ≠ 0) :
    Completes .dormantEntry s fun t => t.mode = mSIMMER ∧ t.reqStatus = 6 ∧ t.going = none := by
  have w := wakesOnly_sampleWakes s
  have e : s.sampleWakes.Ended 6 (s.sampleWakes.endMode 6) := ended_endMode _ (by decide)
  have hexec := exec_dormantEntry hm hg hb.1
  rw [if_pos hw] at hexec
  exact ⟨_, hexec, e.mode.trans (w.mode.trans hm), e.status, e.going⟩

theorem dormantEntry_completes (hm : s.mode = mSIMMER) (hg : s.going = some mDORMANT) (hb : s.bare) (hw : s.sampleWakes.wakePend = 0) :
    Completes .dormantEntry s fun t => t.mode = mDORMANT ∧ t.reqStatus = 2 ∧ t.pins.enMain = false ∧ t.pins.pgMain = false ∧ t.time = s.time ∧
      t.fuses = s.fuses ∧ t.flash = s.flash ∧ ∀ a, a ≠ 0x810 → t.thr a = {} := by
  have w := wakesOnly_sampleWakes s
  have c : s.sampleWakes.railsOff.Completed mDORMANT (s.sampleWakes.railsOff.completeMode mDORMANT) :=
    completed_completeMode (by decide) (.inl (by decide))
  have hexec := exec_dormantEntry hm hg hb.1
  rw [if_neg (not_not_intro hw)] at hexec
  exact ⟨_, hexec, c.mode, c.status, congrArg Pins.enMain c.pins, congrArg Pins.pgMain c.pins, c.time.trans ((time_railsOff _).trans w.time),
    c.fuses.trans ((fuses_railsOff _).trans w.fuses), c.flash.trans ((flash_railsOff _).trans w.flash), fun a ha =>
      (congrArg (fun m => smGet (fun _ => ({} : Thr)) m a) c.thrs).trans (thr_railsOff _ ha)⟩

/-- What boot begins from when the rails are valid again. -/
def State.railsOn (s : State) : State := (s.woken.loseMain false).setFld R.DEV_MODE F.DEV_MODE_MODE mDORMANT

theorem reg_railsOn (s : State) {r : Nat} (hr : r ≠ R.DEV_MODE) (hk : r / 0x1000 = 0xF80 ∨ (0x20100 ≤ r ∧ r < 0x20200)) :
    s.railsOn.reg r = s.woken.reg r :=
  (reg_setFld_other _ _ _ _ _ hr).trans (reg_loseMain _ (keepReg_of_aon _ _ hk))

theorem regsOnly_railsOn (s : State) : (s.woken.loseMain false).regsOnly s.railsOn := State.regsOnly.refl.setFld

theorem dormantWake_boots (hm : s.mode = mDORMANT) (hw : s.wakePend ≠ 0) (hpg : s.pins.pgMain = true) (hhbm : s.pins.pgHbm = true) :
    Completes .dormantWake s fun t => t.mode = mBOOT ∧ t.wakePend = 0 ∧ t.flag R.AON_WAKE_STAT F.AON_WAKE_STAT_WOKE = true ∧ t.time = s.time ∧
      t.fuses = s.fuses ∧ ∀ a, 0x20100 ≤ a → a < 0x20200 → t.reg a = s.reg a := by
  have l := regsOnly_railsOn s
  have e : s.railsOn.Entered mBOOT (s.railsOn.enterMode mBOOT) := entered_enterMode (by decide) (.inl (by decide))
  have hasleep : ¬ (s.mode ≠ mDORMANT ∨ s.wakePend = 0) := not_or.mpr ⟨not_not_intro hm, hw⟩
  have hexec : exec .dormantWake s = .next (s.railsOn.enterMode mBOOT) := (if_neg hasleep).trans (if_pos ⟨hpg, hhbm⟩)
  refine ⟨_, hexec, e.mode, e.wakePend.trans (l.wakePend.trans ((wakePend_loseMain _ _).trans (wakePend_woken s))), ?_,
    e.time.trans (l.time.trans ((time_loseMain _ _).trans (time_woken s))),
    e.fuses.trans (l.fuses.trans ((fuses_loseMain _ _).trans (fuses_woken s))), fun a h1 h2 => ?_⟩
  · have hreg : (s.railsOn.enterMode mBOOT).reg R.AON_WAKE_STAT = s.woken.reg R.AON_WAKE_STAT :=
      (e.kept _ (by decide)).trans (reg_railsOn s (by decide) (.inl (by decide)))
    exact decide_eq_true (ne_of_eq_of_ne ((congrArg (getF · F.AON_WAKE_STAT_WOKE) hreg).trans (fld_woke_woken s)) one_ne_zero)
  · have hout : ∀ r ∈ R.AON_WAKE_STAT :: R.AON_WAKE_CNT :: modeRegs, a ≠ r := by
      simp only [modeRegs, R.AON_WAKE_STAT, R.AON_WAKE_CNT, R.DEV_MODE, R.DEV_MODE_CHG, R.XB_STAT, List.mem_cons, List.not_mem_nil, or_false,
        forall_eq_or_imp, forall_eq]
      omega
    have hmode : a ∉ modeRegs := fun h => hout a (List.mem_cons_of_mem _ (List.mem_cons_of_mem _ h)) rfl
    have hwake : a ∉ [R.AON_WAKE_STAT, R.AON_WAKE_CNT] := fun h => hout a (List.mem_append_left modeRegs h) rfl
    exact (e.kept a hmode).trans ((reg_railsOn s (List.ne_of_not_mem_cons hmode) (.inr ⟨h1, h2⟩)).trans (regsKept_woken s a hwake))

theorem dormantWake_raises_rails (hm : s.mode = mDORMANT) (hw : s.wakePend ≠ 0) (hpg : s.pins.pgMain = false) (hr : s.pins.retry = false) :
    exec .dormantWake s = .next { s with pins := { s.pins with enMain := true } } := by
  have hasleep : ¬ (s.mode ≠ mDORMANT ∨ s.wakePend = 0) := not_or.mpr ⟨not_not_intro hm, hw⟩
  have hoff : ¬ (s.pins.pgMain = true ∧ s.pins.pgHbm = true) := by simp [hpg]
  exact (if_neg hasleep).trans ((if_neg hoff).trans (if_neg (by simp [hr])))

end

/-! ### Wake sources (R504) -/

theorem wakeable_of_asleep {s : State} (h : s.mode = mSIMMER ∨ s.mode = mDORMANT) : s.wakeable = true := by
  obtain h | h := h <;> simp [State.wakeable, h]

theorem not_wakeable_of_awake {s : State} (hs : s.mode ≠ mSIMMER) (hd : s.mode ≠ mDORMANT) (hg : s.going = none) : s.wakeable = false := by
  simp [State.wakeable, hs, hd, hg]

theorem regsKept_wakeFire {s t : State} {b : Nat} {l : List Nat} (h : s.regsKept t l) (hl : R.AON_WAKE_STAT ∈ l) : s.regsKept (t.wakeFire b) l := by
  unfold State.wakeFire
  split
  · exact h.setReg hl
  · exact h

theorem regsKept_ite {s t u : State} {l : List Nat} {p : Prop} [Decidable p] (ht : s.regsKept t l) (hu : s.regsKept u l) :
    s.regsKept (if p then t else u) l := by
  split
  · exact ht
  · exact hu

theorem wakePend_fired {s : State} {b : Nat} (hw : s.wakeable = true) (hb : (s.fld R.AON_WAKE F.AON_WAKE_EN).testBit b = true) :
    (s.wakeFire b).wakePend = s.wakePend ||| 2 ^ b := by rw [wakeFire_of_fires hw hb]

theorem reg_fired {s : State} {b : Nat} (hw : s.wakeable = true) (hb : (s.fld R.AON_WAKE F.AON_WAKE_EN).testBit b = true) :
    (s.wakeFire b).reg R.AON_WAKE_STAT = s.reg R.AON_WAKE_STAT ||| BitVec.ofNat 32 (2 ^ b) := by
  rw [wakeFire_of_fires hw hb]
  exact reg_setReg_same s R.AON_WAKE_STAT _

section
variable {s : State}

theorem devWakeWrite_fires {who : Req} (hr : s.reach who.toNat R.DEV_WAKE true = .reg { at_ := R.DEV_WAKE, cap := R.DEV_WAKE })
    (hm : s.mode = mSIMMER) (hf : (s.fld R.AON_WAKE F.AON_WAKE_EN).testBit 5 = true) :
    Completes (.devWakeWrite who) s fun t => t.wakePend = s.wakePend ||| 32 ∧ (t.reg R.AON_WAKE_STAT).getLsbD 5 = true ∧
      s.regsKept t [R.AON_WAKE_STAT] := by
  have hw := wakeable_of_asleep (.inl hm)
  refine ⟨_, exec_devWakeWrite hr (by rw [hm]; decide), wakePend_fired hw hf, ?_, regsKept_wakeFire .refl List.mem_cons_self⟩
  rw [reg_fired hw hf]
  exact getLsbD_or_two_pow _ (by decide)

theorem devWakeWrite_awake {who : Req} (ho : s.open who R.DEV_WAKE) (hg : s.going = none) : exec (.devWakeWrite who) s = .next s := by
  have hr := reach_of_open ho (lands_devWake s) true
  obtain ⟨-, -, -, hsim, hdor, -⟩ := ho
  rw [exec_devWakeWrite hr hdor, wakeFire_of_not_wakeable (not_wakeable_of_awake hsim hdor hg)]

theorem wakeTimerExpire_fires (hm : s.mode = mSIMMER ∨ s.mode = mDORMANT) (ht : s.reg R.AON_WAKE_TMR ≠ 0)
    (hf : (s.fld R.AON_WAKE F.AON_WAKE_EN).testBit 6 = true) :
    Completes .wakeTimerExpire s fun t => t.reg R.AON_WAKE_TMR = 0 ∧ t.wakePend = s.wakePend ||| 64 ∧
      s.regsKept t [R.AON_WAKE_TMR, R.AON_WAKE_STAT] := by
  have hexec : exec .wakeTimerExpire s = .next ((s.setReg R.AON_WAKE_TMR 0).wakeFire 6) := congrArg Host.Outcome.next (if_pos ⟨hm, ht⟩)
  have hmode : (s.setReg R.AON_WAKE_TMR 0).mode = s.mode := fld_setReg_other (by decide)
  have hw : (s.setReg R.AON_WAKE_TMR 0).wakeable = true := wakeable_of_asleep (by rwa [hmode])
  have hen : ((s.setReg R.AON_WAKE_TMR 0).fld R.AON_WAKE F.AON_WAKE_EN).testBit 6 = true := by rwa [fld_setReg_other (by decide)]
  have hstat : (s.setReg R.AON_WAKE_TMR 0).regsKept ((s.setReg R.AON_WAKE_TMR 0).wakeFire 6) [R.AON_WAKE_STAT] :=
    regsKept_wakeFire .refl List.mem_cons_self
  exact ⟨_, hexec, (hstat _ (by decide)).trans (reg_setReg_same s _ _), wakePend_fired hw hen,
    regsKept_wakeFire (State.regsKept.refl.setReg (by decide)) (by decide)⟩

theorem wakeTimerExpire_off (h : s.reg R.AON_WAKE_TMR = 0) : exec .wakeTimerExpire s = .next s := congrArg Host.Outcome.next (if_neg fun h' => h'.2 h)

/-- The GPIO inputs with one of them at a level. -/
def gpioSet (w : W32) (i : Nat) (b : Bool) : W32 := if b then w ||| BitVec.ofNat 32 (2 ^ i) else w &&& ~~~BitVec.ofNat 32 (2 ^ i)

theorem testBit_gpioSet (w : W32) {i : Nat} (h : i < 32) (b : Bool) : (gpioSet w i b).toNat.testBit i = b := by
  rw [BitVec.testBit_toNat]
  cases b with
  | true => exact getLsbD_or_two_pow w h
  | false =>
    show (w &&& ~~~BitVec.ofNat 32 (2 ^ i)).getLsbD i = false
    rw [BitVec.getLsbD_and, BitVec.getLsbD_not, BitVec.getLsbD_ofNat, Nat.testBit_two_pow_self]
    simp [h]

theorem gpioInputChange_latches (i : Fin 32) (b : Bool) (hm : s.mode ≠ mOFF) (hb : (s.reg R.AON_GPIO_IN).toNat.testBit i ≠ b) :
    Completes (.gpioInputChange i b) s fun t => (t.reg R.AON_GPIO_IN).toNat.testBit i = b ∧
      s.regsKept t [R.AON_GPIO_IN, R.AON_GPIO_LATCH, R.AON_WAKE_STAT] := by
  have hin : ∃ t, exec (.gpioInputChange i b) s = .next t ∧
      (s.setReg R.AON_GPIO_IN (gpioSet (s.reg R.AON_GPIO_IN) i b)).regsKept t [R.AON_GPIO_LATCH, R.AON_WAKE_STAT] := by
    refine ⟨_, if_neg (not_or.mpr ⟨hm, hb⟩), ?_⟩
    have hlatch {p : Prop} [Decidable p] {v : W32} (u : State) :
        u.regsKept (if p then u.setReg R.AON_GPIO_LATCH v else u) [R.AON_GPIO_LATCH, R.AON_WAKE_STAT] :=
      regsKept_ite (State.regsKept.refl.setReg (by decide)) .refl
    exact regsKept_ite (regsKept_wakeFire (hlatch _) (by decide)) (hlatch _)
  obtain ⟨t, hexec, hk⟩ := hin
  refine ⟨t, hexec, ?_, (State.regsKept.refl.setReg (by decide)).trans (hk.mono (by decide))⟩
  rw [hk _ (by decide), reg_setReg_same]
  exact testBit_gpioSet _ i.isLt b

theorem gpioInputChange_same (i : Fin 32) (b : Bool) (hb : (s.reg R.AON_GPIO_IN).toNat.testBit i = b) : exec (.gpioInputChange i b) s = .next s :=
  if_pos (.inr hb)

/-! ### Keep-alive frames (R505, R506) -/

theorem keepalive_no_port (slot : Fin 4) (bs : List Byte) (h : s.slotPort slot = none) : exec (.keepaliveFrameReceive slot bs) s = .next s ∧
    ∀ svc, exec (.keepaliveServiceSend slot svc bs) s = .next s := by
  have hrx : exec (.keepaliveFrameReceive slot bs) s = execKeepaliveFrameReceive slot bs s := rfl
  refine ⟨?_, fun svc => congrArg Host.Outcome.next (if_neg fun h' => by rw [h] at h'; exact absurd h'.1 (by decide))⟩
  rw [hrx, execKeepaliveFrameReceive, h]

/-- A frame that no service takes and that is no wake frame is held, in hold mode 1 while the buffer has room. -/
theorem kaFrame_holds {slot x : Nat} {bs : List Byte} (hk : kaService bs = none) (hw : s.isWakeFrame bs = false)
    (hmode : s.fld R.AON_HOLD F.AON_HOLD_MODE = 1) (hroom : s.holdBytes + bs.length ≤ 1048576) (hwm : s.fld R.AON_HOLD F.AON_HOLD_WM_KB = 0) :
    s.kaFrame slot x bs = { s with hold := s.hold ++ [{ port := x, stamp := s.time.d, at_ := s.clk, bytes := bs }] } := by
  simp [State.kaFrame, hk, hw, hmode, hroom, hwm]

theorem keepaliveFrameReceive_holds {slot : Fin 4} {x : Nat} {bs : List Byte} (hp : s.slotPort slot = some x) (hlen : 64 ≤ bs.length)
    (hfcs : fcs (bs.take (bs.length - 4)) = bs.drop (bs.length - 4)) (hk : kaService bs = none) (hw : s.isWakeFrame bs = false)
    (hmode : s.fld R.AON_HOLD F.AON_HOLD_MODE = 1) (hroom : s.holdBytes + bs.length ≤ 1048576) (hwm : s.fld R.AON_HOLD F.AON_HOLD_WM_KB = 0) :
    exec (.keepaliveFrameReceive slot bs) s =
      .next { s with hold := s.hold ++ [{ port := x, stamp := s.time.d, at_ := s.clk, bytes := bs }] } := by
  have hrx : exec (.keepaliveFrameReceive slot bs) s = execKeepaliveFrameReceive slot bs s := rfl
  rw [hrx, execKeepaliveFrameReceive, hp]
  exact congrArg Host.Outcome.next ((if_pos ⟨hlen, hfcs⟩).trans (kaFrame_holds hk hw hmode hroom hwm))

theorem keepaliveServiceSend_emits {slot : Fin 4} {svc : KaSvc} {bs : List Byte} {x : Nat} (hp : s.slotPort slot = some x)
    (hs : (s.fld R.AON_KA_SVC F.AON_KA_SVC).testBit (KaSvc.bit svc) = true) :
    exec (.keepaliveServiceSend slot svc bs) s = .next { s with outs := s.outs ++ [.keepAlive slot bs] } :=
  congrArg Host.Outcome.next (if_pos ⟨by rw [hp]; rfl, hs⟩)

end

end Sys2Proof.Machine
end

section
/-! PROOFS. The mode transitions of R493–R508, put together. -/

namespace Sys2Proof.Machine

/-- Settles O48: each clause by the rule of its command, over the completion point, the end and the sampling of wakes that the commands
share (R10, R493, R494, R495, R499, R500, R502, R503; assumption log 79, 80). -/
theorem modeTransitionsFollowTheTable : Obligations.ModeTransitionsFollowTheTable := by
  intro s who target
  exact ⟨
    modeReq_while_running, modeReq_not_allowed, modeReq_precondition, modeReq_completes, modeReq_waits,
    maintain_not_going, maintainEntry_completes, maintainDrainTimeout_completes,
    sleep_not_going, simmerEntry_hands_over, sleepDrainTimeout_ends, simmerCommit_woken,
    fun h hc _ => simmerCommit_simmer h hc, fun h hc _ => simmerCommit_dormant h hc,
    simmerWake_returns, wake_not_pending,
    dormantAutoExpire_orders, dormantAutoExpire_off, dormantEntry_not_going,
    fun h => dormantEntry_woken h.1 h.2, fun h => dormantEntry_completes h.1 h.2,
    dormantWake_boots, dormantWake_raises_rails,
    fun hr hm _ => devWakeWrite_fires hr hm, devWakeWrite_awake, wakeTimerExpire_fires, wakeTimerExpire_off,
    gpioInputChange_latches, gpioInputChange_same,
    keepalive_no_port, fun _ _ _ => keepaliveFrameReceive_holds, fun _ _ _ _ => keepaliveServiceSend_emits⟩

end Sys2Proof.Machine
end

section
/-! PROOFS. The frames of the packet path: what the end of a frame, the switch and the timing wheel leave alone. -/

namespace Sys2Proof.Machine

/-! ### Packets and queues -/

theorem pkt_setPkt_same (s : State) (k : Nat) (q : Pkt) : (s.setPkt k q).pkt k = q := smGet_smSet_same _ _ _ _

theorem voq_setVoq_same (s : State) (key : Nat) (l : List VEnt) : (s.setVoq key l).voq key = l := smGet_smSet_same _ _ _ _

theorem voqInL_setVoqIn_same (s : State) (p : Nat) (l : List Nat) : (s.setVoqIn p l).voqInL p = l := smGet_smSet_same _ _ _ _

/-- What every step of a fold keeps, the fold keeps. -/
theorem foldl_keeps {α σ β : Type} {g : σ → β} {f : σ → α → σ} (h : ∀ s a, g (f s a) = g s) (l : List α) (s : σ) : g (l.foldl f s) = g s := by
  induction l generalizing s with
  | nil => rfl
  | cons a l ih => rw [List.foldl_cons, ih, h]

/-! ### The wheel (R370) -/

/-- A wake sets virtual times of entities, and nothing else. -/
theorem wakes_eq (s0 s : State) (x : Nat) : ∃ v, State.wakes s0 s x = { s with vts := v } := by
  have go : ∀ (t : State) (p : Prop) [Decidable p] (e : Nat), ∃ v, (if p then t.entWake e else t) = { t with vts := v } := fun t p _ e => by
    split <;> exact ⟨_, rfl⟩
  unfold State.wakes
  split
  · exact ⟨_, rfl⟩
  · dsimp only
    obtain ⟨v, h⟩ := go s (s0.entWaiting x = false ∧ s.entWaiting x = true) x
    split
    · obtain ⟨v', h'⟩ := go { s with vts := v } (s0.entWaiting ‹_› = false ∧ ({ s with vts := v } : State).entWaiting ‹_› = true) ‹_›
      exact ⟨v', by rw [h, h']⟩
    · exact ⟨v, h⟩

theorem wakeAll_eq (s0 s : State) : ∃ v, State.wakeAll s0 s = { s with vts := v } := by
  unfold State.wakeAll
  induction s.busyPorts generalizing s with
  | nil => exact ⟨_, rfl⟩
  | cons x l ih =>
    obtain ⟨v, h⟩ := wakes_eq s0 s x
    obtain ⟨v', h'⟩ := ih (State.wakes s0 s x)
    exact ⟨v', by rw [List.foldl_cons, h', h]⟩

/-- Nothing gains a waiting frame between a state and itself. -/
theorem wakes_self (s : State) (x : Nat) : State.wakes s s x = s := by
  have no : ∀ e, ¬ (s.entWaiting e = false ∧ s.entWaiting e = true) := fun e h => Bool.noConfusion (h.1.symm.trans h.2)
  unfold State.wakes
  split
  · rfl
  · dsimp only
    split
    · rw [if_neg (no x), if_neg (no _)]
    · rw [if_neg (no x)]

theorem wakeAll_self (s : State) : State.wakeAll s s = s := by
  unfold State.wakeAll
  induction s.busyPorts with
  | nil => rfl
  | cons x l ih => rw [List.foldl_cons, wakes_self, ih]

/-! ### The end of a frame -/

/-- What of a state the ends of frames behind the crossbar do not touch: all but registers, packets, engine queues, pools, accounts, the copy
store, the marks of an audit walk, class queues and virtual times. -/
def State.pastFrames (s : State) : State :=
  { s with regs := [], pkts := [], engs := [], pools := [], accts := [], copies := [], audSkip := [], txq := [], vts := [] }

theorem conns_of_pastFrames {s t : State} (h : t.pastFrames = s.pastFrames) : t.conns = s.conns := (congrArg State.conns h :)
theorem voqs_of_pastFrames {s t : State} (h : t.pastFrames = s.pastFrames) : t.voqs = s.voqs := (congrArg State.voqs h :)
theorem mem_of_pastFrames {s t : State} (h : t.pastFrames = s.pastFrames) : t.mem = s.mem := (congrArg State.mem h :)

section
variable (s : State)

@[simp] theorem pastFrames_setReg (a : Nat) (v : W32) : (s.setReg a v).pastFrames = s.pastFrames := (rfl)
@[simp] theorem pastFrames_setFld (a : Nat) (f : Fld) (x : Nat) : (s.setFld a f x).pastFrames = s.pastFrames := (rfl)
@[simp] theorem pastFrames_raise (p b : Nat) : (s.raise p b).pastFrames = s.pastFrames := (rfl)
@[simp] theorem pastFrames_cnt64 (a n : Nat) : (s.cnt64 a n).pastFrames = s.pastFrames := by
  unfold State.cnt64 State.setReg64; simp
@[simp] theorem pastFrames_setPkt (k : Nat) (q : Pkt) : (s.setPkt k q).pastFrames = s.pastFrames := (rfl)
@[simp] theorem pastFrames_delPkt (k : Nat) : (s.delPkt k).pastFrames = s.pastFrames := (rfl)
@[simp] theorem pastFrames_setPool (k : Nat) (p : Pool) : (s.setPool k p).pastFrames = s.pastFrames := (rfl)
@[simp] theorem pastFrames_setAcct (a : Nat) (c : Acct) : (s.setAcct a c).pastFrames = s.pastFrames := (rfl)
@[simp] theorem pastFrames_evalXoff (a : Nat) : (s.evalXoff a).pastFrames = s.pastFrames := (rfl)
@[simp] theorem pastFrames_setCopy (n : Nat) (c : Option (Nat × Pkt)) : (s.setCopy n c).pastFrames = s.pastFrames := (rfl)
@[simp] theorem pastFrames_setTxq (x c : Nat) (l : List Nat) : (s.setTxq x c l).pastFrames = s.pastFrames := (rfl)
@[simp] theorem pastFrames_markDiscard (k : Nat) : (s.markDiscard k).pastFrames = s.pastFrames := (rfl)

@[simp] theorem pastFrames_cnt (a : Nat) : (s.cnt a).pastFrames = s.pastFrames := by
  unfold State.cnt; split <;> simp

@[simp] theorem pastFrames_audSkipIf (p : Nat) : (s.audSkipIf p).pastFrames = s.pastFrames := by
  unfold State.audSkipIf; split <;> rfl

@[simp] theorem pastFrames_pushBuf (p : Nat) : (s.pushBuf p).pastFrames = s.pastFrames := by
  unfold State.pushBuf; dsimp only; split <;> simp

@[simp] theorem pastFrames_uncharge (a b : Nat) : (s.uncharge a b).pastFrames = s.pastFrames := by
  unfold State.uncharge; dsimp only; split <;> simp

@[simp] theorem pastFrames_freeChain (p owner : Nat) : (s.freeChain p owner).pastFrames = s.pastFrames :=
  foldl_keeps (fun s b => by dsimp only; split <;> simp) _ s

@[simp] theorem pastFrames_copyRelease (n : Nat) : (s.copyRelease n).pastFrames = s.pastFrames := by
  unfold State.copyRelease
  split
  · rfl
  · split <;> simp

@[simp] theorem pastFrames_releaseBufs (k : Nat) : (s.releaseBufs k).pastFrames = s.pastFrames := by
  unfold State.releaseBufs
  dsimp only
  split
  · simp
  · split <;> simp

@[simp] theorem pastFrames_viewSub (v : Nat) : (s.viewSub v).pastFrames = s.pastFrames := by
  unfold State.viewSub; dsimp only; split <;> simp

@[simp] theorem pastFrames_endPkt (k : Nat) : (s.endPkt k).pastFrames = s.pastFrames := by
  unfold State.endPkt; dsimp only; split <;> simp

@[simp] theorem pastFrames_giveUp (k : Nat) : (s.giveUp k).pastFrames = s.pastFrames := by
  unfold State.giveUp; split <;> simp

@[simp] theorem pastFrames_txqDrop (k : Nat) : (s.txqDrop k).pastFrames = s.pastFrames := by
  unfold State.txqDrop; dsimp only; split <;> simp

@[simp] theorem pastFrames_dropEnt (v : VEnt) : (s.dropEnt v).pastFrames = s.pastFrames := by
  unfold State.dropEnt
  split
  · dsimp only; split <;> simp
  · simp

@[simp] theorem pastFrames_mirDrop (ses : Nat) : (s.mirDrop ses).pastFrames = s.pastFrames := by
  unfold State.mirDrop; simp

@[simp] theorem pastFrames_wakeAll (s0 : State) : (State.wakeAll s0 s).pastFrames = s.pastFrames := by
  obtain ⟨v, h⟩ := wakeAll_eq s0 s
  rw [h]; rfl

end

/-! ### A round of the matching (R338–R341, R344, R350) -/

/-- What of a state a round of the matching does not touch: of what lies past the frames, all but the queues of Caldera, the connections,
the pointers and the numbers of new packets. -/
def State.pastSwitch (s : State) : State := { s.pastFrames with voqs := [], nextId := 0, conns := [], gp := [], ap := [], pp := [] }

/-- What does not reach past the frames does not reach past the switch. -/
theorem pastSwitch_of_pastFrames {s t : State} (h : t.pastFrames = s.pastFrames) : t.pastSwitch = s.pastSwitch := by
  unfold State.pastSwitch; rw [h]

theorem mem_of_pastSwitch {s t : State} (h : t.pastSwitch = s.pastSwitch) : t.mem = s.mem := (congrArg State.mem h :)
theorem thrs_of_pastSwitch {s t : State} (h : t.pastSwitch = s.pastSwitch) : t.thrs = s.thrs := (congrArg State.thrs h :)
theorem clk_of_pastSwitch {s t : State} (h : t.pastSwitch = s.pastSwitch) : t.clk = s.clk := (congrArg State.clk h :)

section
variable (s : State)

@[simp] theorem pastSwitch_setVoq (key : Nat) (l : List VEnt) : (s.setVoq key l).pastSwitch = s.pastSwitch := (rfl)
@[simp] theorem pastSwitch_setPkt (k : Nat) (q : Pkt) : (s.setPkt k q).pastSwitch = s.pastSwitch := (rfl)
@[simp] theorem pastSwitch_cnt64 (a n : Nat) : (s.cnt64 a n).pastSwitch = s.pastSwitch := pastSwitch_of_pastFrames (by simp)
@[simp] theorem pastSwitch_conns (l : List (Nat × Conn)) : ({ s with conns := l } : State).pastSwitch = s.pastSwitch := (rfl)
@[simp] theorem pastSwitch_newPkt (q : Pkt) : (s.newPkt q).2.pastSwitch = s.pastSwitch := (rfl)
@[simp] theorem pastSwitch_viewAdd (v : Nat) : (s.viewAdd v).pastSwitch = s.pastSwitch := (rfl)
@[simp] theorem pastSwitch_cnt (a : Nat) : (s.cnt a).pastSwitch = s.pastSwitch := pastSwitch_of_pastFrames (by simp)
@[simp] theorem pastSwitch_dropEnt (v : VEnt) : (s.dropEnt v).pastSwitch = s.pastSwitch := pastSwitch_of_pastFrames (by simp)
@[simp] theorem pastSwitch_mirDrop (ses : Nat) : (s.mirDrop ses).pastSwitch = s.pastSwitch := pastSwitch_of_pastFrames (by simp)

theorem pastSwitch_mirTrim : s.mirTrim.pastSwitch = s.pastSwitch := by
  unfold State.mirTrim
  split
  · exact foldl_keeps (fun t e => by split <;> simp) _ s
  · rfl

theorem pastSwitch_ageDrop (i key : Nat) (v : VEnt) (outs : List Nat) : (s.ageDrop i key v outs).pastSwitch = s.pastSwitch := by
  unfold State.ageDrop
  dsimp only
  split
  · exact (foldl_keeps (g := State.pastSwitch) (fun t x => by simp) _ _).trans (by simp)
  · simp

theorem pastSwitch_connect (i key : Nat) (v : VEnt) (outs : List Nat) (n : Nat) : (s.connect i key v outs n).pastSwitch = s.pastSwitch := by
  have counted : ∀ c, (if c = s.expClass then (s.cnt64 R.XB_MATCH 1).cnt64 R.XB_EXP_MATCH 1 else s.cnt64 R.XB_MATCH 1).pastSwitch = s.pastSwitch :=
    fun c => by split <;> simp
  unfold State.connect
  dsimp only
  split
  · refine (pastSwitch_conns _ _).trans ((foldl_keeps (g := fun acc : State × List Nat × List Nat => acc.1.pastSwitch) (fun acc e => ?_) _ _).trans ?_)
    · obtain ⟨st, ids, seen⟩ := acc
      dsimp only
      split
      · rw [pastSwitch_viewAdd, pastSwitch_newPkt]
      · rw [pastSwitch_newPkt]
    · rw [pastSwitch_setPkt, counted]
  · rw [pastSwitch_conns, pastSwitch_setPkt, pastSwitch_setVoq, counted]

theorem pastSwitch_accept (i r n : Nat) (grants : List Nat) : (s.accept i r n grants).pastSwitch = s.pastSwitch := by
  unfold State.accept
  dsimp only
  split
  · rfl
  · split
    · rfl
    · split
      · exact pastSwitch_ageDrop _ _ _ _ _
      · exact pastSwitch_connect _ _ _ _ _ _

end

end Sys2Proof.Machine
end

section
/-! PROOFS. The crossbar (R16, R338–R341): rounds of the matching and the cells of a connection. -/

namespace Sys2Proof.Machine

/-! ### Rounds -/

/-- The grants of the free outputs in round `r` of the matching for cell time `n`: output and input. -/
def State.grants (s : State) (r n : Nat) : List (Nat × Nat) :=
  ((List.range 18).filter fun o => s.outFree n o).filterMap fun o => (s.grant o r n).map fun i => (o, i)

/-- Every input accepts among its grants. -/
def State.acceptAll (s : State) (r n : Nat) (gs : List (Nat × Nat)) : State :=
  (List.range 18).foldl (fun s i =>
    let mine := (gs.filter fun e => e.2 == i).map Prod.fst
    if mine.isEmpty then s else s.accept i r n mine) s

/-- The state in which a round begins: mirror queues are trimmed before the first (R350). -/
def State.trimmed (s : State) : State := if s.round = 3 then s.mirTrim else s

/-- The state after the acceptances of a round. -/
def State.matched (s : State) : State :=
  s.trimmed.acceptAll s.round (s.cellT + 4 - s.round) (s.trimmed.grants s.round (s.cellT + 4 - s.round))

theorem acceptAll_nil (s : State) (r n : Nat) : s.acceptAll r n [] = s := foldl_keeps (g := id) (fun _ _ => rfl) _ s

theorem pastSwitch_acceptAll (s : State) (r n : Nat) (gs : List (Nat × Nat)) : (s.acceptAll r n gs).pastSwitch = s.pastSwitch :=
  foldl_keeps (fun t i => by
    dsimp only
    split
    · rfl
    · exact pastSwitch_accept _ _ _ _ _) _ s

theorem pastSwitch_matched (s : State) : s.matched.pastSwitch = s.pastSwitch := by
  refine (pastSwitch_acceptAll _ _ _ _).trans ?_
  unfold State.trimmed
  split
  · exact pastSwitch_mirTrim s
  · rfl

/-- Without a free output no input has a grant. -/
theorem matched_of_none_free {s : State} (h3 : s.round ≠ 3) (ho : ∀ o, o < 18 → s.outFree (s.cellT + 4 - s.round) o = false) :
    s.matched = s := by
  have none_free : (List.range 18).filter (fun o => s.outFree (s.cellT + 4 - s.round) o) = [] :=
    List.filter_eq_nil_iff.mpr fun o h => by simp [ho o (List.mem_range.mp h)]
  rw [State.matched, State.trimmed, if_neg h3, State.grants, none_free, List.filterMap_nil, acceptAll_nil]

/-- A round while the matching runs (R338). -/
theorem exec_xbarMatchingRound {s : State} (hc : s.mainClk = true) (hr : s.flag R.XB_CTL F.XB_CTL_RUN = true) :
    exec .xbarMatchingRound s = .next { State.wakeAll s s.matched with
      round := if s.round = 1 then 3 else s.round - 1, cellT := if s.round = 1 then s.cellT + 1 else s.cellT } :=
  if_neg fun h => h.elim (· hc) (· hr)

theorem xbarMatchingRound_follows {s : State} (hc : s.mainClk = true) (hr : s.flag R.XB_CTL F.XB_CTL_RUN = true) :
    Completes .xbarMatchingRound s fun t =>
      t.round = (if s.round = 1 then 3 else s.round - 1) ∧ t.cellT = (if s.round = 1 then s.cellT + 1 else s.cellT) ∧ t.mem = s.mem ∧
      t.thrs = s.thrs ∧ t.clk = s.clk := by
  have h : (State.wakeAll s s.matched).pastSwitch = s.pastSwitch :=
    (pastSwitch_of_pastFrames (pastFrames_wakeAll _ _)).trans (pastSwitch_matched s)
  exact ⟨_, exec_xbarMatchingRound hc hr, rfl, rfl, (mem_of_pastSwitch h :), (thrs_of_pastSwitch h :), (clk_of_pastSwitch h :)⟩

theorem xbarMatchingRound_none_free {s : State} (hc : s.mainClk = true) (hr : s.flag R.XB_CTL F.XB_CTL_RUN = true) (h3 : s.round ≠ 3)
    (ho : ∀ o, o < 18 → s.outFree (s.cellT + 4 - s.round) o = false) : exec .xbarMatchingRound s =
      .next { s with round := if s.round = 1 then 3 else s.round - 1, cellT := if s.round = 1 then s.cellT + 1 else s.cellT } := by
  rw [exec_xbarMatchingRound hc hr, matched_of_none_free h3 ho, wakeAll_self]

/-! ### Cells -/

/-- The connection of an input is the one put in its place. -/
theorem find?_putConn (i : Nat) {c : Conn} (d : Conn) {l : List (Nat × Conn)} (h : (l.find? fun e => e.1 == i).map Prod.snd = some c) :
    ((putConn i (some d) l).find? fun e => e.1 == i).map Prod.snd = some d := by
  induction l with
  | nil => exact absurd h (by simp)
  | cons e l ih =>
    by_cases he : e.1 = i
    · simp [putConn, he]
    · have hf : (e.1 == i) = false := by simpa using he
      rw [putConn, if_neg he, List.find?_cons, hf]
      rw [List.find?_cons, hf] at h
      exact ih h

/-- The state with the connection of an input replaced or gone. -/
def State.setConn (s : State) (i : Nat) (c : Option Conn) : State := { s with conns := putConn i c s.conns }

/-- What of a state a cell does not touch: all but packets and engine queues. -/
def State.pastCells (s : State) : State := { s with pkts := [], engs := [] }

theorem pastCells_setPkt (s : State) (k : Nat) (q : Pkt) : (s.setPkt k q).pastCells = s.pastCells := rfl
theorem pastCells_setEng (s : State) (e : Nat) (g : Eng) : (s.setEng e g).pastCells = s.pastCells := rfl
theorem conns_of_pastCells {s t : State} (h : t.pastCells = s.pastCells) : t.conns = s.conns := (congrArg State.conns h :)
theorem regs_of_pastCells {s t : State} (h : t.pastCells = s.pastCells) : t.regs = s.regs := (congrArg State.regs h :)
theorem mem_of_pastCells {s t : State} (h : t.pastCells = s.pastCells) : t.mem = s.mem := (congrArg State.mem h :)
theorem near_of_pastCells {s t : State} (h : t.pastCells = s.pastCells) : t.near = s.near := (congrArg State.near h :)
theorem voqs_of_pastCells {s t : State} (h : t.pastCells = s.pastCells) : t.voqs = s.voqs := (congrArg State.voqs h :)

/-- What the packets of a connection hold after another cell. -/
def State.fillCopies (s : State) (ids : List Nat) (bs : List Byte) (first last : Bool) : State :=
  ids.foldl (fun s id => s.fillCopy id bs first last) s

theorem pastCells_fillCopies (s : State) (ids : List Nat) (bs : List Byte) (first last : Bool) :
    (s.fillCopies ids bs first last).pastCells = s.pastCells :=
  foldl_keeps (fun t id => by
    unfold State.fillCopy
    dsimp only
    split
    · rw [pastCells_setEng, pastCells_setPkt]
    · rw [pastCells_setPkt]) ids s

/-- What becomes of the packets of a connection whose last cell has crossed. -/
def State.crossOver (s : State) (ids : List Nat) : State :=
  ids.foldl (fun s id =>
    let d := (s.pkt id).dest
    if (s.pkt id).gone then s.endPkt id
    else if s.masked d ∧ ¬ (s.pkt id).discard then s.txqDrop id
    else if 64 ≤ d then s.setTxq d (s.pkt id).cls (s.txqL d (s.pkt id).cls ++ [id]) else s) s

theorem pastFrames_crossOver (s : State) (ids : List Nat) : (s.crossOver ids).pastFrames = s.pastFrames :=
  foldl_keeps (fun t id => by
    dsimp only
    split
    · exact pastFrames_endPkt _ _
    · split
      · exact pastFrames_txqDrop _ _
      · split
        · exact pastFrames_setTxq _ _ _ _
        · rfl) ids s

/-- The bytes of a frame that have crossed with the next cell of its connection. -/
def State.crossing (s : State) (c : Conn) : List Byte :=
  let q := s.pkt c.pkt
  if q.ptr = noBuf then q.data else s.chainRead q.ptr q.skip (min q.len ((c.sent + 1) * 256))

section
variable {s : State} {i : Fin 18} {c : Conn}

/-- A connection with more cells to come carries the next one (R341). -/
theorem exec_cellTransfer_more (hi : s.conn i = some c) (ho : s.outTaken i c = false) (hc : s.mainClk = true) (hb : (s.pkt c.pkt).bad = false)
    (hn : c.sent + 1 < cellsOf (s.pkt c.pkt).len) : exec (.cellTransfer i) s =
      .next ((s.fillCopies c.copies (s.crossing c) (c.sent == 0) false).setConn i (some { c with sent := c.sent + 1 })) := by
  have more : decide (cellsOf (s.pkt c.pkt).len ≤ c.sent + 1) = false := decide_eq_false (Nat.not_le.mpr hn)
  show execCellTransfer i s = _
  unfold execCellTransfer
  simp only [hi, hc, hb, ho, more]
  rfl

/-- With its last cell a connection is given up and, where it carried a frame of its own, the buffers are released (R341). -/
theorem exec_cellTransfer_last (hi : s.conn i = some c) (ho : s.outTaken i c = false) (hc : s.mainClk = true) (hb : (s.pkt c.pkt).bad = false)
    (hn : cellsOf (s.pkt c.pkt).len ≤ c.sent + 1) (hm : c.marker = false) : exec (.cellTransfer i) s = .next (State.wakeAll s
      ((((s.fillCopies c.copies (s.crossing c) (c.sent == 0) true).setConn i none).releaseBufs c.pkt).crossOver c.copies)) := by
  have last : decide (cellsOf (s.pkt c.pkt).len ≤ c.sent + 1) = true := decide_eq_true hn
  show execCellTransfer i s = _
  unfold execCellTransfer
  simp only [hi, hc, hb, ho, last, hm]
  rfl

theorem cellTransfer_carries (hi : s.conn i = some c) (ho : s.outTaken i c = false) (hc : s.mainClk = true) (hb : (s.pkt c.pkt).bad = false)
    (hn : c.sent + 1 < cellsOf (s.pkt c.pkt).len) : Completes (.cellTransfer i) s fun t =>
      t.conn i = some { c with sent := c.sent + 1 } ∧ t.regs = s.regs ∧ t.mem = s.mem ∧ t.near = s.near ∧ t.voqs = s.voqs := by
  have h := pastCells_fillCopies s c.copies (s.crossing c) (c.sent == 0) false
  refine ⟨_, exec_cellTransfer_more hi ho hc hb hn, ?_, (regs_of_pastCells h :), (mem_of_pastCells h :), (near_of_pastCells h :),
    (voqs_of_pastCells h :)⟩
  rw [State.conn, State.setConn, conns_of_pastCells h]
  exact find?_putConn i _ hi

theorem cellTransfer_last {l : List (Nat × Conn)} (hs : s.conns = (i.val, c) :: l) (hc : s.mainClk = true) (hb : (s.pkt c.pkt).bad = false)
    (hn : cellsOf (s.pkt c.pkt).len ≤ c.sent + 1) (hm : c.marker = false) :
    Completes (.cellTransfer i) s fun t => t.conns = l ∧ t.voqs = s.voqs ∧ t.mem = s.mem := by
  have hi : s.conn i = some c := by simp [State.conn, hs]
  have ho : s.outTaken i c = false := by simp [State.outTaken, hs]
  have cells := pastCells_fillCopies s c.copies (s.crossing c) (c.sent == 0) true
  have frames := (pastFrames_wakeAll _ s).trans ((pastFrames_crossOver _ c.copies).trans
    (pastFrames_releaseBufs ((s.fillCopies c.copies (s.crossing c) (c.sent == 0) true).setConn i none) c.pkt))
  refine ⟨_, exec_cellTransfer_last hi ho hc hb hn hm, (conns_of_pastFrames frames).trans ?_,
    (voqs_of_pastFrames frames).trans (voqs_of_pastCells cells :), (mem_of_pastFrames frames).trans (mem_of_pastCells cells :)⟩
  rw [State.setConn, conns_of_pastCells cells, hs, putConn, if_pos rfl]

end

/-- Settles O26: the rounds by what a round can touch and by the empty list of free outputs, the cells by the two outcomes of a transfer
(R16, R338, R341; assumption log 129). -/
theorem crossbarRoundsAndCells : Obligations.CrossbarRoundsAndCells := by
  intro s i
  exact ⟨xbarMatchingRound_follows, xbarMatchingRound_none_free, fun _ => cellTransfer_carries, fun _ _ => cellTransfer_last⟩

end Sys2Proof.Machine
end

section
/-! PROOFS. VOQ enqueue (R25, R27, R325, R336): what becomes of the next context of a pipeline. -/

namespace Sys2Proof.Machine

section
variable {s : State} {p : PipeN} {k : Nat} {rest : List Nat}

/-- The next context is taken once its source check has gone on (R129). -/
theorem voqEnqueue_taken (hp : s.pipeOn p = true) (hc : s.srcChks = []) :
    ¬ (¬ s.pipeOn p ∨ (smGet (fun _ => []) s.srcChks (p / 8)).any (fun c => c.pkt == k) = true) := by
  simp [hp, hc, smGet, smFind]

theorem voqEnqueue_discarded (hq : s.voqInL p = k :: rest) (hp : s.pipeOn p = true) (hc : s.srcChks = []) (hd : (s.pkt k).discard = true) :
    exec (.voqEnqueue p) s = .next ((s.setVoqIn p rest).endPkt k) := by
  show execVoqEnqueue p s = _
  unfold execVoqEnqueue
  simp only [hq, if_neg (voqEnqueue_taken hp hc), hd]
  rfl

theorem voqEnqueue_failed (hq : s.voqInL p = k :: rest) (hp : s.pipeOn p = true) (hc : s.srcChks = []) (hd : (s.pkt k).discard = false)
    (hf : (s.pkt k).failed = true) : exec (.voqEnqueue p) s = .next (((s.setVoqIn p rest).endPkt k).cnt (R.PARSE_FCS_DROP p)) := by
  show execVoqEnqueue p s = _
  unfold execVoqEnqueue
  simp only [hq, if_neg (voqEnqueue_taken hp hc), hd, hf]
  rfl

end

/-- Without an enabled session nothing is mirrored (R349). -/
theorem mirrorIngress_of_none {s : State} (h : ∀ ses, ses < 16 → s.flag (R.XB_MIR_CFG ses) F.XB_MIR_CFG_EN = false) (k input : Nat) :
    s.mirrorIngress k input = s := by
  unfold State.mirrorIngress
  refine List.foldlRecOn (motive := (· = s)) _ _ rfl fun t ht ses hses => ?_
  subst ht
  simp [h ses (List.mem_range.mp hses)]

/-- A meter point that is not enabled leaves the state and drops nothing (R379). -/
theorem meterPoint_of_off {s : State} {p k : Nat} (h : s.fld (R.MTR_PIPE_EN (p / 8)) F.MTR_PIPE_EN_ING_EN = 0) :
    s.meterPoint p k false = (false, s) := by
  simp [State.meterPoint, h]

/-- Where spill is not enabled an entry joins its queue in the near part (R325), and nothing else changes but the wheel. -/
theorem enqueue_of_no_spill {s : State} {c : Nat} (h : s.flag (R.SINT_SPILL c) F.SINT_SPILL_EN = false) (p port k : Nat) (marker : Bool) :
    let t := s.enqueue p port c k marker
    t.voq (voqKey p port c) = s.voq (voqKey p port c) ++ [{ pkt := k, marker := marker }] ∧ t.pkts = s.pkts ∧ t.voqIn = s.voqIn ∧
      t.regs = s.regs ∧ t.mem = s.mem := by
  intro t
  obtain ⟨v, hv⟩ := wakes_eq s (s.setVoq (voqKey p port c) (s.voq (voqKey p port c) ++ [{ pkt := k, marker := marker }])) port
  have ht : t = _ := Eq.trans (by simp only [t, State.enqueue, h, Bool.false_and, Bool.false_eq_true, if_false]) hv
  rw [ht]
  exact ⟨voq_setVoq_same s _ _, rfl, rfl, rfl, rfl⟩

/-- The header window is written back to the buffers of a frame, and nothing else changes (R129). -/
theorem chainWrite_eq (s : State) (ptr skip : Nat) (bs : List Byte) : ∃ n, s.chainWrite ptr skip bs = { s with near := n } := by
  unfold State.chainWrite
  split
  · dsimp only
    split <;> exact ⟨_, rfl⟩
  · exact ⟨_, rfl⟩

/-- The state in which a frame taken from the pipeline meets its queue: its header window lies in its buffers. -/
def State.unqueued (s : State) (p k : Nat) (rest : List Nat) : State :=
  (s.setVoqIn p rest).chainWrite (s.pkt k).ptr (s.pkt k).skip (rdMap (s.pkt k).hdr 64 (min 256 (s.pkt k).len))

theorem chainWrite_unqueued (s : State) (p k : Nat) (rest : List Nat) : (s.setVoqIn p rest).chainWrite (s.pkt k).ptr (s.pkt k).skip
    (rdMap (s.pkt k).hdr 64 (min 256 (s.pkt k).len)) = s.unqueued p k rest := rfl

theorem unqueued_eq (s : State) (p k : Nat) (rest : List Nat) : ∃ n, s.unqueued p k rest = { s.setVoqIn p rest with near := n } :=
  chainWrite_eq _ _ _ _

theorem unqueued_keeps (s : State) (p k : Nat) (rest : List Nat) :
    (s.unqueued p k rest).voqs = s.voqs ∧ (s.unqueued p k rest).pkts = s.pkts ∧ (s.unqueued p k rest).voqIn = (s.setVoqIn p rest).voqIn ∧
      (s.unqueued p k rest).regs = s.regs ∧ (s.unqueued p k rest).mem = s.mem := by
  obtain ⟨n, h⟩ := unqueued_eq s p k rest
  rw [h]
  exact ⟨rfl, rfl, rfl, rfl, rfl⟩

theorem fld_unqueued (s : State) (p k : Nat) (rest : List Nat) (a : Nat) (f : Fld) : (s.unqueued p k rest).fld a f = s.fld a f := by
  obtain ⟨n, h⟩ := unqueued_eq s p k rest
  rw [h]; rfl

theorem flag_unqueued (s : State) (p k : Nat) (rest : List Nat) (a : Nat) (f : Fld) : (s.unqueued p k rest).flag a f = s.flag a f := by
  rw [State.flag, fld_unqueued]; rfl

theorem pkt_unqueued (s : State) (p k : Nat) (rest : List Nat) : (s.unqueued p k rest).pkt k = s.pkt k := by
  obtain ⟨n, h⟩ := unqueued_eq s p k rest
  rw [h]; rfl

/-- A frame as it lies in the queue of its port and class. -/
def Pkt.queued (q : Pkt) (p : Nat) : Pkt := { q with loc := .voq p, dest := cDest q.ctx, cls := cClass q.ctx }

section
variable {s : State} {p : PipeN} {k : Nat} {rest : List Nat}

/-- A unicast frame that nothing mirrors, meters or drops is enqueued (R98, R336). -/
theorem exec_voqEnqueue_unicast (hq : s.voqInL p = k :: rest) (hp : s.pipeOn p = true) (hc : s.srcChks = [])
    (hd : (s.pkt k).discard = false) (hf : (s.pkt k).failed = false) (hdrop : cDrop (s.pkt k).ctx = false) (hmc : cMc (s.pkt k).ctx = false)
    (hdest : cDest (s.pkt k).ctx < 64) (hmir : ∀ ses, ses < 16 → s.flag (R.XB_MIR_CFG ses) F.XB_MIR_CFG_EN = false)
    (hmtr : s.fld (R.MTR_PIPE_EN (p.val / 8)) F.MTR_PIPE_EN_ING_EN = 0) : exec (.voqEnqueue p) s =
      .next (((s.unqueued p k rest).setPkt k ((s.pkt k).queued p)).enqueue p (cDest (s.pkt k).ctx) (cClass (s.pkt k).ctx) k false) := by
  have mirrored := mirrorIngress_of_none (s := s.unqueued p k rest) (fun ses h => (flag_unqueued ..).trans (hmir ses h)) k p
  have metered := meterPoint_of_off (s := s.unqueued p k rest) (k := k) ((fld_unqueued ..).trans hmtr)
  have pkt := pkt_unqueued s p k rest
  have d72 : ¬ (¬ false = true ∧ 72 ≤ cDest (s.pkt k).ctx) := by omega
  have d69 : ¬ ((cDest (s.pkt k).ctx = 69 ∨ cDest (s.pkt k).ctx = 70) ∧ cPass (s.pkt k).ctx = 3) := by omega
  show execVoqEnqueue p s = _
  unfold execVoqEnqueue
  simp only [hq, if_neg (voqEnqueue_taken hp hc), hd, hf, chainWrite_unqueued, mirrored, pkt, hdrop, hmc, metered, if_neg d72, if_neg d69, Pkt.queued]
  rfl

theorem voqEnqueue_joins (hq : s.voqInL p = k :: rest) (hp : s.pipeOn p = true) (hc : s.srcChks = []) :
    let c := (s.pkt k).ctx
    (s.pkt k).discard = false → (s.pkt k).failed = false → cDrop c = false → cMc c = false → cDest c < 64 →
      (∀ ses, ses < 16 → s.flag (R.XB_MIR_CFG ses) F.XB_MIR_CFG_EN = false) → s.fld (R.MTR_PIPE_EN (p.val / 8)) F.MTR_PIPE_EN_ING_EN = 0 →
      s.flag (R.SINT_SPILL (cClass c)) F.SINT_SPILL_EN = false → Completes (.voqEnqueue p) s fun t =>
        t.voq (voqKey p (cDest c) (cClass c)) = s.voq (voqKey p (cDest c) (cClass c)) ++ [{ pkt := k }] ∧ (t.pkt k).loc = .voq p ∧
        (t.pkt k).dest = cDest c ∧ (t.pkt k).cls = cClass c ∧ t.voqInL p = rest ∧ t.regs = s.regs ∧ t.mem = s.mem := by
  intro c hd hf hdrop hmc hdest hmir hmtr hspill
  obtain ⟨voqs, pkts, voqIn, regs, mem⟩ := unqueued_keeps s p k rest
  obtain ⟨hvoq, hpkts, hvoqIn, hregs, hmem⟩ := enqueue_of_no_spill (s := (s.unqueued p k rest).setPkt k ((s.pkt k).queued p))
    (c := cClass c) ((flag_unqueued ..).trans hspill) p (cDest c) k false
  refine ⟨_, exec_voqEnqueue_unicast hq hp hc hd hf hdrop hmc hdest hmir hmtr, ?_⟩
  generalize State.enqueue _ _ _ _ _ _ = t at *
  have placed : t.pkt k = (s.pkt k).queued p := by rw [State.pkt, hpkts]; exact pkt_setPkt_same _ k _
  rw [placed]
  refine ⟨hvoq.trans ?_, rfl, rfl, rfl, ?_, hregs.trans regs, hmem.trans mem⟩
  · exact congrArg (· ++ _) (congrArg (smGet _ · _) voqs)
  · rw [State.voqInL, hvoqIn]
    exact (congrArg (smGet _ · _) voqIn).trans (voqInL_setVoqIn_same s p rest)

end

/-- Settles O25: the discard, the failed FCS, and the unicast frame that nothing mirrors, meters or drops, each by its branch of the enqueue
(R25, R27, R129, R325, R336). -/
theorem voqEnqueueQueuesOrDrops : Obligations.VoqEnqueueQueuesOrDrops :=
  fun _ _ _ _ hq hp hc => ⟨voqEnqueue_discarded hq hp hc, voqEnqueue_failed hq hp hc, voqEnqueue_joins hq hp hc⟩

end Sys2Proof.Machine
end

section
/-! PROOFS. LKUP (R18, R170, R225) and the events of threads (R118, R119, R489). -/

namespace Sys2Proof.Machine

/-! ### Words of a context -/

/-- The bytes of a value give back the value as far as they reach. -/
theorem valLE_bytesLE (n v : Nat) : valLE (bytesLE n v) = v % 256 ^ n := by
  induction n generalizing v with
  | zero => simp [bytesLE, valLE, Nat.mod_one]
  | succ n ih =>
    rw [bytesLE, valLE, ih, BitVec.toNat_ofNat]
    exact (Nat.mod_mul (a := 256)).symm.trans (by rw [← Nat.pow_succ'])

theorem ctxWord_setCtxWord (m : SMap Byte) (w v : Nat) : ctxWord (setCtxWord m w v) w = v % 256 ^ 8 := by
  show valLE (rdMap (wrMap m (8 * w) (bytesLE 8 v)) (8 * w) (bytesLE 8 v).length) = _
  rw [rdMap_wrMap, valLE_bytesLE]

/-- The status of a result slot as its word shows it (R101). -/
theorem status_slotWord (code p : Nat) (h : code < 16) : slotWord code (bits p 11 10) (bits p 19 12) 0 % 256 ^ 8 / 2 ^ 60 = code := by
  have hk : bits p 11 10 < 4 := Nat.mod_lt _ (by decide)
  have ht : bits p 19 12 < 256 := Nat.mod_lt _ (by decide)
  unfold slotWord
  omega

/-! ### The issue of an instruction -/

section
variable (s : State) (r n : Nat)

theorem thrs_cnt64 : (s.cnt64 r n).thrs = s.thrs := by rw [State.cnt64, State.setReg64, State.setReg_thrs, State.setReg_thrs]
theorem pkts_cnt64 : (s.cnt64 r n).pkts = s.pkts := by rw [State.cnt64, State.setReg64, State.setReg_pkts, State.setReg_pkts]
theorem lkps_cnt64 : (s.cnt64 r n).lkps = s.lkps := by rw [State.cnt64, State.setReg64, State.setReg_lkps, State.setReg_lkps]
theorem nextId_cnt64 : (s.cnt64 r n).nextId = s.nextId := by rw [State.cnt64, State.setReg64, State.setReg_nextId, State.setReg_nextId]
theorem thr_cnt64 (a : Nat) : (s.cnt64 r n).thr a = s.thr a := congrArg (smGet _ · a) (thrs_cnt64 s r n)

end

theorem thr_took (s : State) (a len : Nat) (ns : List Nat) (k : Kind) :
    ∃ pc st, (s.took a len ns k).thr a = { s.thr a with pc := pc, step := st } := by
  unfold State.took
  split
  · exact ⟨_, _, thr_setThr_same s a _⟩
  · unfold State.issued
    dsimp only
    split
    · exact ⟨_, _, (thr_cnt64 _ _ _ a).trans (thr_setThr_same s a _)⟩
    · exact ⟨_, _, thr_setThr_same s a _⟩

section
variable (s : State) (a len : Nat) (ns : List Nat) (k : Kind)

theorem pkt_took : ((s.took a len ns k).thr a).pkt = (s.thr a).pkt := by
  obtain ⟨pc, st, h⟩ := thr_took s a len ns k
  rw [h]

theorem slot_took : ((s.took a len ns k).thr a).slot = (s.thr a).slot := by
  obtain ⟨pc, st, h⟩ := thr_took s a len ns k
  rw [h]

theorem x_took (n : Nat) : (s.took a len ns k).x a n = s.x a n := by
  obtain ⟨pc, st, h⟩ := thr_took s a len ns k
  rw [State.x, h]
  rfl

end

/-- An issue leaves packets, lookups and numbers alone. -/
theorem took_keeps (s : State) (a len : Nat) (ns : List Nat) (k : Kind) : (s.took a len ns k).pkts = s.pkts ∧
    (s.took a len ns k).lkps = s.lkps ∧ (s.took a len ns k).nextId = s.nextId := by
  unfold State.took
  split
  · exact ⟨rfl, rfl, rfl⟩
  · unfold State.issued
    dsimp only
    split
    · exact ⟨pkts_cnt64 _ _ _, lkps_cnt64 _ _ _, nextId_cnt64 _ _ _⟩
    · exact ⟨rfl, rfl, rfl⟩

/-- An instruction that the thread can issue has its effect. -/
theorem instr_of_canIssue {s : State} {a : Nat} {ns : List Nat} (h : s.canIssue a ns = true) (len : Nat) (k : Kind) (f : State → State) :
    s.instr a len ns k f = .next (f (s.took a len ns k)) :=
  if_pos (by rw [h, Bool.or_true])

theorem thr_cnt (s : State) (r a : Nat) : (s.cnt r).thr a = s.thr a := by
  unfold State.cnt; split <;> rfl

theorem x_cnt (s : State) (r a n : Nat) : (s.cnt r).x a n = s.x a n := congrArg (Thr.get · n) (thr_cnt s r a)

theorem lkps_cnt (s : State) (r : Nat) : (s.cnt r).lkps = s.lkps := by
  unfold State.cnt; split <;> rfl

theorem slot_setX (s : State) (a n : Nat) (v : Word) : ((s.setX a n v).thr a).slot = (s.thr a).slot :=
  by rw [State.setX, thr_setThr_same]; rfl

/-! ### LKUP -/

/-- The slot that LKUP names in its parameters. -/
def lkupSlot (p : Nat) : Nat := bits p 9 7

/-- The answer of LKUP with the parameters `p`: its slot shows a status, and rd receives it (R170, R225). -/
def State.lkupAnswer (s : State) (a rd p code : Nat) : State :=
  (s.setThr a { s.thr a with slot := setCtxWord (s.thr a).slot (8 + lkupSlot p) (slotWord code (bits p 11 10) (bits p 19 12) 0) }).setX a rd
    (BitVec.ofNat 64 code)

theorem x_lkupAnswer (s : State) (a rd p code : Nat) : (s.lkupAnswer a rd p code).x a rd = BitVec.ofNat 64 code := x_setX_same _ _ _ _

theorem status_lkupAnswer (s : State) (a rd p code : Nat) (h : code < 16) :
    ctxWord ((s.lkupAnswer a rd p code).thr a).slot (8 + lkupSlot p) / 2 ^ 60 = code := by
  rw [State.lkupAnswer, slot_setX, thr_setThr_same, ctxWord_setCtxWord, status_slotWord code p h]

/-- Whether a slot of a thread waits for its result. -/
def State.lkupPending (s : State) (a p : Nat) : Prop := ctxWord (s.thr a).slot (8 + lkupSlot p) / 2 ^ 60 = 1

/-- Whether LKUP has no stage to deliver its result to: the packet has four such lookups, or the stage is out of range (R18). -/
def State.lkupFar (s : State) (a k p : Nat) : Prop :=
  4 ≤ (s.pkt k).fwd ∨ bits p 6 3 < engOf a % 16 + 2 ∨ (if engOf a % 16 < 12 then 11 else 15) < bits p 6 3

/-- Whether the key of LKUP is bad. -/
def lkupBad (rs1 p : Nat) : Prop := bits p 23 20 = 0 ∨ bits p 11 10 = 3 ∨ 32 < rs1 + bits p 23 20

/-- The lookup that LKUP issues. -/
def State.lkupOf (s : State) (a k rs1 p : Nat) : Lkp :=
  { pkt := k, slot := lkupSlot p, stage := bits p 6 3, kind := bits p 11 10, table := bits p 19 12, key := s.keyOfRegs a rs1 (bits p 23 20),
    half := pipeOf a / 8, view := cView (s.thr a).slot, fwd := true }

/-- A packet has one more lookup that goes on to a later stage. -/
def State.delivers (s : State) (k : Nat) : State := s.setPkt k { s.pkt k with fwd := (s.pkt k).fwd + 1 }

section
variable (s : State) (l : Lkp) (k a : Nat)

theorem thr_delivers : ((s.issueLkp l).delivers k).thr a = s.thr a := rfl
theorem x_delivers (n : Nat) : ((s.issueLkp l).delivers k).x a n = s.x a n := rfl
theorem nextId_delivers : ((s.issueLkp l).delivers k).nextId = s.nextId + 1 := rfl
theorem lkps_delivers : ((s.issueLkp l).delivers k).lkps = smPut s.lkps s.nextId l := rfl
theorem fwd_delivers : (((s.issueLkp l).delivers k).pkt k).fwd = (s.pkt k).fwd + 1 := by rw [State.delivers, pkt_setPkt_same]; rfl

end

/-- An answer of LKUP leaves packets, lookups and numbers alone. -/
theorem lkupAnswer_keeps (s : State) (a rd p code : Nat) : (s.lkupAnswer a rd p code).pkts = s.pkts ∧ (s.lkupAnswer a rd p code).lkps = s.lkps ∧
    (s.lkupAnswer a rd p code).nextId = s.nextId := ⟨rfl, rfl, rfl⟩

section
variable {s : State} {a k rd rs1 p : Nat}

theorem lkup_of_pending (h : s.lkupPending a p) : s.lkup a k rd rs1 p = (s.setX a rd 4).cnt (R.EM_SLOT_BUSY (pipeOf a / 8)) := if_pos h

theorem lkup_of_far (h : ¬ s.lkupPending a p) (hf : s.lkupFar a k p) :
    s.lkup a k rd rs1 p = (s.lkupAnswer a rd p 4).cnt (R.PARSE_LKP_REFUSE (pipeOf a)) :=
  (if_neg h).trans (if_pos hf)

theorem lkup_of_bad (h : ¬ s.lkupPending a p) (hf : ¬ s.lkupFar a k p) (hb : lkupBad rs1 p) : s.lkup a k rd rs1 p = s.lkupAnswer a rd p 5 :=
  (if_neg h).trans ((if_neg hf).trans (if_pos hb))

theorem lkup_of_good (h : ¬ s.lkupPending a p) (hf : ¬ s.lkupFar a k p) (hb : ¬ lkupBad rs1 p) : s.lkup a k rd rs1 p =
    ((s.lkupAnswer a rd p 1).issueLkp (s.lkupOf a k rs1 p)).delivers k :=
  (if_neg h).trans ((if_neg hf).trans (if_neg hb))

end

/-- The registers that LKUP names. -/
def lkupRegs (rd rs1 rs2 : Reg) (p : Nat) : List Nat :=
  [rd.val, rs2.val] ++ (List.range (min (bits p 23 20) (32 - rs1))).map fun i => rs1.val + i

/-- The thread after the issue of LKUP. -/
def State.lkupTook (s : State) (a : Nat) (rd rs1 rs2 : Reg) : State :=
  s.took a 2 (lkupRegs rd rs1 rs2 (s.x a rs2).toNat)
    { writes := [rd.val], mem := true, also := (List.range (min 15 (32 - rs1))).map (fun i => rs1.val + i) }

section
variable {s : State} {a : EngThr} {rd rs1 rs2 : Reg} {k : Nat}

/-- LKUP on a thread with a packet issues and acts (R170). -/
theorem exec_lkup (hi : s.canIssue a (lkupRegs rd rs1 rs2 (s.x a rs2).toNat) = true) (hk : (s.thr a).pkt = some k) :
    exec (.lkup ⟨a.val, Nat.lt_trans a.isLt (by decide)⟩ rd rs1 rs2) s = .next ((s.lkupTook a rd rs1 rs2).lkup a k rd rs1 (s.x a rs2).toNat) := by
  have he : ¬ ¬ isEng a.val = true := not_not.mpr (decide_eq_true a.isLt)
  show execLkup _ rd rs1 rs2 s = _
  unfold execLkup
  refine (instr_of_canIssue hi _ _ _).trans (congrArg _ ((if_neg he).trans ?_))
  simp only [pkt_took, x_took, hk]
  rfl

end

/-! ### Events of threads -/

/-- A sleeping context resumes. -/
def State.resume (s : State) (b : Nat) : State := if (s.thr b).wait = .sleep then s.setThr b { s.thr b with wait := .run } else s

theorem resume_same (s : State) (b : Nat) : ((s.resume b).thr b).wait ≠ .sleep := by
  unfold State.resume
  split
  · rw [thr_setThr_same]; exact nofun
  · assumption

theorem resume_other (s : State) {b c : Nat} (h : c ≠ b) : (s.resume b).thr c = s.thr c := by
  unfold State.resume
  split
  · exact thr_setThr_other s b c _ h
  · rfl

/-- A resume never puts a context to sleep. -/
theorem resume_awake (s : State) (b : Nat) {c : Nat} (h : (s.thr c).wait ≠ .sleep) : ((s.resume b).thr c).wait ≠ .sleep := by
  by_cases hc : c = b
  · exact hc ▸ resume_same s b
  · rwa [resume_other s hc]

section
variable (l : List Nat) (s : State)

theorem foldl_resume_awake {c : Nat} (h : (s.thr c).wait ≠ .sleep) : ((l.foldl State.resume s).thr c).wait ≠ .sleep := by
  induction l generalizing s with
  | nil => exact h
  | cons b l ih => exact ih _ (resume_awake s b h)

theorem foldl_resume_mem {c : Nat} (h : c ∈ l) : ((l.foldl State.resume s).thr c).wait ≠ .sleep := by
  induction l generalizing s with
  | nil => exact absurd h List.not_mem_nil
  | cons b l ih =>
    rcases List.mem_cons.mp h with rfl | h
    · exact foldl_resume_awake l _ (resume_same s c)
    · exact ih _ h

theorem foldl_resume_other {c : Nat} (h : c ∉ l) : (l.foldl State.resume s).thr c = s.thr c := by
  induction l generalizing s with
  | nil => rfl
  | cons b l ih => rw [List.foldl_cons, ih _ fun hm => h (List.mem_cons_of_mem _ hm), resume_other s (List.ne_of_not_mem_cons h)]

theorem foldl_resume_keeps : (l.foldl State.resume s).coreWakes = s.coreWakes ∧ (l.foldl State.resume s).regs = s.regs ∧
    (l.foldl State.resume s).mem = s.mem := by
  refine ⟨foldl_keeps (fun t b => ?_) l s, foldl_keeps (fun t b => ?_) l s, foldl_keeps (fun t b => ?_) l s⟩
  all_goals unfold State.resume; split <;> rfl

end

/-- The wake signalled to a core is seen. -/
def State.seenWake (s : State) (core : Nat) : State := { s with coreWakes := s.coreWakes.filter (· ≠ core) }

/-- A wake that is pending resumes the contexts of its core one after the other (R489). -/
theorem exec_coreWake {s : State} {core : Fin 5} (h : s.wakePending core = true) :
    exec (.coreWake core) s = .next ((coreAgents core).foldl State.resume (s.seenWake core)) := by
  show execCoreWake core s = _
  unfold execCoreWake
  rw [if_pos h]
  rfl

/-- A write of a thread changes nothing but threads. -/
theorem setThr_with_thrs (s : State) (a : Nat) (t : Thr) (m : SMap Thr) : ({ s.setThr a t with thrs := m } : State) = { s with thrs := m } := rfl

section
variable {s : State} {a : Agent}

theorem wfeWake_returns {mask : BitVec 16} {rd len : Nat} (hw : (s.thr a).wait = .wfe mask rd len)
    (he : (s.thr a).evPend &&& (mask ||| 0xC000) ≠ 0) : Completes (.wfeWake a) s fun t =>
      (t.thr a).wait = .run ∧ smGet (fun _ => (0 : Word)) (t.thr a).rf rd = ((s.thr a).evPend &&& (mask ||| 0xC000)).zeroExtend 64 ∧
      (t.thr a).evPend = (s.thr a).evPend &&& ~~~((s.thr a).evPend &&& (mask ||| 0xC000)) ∧ t.pc a = s.pc a ∧ (∀ b, b ≠ a.val → t.thr b = s.thr b) ∧
      ({ t with thrs := s.thrs } : State) = s := by
  refine ⟨s.setThr a { s.thr a with
    wait := .run, evPend := (s.thr a).evPend &&& ~~~wfeEvents (s.thr a).evPend mask
    rf := smSet (fun _ => (0 : Word)) (s.thr a).rf rd ((wfeEvents (s.thr a).evPend mask).zeroExtend 64) }, ?_, ?_⟩
  · show execWfeWake a s = _
    unfold execWfeWake
    simp only [hw]
    exact if_neg he
  · beta_reduce
    rw [State.pc, thr_setThr_same]
    exact ⟨rfl, smGet_smSet_same _ _ _ _, rfl, rfl, fun b hb => thr_setThr_other s a b _ hb, rfl⟩

theorem threadTimerExpire_raises (h : (s.thr a).tmr ≠ none) : Completes (.threadTimerExpire a) s fun t =>
    t.thr a = { s.thr a with tmr := none, evPend := (s.thr a).evPend ||| 8 } ∧ (∀ b, b ≠ a.val → t.thr b = s.thr b) ∧
      ({ t with thrs := s.thrs } : State) = s := by
  obtain ⟨n, hn⟩ := Option.ne_none_iff_exists'.mp h
  refine ⟨(s.setThr a { s.thr a with tmr := none }).event a 3, ?_, ?_, fun b hb => ?_, (setThr_with_thrs _ a _ _).trans (setThr_with_thrs s a _ _)⟩
  · show execThreadTimerExpire a s = _
    unfold execThreadTimerExpire
    simp only [hn]
  · rw [State.event, thr_setThr_same, thr_setThr_same]
    rfl
  · rw [State.event, thr_setThr_other _ _ _ _ hb, thr_setThr_other _ _ _ _ hb]

theorem coreWake_resumes {core : Fin 5} (h : s.wakePending core = true) : Completes (.coreWake core) s fun t =>
    (∀ b, b ∈ coreAgents core → (t.thr b).wait ≠ .sleep) ∧ (∀ b, b ∉ coreAgents core → t.thr b = s.thr b) ∧ core.val ∉ t.coreWakes ∧
      t.regs = s.regs ∧ t.mem = s.mem := by
  obtain ⟨wakes, regs, mem⟩ := foldl_resume_keeps (coreAgents core) (s.seenWake core)
  refine ⟨(coreAgents core).foldl State.resume (s.seenWake core), exec_coreWake h, fun b hb => foldl_resume_mem (coreAgents core) (s.seenWake core) hb,
    fun b hb => (foldl_resume_other (coreAgents core) (s.seenWake core) hb :), ?_, regs, mem⟩
  rw [wakes]
  exact fun hm => absurd (List.mem_filter.mp hm).2 (by simp)

end

/-! ### The statement -/

section
variable {s : State} {a : EngThr} {rd rs1 rs2 : Reg} {k : Nat}

theorem lkup_acts (hi : s.canIssue a (lkupRegs rd rs1 rs2 (s.x a rs2).toNat) = true) (hk : (s.thr a).pkt = some k) :
    let p := (s.x a rs2).toNat
    let c : Instr := .lkup ⟨a.val, Nat.lt_trans a.isLt (by decide)⟩ rd rs1 rs2
    let word (t : State) : Nat := ctxWord (t.thr a).slot (8 + lkupSlot p)
    (s.lkupPending a p → Completes c s fun t => t.x a rd = 4 ∧ (t.thr a).slot = (s.thr a).slot ∧ t.lkps = s.lkps) ∧
    (¬ s.lkupPending a p → s.lkupFar a k p → Completes c s fun t => t.x a rd = 4 ∧ word t / 2 ^ 60 = 4 ∧ t.lkps = s.lkps) ∧
    (¬ s.lkupPending a p → ¬ s.lkupFar a k p → lkupBad rs1 p → Completes c s fun t => t.x a rd = 5 ∧ word t / 2 ^ 60 = 5 ∧ t.lkps = s.lkps) ∧
    (¬ s.lkupPending a p → ¬ s.lkupFar a k p → ¬ lkupBad rs1 p → Completes c s fun t => t.x a rd = 1 ∧ word t / 2 ^ 60 = 1 ∧
      t.nextId = s.nextId + 1 ∧
      (∃ key, smFind t.lkps s.nextId = some { pkt := k, slot := lkupSlot p, stage := bits p 6 3, kind := bits p 11 10, table := bits p 19 12,
                                              key := key, half := pipeOf a / 8, view := cView (s.thr a).slot, fwd := true }) ∧
      (t.pkt k).fwd = (s.pkt k).fwd + 1) := by
  intro p c word
  obtain ⟨pkts, lkps, nextId⟩ := took_keeps s a 2 (lkupRegs rd rs1 rs2 p)
    { writes := [rd.val], mem := true, also := (List.range (min 15 (32 - rs1))).map (fun i => rs1.val + i) }
  have slot := slot_took s a 2 (lkupRegs rd rs1 rs2 p)
    { writes := [rd.val], mem := true, also := (List.range (min 15 (32 - rs1))).map (fun i => rs1.val + i) }
  have acts := exec_lkup hi hk
  unfold State.lkupTook at acts
  generalize State.took _ _ _ _ _ = u at acts pkts lkps nextId slot
  have pkt : u.pkt k = s.pkt k := congrArg (smGet _ · k) pkts
  have pend : s.lkupPending a p ↔ u.lkupPending a p := by rw [State.lkupPending, State.lkupPending, slot]
  have far : s.lkupFar a k p ↔ u.lkupFar a k p := by rw [State.lkupFar, State.lkupFar, pkt]
  rw [pend, far]
  refine ⟨fun hp => ⟨_, acts.trans (congrArg _ (lkup_of_pending hp)), ?_, ?_, ?_⟩,
    fun hp hf => ⟨_, acts.trans (congrArg _ (lkup_of_far hp hf)), ?_, ?_, ?_⟩,
    fun hp hf hb => ⟨_, acts.trans (congrArg _ (lkup_of_bad hp hf hb)), x_lkupAnswer _ _ _ _ _, status_lkupAnswer _ _ _ _ _ (by decide), lkps⟩,
    fun hp hf hb => ⟨_, acts.trans (congrArg _ (lkup_of_good hp hf hb)), ?_, ?_, ?_, ⟨u.keyOfRegs a rs1 (bits p 23 20), ?_⟩, ?_⟩⟩
  · rw [x_cnt, x_setX_same]
  · rw [thr_cnt, slot_setX, slot]
  · rw [lkps_cnt]; exact lkps
  · rw [x_cnt, x_lkupAnswer]; rfl
  · unfold word; rw [thr_cnt, status_lkupAnswer _ _ _ _ _ (by decide)]
  · rw [lkps_cnt]; exact lkps
  all_goals obtain ⟨apkts, alkps, anext⟩ := lkupAnswer_keeps u a rd p 1
  · rw [x_delivers, x_lkupAnswer]; rfl
  · unfold word; rw [thr_delivers, status_lkupAnswer _ _ _ _ _ (by decide)]
  · rw [nextId_delivers, anext, nextId]
  · rw [lkps_delivers, anext, nextId, smFind_smPut_same, State.lkupOf, slot]
  · rw [fwd_delivers, State.pkt, apkts, ← pkt]; rfl

end

/-- Settles O20: LKUP by its four cases on the thread that its issue leaves, and each event of a thread by its condition (R18, R118, R119, R170,
R225, R489; assumption log 138, 139). -/
theorem lookupInstructionsAndThreadEventsAct : Obligations.LookupInstructionsAndThreadEventsAct :=
  ⟨fun _ _ _ _ _ _ hi hk => lkup_acts hi hk,
    fun _ _ => ⟨fun _ _ _ => wfeWake_returns, threadTimerExpire_raises, fun _ => coreWake_resumes⟩⟩

end Sys2Proof.Machine
end

section
/-! PROOFS. What a frame at a MAC reads and writes: counters, the parser's configuration, and the buffers it is stored in. -/

namespace Sys2Proof.Machine

/-! ### Counters -/

theorem reg_cntN_same (s : State) (a n : Nat) : ((s.cntN a n).reg a).toNat = min 0xFFFFFFFF ((s.reg a).toNat + n) := by
  rw [State.cntN, reg_setReg_same, BitVec.toNat_ofNat]
  exact Nat.mod_eq_of_lt (by omega)

/-- A 64-bit counter counts. -/
theorem reg64_cnt64_same (s : State) (a n : Nat) : (s.cnt64 a n).reg64 a = (s.reg64 a + n) % 2 ^ 64 := by
  have low : a ≠ a + 4 := by omega
  have bound := Nat.mod_lt (s.reg64 a + n) (Nat.two_pow_pos 64)
  rw [State.cnt64, State.setReg64]
  generalize (s.reg64 a + n) % 2 ^ 64 = v at bound
  rw [State.reg64, reg_setReg_other _ _ _ _ low, reg_setReg_same, reg_setReg_same, BitVec.toNat_ofNat, BitVec.toNat_ofNat]
  omega

section
variable {s t : State} {l : List Nat} {a n : Nat}

theorem State.regsKept.cntN (h : s.regsKept t l) (ha : a ∈ l) : s.regsKept (t.cntN a n) l := h.setReg ha

theorem State.regsKept.cnt64 (h : s.regsKept t l) (ha : a ∈ l) (hb : a + 4 ∈ l) : s.regsKept (t.cnt64 a n) l := (h.setReg ha).setReg hb

theorem State.regsKept.flag {f : Fld} (h : s.regsKept t l) (ha : a ∉ l) : t.flag a f = s.flag a f := by rw [State.flag, h.fld ha]; rfl

theorem reg64_kept (h : s.regsKept t l) (ha : a ∉ l) (hb : a + 4 ∉ l) : t.reg64 a = s.reg64 a := by
  rw [State.reg64, h a ha, h (a + 4) hb]; rfl

end

/-! ### What the parser's registers say of a frame -/

/-- The registers from the parsers' pages on are as before. -/
def State.highKept (s t : State) : Prop := ∀ r, 0x100000 ≤ r → t.reg r = s.reg r

section
variable {s t : State} (h : s.highKept t) (x : Nat)
include h

theorem State.highKept.fld {a : Nat} (f : Fld) (ha : 0x100000 ≤ a) : t.fld a f = s.fld a f := congrArg (getF · f) (h a ha)

theorem walkCfg_congr : t.walkCfg x = s.walkCfg x := by
  have cfg : 0x100000 ≤ R.PARSE_CFG x := by unfold R.PARSE_CFG; omega
  have numA : 0x100000 ≤ R.PARSE_NUM_A x := by unfold R.PARSE_NUM_A; omega
  have numB : 0x100000 ≤ R.PARSE_NUM_B x := by unfold R.PARSE_NUM_B; omega
  simp only [State.walkCfg, State.flag, h.fld _ cfg, h.fld _ numA, h.fld _ numB]
  rfl

theorem classOf_congr (k : Nat) (w : Walk) : t.classOf x k w = s.classOf x k w := by
  have cfg : 0x100000 ≤ R.PARSE_PORT_CFG x k := by unfold R.PARSE_PORT_CFG; omega
  have pcp : t.reg (R.PARSE_PCP_MAP x) = s.reg (R.PARSE_PCP_MAP x) := h _ (by unfold R.PARSE_PCP_MAP; omega)
  have dscp : ∀ i, t.reg (R.PARSE_DSCP_MAP x i) = s.reg (R.PARSE_DSCP_MAP x i) := fun i => h _ (by unfold R.PARSE_DSCP_MAP; omega)
  simp only [State.classOf, h.fld _ cfg, pcp, dscp]

theorem macClass_congr (b : List Byte) : t.macClass x b = s.macClass x b := by
  simp only [State.macClass, walkCfg_congr h, classOf_congr h]

theorem unkPool_congr : t.unkPool x = s.unkPool x := by
  rw [State.unkPool, h _ (by unfold R.SINT_UNK; omega)]; rfl

theorem tags_congr (w : Win) (n o : Nat) : State.estimate.tags t x w o n = State.estimate.tags s x w o n := by
  induction n generalizing o with
  | zero => rfl
  | succ n ih => simp only [State.estimate.tags, walkCfg_congr h, ih]

theorem estimate_congr (hm : t.fld (R.PORT_CTL x) F.PORT_CTL_MAXFRM = s.fld (R.PORT_CTL x) F.PORT_CTL_MAXFRM) (b : List Byte) :
    t.estimate x b = s.estimate x b := by
  simp only [State.estimate, tags_congr h, hm]

end

/-! ### Buffers -/

/-- The registers below Sinter's pages are as before. -/
def State.lowKept (s t : State) : Prop := ∀ r, r < 0x700000 → t.reg r = s.reg r

namespace State.lowKept
variable {s t u : State} {a n : Nat}

theorem refl : s.lowKept s := fun _ _ => rfl

theorem trans (h : s.lowKept t) (h' : t.lowKept u) : s.lowKept u := fun r hr => (h' r hr).trans (h r hr)

theorem of_regs (h : t.regs = s.regs) : s.lowKept t := fun r _ => congrArg (smGet regDefault · r) h

theorem setReg {v : W32} (h : s.lowKept t) (ha : 0x700000 ≤ a) : s.lowKept (t.setReg a v) := fun r hr =>
  (reg_setReg_other t a r v (by omega)).trans (h r hr)

theorem cnt (h : s.lowKept t) (ha : 0x700000 ≤ a) : s.lowKept (t.cnt a) := fun r hr => (reg_cnt_other t a r (by omega)).trans (h r hr)

theorem cnt64 (h : s.lowKept t) (ha : 0x700000 ≤ a) : s.lowKept (t.cnt64 a n) := (h.setReg ha).setReg (by omega)

end State.lowKept

theorem regs_admission {s t : State} {a b : Nat} (h : s.admission a b = some t) : t.regs = s.regs := by
  unfold State.admission at h
  dsimp only at h
  split at h
  · exact Option.some.inj h ▸ rfl
  · split at h
    · exact Option.some.inj h ▸ rfl
    · split at h
      · exact Option.some.inj h ▸ rfl
      · exact absurd h nofun

theorem regs_charge (s : State) (a b : Nat) : (s.charge a b).regs = s.regs := by
  unfold State.charge
  dsimp only
  split <;> rfl

theorem regs_audSkipIf (s : State) (p : Nat) : (s.audSkipIf p).regs = s.regs := by
  unfold State.audSkipIf
  split <;> rfl

theorem regs_setDesc (s : State) (p : Nat) (d : Word) : (s.setDesc p d).regs = s.regs := rfl

theorem regs_bufFill (s : State) (p : Nat) (bs : List Byte) : (s.bufFill p bs).regs = s.regs := rfl

theorem lowKept_popBuf {s t : State} {k p : Nat} (h : s.popBuf k = some (p, t)) : s.lowKept t := by
  have popped : ∀ q, s.lowKept (((s.setPool k q).cnt64 (R.SINT_ALLOC k) 1).audSkipIf p) := fun q =>
    State.lowKept.trans (t := (s.setPool k q).cnt64 (R.SINT_ALLOC k) 1) (.cnt64 (.of_regs rfl) (by unfold R.SINT_ALLOC; omega))
      (.of_regs (regs_audSkipIf _ _))
  unfold State.popBuf at h
  dsimp only at h
  split at h
  · obtain ⟨rfl, rfl⟩ := Prod.mk.inj (Option.some.inj h)
    exact popped _
  · split at h
    · obtain ⟨rfl, rfl⟩ := Prod.mk.inj (Option.some.inj h)
      exact popped _
    · exact absurd h nofun

theorem lowKept_alloc (s : State) (k acct owner : Nat) (test : Bool) : s.lowKept (s.alloc k acct owner test).2 := by
  unfold State.alloc
  dsimp only
  split
  · exact .refl
  · split
    · exact .refl
    · next s1 h =>
      have charged : s1.regs = s.regs := by
        split at h
        · exact regs_admission h
        · exact Option.some.inj h ▸ regs_charge _ _ _
      split
      · exact .refl
      · split
        · next h' => exact .trans (.of_regs charged) (.trans (lowKept_popBuf h') (.of_regs (regs_setDesc _ _ _)))
        · exact .refl

theorem lowKept_storeFrame (s : State) (k acct owner maxfrm : Nat) (test : Bool) (bs : List Byte) :
    s.lowKept (s.storeFrame k acct owner maxfrm test bs).2 := by
  have first := lowKept_alloc s k acct owner test
  unfold State.storeFrame
  split
  · next h => rw [h] at first; exact first.cnt (by decide)
  · next h => rw [h] at first; exact first.cnt (by unfold R.A_DROP; omega)
  · next p s1 h =>
    rw [h] at first
    have filled : s.lowKept (s1.bufFill p (bs.take (poolSize (ptrPool p)))) := first.trans (.of_regs (regs_bufFill _ _ _))
    dsimp only
    split
    · exact filled
    · have second := filled.trans (lowKept_alloc _ (poolFor (maxfrm - poolSize (ptrPool p))) acct owner test)
      split
      · next p2 s3 h' =>
        rw [h'] at second
        exact .trans (.cnt (a := R.SINT_CHAIN) (second.trans (.of_regs (regs_setDesc s3 p _))) (by decide)) (.of_regs (regs_bufFill _ _ _))
      · next s3 _ h' =>
        rw [h'] at second
        exact second.cnt (by decide)

end Sys2Proof.Machine
end

section
/-! PROOFS. Frames at a MAC (R25, R48, R52, R53, R61, R310): counted, consumed or stored. -/

namespace Sys2Proof.Machine

/-! ### The FEC (R43, R61) -/

/-- The registers that the FEC of a port writes: its counters, and the causes of its page. -/
def fecRegs (x : Nat) : List Nat := [R.FEC_CORR x, R.FEC_UNCORR x, 0x80000 + x * 0x1000 + 0x10]

theorem mem_fecRegs {x r : Nat} (h : r ∈ fecRegs x) : r = 0x80134 + x * 0x1000 ∨ r = 0x80138 + x * 0x1000 ∨ r = 0x80010 + x * 0x1000 := by
  simp only [fecRegs, R.FEC_CORR, R.FEC_UNCORR, List.mem_cons, List.not_mem_nil, or_false] at h
  omega

section
variable (s : State) (x corr unc : Nat)

theorem regsOnly_fecWords : s.regsOnly (s.fecWords x corr unc) := by
  unfold State.fecWords
  split
  · exact .refl
  · dsimp only
    split
    · exact State.regsOnly.refl.setReg.setReg
    · exact State.regsOnly.refl.setReg.setReg.raise

theorem regsKept_fecWords : s.regsKept (s.fecWords x corr unc) (fecRegs x) := by
  have counted : s.regsKept ((s.cntN (R.FEC_CORR x) corr).cntN (R.FEC_UNCORR x) unc) (fecRegs x) :=
    (State.regsKept.refl.cntN (by simp [fecRegs])).cntN (by simp [fecRegs])
  unfold State.fecWords
  split
  · exact .refl
  · dsimp only
    split
    · exact counted
    · exact counted.raise (by simp [fecRegs])

end

/-- What the FEC of a port counts changes nothing of whether its MAC takes frames. -/
theorem takesFrames_of_fecRegs {s t : State} {x : Nat} (hx : x < 64) (ht : s.regsOnly t) (hk : s.regsKept t (fecRegs x)) (h : s.takesFrames x) :
    t.takesFrames x := by
  have off : ∀ r, r < 0x80000 ∨ r = R.PORT_CTL x ∨ r = R.PORT_LINK x → r ∉ fecRegs x := fun r hr hm => by
    have := mem_fecRegs hm
    unfold R.PORT_CTL R.PORT_LINK at hr
    omega
  have mode : t.mode = s.mode := hk.mode (off _ (.inl (by decide)))
  have ctl : ∀ f, t.fld (R.PORT_CTL x) f = s.fld (R.PORT_CTL x) f := fun f => hk.fld (off _ (.inr (.inl rfl)))
  have link : t.linkUp x = s.linkUp x := hk.flag (off _ (.inr (.inr rfl)))
  have pwr : t.reg R.DEV_PWR_STAT = s.reg R.DEV_PWR_STAT := hk _ (off _ (.inl (by decide)))
  have lo : t.reg R.DEV_MAINT_PORTS_LO = s.reg R.DEV_MAINT_PORTS_LO := hk _ (off _ (.inl (by decide)))
  have hi : t.reg R.DEV_MAINT_PORTS_HI = s.reg R.DEV_MAINT_PORTS_HI := hk _ (off _ (.inl (by decide)))
  have hold : t.debugHold (x / 4) = s.debugHold (x / 4) := by obtain ⟨r, rfl⟩ := ht; rfl
  have pipe : t.pipeOn (x / 4) = s.pipeOn (x / 4) := by simp only [State.pipeOn, State.mainClk, State.domOn, State.mainOn, mode, pwr]
  have sleep : t.sleeping = s.sleeping := by simp only [State.sleeping, mode, ht.going]
  have maint : t.maintPort x = s.maintPort x := by simp only [State.maintPort, mode, ht.going, lo, hi]
  unfold State.takesFrames State.flag at *
  rw [ctl, ctl, link, pipe, sleep, maint, hold]
  exact h

/-! ### Reception -/

/-- Whether the FCS of a frame is right. -/
def fcsOk (b : List Byte) : Bool := decide (4 ≤ b.length) && (fcs (b.take (b.length - 4)) == b.drop (b.length - 4))

/-- Whether a frame is good and of allowed length (R48). -/
abbrev State.goodFrame (s : State) (x : Nat) (b : List Byte) : Prop :=
  64 ≤ b.length ∧ b.length ≤ s.fld (R.PORT_CTL x) F.PORT_CTL_MAXFRM ∧ b.drop (b.length - 4) = fcs (b.take (b.length - 4))

/-- Whether a frame fails at the MAC. -/
def State.macBad (s : State) (x : Nat) (b : List Byte) : Bool :=
  !fcsOk b || decide (s.fld (R.PORT_CTL x) F.PORT_CTL_MAXFRM < b.length) || decide (b.length < 64)

/-- A frame and its bytes are counted (R61). -/
def State.macCount (s : State) (x n : Nat) : State := (s.cnt64 (R.RX_FRM x) 1).cnt64 (R.RX_BYTE x) n

/-- The state in which a frame has been counted with its faults. -/
def State.macSeen (s : State) (x : Nat) (b : List Byte) : State :=
  let s1 := s.macCount x b.length
  let s2 := if fcsOk b then s1 else s1.cnt (R.RX_FCS x)
  if s.fld (R.PORT_CTL x) F.PORT_CTL_MAXFRM < b.length then s2.cnt (R.RX_OVERSIZE x)
  else if b.length < 64 then s2.cnt (R.RX_RUNT x) else s2

/-- The pool a frame is stored in (R310). -/
def State.macPool (s : State) (x : Nat) (b : List Byte) : Nat :=
  match s.estimate x b with
  | some e => poolFor e
  | none => s.unkPool x

/-- The record of a frame as its MAC keeps it. -/
def State.macPkt (s : State) (x : Nat) (b : List Byte) (ptr : Nat) (cut : Bool) : Pkt :=
  let kept := b.take (s.fld (R.PORT_CTL x) F.PORT_CTL_MAXFRM)
  let rx : Int := s.time.d + adj16 (s.fld (R.PORT_TS_ADJ x) F.PORT_TS_ADJ_RX_ADJ)
  { len := kept.length, ptr := ptr, owner := 0xA00 + x, acct := x * 8 + s.macClass x kept, inPort := x, rx := rx.toNat,
    fast := s.pMode x == 10, bad := s.macBad x b || cut }

/-- A frame that is no control frame is stored and waits for the parser (R310, R311). -/
def State.macStow (s : State) (x : Nat) (b : List Byte) : State :=
  let maxf := s.fld (R.PORT_CTL x) F.PORT_CTL_MAXFRM
  let kept := b.take maxf
  match (s.macSeen x b).storeFrame (s.macPool x kept) (x * 8 + s.macClass x kept) (0xA00 + x) maxf true kept with
  | (.stored ptr, s4) => s4.toParser (x / 4) (s.macPkt x b ptr false)
  | (.cut ptr, s4) => s4.toParser (x / 4) { s.macPkt x b ptr true with len := poolSize (ptrPool ptr) }
  | (.noRoom, s4) | (.refused, s4) => s4

section
variable {s : State} {x : Nat} {b : List Byte}

/-- A frame at a MAC that takes frames (R13, R48, R52). -/
theorem macFrame_of_takes (h : s.takesFrames x) (hb : b ≠ []) : s.macFrame x b =
    if valBE ((b.drop 12).take 2) = 0x8808 then (s.macSeen x b).macControl x b (!s.macBad x b) else s.macStow x b := by
  obtain ⟨en, -, link, pipe, sleep, maint, hold⟩ := h
  have heard : ¬ (b.isEmpty ∨ ¬ s.flag (R.PORT_CTL x) F.PORT_CTL_EN ∨ ¬ s.linkUp x ∨ ¬ s.pipeOn (x / 4)) := by simp [en, link, pipe, hb]
  unfold State.macFrame
  dsimp only
  rw [if_neg heard, sleep, maint, hold]
  rfl

theorem lanesFrame_of_takes (h : s.takesFrames x) : s.lanesFrame x b = s.macFrame x b := by
  unfold State.lanesFrame
  rw [h.2.1]
  rfl

section
variable (hg : s.goodFrame x b)
include hg

theorem fcsOk_of_good : fcsOk b = true := by
  have four : 4 ≤ b.length := Nat.le_trans (by decide) hg.1
  rw [fcsOk, decide_eq_true four, hg.2.2, beq_self_eq_true, Bool.and_self]

theorem macBad_of_good : s.macBad x b = false := by
  rw [State.macBad, fcsOk_of_good hg, decide_eq_false (Nat.not_lt.mpr hg.2.1), decide_eq_false (Nat.not_lt.mpr hg.1)]
  rfl

theorem macSeen_of_good : s.macSeen x b = s.macCount x b.length := by
  unfold State.macSeen
  dsimp only
  rw [if_neg (Nat.not_lt.mpr hg.2.1), if_neg (Nat.not_lt.mpr hg.1), if_pos (fcsOk_of_good hg)]

theorem take_of_good : b.take (s.fld (R.PORT_CTL x) F.PORT_CTL_MAXFRM) = b := List.take_of_length_le hg.2.1

end

theorem macStow_stored {p : Nat} {u : State} (hg : s.goodFrame x b)
    (h : (s.macCount x b.length).storeFrame (s.macPool x b) (x * 8 + s.macClass x b) (0xA00 + x) (s.fld (R.PORT_CTL x) F.PORT_CTL_MAXFRM) true b =
      (.stored p, u)) : s.macStow x b = u.toParser (x / 4) (s.macPkt x b p false) := by
  unfold State.macStow
  dsimp only
  rw [take_of_good hg, macSeen_of_good hg, h]

theorem macStow_lost {r : StoreRes} {u : State} (hg : s.goodFrame x b) (hr : r = .noRoom ∨ r = .refused)
    (h : (s.macCount x b.length).storeFrame (s.macPool x b) (x * 8 + s.macClass x b) (0xA00 + x) (s.fld (R.PORT_CTL x) F.PORT_CTL_MAXFRM) true b =
      (r, u)) : s.macStow x b = u := by
  unfold State.macStow
  dsimp only
  rw [take_of_good hg, macSeen_of_good hg, h]
  rcases hr with rfl | rfl <;> rfl

end

/-- A frame as it waits for a parser from a time on. -/
def Pkt.arrived (q : Pkt) (at_ : Nat) : Pkt := { q with loc := .src, arrS := at_ }

section
variable (s : State) (p x : Nat) (l : List Nat)

theorem src_setSrc_same : (s.setSrc p x l).src p x = l := smGet_smSet_same _ _ _ _
theorem pkt_setSrc (k : Nat) : (s.setSrc p x l).pkt k = s.pkt k := rfl
theorem regs_setSrc : (s.setSrc p x l).regs = s.regs := rfl
theorem near_setSrc : (s.setSrc p x l).near = s.near := rfl

end

theorem newPkt_keeps (s : State) (q : Pkt) : (s.newPkt q).2.regs = s.regs ∧ (s.newPkt q).2.near = s.near := ⟨rfl, rfl⟩

theorem pkt_newPkt_same (s : State) (q : Pkt) : (s.newPkt q).2.pkt s.nextId = q := pkt_setPkt_same s _ q

/-- A frame of a front port joins the frames of its port at the parser (R89). -/
theorem toParser_front (s : State) (p : Nat) {q : Pkt} (hq : q.inPort < 64) :
    (s.toParser p q).src p q.inPort = s.src p q.inPort ++ [s.nextId] ∧ (s.toParser p q).pkt s.nextId = q.arrived s.time.sched ∧
      (s.toParser p q).regs = s.regs ∧ (s.toParser p q).near = s.near := by
  have front : ¬ ((s.newPkt (q.arrived s.time.sched)).2.fenced p ∧ 64 ≤ q.inPort) := fun h => by omega
  have joins : s.toParser p q = (s.newPkt (q.arrived s.time.sched)).2.setSrc p q.inPort (s.src p q.inPort ++ [s.nextId]) := if_neg front
  obtain ⟨regs, near⟩ := newPkt_keeps s (q.arrived s.time.sched)
  rw [joins, src_setSrc_same, pkt_setSrc, pkt_newPkt_same, regs_setSrc, near_setSrc]
  exact ⟨rfl, rfl, regs, near⟩

/-! ### The registers a frame writes -/

/-- The counters of a port that a frame at its MAC may count in. -/
def macRegs (x : Nat) : List Nat :=
  [R.RX_FRM x, R.RX_FRM x + 4, R.RX_BYTE x, R.RX_BYTE x + 4, R.RX_FCS x, R.RX_OVERSIZE x, R.RX_RUNT x]

theorem mem_macRegs {x r : Nat} (h : r ∈ macRegs x) : 0x80100 + x * 0x1000 ≤ r ∧ r ≤ 0x80128 + x * 0x1000 := by
  simp only [macRegs, R.RX_FRM, R.RX_BYTE, R.RX_FCS, R.RX_OVERSIZE, R.RX_RUNT, List.mem_cons, List.not_mem_nil, or_false] at h
  omega

theorem regsKept_macCount (s : State) (x n : Nat) : s.regsKept (s.macCount x n) (macRegs x) :=
  (State.regsKept.refl.cnt64 (by simp [macRegs]) (by simp [macRegs])).cnt64 (by simp [macRegs]) (by simp [macRegs])

theorem regsKept_macSeen (s : State) (x : Nat) (b : List Byte) : s.regsKept (s.macSeen x b) (macRegs x) := by
  have counted := regsKept_macCount s x b.length
  have checked : s.regsKept (if fcsOk b then s.macCount x b.length else (s.macCount x b.length).cnt (R.RX_FCS x)) (macRegs x) :=
    regsKept_ite counted (counted.cnt (by simp [macRegs]))
  unfold State.macSeen
  exact regsKept_ite (checked.cnt (by simp [macRegs])) (regsKept_ite (checked.cnt (by simp [macRegs])) checked)

/-- The classes paused after a pause of class `c` for `q` quanta (R53). -/
def pauseMask (m c q : Nat) : Nat := if q = 0 then (if m.testBit c then m - 2 ^ c else m) else m ||| 2 ^ c

theorem regs_pauseClass (s : State) (x c q : Nat) : (s.pauseClass x c q).regs = (s.setFld (R.TM_PORT_STAT x) F.TM_PORT_STAT_PAUSED
    (pauseMask (s.fld (R.TM_PORT_STAT x) F.TM_PORT_STAT_PAUSED) c q)).regs := rfl

theorem reg_pauseClass (s : State) (x c q r : Nat) : (s.pauseClass x c q).reg r = (s.setFld (R.TM_PORT_STAT x) F.TM_PORT_STAT_PAUSED
    (pauseMask (s.fld (R.TM_PORT_STAT x) F.TM_PORT_STAT_PAUSED) c q)).reg r := congrArg (smGet regDefault · r) (regs_pauseClass s x c q)

theorem regsKept_pauseClass (s : State) (x c q : Nat) : s.regsKept (s.pauseClass x c q) [R.TM_PORT_STAT x] := fun r hr =>
  (reg_pauseClass s x c q r).trans (reg_setFld_other _ _ _ _ _ (by simpa using hr))

theorem regsKept_foldl {α : Type} {f : State → α → State} {m : List Nat} (h : ∀ (t : State) (a : α), t.regsKept (f t a) m) (l : List α) (s : State) :
    s.regsKept (l.foldl f s) m := by
  induction l generalizing s with
  | nil => exact .refl
  | cons a l ih => exact (h s a).trans (ih _)

theorem regsKept_macControl (s : State) (x : Nat) (b : List Byte) (good : Bool) :
    s.regsKept (s.macControl x b good) [R.RX_CTRL x, R.TM_PORT_STAT x] := by
  have counted : s.regsKept (s.cnt (R.RX_CTRL x)) [R.RX_CTRL x, R.TM_PORT_STAT x] := State.regsKept.refl.cnt (by simp)
  have paused : ∀ (t : State) (c q : Nat), t.regsKept (t.pauseClass x c q) [R.RX_CTRL x, R.TM_PORT_STAT x] := fun t c q =>
    (regsKept_pauseClass t x c q).mono (by simp)
  unfold State.macControl
  dsimp only
  refine regsKept_ite counted (regsKept_ite (counted.trans (regsKept_foldl (fun t c => paused _ _ _) _ _)) (regsKept_ite ?_ counted))
  refine counted.trans (regsKept_foldl (fun t c => ?_) _ _)
  exact regsKept_ite (paused _ _ _) .refl

theorem lowKept_macStow {s : State} {x : Nat} (hx : x < 64) (b : List Byte) : (s.macSeen x b).lowKept (s.macStow x b) := by
  have stored := lowKept_storeFrame (s.macSeen x b) (s.macPool x (b.take (s.fld (R.PORT_CTL x) F.PORT_CTL_MAXFRM)))
    (x * 8 + s.macClass x (b.take (s.fld (R.PORT_CTL x) F.PORT_CTL_MAXFRM))) (0xA00 + x) (s.fld (R.PORT_CTL x) F.PORT_CTL_MAXFRM) true
    (b.take (s.fld (R.PORT_CTL x) F.PORT_CTL_MAXFRM))
  have parsed : ∀ (t : State) (q : Pkt), q.inPort = x → t.lowKept (t.toParser (x / 4) q) := fun t q hq =>
    .of_regs (toParser_front t (x / 4) (hq ▸ hx)).2.2.1
  unfold State.macStow
  dsimp only
  split
  · next h => rw [h] at stored; exact stored.trans (parsed _ _ rfl)
  · next h => rw [h] at stored; exact stored.trans (parsed _ _ rfl)
  · next h => rw [h] at stored; exact stored
  · next h => rw [h] at stored; exact stored

/-- A frame at a MAC leaves every register below Sinter's pages but the counters of its port (R61). -/
theorem reg_macFrame {s : State} {x : Nat} {b : List Byte} (hx : x < 64) (h : s.takesFrames x) (hb : b ≠ []) {r : Nat} (hr : r < 0x700000)
    (hm : r ∉ macRegs x) (hc : r ≠ R.RX_CTRL x) : (s.macFrame x b).reg r = s.reg r := by
  rw [macFrame_of_takes h hb]
  split
  · exact (regsKept_macControl _ x b _ r (by simp [hc, R.TM_PORT_STAT]; omega)).trans (regsKept_macSeen s x b r hm)
  · exact (lowKept_macStow hx b r hr).trans (regsKept_macSeen s x b r hm)

/-! ### A frame that is received -/

section
variable {s : State} {x : PortN} {b : List Byte} {corr unc : Nat}

theorem exec_frameReceive (h : s.takesFrames x) :
    (s.fecWords x corr unc).takesFrames x ∧ exec (.frameReceive x ⟨b, corr, unc⟩) s = .next ((s.fecWords x corr unc).macFrame x b) := by
  have ht := takesFrames_of_fecRegs x.isLt (regsOnly_fecWords s x corr unc) (regsKept_fecWords s x corr unc) h
  exact ⟨ht, congrArg Host.Outcome.next (lanesFrame_of_takes ht)⟩

theorem highKept_fecWords : s.highKept (s.fecWords x corr unc) := fun r hr => regsKept_fecWords s x corr unc r fun hm => by
  have := mem_fecRegs hm
  have := x.isLt
  omega

theorem maxfrm_fecWords (f : Fld) : (s.fecWords x corr unc).fld (R.PORT_CTL x) f = s.fld (R.PORT_CTL x) f :=
  (regsKept_fecWords s x corr unc).fld fun hm => by
    have := mem_fecRegs hm
    unfold R.PORT_CTL at this
    omega

theorem macPool_fecWords : (s.fecWords x corr unc).macPool x b = s.macPool x b := by
  unfold State.macPool
  rw [estimate_congr highKept_fecWords x (maxfrm_fecWords _), unkPool_congr highKept_fecWords]

theorem macClass_fecWords : (s.fecWords x corr unc).macClass x b = s.macClass x b := macClass_congr highKept_fecWords x b

/-- What the MAC of a good frame that is no control frame does with it. -/
theorem frameReceive_good (hb : b ≠ []) (h : s.takesFrames x) (hg : s.goodFrame x b) (he : valBE ((b.drop 12).take 2) ≠ 0x8808) :
    (s.fecWords x corr unc).goodFrame x b ∧
    exec (.frameReceive x ⟨b, corr, unc⟩) s = .next ((s.fecWords x corr unc).macStow x b) := by
  obtain ⟨ht, hexec⟩ := exec_frameReceive (b := b) (corr := corr) (unc := unc) h
  refine ⟨by unfold State.goodFrame; rw [maxfrm_fecWords]; exact hg, hexec.trans ?_⟩
  rw [macFrame_of_takes ht hb, if_neg he]

theorem frameReceive_stores {p : Nat} {u : State} (hb : b ≠ []) (h : s.takesFrames x) (hg : s.goodFrame x b)
    (he : valBE ((b.drop 12).take 2) ≠ 0x8808)
    (hs : ((s.fecWords x corr unc).macCount x b.length).storeFrame (s.macPool x b) (x.val * 8 + s.macClass x b) (0xA00 + x.val)
      (s.fld (R.PORT_CTL x) F.PORT_CTL_MAXFRM) true b = (.stored p, u)) :
    Completes (.frameReceive x ⟨b, corr, unc⟩) s fun t => t.src (x.val / 4) x = u.src (x.val / 4) x ++ [u.nextId] ∧ (t.pkt u.nextId).ptr = p ∧
      (t.pkt u.nextId).len = b.length ∧ (t.pkt u.nextId).inPort = x ∧ (t.pkt u.nextId).bad = false ∧ t.regs = u.regs ∧ t.near = u.near := by
  obtain ⟨hg', hexec⟩ := frameReceive_good (corr := corr) (unc := unc) hb h hg he
  rw [← macPool_fecWords (corr := corr) (unc := unc), ← macClass_fecWords (corr := corr) (unc := unc),
    ← maxfrm_fecWords (corr := corr) (unc := unc)] at hs
  obtain ⟨src, pkt, regs, near⟩ := toParser_front u (x.val / 4) (q := (s.fecWords x corr unc).macPkt x b p false) x.isLt
  refine ⟨_, hexec.trans (congrArg _ (macStow_stored hg' hs)), src, ?_, ?_, ?_, ?_, regs, near⟩
  all_goals rw [pkt]
  · rfl
  · exact congrArg List.length (take_of_good hg')
  · rfl
  · exact (Bool.or_false _).trans (macBad_of_good hg')

theorem frameReceive_loses {u : State} {r : StoreRes} (hr : r = .noRoom ∨ r = .refused) (hb : b ≠ []) (h : s.takesFrames x)
    (hg : s.goodFrame x b) (he : valBE ((b.drop 12).take 2) ≠ 0x8808)
    (hs : ((s.fecWords x corr unc).macCount x b.length).storeFrame (s.macPool x b) (x.val * 8 + s.macClass x b) (0xA00 + x.val)
      (s.fld (R.PORT_CTL x) F.PORT_CTL_MAXFRM) true b = (r, u)) : exec (.frameReceive x ⟨b, corr, unc⟩) s = .next u := by
  obtain ⟨hg', hexec⟩ := frameReceive_good (corr := corr) (unc := unc) hb h hg he
  rw [← macPool_fecWords (corr := corr) (unc := unc), ← macClass_fecWords (corr := corr) (unc := unc),
    ← maxfrm_fecWords (corr := corr) (unc := unc)] at hs
  exact hexec.trans (congrArg _ (macStow_lost hg' hr hs))

end

end Sys2Proof.Machine
end

section
/-! PROOFS. What the FEC of a port counts (R61), pauses (R52, R53), and the detected failure of a frame (R25). -/

namespace Sys2Proof.Machine

/-! ### The counters of the FEC -/

section
variable {s : State} {x : PortN} {b : List Byte} {corr unc : Nat}

theorem reg_fecWords (h : s.takesFrames x) (hm : 3 ≤ s.pMode x) :
    ((s.fecWords x corr unc).reg (R.FEC_CORR x)).toNat = min 0xFFFFFFFF ((s.reg (R.FEC_CORR x)).toNat + corr) ∧
    ((s.fecWords x corr unc).reg (R.FEC_UNCORR x)).toNat = min 0xFFFFFFFF ((s.reg (R.FEC_UNCORR x)).toNat + unc) ∧
    (0 < unc → ((s.fecWords x corr unc).reg (0x80010 + x.val * 0x1000)).getLsbD 1 = true) := by
  obtain ⟨en, lpbk, link, pipe, sleep, -, -⟩ := h
  have apart : R.FEC_CORR x ≠ R.FEC_UNCORR x := by unfold R.FEC_CORR R.FEC_UNCORR; omega
  have corrRaw : R.FEC_CORR x ≠ 0x80000 + x.val * 0x1000 + 0x10 := by unfold R.FEC_CORR; omega
  have uncRaw : R.FEC_UNCORR x ≠ 0x80000 + x.val * 0x1000 + 0x10 := by unfold R.FEC_UNCORR; omega
  have heard : ¬ (s.pMode x < 3 ∨ ¬ s.flag (R.PORT_CTL x) F.PORT_CTL_EN ∨ s.fld (R.PORT_CTL x) F.PORT_CTL_LPBK = 1 ∨ ¬ s.linkUp x ∨
      ¬ s.pipeOn (x / 4) ∨ s.sleeping) := by
    simp [en, lpbk, link, pipe, sleep, hm]
  have counts : (((s.cntN (R.FEC_CORR x) corr).cntN (R.FEC_UNCORR x) unc).reg (R.FEC_CORR x)).toNat =
        min 0xFFFFFFFF ((s.reg (R.FEC_CORR x)).toNat + corr) ∧
      (((s.cntN (R.FEC_CORR x) corr).cntN (R.FEC_UNCORR x) unc).reg (R.FEC_UNCORR x)).toNat =
        min 0xFFFFFFFF ((s.reg (R.FEC_UNCORR x)).toNat + unc) := by
    rw [reg_cntN_same, State.cntN, reg_setReg_other _ _ _ _ apart, reg_cntN_same, State.cntN, reg_setReg_other _ _ _ _ apart.symm]
    exact ⟨rfl, rfl⟩
  unfold State.fecWords
  rw [if_neg heard]
  dsimp only
  split
  · next hu => exact ⟨counts.1, counts.2, fun hp => absurd hu (Nat.ne_of_gt hp)⟩
  · rw [reg_raise_other _ _ _ _ corrRaw, reg_raise_other _ _ _ _ uncRaw,
      show 0x80010 + x.val * 0x1000 = 0x80000 + x.val * 0x1000 + 0x10 by omega]
    exact ⟨counts.1, counts.2, fun _ => getLsbD_raise _ _ (by decide)⟩

/-- A frame at the MAC leaves what the FEC counted. -/
theorem reg_macFrame_fec (h : s.takesFrames x) (hb : b ≠ []) {r : Nat} (hr : r ∈ fecRegs x) : (s.macFrame x b).reg r = s.reg r := by
  have hf := mem_fecRegs hr
  have := x.isLt
  exact reg_macFrame x.isLt h hb (by omega) (fun hm => by have := mem_macRegs hm; omega) (by unfold R.RX_CTRL; omega)

theorem frameReceive_counts_fec (hb : b ≠ []) (h : s.takesFrames x) (hm : 3 ≤ s.pMode x) : Completes (.frameReceive x ⟨b, corr, unc⟩) s fun t =>
    (t.reg (R.FEC_CORR x)).toNat = min 0xFFFFFFFF ((s.reg (R.FEC_CORR x)).toNat + corr) ∧
    (t.reg (R.FEC_UNCORR x)).toNat = min 0xFFFFFFFF ((s.reg (R.FEC_UNCORR x)).toNat + unc) ∧
    (0 < unc → (t.reg (0x80010 + x.val * 0x1000)).getLsbD 1 = true) := by
  obtain ⟨ht, hexec⟩ := exec_frameReceive (b := b) (corr := corr) (unc := unc) h
  refine ⟨_, hexec, ?_⟩
  beta_reduce
  rw [reg_macFrame_fec ht hb (by simp [fecRegs]), reg_macFrame_fec ht hb (by simp [fecRegs]),
    reg_macFrame_fec ht hb (r := 0x80010 + x.val * 0x1000) (by simp [fecRegs]; omega)]
  exact reg_fecWords h hm

end

/-! ### Pauses -/

theorem pkts_cnt (s : State) (r : Nat) : (s.cnt r).pkts = s.pkts := by
  unfold State.cnt; split <;> rfl

theorem near_cnt (s : State) (r : Nat) : (s.cnt r).near = s.near := by
  unfold State.cnt; split <;> rfl

theorem near_cnt64 (s : State) (r n : Nat) : (s.cnt64 r n).near = s.near := by
  rw [State.cnt64, State.setReg64, State.setReg_near, State.setReg_near]

section
variable {s : State} {x c d q : Nat}

/-- A pause of a class for some quanta pauses it, and no other (R53). -/
theorem paused_pauseClass (hq : q ≠ 0) (hc : c < 8) : (s.pauseClass x c q).paused x d = (decide (c = d) || s.paused x d) := by
  have fits : s.fld (R.TM_PORT_STAT x) F.TM_PORT_STAT_PAUSED ||| 2 ^ c < 2 ^ 8 := Nat.or_lt_two_pow fld_lt (Nat.pow_lt_pow_right (by decide) hc)
  have mask : (s.pauseClass x c q).fld (R.TM_PORT_STAT x) F.TM_PORT_STAT_PAUSED =
      s.fld (R.TM_PORT_STAT x) F.TM_PORT_STAT_PAUSED ||| 2 ^ c := by
    rw [State.fld, reg_pauseClass, ← State.fld, fld_setFld_same _ _ _ _ (by decide) (by decide), pauseMask, if_neg hq]
    exact Nat.mod_eq_of_lt fits
  rw [State.paused, mask, Nat.testBit_or, Nat.testBit_two_pow, Bool.or_comm]
  rfl

theorem quanta_pauseClass : smGet (fun _ => 0) (s.pauseClass x c q).quanta (x * 8 + d) =
    if c = d then q else smGet (fun _ => 0) s.quanta (x * 8 + d) := by
  split
  · next h => subst h; exact smGet_smSet_same _ _ _ _
  · exact smGet_smSet_other _ _ _ (by omega)

end

/-- Some classes of a port are paused one after the other. -/
def State.pauseAll (s : State) (x q : Nat) (l : List Nat) : State := l.foldl (fun s c => s.pauseClass x c q) s

theorem paused_pauseAll {x q d : Nat} (hq : q ≠ 0) {l : List Nat} (hl : ∀ c ∈ l, c < 8) (s : State) (h : d ∈ l ∨ s.paused x d = true) :
    (s.pauseAll x q l).paused x d = true := by
  induction l generalizing s with
  | nil => exact h.resolve_left List.not_mem_nil
  | cons c l ih =>
    refine ih (fun e he => hl e (List.mem_cons_of_mem _ he)) _ ?_
    rw [paused_pauseClass hq (hl c List.mem_cons_self)]
    rcases h with h | h
    · rcases List.mem_cons.mp h with rfl | h
      · exact .inr (by simp)
      · exact .inl h
    · exact .inr (by simp [h])

theorem quanta_pauseAll {x q d : Nat} {l : List Nat} (s : State) (h : d ∈ l ∨ smGet (fun _ => 0) s.quanta (x * 8 + d) = q) :
    smGet (fun _ => 0) (s.pauseAll x q l).quanta (x * 8 + d) = q := by
  induction l generalizing s with
  | nil => exact h.resolve_left List.not_mem_nil
  | cons c l ih =>
    refine ih _ ?_
    rw [quanta_pauseClass]
    by_cases hc : c = d
    · exact .inr (if_pos hc)
    · rw [if_neg hc]
      exact h.imp_left fun h => (List.mem_cons.mp h).resolve_left (Ne.symm hc)

theorem pauseAll_keeps (s : State) (x q : Nat) (l : List Nat) : (s.pauseAll x q l).pkts = s.pkts ∧ (s.pauseAll x q l).near = s.near :=
  ⟨foldl_keeps (g := State.pkts) (f := fun s c => s.pauseClass x c q) (fun _ _ => rfl) l s,
    foldl_keeps (g := State.near) (f := fun s c => s.pauseClass x c q) (fun _ _ => rfl) l s⟩

theorem regsKept_pauseAll (s : State) (x q : Nat) (l : List Nat) : s.regsKept (s.pauseAll x q l) [R.TM_PORT_STAT x] :=
  regsKept_foldl (fun t c => regsKept_pauseClass t x c q) l s

/-- A frame at the MAC counts once (R61). -/
theorem reg64_macCount (s : State) (x n : Nat) : (s.macCount x n).reg64 (R.RX_FRM x) = (s.reg64 (R.RX_FRM x) + 1) % 2 ^ 64 := by
  have bytes : (s.cnt64 (R.RX_FRM x) 1).regsKept (s.macCount x n) [R.RX_BYTE x, R.RX_BYTE x + 4] :=
    State.regsKept.refl.cnt64 (by simp) (by simp)
  have low : R.RX_FRM x ∉ [R.RX_BYTE x, R.RX_BYTE x + 4] := by simp [R.RX_FRM, R.RX_BYTE]; omega
  have high : R.RX_FRM x + 4 ∉ [R.RX_BYTE x, R.RX_BYTE x + 4] := by simp [R.RX_FRM, R.RX_BYTE]; omega
  rw [reg64_kept bytes low high, reg64_cnt64_same]

/-- A pause frame where the port is in pause mode (R52, R53). -/
theorem macControl_pause {s : State} {x : Nat} {b : List Byte} (hm : s.fld (R.PORT_FC x) F.PORT_FC_MODE = 1)
    (hop : valBE ((b.drop 14).take 2) = 1) :
    s.macControl x b true = (s.cnt (R.RX_CTRL x)).pauseAll x (valBE ((b.drop 16).take 2)) (List.range 8) := by
  unfold State.macControl
  dsimp only
  rw [if_neg (not_not.mpr rfl), if_pos ⟨hm, hop⟩]
  rfl

theorem macControlFrameReceive_pauses {s : State} {x : PortN} {b : List Byte} (hb : b ≠ []) (h : s.takesFrames x) (hg : s.goodFrame x b)
    (he : valBE ((b.drop 12).take 2) = 0x8808) (hm : s.fld (R.PORT_FC x) F.PORT_FC_MODE = 1) (hop : valBE ((b.drop 14).take 2) = 1)
    (hq : 0 < valBE ((b.drop 16).take 2)) : Completes (.macControlFrameReceive x b) s fun t =>
      t.reg (R.RX_CTRL x) = (if s.reg (R.RX_CTRL x) = 0xFFFFFFFF then 0xFFFFFFFF else s.reg (R.RX_CTRL x) + 1) ∧
      (∀ c : ClassN, t.paused x c = true ∧ smGet (fun _ => 0) t.quanta (x.val * 8 + c) = valBE ((b.drop 16).take 2)) ∧
      t.reg64 (R.RX_FRM x) = (s.reg64 (R.RX_FRM x) + 1) % 2 ^ 64 ∧ t.pkts = s.pkts ∧ t.near = s.near := by
  have seen := regsKept_macCount s x b.length
  have fc : R.PORT_FC x ∉ macRegs x := fun hr => by have := mem_macRegs hr; unfold R.PORT_FC at this; omega
  have ctrl : R.RX_CTRL x ∉ macRegs x := fun hr => by have := mem_macRegs hr; unfold R.RX_CTRL at this; omega
  have stat : R.RX_CTRL x ≠ R.TM_PORT_STAT x ∧ R.RX_FRM x ≠ R.TM_PORT_STAT x ∧ R.RX_FRM x + 4 ≠ R.TM_PORT_STAT x ∧
      R.RX_FRM x ≠ R.RX_CTRL x ∧ R.RX_FRM x + 4 ≠ R.RX_CTRL x := by
    unfold R.RX_CTRL R.RX_FRM R.TM_PORT_STAT; omega
  have paused := regsKept_pauseAll ((s.macCount x b.length).cnt (R.RX_CTRL x)) x (valBE ((b.drop 16).take 2)) (List.range 8)
  obtain ⟨pkts, near⟩ := pauseAll_keeps ((s.macCount x b.length).cnt (R.RX_CTRL x)) x (valBE ((b.drop 16).take 2)) (List.range 8)
  have hexec : exec (.macControlFrameReceive x b) s =
      .next (((s.macCount x b.length).cnt (R.RX_CTRL x)).pauseAll x (valBE ((b.drop 16).take 2)) (List.range 8)) := by
    refine congrArg Host.Outcome.next ((if_pos he).trans ((lanesFrame_of_takes h).trans ((macFrame_of_takes h hb).trans ((if_pos he).trans ?_))))
    rw [macBad_of_good hg, macSeen_of_good hg]
    exact macControl_pause ((seen.fld fc).trans hm) hop
  refine ⟨_, hexec, ?_, fun c => ⟨?_, ?_⟩, ?_, ?_, ?_⟩
  · rw [paused _ (by simpa using stat.1), reg_cnt_same, seen _ ctrl]
    split
    · assumption
    · rfl
  · exact paused_pauseAll (Nat.ne_of_gt hq) (fun d hd => List.mem_range.mp hd) _ (.inl (List.mem_range.mpr c.isLt))
  · exact quanta_pauseAll _ (.inl (List.mem_range.mpr c.isLt))
  · rw [reg64_kept paused (by simpa using stat.2.1) (by simpa using stat.2.2.1), reg64_kept (State.regsKept.refl.cnt (List.mem_singleton_self _))
      (by simpa using stat.2.2.2.1) (by simpa using stat.2.2.2.2), reg64_macCount]
  · rw [pkts, pkts_cnt, State.macCount, pkts_cnt64, pkts_cnt64]
  · rw [near, near_cnt, State.macCount, near_cnt64, near_cnt64]

/-! ### The failure of a frame -/

/-- In a canonical map the entries of a key are the one listed. -/
theorem filter_key {α : Type} [DecidableEq α] {d : Nat → α} {m : SMap α} (hw : smWf d m = true) {k : Nat} {v : α} (h : smFind m k = some v)
    {p : α → Bool} (hp : p v = true) : m.filter (fun e => p e.2 && e.1 == k) = [(k, v)] := by
  have above : ∀ {l : SMap α} {j : Nat}, smAbove j l = true → k ≤ j → l.filter (fun e => p e.2 && e.1 == k) = [] := by
    intro l j hl hj
    induction l with
    | nil => rfl
    | cons e l ih =>
      obtain ⟨i, w⟩ := e
      simp only [smAbove, Bool.and_eq_true, decide_eq_true_eq] at hl
      have hne : (i == k) = false := beq_false_of_ne (by omega)
      rw [List.filter_cons_of_neg (by simp [hne]), ih hl.2]
  induction m with
  | nil => exact absurd h nofun
  | cons e m ih =>
    obtain ⟨i, w⟩ := e
    simp only [smWf, Bool.and_eq_true] at hw
    rw [smFind] at h
    split at h
    · next hk =>
      subst hk
      cases h
      rw [List.filter_cons_of_pos (by simp [hp]), above hw.1.2 (Nat.le_refl _)]
    · next hk =>
      have hne : (i == k) = false := beq_false_of_ne (Ne.symm hk)
      rw [List.filter_cons_of_neg (by simp [hne]), ih hw.2 h]

section
variable {s : State} {k : Nat}

/-- A frame that shares its buffers with none and that no connection carries fails alone (R25). -/
theorem exec_fcsFailure_alone (hk : s.hasPkt k = true) (hb : (s.pkt k).bad = true) (hs : (s.pkt k).store = none) (hc : s.conns = [])
    (hw : smWf (fun _ => ({} : Pkt)) s.pkts = true) : exec (.fcsFailure k) s = .next (State.wakeAll s (s.fcsFail1 k)) := by
  obtain ⟨q, hq⟩ := Option.isSome_iff_exists.mp hk
  have pkt : s.pkt k = q := by rw [State.pkt, smGet, hq]; rfl
  have kin := filter_key hw hq (p := Pkt.bad) (pkt ▸ hb)
  have fails : s.fcsFail k = s.fcsFail1 k := by
    unfold State.fcsFail
    simp only [hb, hs, hc, Option.isSome_none, Bool.false_and, List.any_nil, Bool.or_false, kin]
    exact if_pos hk
  show Host.Outcome.next (if s.hasPkt k then State.wakeAll s (s.fcsFail k) else s) = _
  rw [if_pos hk, fails]

theorem wakeAll_keeps (s0 s : State) : (State.wakeAll s0 s).pkts = s.pkts ∧ (State.wakeAll s0 s).regs = s.regs ∧
    (State.wakeAll s0 s).srcQ = s.srcQ ∧ (State.wakeAll s0 s).txq = s.txq := by
  obtain ⟨v, h⟩ := wakeAll_eq s0 s
  rw [h]
  exact ⟨rfl, rfl, rfl, rfl⟩

theorem fcsFail1_src (h : (s.pkt k).loc = .src) :
    s.fcsFail1 k = (s.setPkt k { s.pkt k with bad := false }).setPkt k { s.pkt k with bad := false, failed := true } := by
  unfold State.fcsFail1
  simp only [h]

theorem fcsFail1_egr {p : Nat} (h : (s.pkt k).loc = .egr p) (ht : smGet (fun _ => none) s.txs (s.pkt k).dest = none) :
    s.fcsFail1 k = (s.setPkt k { s.pkt k with bad := false }).setPkt k { s.pkt k with bad := false, late := true } := by
  unfold State.fcsFail1
  simp only [h, ht]

theorem fcsFailure_at_parser (hk : s.hasPkt k = true) (hb : (s.pkt k).bad = true) (hs : (s.pkt k).store = none) (hc : s.conns = [])
    (hw : smWf (fun _ => ({} : Pkt)) s.pkts = true) (h : (s.pkt k).loc = .src) : Completes (.fcsFailure k) s fun t =>
      (t.pkt k).failed = true ∧ (t.pkt k).bad = false ∧ t.regs = s.regs ∧ t.srcQ = s.srcQ := by
  obtain ⟨pkts, regs, srcQ, -⟩ := wakeAll_keeps s (s.fcsFail1 k)
  have placed : (State.wakeAll s (s.fcsFail1 k)).pkt k = { s.pkt k with bad := false, failed := true } := by
    rw [State.pkt, pkts, fcsFail1_src h]
    exact pkt_setPkt_same _ k _
  refine ⟨_, exec_fcsFailure_alone hk hb hs hc hw, ?_, ?_, regs.trans ?_, srcQ.trans ?_⟩
  · rw [placed]
  · rw [placed]
  · rw [fcsFail1_src h, State.setPkt_regs, State.setPkt_regs]
  · rw [fcsFail1_src h, State.setPkt_srcQ, State.setPkt_srcQ]

theorem fcsFailure_at_egress (hk : s.hasPkt k = true) (hb : (s.pkt k).bad = true) (hs : (s.pkt k).store = none) (hc : s.conns = [])
    (hw : smWf (fun _ => ({} : Pkt)) s.pkts = true) (p : Nat) (h : (s.pkt k).loc = .egr p)
    (ht : smGet (fun _ => none) s.txs (s.pkt k).dest = none) : Completes (.fcsFailure k) s fun t =>
      (t.pkt k).late = true ∧ (t.pkt k).bad = false ∧ t.regs = s.regs ∧ t.txq = s.txq := by
  obtain ⟨pkts, regs, -, txq⟩ := wakeAll_keeps s (s.fcsFail1 k)
  have placed : (State.wakeAll s (s.fcsFail1 k)).pkt k = { s.pkt k with bad := false, late := true } := by
    rw [State.pkt, pkts, fcsFail1_egr h ht]
    exact pkt_setPkt_same _ k _
  refine ⟨_, exec_fcsFailure_alone hk hb hs hc hw, ?_, ?_, regs.trans ?_, txq.trans ?_⟩
  · rw [placed]
  · rw [placed]
  · rw [fcsFail1_egr h ht, State.setPkt_regs, State.setPkt_regs]
  · rw [fcsFail1_egr h ht, State.setPkt_txq, State.setPkt_txq]

end

/-- Settles O21: a good frame by what its storing answers, the counters of the FEC by the registers that reception leaves, a pause frame by the
fold over the classes, and a detected failure by the place of the frame (R25, R48, R52, R53, R61, R310; assumption log 68, 144). -/
theorem framesAreReceivedAndChecked : Obligations.FramesAreReceivedAndChecked :=
  ⟨fun _ _ _ _ _ hb h => ⟨fun _ _ hg he hs => frameReceive_stores hb h hg he hs, fun _ _ hr hg he hs => frameReceive_loses hr hb h hg he hs,
    frameReceive_counts_fec hb h, fun hg he hm hop hq => macControlFrameReceive_pauses hb h hg he hm hop hq⟩,
   fun _ _ hk hb hs hc hw => ⟨fcsFailure_at_parser hk hb hs hc hw, fcsFailure_at_egress hk hb hs hc hw⟩⟩

end Sys2Proof.Machine
end

section
/-! PROOFS. Flow-control frames that are sent, and the evaluation of XOFF (R53, R54, R315). -/

namespace Sys2Proof.Machine

/-! ### The end of a pause (R53) -/

/-- A number less a power of two that it has loses that bit alone. -/
theorem testBit_sub_two_pow {m c : Nat} (h : m.testBit c = true) (d : Nat) : (m - 2 ^ c).testBit d = (!decide (d = c) && m.testBit d) := by
  have odd : m / 2 ^ c % 2 = 1 := by rwa [Nat.testBit_eq_decide_div_mod_eq, decide_eq_true_eq] at h
  obtain ⟨k, r, hr, rfl⟩ : ∃ k r, r < 2 ^ c ∧ m = 2 ^ c * (2 * k + 1) + r :=
    ⟨m / 2 ^ c / 2, m % 2 ^ c, Nat.mod_lt _ (Nat.two_pow_pos c), by
      rw [show 2 * (m / 2 ^ c / 2) + 1 = m / 2 ^ c by omega, Nat.div_add_mod]⟩
  have less : 2 ^ c * (2 * k + 1) + r - 2 ^ c = 2 ^ c * (2 * k) + r := by rw [Nat.mul_add_one, Nat.add_right_comm, Nat.add_sub_cancel]
  rw [less, Nat.testBit_two_pow_mul_add _ hr, Nat.testBit_two_pow_mul_add _ hr]
  by_cases hlt : d < c
  · rw [if_pos hlt, if_pos hlt, decide_eq_false (Nat.ne_of_lt hlt), Bool.not_false, Bool.true_and]
  · rw [if_neg hlt, if_neg hlt]
    obtain ⟨e, rfl⟩ := Nat.exists_eq_add_of_le (Nat.not_lt.mp hlt)
    rw [Nat.add_sub_cancel_left]
    cases e with
    | zero => simp
    | succ e => rw [Nat.testBit_succ, Nat.testBit_succ, show (2 * k + 1) / 2 = 2 * k / 2 by omega]; simp

section
variable {s : State} {x c : Nat}

/-- The end of a pause of a class ends no other. -/
theorem paused_pauseClass_end (h : s.paused x c = true) (d : Nat) : (s.pauseClass x c 0).paused x d = (!decide (d = c) && s.paused x d) := by
  have bit : (s.fld (R.TM_PORT_STAT x) F.TM_PORT_STAT_PAUSED).testBit c = true := h
  have mask : (s.pauseClass x c 0).fld (R.TM_PORT_STAT x) F.TM_PORT_STAT_PAUSED = s.fld (R.TM_PORT_STAT x) F.TM_PORT_STAT_PAUSED - 2 ^ c := by
    rw [State.fld, reg_pauseClass, ← State.fld, fld_setFld_same _ _ _ _ (by decide) (by decide), pauseMask, if_pos rfl, if_pos bit]
    exact Nat.mod_eq_of_lt (Nat.lt_of_le_of_lt (Nat.sub_le _ _) fld_lt)
  rw [State.paused, mask]
  exact testBit_sub_two_pow bit d

end

theorem pauseQuantaExpire_ends {s : State} {x : PortN} {c : ClassN} (h : s.paused x c = true) : Completes (.pauseQuantaExpire x c) s fun t =>
    t.paused x c = false ∧ smGet (fun _ => 0) t.quanta (x.val * 8 + c) = 0 ∧ (∀ d : ClassN, d ≠ c → t.paused x d = s.paused x d) ∧
      s.regsKept t [R.TM_PORT_STAT x] := by
  have hexec : exec (.pauseQuantaExpire x c) s = .next (s.pauseClass x c 0) := congrArg Host.Outcome.next (if_pos h)
  refine ⟨_, hexec, ?_, quanta_pauseClass.trans (if_pos rfl), fun d hd => ?_, regsKept_pauseClass s x c 0⟩
  · rw [paused_pauseClass_end h, decide_eq_true rfl, Bool.not_true, Bool.false_and]
  · rw [paused_pauseClass_end h, decide_eq_false (mt Fin.ext hd), Bool.not_false, Bool.true_and]

/-! ### Frames of XOFF and XON in pause mode (R54) -/

/-- The state in which the classes of a port that are in XOFF are remembered as sent. -/
def State.xoffSent (s : State) (x : Nat) : State := { s with pfcSent := smSet (fun _ => 0) s.pfcSent x (s.xoffClasses x) }

theorem sentX_xoffSent (s : State) (x : Nat) : (s.xoffSent x).sentX x = s.xoffClasses x := smGet_smSet_same _ _ _ _

section
variable {s : State}

/-- In pause mode a flow-control frame is a pause frame of all classes. -/
theorem sendFlow_pause {x : Nat} (hm : s.fld (R.PORT_FC x) F.PORT_FC_MODE = 1) (cs q : Nat) :
    s.sendFlow x cs q = s.emit (.flow x false 255 q) := if_pos hm

variable {x : PortN} (hs : s.macSends x = true) (hm : s.fld (R.PORT_FC x) F.PORT_FC_MODE = 1)
include hs hm

/-- A change of the classes in XOFF is sent in pause mode where the first class enters XOFF or the last one leaves it. -/
theorem exec_pfcFrameSend_pause (hc : s.xoffClasses x ≠ s.sentX x) : exec (.pfcFrameSend x) s =
    .next (if s.sentX x = 0 then (s.xoffSent x).emit (.flow x false 255 (s.fld (R.PORT_FC x) F.PORT_FC_QUANTA))
      else if s.xoffClasses x = 0 then (s.xoffSent x).emit (.flow x false 255 0) else s.xoffSent x) := by
  have sends : ¬ (¬ s.macSends x ∨ s.xoffClasses x = s.sentX x) := fun h => h.elim (· hs) hc
  have pause (q : Nat) : (s.xoffSent x).sendFlow x 255 q = (s.xoffSent x).emit (.flow x false 255 q) := sendFlow_pause (s := s.xoffSent x) hm 255 q
  rw [← pause, ← pause]
  exact (if_neg sends).trans (if_pos hm)

theorem pfcFrameSend_xoff (h0 : s.sentX x = 0) (hx : s.xoffClasses x ≠ 0) : Completes (.pfcFrameSend x) s fun t =>
    t.outs = s.outs ++ [.flow x false 255 (s.fld (R.PORT_FC x) F.PORT_FC_QUANTA)] ∧ t.sentX x = s.xoffClasses x ∧ t.regs = s.regs := by
  have hexec := exec_pfcFrameSend_pause hs hm (h0 ▸ hx)
  rw [if_pos h0] at hexec
  exact ⟨_, hexec, rfl, sentX_xoffSent s x, rfl⟩

theorem pfcFrameSend_xon (h0 : s.sentX x ≠ 0) (hx : s.xoffClasses x = 0) : Completes (.pfcFrameSend x) s fun t =>
    t.outs = s.outs ++ [.flow x false 255 0] ∧ t.sentX x = 0 ∧ t.regs = s.regs := by
  have hexec := exec_pfcFrameSend_pause hs hm (hx ▸ h0.symm)
  rw [if_neg h0, if_pos hx] at hexec
  exact ⟨_, hexec, rfl, (sentX_xoffSent s x).trans hx, rfl⟩

theorem pfcRepeatExpire_repeats (hx : s.sentX x &&& s.xoffClasses x ≠ 0) : Completes (.pfcRepeatExpire x) s fun t =>
    t.outs = s.outs ++ [.flow x false 255 (s.fld (R.PORT_FC x) F.PORT_FC_QUANTA)] ∧ t.regs = s.regs ∧ t.pfcSent = s.pfcSent := by
  have hexec : exec (.pfcRepeatExpire x) s = .next (s.emit (.flow x false 255 (s.fld (R.PORT_FC x) F.PORT_FC_QUANTA))) :=
    congrArg Host.Outcome.next ((if_pos ⟨hs, hx⟩).trans (sendFlow_pause hm _ _))
  exact ⟨_, hexec, rfl, rfl, rfl⟩

end

/-! ### The evaluation of XOFF (R315) -/

/-- Whether an account is in XOFF once it is evaluated. -/
def State.xoffNow (s : State) (a : Nat) : Bool :=
  if ¬ s.pfcAcct a then false
  else if 0 < (s.acct a).h ∨ s.t256 a ≤ (s.acct a).sh * 256 then true
  else if (s.acct a).sh * 256 + s.fld R.SINT_CFG F.SINT_CFG_XON_GAP * 1024 * 256 < s.t256 a then false
  else (s.acct a).xoff

/-- The bytes charged to an account: reserved, shared and headroom. -/
def Acct.usage (c : Acct) : Nat × Nat × Nat := (c.r, c.sh, c.h)

section
variable (s : State) {a b : Nat}

theorem acct_evalXoff_same : (s.evalXoff a).acct a = { s.acct a with xoff := s.xoffNow a } := smGet_smSet_same _ _ _ _

theorem acct_evalXoff_other (h : b ≠ a) : (s.evalXoff a).acct b = s.acct b := smGet_smSet_other _ _ _ h

theorem usage_evalXoff (a b : Nat) : ((s.evalXoff a).acct b).usage = (s.acct b).usage := by
  by_cases h : b = a
  · subst h; rw [acct_evalXoff_same]; rfl
  · rw [acct_evalXoff_other s h]

theorem usage_evalAll (b : Nat) : (s.evalAll.acct b).usage = (s.acct b).usage :=
  foldl_keeps (g := fun s => (s.acct b).usage) (fun t a => usage_evalXoff t a b) _ s

theorem evalAll_keeps : s.evalAll.regs = s.regs ∧ s.evalAll.pkts = s.pkts :=
  ⟨foldl_keeps (g := State.regs) (f := State.evalXoff) (fun _ _ => rfl) (List.range 512) s,
    foldl_keeps (g := State.pkts) (f := State.evalXoff) (fun _ _ => rfl) (List.range 512) s⟩

/-- An account that sends no flow control is never left in XOFF by an evaluation. -/
theorem xoff_foldl_evalXoff {l : List Nat} (hp : s.pfcAcct a = false) (h : a ∈ l ∨ (s.acct a).xoff = false) :
    ((l.foldl (fun s a => s.evalXoff a) s).acct a).xoff = false := by
  induction l generalizing s with
  | nil => exact h.resolve_left List.not_mem_nil
  | cons b l ih =>
    refine ih (s.evalXoff b) hp ?_
    by_cases hb : a = b
    · subst hb
      refine .inr ?_
      rw [acct_evalXoff_same]
      exact if_pos (by simp [hp])
    · rw [acct_evalXoff_other s hb]
      exact h.imp_left fun h => (List.mem_cons.mp h).resolve_left hb

end

theorem sintXoffEval_keeps_usage (s : State) : Completes .sintXoffEval s fun t =>
    (∀ a, (t.acct a).r = (s.acct a).r ∧ (t.acct a).sh = (s.acct a).sh ∧ (t.acct a).h = (s.acct a).h) ∧ t.regs = s.regs ∧ t.pkts = s.pkts ∧
      (∀ a, a < 512 → s.pfcAcct a = false → (t.acct a).xoff = false) := by
  have hexec : exec .sintXoffEval s = .next s.evalAll := rfl
  obtain ⟨regs, pkts⟩ := evalAll_keeps s
  refine ⟨_, hexec, fun a => ?_, regs, pkts, fun a ha hp => xoff_foldl_evalXoff s hp (.inl (List.mem_range.mpr ha))⟩
  simpa [Acct.usage] using usage_evalAll s a

/-- Settles O22: the end of a pause by the bit that its mask loses, the frames of pause mode by the classes in XOFF before and after, and the
evaluation account by account (R53, R54, R315; that a frame sent counts in no register is assumption log 144). -/
theorem flowControlIsSent : Obligations.FlowControlIsSent := by
  intro s x c q
  exact ⟨pauseQuantaExpire_ends, pfcFrameSend_xoff, pfcFrameSend_xon, pfcRepeatExpire_repeats, sintXoffEval_keeps_usage s⟩

end Sys2Proof.Machine
end

section
/-! PROOFS. Accesses of a control context to registers (R579, R587): what reaches a register, and what a write stores there. -/

namespace Sys2Proof.Machine

/-! ### Where an access lands -/

/-- A register that an access at its own address reaches: on a page of the map, described there, and reached through no selector. -/
structure PlainAt (a : Nat) (k : PageKind) (i : Nat) (r : RegD) : Prop where
  page : pageOf a = some (k, i)
  desc : descOf a = some r
  past : 0x40 ≤ a % 0x1000
  low : isHigh a = false
  lands : ∀ s : State, s.lands a

/-- The register that an access of an address itself reaches. -/
abbrev Hit.here (a : Nat) : Hit := { at_ := a, cap := a }

section
variable {a : Nat} {k : PageKind} {i : Nat} {r : RegD}

/-- A register of one word, outside the pages of lookups and of hosts. -/
theorem plainAt_of_page (hp : pageOf a = some (k, i)) (hb : beyond k i (a % 0x1000) = false)
    (hd : k.regs.find? (fun r => r.covers (a % 0x1000)) = some r) (hw : r.wide = false) (ha : a % 4 = 0) (hpast : 0x40 ≤ a % 0x1000)
    (hn : a / 0x1000 < 0x500 ∨ 0x504 < a / 0x1000 ∧ a / 0x1000 < 0xB00) : PlainAt a k i r := by
  have desc : descOf a = some r := by simp [descOf, hp, hb, hd]
  have own : aliasOf a = a := if_pos (hn.imp_right fun h => .inl h.1)
  have noRing : ¬ (0xB00084 ≤ a ∧ a < 0xB000A4) := by omega
  exact ⟨hp, desc, hpast, by simp [isHigh, desc, hw], fun s => ⟨(if_neg noRing).trans own, by omega, by simp [hp], ha⟩⟩

section
variable (h : PlainAt a k i r) {s : State} {who : Req} (ho : s.open who a)
include h ho

/-- A write of a register with a field that can be written is carried out by the rules of its page. -/
theorem PlainAt.regWrite (hk : k ≠ .eng) (hdbg : k ≠ .dbg) (hw : r.writable = true) (v : W32) :
    s.regWrite who a v = .next (s.writeReg who.toNat (.here a) v) := by
  have acc : a ≠ R.DBG_ACC_CTL := fun e => by
    have dbg : pageOf R.DBG_ACC_CTL = some (.dbg, 0) := by decide
    exact hdbg (congrArg Prod.fst (Option.some.inj ((e ▸ h.page).symm.trans dbg)))
  have soft : s.softNow a = false := by
    unfold State.softNow
    rw [h.page]
    split
    · next e => exact absurd (congrArg Prod.fst (Option.some.inj e)) hk
    · rfl
  have hit : s.writeHit who.toNat (.here a) v = s.writeReg who.toNat (.here a) v := by
    simp [State.writeHit, soft, (h.lands s).2.2.2, Nat.not_lt.mpr h.past, h.desc, hw, h.low]
  rw [State.regWrite, busWrite_of_reach v (reach_of_open ho (h.lands s) true) acc]
  exact congrArg Host.Outcome.next hit

theorem PlainAt.regRead : s.regRead who a =
    .next { (s.readHit who.toNat (.here a)).2 with rdata := (s.readHit who.toNat (.here a)).1 } := by
  have bus : s.busRead who.toNat a = s.readHit who.toNat (.here a) := by
    rw [State.busRead, reach_of_open ho (h.lands s) false]
    exact if_neg (not_not_intro (h.lands s).2.2.2)
  rw [State.regRead, bus]

end

end

/-! ### What a write stores -/

/-- The fields of a register that can all be written, from the highest down. -/
abbrev rwDown (flds : List FieldD) : Prop :=
  (∀ f ∈ flds, f.ty = .rw ∧ f.fld.lo ≤ f.fld.hi ∧ f.fld.hi < 32) ∧ flds.Pairwise fun f g => g.fld.hi < f.fld.lo

theorem getF_lt (v : W32) (f : Fld) : getF v f < 2 ^ (f.hi + 1 - f.lo) := Nat.mod_lt _ (Nat.two_pow_pos _)

theorem mergeW_cons {f : FieldD} (hf : f.ty = .rw) (l : List FieldD) (old v : W32) :
    mergeW (f :: l) old v = mergeW l (setF old f.fld (getF v f.fld)) v := by
  rw [mergeW, List.foldl_cons, hf]; rfl

/-- Fields written below another leave it. -/
theorem getF_mergeW_below {l : List FieldD} (hl : ∀ f ∈ l, f.ty = .rw ∧ f.fld.lo ≤ f.fld.hi ∧ f.fld.hi < 32) {g : Fld}
    (hg : ∀ f ∈ l, f.fld.hi < g.lo) (old v : W32) : getF (mergeW l old v) g = getF old g := by
  induction l generalizing old with
  | nil => rfl
  | cons f l ih =>
    obtain ⟨isRw, order, fits⟩ := hl f List.mem_cons_self
    rw [mergeW_cons isRw, ih (fun e he => hl e (List.mem_cons_of_mem _ he)) fun e he => hg e (List.mem_cons_of_mem _ he),
      getF_setF_above _ _ _ _ order fits (hg f List.mem_cons_self)]

/-- A field of such a register takes its value from the word written (R579). -/
theorem getF_mergeW {l : List FieldD} (hl : rwDown l) {f : FieldD} (hf : f ∈ l) (old v : W32) : getF (mergeW l old v) f.fld = getF v f.fld := by
  obtain ⟨hall, hpw⟩ := hl
  induction l generalizing old with
  | nil => exact absurd hf List.not_mem_nil
  | cons e l ih =>
    obtain ⟨isRw, order, fits⟩ := hall e List.mem_cons_self
    have rest : ∀ g ∈ l, g.ty = .rw ∧ g.fld.lo ≤ g.fld.hi ∧ g.fld.hi < 32 := fun g hg => hall g (List.mem_cons_of_mem _ hg)
    rw [mergeW_cons isRw]
    rcases List.mem_cons.mp hf with rfl | hf
    · rw [getF_mergeW_below rest (List.pairwise_cons.mp hpw).1, getF_setF _ _ _ order fits]
      exact Nat.mod_eq_of_lt (getF_lt _ _)
    · exact ih hf _ rest (List.pairwise_cons.mp hpw).2

section
variable {s : State} {a : Nat} {v : W32}

theorem onlyRegs_putW : s.onlyRegs (s.putW (.here a) v) [a] :=
  State.regsOnly.refl.setReg.onlyRegs (State.regsKept.refl.setReg List.mem_cons_self)

/-- A field reads as it was written. -/
theorem fld_putW {k : PageKind} {i : Nat} {r : RegD} (h : PlainAt a k i r) (hr : rwDown r.flds) {f : FieldD} (hf : f ∈ r.flds) :
    (s.putW (.here a) v).fld a f.fld = getF v f.fld := by
  have flds : (Hit.here a).flds = r.flds := by simp [Hit.flds, h.desc]
  rw [State.fld, State.putW, reg_setReg_same, flds]
  exact getF_mergeW hr hf _ _

end

/-! ### Registers of ports, lanes and the crossbar -/

/-- The addresses of the PORT pages (R575). -/
theorem pageOf_port (x : PortN) {o : Nat} (ho : o < 0x1000) : pageOf (0x80000 + x * 0x1000 + o) = some (.port, x.val) := by
  have hn : (0x80000 + x.val * 0x1000 + o) / 0x1000 = x.val + 0x80 := by omega
  have lo (n : Nat) (h : n ≤ 0x80) : ¬ x.val + 0x80 < n := by omega
  have hi : x.val + 0x80 < 0xC0 := by have := x.isLt; omega
  simp [pageOf, hn, lo, hi]

/-- The addresses of the SDS pages (R575). -/
theorem pageOf_sds (m : Fin 8) {o : Nat} (ho : o < 0x1000) : pageOf (0xC0000 + m * 0x1000 + o) = some (.sds, m.val) := by
  have hn : (0xC0000 + m.val * 0x1000 + o) / 0x1000 = m.val + 0xC0 := by omega
  have lo (n : Nat) (h : n ≤ 0xC0) : ¬ m.val + 0xC0 < n := by omega
  have hi : m.val + 0xC0 < 0xC8 := by have := m.isLt; omega
  simp [pageOf, hn, lo, hi]

/-- The addresses of the page of Caldera (R575). -/
theorem pageOf_xbar {o : Nat} (ho : o < 0x1000) : pageOf (0x800000 + o) = some (.xbar, 0) := by
  have hn : (0x800000 + o) / 0x1000 = 0x800 := by omega
  simp [pageOf, hn]

section
variable {o : Nat} {r : RegD} (ho : o < 0x1000) (ha : o % 4 = 0) (hpast : 0x40 ≤ o) (hw : r.wide = false)
include ho ha hpast hw

theorem plainAt_port (x : PortN) (hd : regs_port.find? (fun r => r.covers o) = some r) : PlainAt (0x80000 + x * 0x1000 + o) .port x r := by
  have off : (0x80000 + x.val * 0x1000 + o) % 0x1000 = o := by omega
  exact plainAt_of_page (pageOf_port x ho) rfl (off.symm ▸ hd) hw (by omega) (by omega) (.inl (by omega))

theorem plainAt_sds (m : Fin 8) (hd : regs_sds.find? (fun r => r.covers o) = some r) : PlainAt (0xC0000 + m * 0x1000 + o) .sds m r := by
  have off : (0xC0000 + m.val * 0x1000 + o) % 0x1000 = o := by omega
  exact plainAt_of_page (pageOf_sds m ho) rfl (off.symm ▸ hd) hw (by omega) (by omega) (.inl (by omega))

theorem plainAt_xbar (hd : regs_xbar.find? (fun r => r.covers o) = some r) : PlainAt (0x800000 + o) .xbar 0 r := by
  have off : (0x800000 + o) % 0x1000 = o := by omega
  exact plainAt_of_page (pageOf_xbar ho) rfl (off.symm ▸ hd) hw (by omega) (by omega) (.inr (by omega))

end

end Sys2Proof.Machine
end

section
/-! PROOFS. The registers of ports and lanes (R42, R46, R57, R61). -/

namespace Sys2Proof.Machine

/-! ### PORT_MODE (R46) -/

theorem plainAt_portMode (x : PortN) : PlainAt (R.PORT_MODE x) .port x regs_port[0] := by
  rw [show R.PORT_MODE x = 0x80000 + x * 0x1000 + 0x40 by unfold R.PORT_MODE; omega]
  exact plainAt_port (by decide) (by decide) (by decide) rfl x rfl

/-- A write of a register of a PORT page follows the rules of the page. -/
theorem writeReg_port {a : Nat} {x : PortN} {r : RegD} (h : PlainAt a .port x r) (s : State) (who : Nat) (v : W32) :
    s.writeReg who (.here a) v = s.writePort who (.here a) v x := by
  unfold State.writeReg
  rw [h.page]

theorem writePort_mode {h : Hit} (off : h.cap % 0x1000 = 0x40) (s : State) (who : Nat) (v : W32) (x : Nat) : s.writePort who h v x =
    s.putIf who h v (!(s.flag (R.PORT_CTL x) F.PORT_CTL_EN) && s.modeOk x (getF v F.PORT_MODE_MODE)) := by
  unfold State.writePort
  simp only [off]

section
variable {s : State} {who : Req} {x : PortN} {v : W32}

/-- PORT_MODE is stored where its port is disabled and the mode is one of R45, and refused otherwise. -/
theorem exec_portModeWrite (ho : s.open who (R.PORT_MODE x)) : exec (.portModeWrite who x v) s =
    .next (s.putIf who.toNat (.here (R.PORT_MODE x)) v
      (!(s.flag (R.PORT_CTL x) F.PORT_CTL_EN) && s.modeOk x (getF v F.PORT_MODE_MODE))) := by
  have off : R.PORT_MODE x % 0x1000 = 0x40 := by unfold R.PORT_MODE; omega
  refine ((plainAt_portMode x).regWrite ho (by decide) (by decide) (by decide) v).trans (congrArg Host.Outcome.next ?_)
  rw [writeReg_port (plainAt_portMode x), writePort_mode off]

theorem portModeWrite_stores (ho : s.open who (R.PORT_MODE x)) (he : s.flag (R.PORT_CTL x) F.PORT_CTL_EN = false)
    (hm : s.modeOk x (bits v.toNat 3 0) = true) : Completes (.portModeWrite who x v) s fun t =>
      s.onlyRegs t [R.PORT_MODE x] ∧ t.pMode x = bits v.toNat 3 0 := by
  have ok : (!(s.flag (R.PORT_CTL x) F.PORT_CTL_EN) && s.modeOk x (getF v F.PORT_MODE_MODE)) = true := by
    rw [he]; exact hm
  refine ⟨_, (exec_portModeWrite ho).trans (congrArg Host.Outcome.next (if_pos ok)), onlyRegs_putW, ?_⟩
  exact fld_putW (plainAt_portMode x) (by decide) (f := ⟨F.PORT_MODE_MODE, .rw, 0⟩) (by decide)

theorem portModeWrite_refused (ho : s.open who (R.PORT_MODE x))
    (h : s.flag (R.PORT_CTL x) F.PORT_CTL_EN = true ∨ s.modeOk x (bits v.toNat 3 0) = false) :
    exec (.portModeWrite who x v) s = .next (s.violAt who.toNat 3 (R.PORT_MODE x)) := by
  have no : (!(s.flag (R.PORT_CTL x) F.PORT_CTL_EN) && s.modeOk x (getF v F.PORT_MODE_MODE)) = false := by
    rcases h with h | h
    · rw [h]; rfl
    · rw [show s.modeOk x (getF v F.PORT_MODE_MODE) = false from h, Bool.and_false]
  exact (exec_portModeWrite ho).trans (congrArg Host.Outcome.next (if_neg (ne_true_of_eq_false no)))

end

/-! ### A link that goes down (R56–R58) -/

section
variable {s : State} {x reason : Nat}

/-- Where no frame is sent or received, a cut leaves the state. -/
theorem cutPort_frameless (ht : s.tx x = none) (hp : s.pkts = []) : s.cutPort x = s := by
  unfold State.cutPort
  simp only [ht, hp]
  rfl

/-- PORT_LINK of a port that has gone down. -/
def State.linkMarked (s : State) (x reason : Nat) : State :=
  let r := R.PORT_LINK x
  (((s.setFld r F.PORT_LINK_UP 0).setFld r F.PORT_LINK_AN_DONE 0).setFld r F.PORT_LINK_LT_DONE 0).setFld r F.PORT_LINK_REASON reason

theorem linkMarked_shows (hr : reason < 16) : (s.linkMarked x reason).linkUp x = false ∧
    (s.linkMarked x reason).fld (R.PORT_LINK x) F.PORT_LINK_REASON = reason := by
  have below {t : State} {f : Fld} {n : Nat} (order : f.lo ≤ f.hi) (fits : f.hi < 32) (h : f.hi < F.PORT_LINK_UP.lo) :
      (t.setFld (R.PORT_LINK x) f n).fld (R.PORT_LINK x) F.PORT_LINK_UP = t.fld (R.PORT_LINK x) F.PORT_LINK_UP :=
    fld_setFld_above order fits h
  have up : (s.linkMarked x reason).fld (R.PORT_LINK x) F.PORT_LINK_UP = 0 := by
    unfold State.linkMarked
    rw [below (by decide) (by decide) (by decide), below (by decide) (by decide) (by decide), below (by decide) (by decide) (by decide),
      fld_setFld_same _ _ _ _ (by decide) (by decide)]
    rfl
  refine ⟨?_, (fld_setFld_same _ _ _ _ (by decide) (by decide)).trans (Nat.mod_eq_of_lt hr)⟩
  rw [State.linkUp, State.flag, up]
  rfl

/-- The registers that the end of a link writes: the link's own, the counter and the causes of its page. -/
def linkRegs (x : Nat) : List Nat := [R.PORT_LINK x, R.LINK_DOWN x, 0x80000 + x * 0x1000 + 0x10]

theorem regsKept_linkMarked : s.regsKept (s.linkMarked x reason) [R.PORT_LINK x] :=
  (((State.regsKept.refl.setFld List.mem_cons_self).setFld List.mem_cons_self).setFld List.mem_cons_self).setFld List.mem_cons_self

/-- The state in which a down transition has been marked, counted and raised. -/
def State.linkCounted (s : State) (x reason : Nat) : State :=
  (if s.linkUp x then (s.linkMarked x reason).cnt (R.LINK_DOWN x) else s.linkMarked x reason).raise (0x80000 + x * 0x1000) 0

theorem regsOnly_linkMarked : s.regsOnly (s.linkMarked x reason) := State.regsOnly.refl.setFld.setFld.setFld.setFld

theorem regsOnly_linkCounted : s.regsOnly (s.linkCounted x reason) := by
  unfold State.linkCounted
  split
  · exact regsOnly_linkMarked.cnt.raise
  · exact regsOnly_linkMarked.raise

theorem regsKept_linkCounted : (s.linkMarked x reason).regsKept (s.linkCounted x reason) [R.LINK_DOWN x, 0x80000 + x * 0x1000 + 0x10] :=
  (regsKept_ite (State.regsKept.refl.cnt (by simp)) .refl).raise (by simp)

/-- Where no frame is sent or received, a down transition changes registers and reports itself, and nothing else. -/
theorem linkGoesDown_frameless (ht : s.tx x = none) (hp : s.pkts = []) : s.linkGoesDown x reason =
    { s.linkCounted x reason with linkReps := s.linkReps ++ [{ port := x, up := false, reason := reason, time := s.time.d }] } := by
  obtain ⟨r, h⟩ := regsOnly_linkMarked.cnt (s := s) (t := s.linkMarked x reason) (a := R.LINK_DOWN x)
  have cut : ((s.linkMarked x reason).cnt (R.LINK_DOWN x)).cutPort x = (s.linkMarked x reason).cnt (R.LINK_DOWN x) :=
    cutPort_frameless (by rw [h]; exact ht) (by rw [h]; exact hp)
  have counted : ((if s.linkUp x then ((s.linkMarked x reason).cnt (R.LINK_DOWN x)).cutPort x else s.linkMarked x reason).raise
      (0x80000 + x * 0x1000) 0) = s.linkCounted x reason := by rw [cut]; rfl
  obtain ⟨r, h⟩ := regsOnly_linkCounted (s := s) (x := x) (reason := reason)
  have reps : (s.linkCounted x reason).linkReps = s.linkReps := by rw [h]
  rw [← reps, ← counted]
  rfl


/-! ### A port that is disabled (R57) -/

/-- A register but the pauses of the port, once the port is off. -/
theorem reg_portOff (ht : s.tx x = none) (hp : s.pkts = []) {r : Nat} (hr : r ≠ R.TM_PORT_STAT x) :
    (s.portOff x).reg r = (s.linkCounted x 6).reg r := by
  unfold State.portOff
  rw [reg_setFld_other _ _ _ _ _ hr, linkGoesDown_frameless ht hp]
  rfl

theorem portOff_frameless (ht : s.tx x = none) (hp : s.pkts = []) :
    (s.portOff x).linkUp x = false ∧ (s.portOff x).fld (R.PORT_LINK x) F.PORT_LINK_REASON = 6 ∧
      (s.portOff x).linkReps = s.linkReps ++ [{ port := x, up := false, reason := 6, time := s.time.d }] ∧
      (s.portOff x).reg (R.PORT_CTL x) = s.reg (R.PORT_CTL x) := by
  have linkStat : R.PORT_LINK x ≠ R.TM_PORT_STAT x := by unfold R.PORT_LINK R.TM_PORT_STAT; omega
  have ctlStat : R.PORT_CTL x ≠ R.TM_PORT_STAT x := by unfold R.PORT_CTL R.TM_PORT_STAT; omega
  have linkOff : R.PORT_LINK x ∉ [R.LINK_DOWN x, 0x80000 + x * 0x1000 + 0x10] := by simp [R.PORT_LINK, R.LINK_DOWN]; omega
  have ctlOff : R.PORT_CTL x ∉ [R.LINK_DOWN x, 0x80000 + x * 0x1000 + 0x10] := by simp [R.PORT_CTL, R.LINK_DOWN]; omega
  have ctlLink : R.PORT_CTL x ∉ [R.PORT_LINK x] := by simp [R.PORT_CTL, R.PORT_LINK]
  have link : (s.portOff x).reg (R.PORT_LINK x) = (s.linkMarked x 6).reg (R.PORT_LINK x) :=
    (reg_portOff ht hp linkStat).trans (regsKept_linkCounted _ linkOff)
  obtain ⟨up, reason⟩ := linkMarked_shows (s := s) (x := x) (reason := 6) (by decide)
  refine ⟨?_, ?_, congrArg State.linkReps (linkGoesDown_frameless ht hp), ?_⟩
  · rwa [State.linkUp, State.flag, State.fld, link]
  · rwa [State.fld, link]
  · rw [reg_portOff ht hp ctlStat, regsKept_linkCounted _ ctlOff, regsKept_linkMarked _ ctlLink]

end

/-- Bits of a number below the place where it is cut. -/
theorem bits_mod_two_pow {w hi lo : Nat} (h : hi < w) (n : Nat) : bits (n % 2 ^ w) hi lo = bits n hi lo := by
  unfold bits
  by_cases order : lo ≤ hi
  · rw [show w = lo + (w - lo) by omega, Nat.pow_add, Nat.mod_mul_right_div_self, Nat.mod_mod_of_dvd _ (Nat.pow_dvd_pow 2 (by omega))]
  · rw [show hi + 1 - lo = 0 by omega, Nat.pow_zero, Nat.mod_one, Nat.mod_one]

/-- The word of PORT_DISABLE: EN is clear, and every field below it is as given. -/
theorem getF_disable (v : W32) : getF (v &&& 0x7FFFFFFF) F.PORT_CTL_EN = 0 ∧
    getF (v &&& 0x7FFFFFFF) F.PORT_CTL_MAXFRM = bits v.toNat 13 0 := by
  have cut : (v &&& 0x7FFFFFFF).toNat = v.toNat % 2 ^ 31 := by
    rw [BitVec.toNat_and]
    exact Nat.and_two_pow_sub_one_eq_mod v.toNat 31
  rw [getF, getF, cut]
  refine ⟨?_, bits_mod_two_pow (by decide) _⟩
  have none_above : v.toNat % 2 ^ 31 / 2 ^ 31 = 0 := Nat.div_eq_of_lt (Nat.mod_lt _ (Nat.two_pow_pos 31))
  exact congrArg (· % 2) none_above

theorem plainAt_portCtl (x : PortN) : PlainAt (R.PORT_CTL x) .port x regs_port[1] := by
  rw [show R.PORT_CTL x = 0x80000 + x * 0x1000 + 0x44 by unfold R.PORT_CTL; omega]
  exact plainAt_port (by decide) (by decide) (by decide) rfl x rfl

theorem writePort_ctl {h : Hit} (off : h.cap % 0x1000 = 0x44) {s : State} {who : Nat} {v : W32} {x : Nat}
    (hn : 64 ≤ getF v F.PORT_CTL_MAXFRM) (hm : getF v F.PORT_CTL_MAXFRM ≤ 9216) : s.writePort who h v x =
      if s.flag (R.PORT_CTL x) F.PORT_CTL_EN ∧ ¬ v.getLsbD 31 then (s.putW h v).portOff x else s.putW h v := by
  have good : badIf (decide (getF v F.PORT_CTL_MAXFRM < 64) || decide (9216 < getF v F.PORT_CTL_MAXFRM)) F.PORT_CTL_MAXFRM = [] := by
    rw [decide_eq_false (Nat.not_lt.mpr hn), decide_eq_false (Nat.not_lt.mpr hm)]
    rfl
  have all : s.putF who h v [] = s.putW h v := rfl
  unfold State.writePort
  simp only [off, good, all]

theorem portDisable_ends_link {s : State} {who : Req} {x : PortN} {v : W32} (ho : s.open who (R.PORT_CTL x))
    (he : s.flag (R.PORT_CTL x) F.PORT_CTL_EN = true) (hn : 64 ≤ bits v.toNat 13 0) (hm : bits v.toNat 13 0 ≤ 9216) (ht : s.tx x = none)
    (hp : s.pkts = []) : Completes (.portDisable who x v) s fun t => t.flag (R.PORT_CTL x) F.PORT_CTL_EN = false ∧ t.linkUp x = false ∧
      t.fld (R.PORT_LINK x) F.PORT_LINK_REASON = 6 ∧ t.linkReps = s.linkReps ++ [{ port := x, up := false, reason := 6, time := s.time.d }] := by
  obtain ⟨clear, maxfrm⟩ := getF_disable v
  have off : R.PORT_CTL x % 0x1000 = 0x44 := by unfold R.PORT_CTL; omega
  have disables : s.flag (R.PORT_CTL x) F.PORT_CTL_EN = true ∧ ¬ (v &&& 0x7FFFFFFF).getLsbD 31 = true := ⟨he, by simp⟩
  have hexec : exec (.portDisable who x v) s = .next ((s.putW (.here (R.PORT_CTL x)) (v &&& 0x7FFFFFFF)).portOff x) := by
    refine ((plainAt_portCtl x).regWrite ho (by decide) (by decide) (by decide) _).trans (congrArg Host.Outcome.next ?_)
    rw [writeReg_port (plainAt_portCtl x), writePort_ctl off (maxfrm ▸ hn) (maxfrm ▸ hm), if_pos disables]
  have en : (s.putW (.here (R.PORT_CTL x)) (v &&& 0x7FFFFFFF)).fld (R.PORT_CTL x) F.PORT_CTL_EN = 0 :=
    (fld_putW (plainAt_portCtl x) (by decide) (f := ⟨F.PORT_CTL_EN, .rw, 0⟩) (by decide)).trans clear
  obtain ⟨up, reason, reps, ctl⟩ := portOff_frameless (s := s.putW (.here (R.PORT_CTL x)) (v &&& 0x7FFFFFFF)) (x := x) ht hp
  refine ⟨_, hexec, ?_, up, reason, reps⟩
  rw [State.flag, State.fld, ctl, ← State.fld, en]
  rfl

end Sys2Proof.Machine
end

section
/-! PROOFS. The registers of lanes and of the stamp FIFO (R42, R51, R61, R582). -/

namespace Sys2Proof.Machine

/-! ### Lane maps (R42) -/

/-- A map of eight places that names every lane is a permutation. -/
theorem isPerm8_of_onto {n : Nat} (h : ∀ l, l < 8 → ∃ k, k < 8 ∧ bits n (3 * k + 2) (3 * k) = l) : isPerm8 (n % 2 ^ 24) = true := by
  refine List.all_eq_true.mpr fun l hl => List.any_eq_true.mpr ?_
  obtain ⟨k, hk, e⟩ := h l (List.mem_range.mp hl)
  refine ⟨k, List.mem_range.mpr hk, ?_⟩
  rw [bits_mod_two_pow (by omega), e, beq_self_eq_true]

theorem plainAt_laneMapTx (m : Fin 8) : PlainAt (R.SDS_LANE_MAP_TX m) .sds m regs_sds[0] := by
  rw [show R.SDS_LANE_MAP_TX m = 0xC0000 + m * 0x1000 + 0x40 by unfold R.SDS_LANE_MAP_TX; omega]
  exact plainAt_sds (by decide) (by decide) (by decide) rfl m rfl

theorem plainAt_laneMapRx (m : Fin 8) : PlainAt (R.SDS_LANE_MAP_RX m) .sds m regs_sds[1] := by
  rw [show R.SDS_LANE_MAP_RX m = 0xC0000 + m * 0x1000 + 0x44 by unfold R.SDS_LANE_MAP_RX; omega]
  exact plainAt_sds (by decide) (by decide) (by decide) rfl m rfl

theorem plainAt_lanePol (m : Fin 8) : PlainAt (R.SDS_LANE_POL m) .sds m regs_sds[2] := by
  rw [show R.SDS_LANE_POL m = 0xC0000 + m * 0x1000 + 0x48 by unfold R.SDS_LANE_POL; omega]
  exact plainAt_sds (by decide) (by decide) (by decide) rfl m rfl

section
variable {s : State} {who : Req} {m : Fin 8} {a : Nat} {r : RegD} {v : W32}

/-- A register of an SDS page is stored where every port of its lanes is disabled and a map is a permutation, and refused otherwise. -/
theorem regWrite_sds (h : PlainAt a .sds m r) (ho : s.open who a) (hw : r.writable = true) : s.regWrite who a v =
    .next (s.putIf who.toNat (.here a) v (s.macroOff m && (a % 0x1000 == 0x48 || isPerm8 (v.toNat % 2 ^ 24)))) := by
  refine (h.regWrite ho (by decide) (by decide) hw v).trans (congrArg Host.Outcome.next ?_)
  unfold State.writeReg
  rw [h.page]
  rfl

theorem regWrite_sds_refused (h : PlainAt a .sds m r) (ho : s.open who a) (hw : r.writable = true) (hm : s.macroOff m = false) :
    s.regWrite who a v = .next (s.violAt who.toNat 3 a) := by
  have no : (s.macroOff m && (a % 0x1000 == 0x48 || isPerm8 (v.toNat % 2 ^ 24))) = false := by rw [hm, Bool.false_and]
  exact (regWrite_sds h ho hw).trans (congrArg Host.Outcome.next (if_neg (ne_true_of_eq_false no)))

theorem sdsLaneMapWrite_refused (which : LaneReg) :
    let a := match which with | .mapTx => R.SDS_LANE_MAP_TX m | .mapRx => R.SDS_LANE_MAP_RX m | .pol => R.SDS_LANE_POL m
    s.open who a → s.macroOff m = false → exec (.sdsLaneMapWrite who m which v) s = .next (s.violAt who.toNat 3 a) := by
  cases which with
  | mapTx => exact fun ho hm => regWrite_sds_refused (plainAt_laneMapTx m) ho (by decide) hm
  | mapRx => exact fun ho hm => regWrite_sds_refused (plainAt_laneMapRx m) ho (by decide) hm
  | pol => exact fun ho hm => regWrite_sds_refused (plainAt_lanePol m) ho (by decide) hm

theorem sdsLaneMapWrite_stores (ho : s.open who (R.SDS_LANE_MAP_TX m)) (hm : s.macroOff m = true)
    (hp : ∀ l, l < 8 → ∃ k, k < 8 ∧ bits v.toNat (3 * k + 2) (3 * k) = l) : Completes (.sdsLaneMapWrite who m .mapTx v) s fun t =>
      s.onlyRegs t [R.SDS_LANE_MAP_TX m] ∧ bits (t.reg (R.SDS_LANE_MAP_TX m)).toNat 23 0 = bits v.toNat 23 0 := by
  have ok : (s.macroOff m && (R.SDS_LANE_MAP_TX m % 0x1000 == 0x48 || isPerm8 (v.toNat % 2 ^ 24))) = true := by
    rw [hm, isPerm8_of_onto hp, Bool.or_true, Bool.true_and]
  refine ⟨_, (regWrite_sds (plainAt_laneMapTx m) ho (by decide)).trans (congrArg Host.Outcome.next (if_pos ok)), onlyRegs_putW, ?_⟩
  exact fld_putW (plainAt_laneMapTx m) (by decide) (f := ⟨F.SDS_LANE_MAP_TX_MAP, .rw, 0xFAC688⟩) (by decide)

end

/-! ### The stamp FIFO (R51, R61) -/

theorem plainAt_stampTag (x : PortN) : PlainAt (R.PORT_TS_TAG x) .port x regs_port[7] := by
  rw [show R.PORT_TS_TAG x = 0x80000 + x * 0x1000 + 0x5C by unfold R.PORT_TS_TAG; omega]
  exact plainAt_port (by decide) (by decide) (by decide) rfl x rfl

theorem plainAt_stampSecHi (x : PortN) : PlainAt (R.PORT_TS_SEC_HI x) .port x regs_port[10] := by
  rw [show R.PORT_TS_SEC_HI x = 0x80000 + x * 0x1000 + 0x68 by unfold R.PORT_TS_SEC_HI; omega]
  exact plainAt_port (by decide) (by decide) (by decide) rfl x rfl

section
variable {s : State} {who : Nat} {x : PortN}

/-- What a read of a register of a PORT page does. -/
theorem readHit_port {a : Nat} {r : RegD} (h : PlainAt a .port x r) : s.readHit who (.here a) =
    if a % 0x1000 = 0x5C then (if (s.stampL x).isEmpty then (0, s) else s.plainRead who (.here a))
    else if a % 0x1000 = 0x68 then
      ((s.plainRead who (.here a)).1, if (s.latched who a).isSome then
        { (s.plainRead who (.here a)).2 with stamps := smSet (fun _ => []) s.stamps x ((s.stampL x).drop 1) } else (s.plainRead who (.here a)).2)
    else s.plainRead who (.here a) := by
  have past := h.past
  unfold State.readHit
  dsimp only
  rw [if_neg (show ¬ a % 0x1000 = 0x1C by omega), if_neg (Nat.not_lt.mpr past), h.desc, if_neg (by simp), h.page]

/-- The registers of the stamp FIFO show its oldest entry. -/
theorem value_stamp {o : Nat} (hlo : 0x58 ≤ o) (hhi : o < 0x6C) : s.value (.here (0x80000 + x * 0x1000 + o)) = w32 (s.stampReg x o) := by
  have off : (0x80000 + x.val * 0x1000 + o) % 0x1000 = o := by omega
  have shown : s.shown (.here (0x80000 + x * 0x1000 + o)) = some (w32 (s.stampReg x o)) := by
    unfold State.shown
    dsimp only
    rw [pageOf_port x (by omega), off]
    exact if_pos ⟨hlo, hhi⟩
  unfold State.value
  dsimp only
  rw [off, shown, if_neg (by omega), if_neg (by omega)]

/-- Without an RC field a read clears nothing. -/
theorem clearRead_of_no_rc {a : Nat} {k : PageKind} {i : Nat} {r : RegD} (h : PlainAt a k i r)
    (hr : (r.flds.filter fun f => f.ty == .rc).isEmpty = true) : s.clearRead (.here a) = s := by
  unfold State.clearRead
  rw [h.desc]
  simp only [hr, if_true, ite_self]

/-- A read of PORT_TS_TAG latches the rest of the entry for its reader (R582). -/
theorem latchGroup_stampTag : s.latchGroup who (.here (R.PORT_TS_TAG x)) =
    ((s.setLatch who (R.PORT_TS_NS x) (some (w32 (s.stampReg x 0x60)))).setLatch who (R.PORT_TS_SEC_LO x) (some (w32 (s.stampReg x 0x64)))).setLatch
      who (R.PORT_TS_SEC_HI x) (some (w32 (s.stampReg x 0x68))) := by
  have h := plainAt_stampTag x
  have noLog : ¬ R.PORT_TS_TAG x = R.RAS_LOG_W 0 := by unfold R.PORT_TS_TAG R.RAS_LOG_W; omega
  have place (o d : Nat) (e : o = 0x5C + d) : R.PORT_TS_TAG x + d = 0x80000 + x * 0x1000 + o := by unfold R.PORT_TS_TAG; omega
  have ns : R.PORT_TS_NS x = 0x80000 + x * 0x1000 + 0x60 := by unfold R.PORT_TS_NS; omega
  have lo : R.PORT_TS_SEC_LO x = 0x80000 + x * 0x1000 + 0x64 := by unfold R.PORT_TS_SEC_LO; omega
  have hi : R.PORT_TS_SEC_HI x = 0x80000 + x * 0x1000 + 0x68 := by unfold R.PORT_TS_SEC_HI; omega
  rw [← value_stamp (s := s) (x := x) (by decide) (by decide), ← value_stamp (s := s) (x := x) (by decide) (by decide),
    ← value_stamp (s := s) (x := x) (by decide) (by decide), ns, lo, hi, ← place 0x60 4 rfl, ← place 0x64 8 rfl, ← place 0x68 12 rfl]
  unfold State.latchGroup
  rw [h.desc]
  simp only [h.low, noLog, Bool.false_eq_true, if_false]
  rfl

end

theorem latched_setLatch_same (s : State) (who a : Nat) (v : Option W32) : (s.setLatch who a v).latched who a = v := smGet_smSet_same _ _ _ _

theorem latched_with_rdata (s : State) (w : W32) (who a : Nat) : ({ s with rdata := w } : State).latched who a = s.latched who a := rfl

/-- What the tag and the last word of the oldest stamp are. -/
theorem stampReg_of_oldest {s : State} {x tag st : Nat} {l : List (Nat × Nat)} (h : s.stampL x = (tag, st) :: l) :
    s.stampReg x 0x5C = st % 65536 * 65536 + tag ∧ s.stampReg x 0x68 = st / 65536 / 1000000000 / 2 ^ 32 % 65536 := by
  unfold State.stampReg
  rw [h]
  exact ⟨rfl, rfl⟩

/-- The state in which the latched stamp has been read to its last word and has left the FIFO. -/
def State.stampTaken (s : State) (who x : Nat) : State :=
  { s.setLatch who (R.PORT_TS_SEC_HI x) none with stamps := smSet (fun _ => []) s.stamps x ((s.stampL x).drop 1) }

theorem stampL_stampTaken (s : State) (who x : Nat) : (s.stampTaken who x).stampL x = (s.stampL x).drop 1 := smGet_smSet_same _ _ _ _

theorem latched_stampTaken (s : State) (who x : Nat) : (s.stampTaken who x).latched who (R.PORT_TS_SEC_HI x) = none :=
  latched_setLatch_same s who (R.PORT_TS_SEC_HI x) none

section
variable {s : State} {who : Req} {x : PortN}

theorem portTsTagRead_empty (ho : s.open who (R.PORT_TS_TAG x)) (he : s.stampL x = []) :
    exec (.portTsTagRead who x) s = .next { s with rdata := 0 } := by
  have off : R.PORT_TS_TAG x % 0x1000 = 0x5C := by unfold R.PORT_TS_TAG; omega
  have read : s.readHit who.toNat (.here (R.PORT_TS_TAG x)) = (0, s) := by
    rw [readHit_port (plainAt_stampTag x), if_pos off, he]
    rfl
  have hexec := (plainAt_stampTag x).regRead ho
  rw [read] at hexec
  exact hexec

theorem portTsTagRead_latches {tag st : Nat} {l : List (Nat × Nat)} (ho : s.open who (R.PORT_TS_TAG x)) (he : s.stampL x = (tag, st) :: l)
    (hl : s.latched who.toNat (R.PORT_TS_TAG x) = none) : Completes (.portTsTagRead who x) s fun t =>
      t.rdata = BitVec.ofNat 32 (st % 65536 * 65536 + tag) ∧ t.stamps = s.stamps ∧
        t.latched who.toNat (R.PORT_TS_SEC_HI x) = some (BitVec.ofNat 32 (st / 65536 / 1000000000 / 2 ^ 32 % 65536)) ∧ t.regs = s.regs := by
  have off : R.PORT_TS_TAG x % 0x1000 = 0x5C := by unfold R.PORT_TS_TAG; omega
  obtain ⟨first, last⟩ := stampReg_of_oldest he
  have val : s.value (.here (R.PORT_TS_TAG x)) = w32 (st % 65536 * 65536 + tag) := by
    rw [show R.PORT_TS_TAG x = 0x80000 + x * 0x1000 + 0x5C by unfold R.PORT_TS_TAG; omega, value_stamp (by decide) (by decide), first]
  have plain : s.plainRead who.toNat (.here (R.PORT_TS_TAG x)) = (w32 (st % 65536 * 65536 + tag), s.latchGroup who.toNat (.here (R.PORT_TS_TAG x))) := by
    unfold State.plainRead
    rw [hl, val, clearRead_of_no_rc (plainAt_stampTag x) (by decide)]
  have hexec := (plainAt_stampTag x).regRead ho
  rw [readHit_port (plainAt_stampTag x), if_pos off, if_neg (by simp [he]), plain, latchGroup_stampTag, last] at hexec
  refine ⟨_, hexec, rfl, rfl, ?_, rfl⟩
  rw [latched_with_rdata, latched_setLatch_same]
  rfl

theorem portTsSecHiRead_pops {w : W32} (ho : s.open who (R.PORT_TS_SEC_HI x)) (hl : s.latched who.toNat (R.PORT_TS_SEC_HI x) = some w) :
    Completes (.portTsSecHiRead who x) s fun t => t.rdata = w ∧ t.stampL x = (s.stampL x).drop 1 ∧
      t.latched who.toNat (R.PORT_TS_SEC_HI x) = none ∧ t.regs = s.regs := by
  have noTag : ¬ R.PORT_TS_SEC_HI x % 0x1000 = 0x5C := by unfold R.PORT_TS_SEC_HI; omega
  have off : R.PORT_TS_SEC_HI x % 0x1000 = 0x68 := by unfold R.PORT_TS_SEC_HI; omega
  have plain : s.plainRead who.toNat (.here (R.PORT_TS_SEC_HI x)) = (w, s.setLatch who.toNat (R.PORT_TS_SEC_HI x) none) := by
    unfold State.plainRead
    rw [hl]
  have read : s.readHit who.toNat (.here (R.PORT_TS_SEC_HI x)) = (w, s.stampTaken who.toNat x) := by
    rw [readHit_port (plainAt_stampSecHi x), if_neg noTag, if_pos off, plain, hl]
    rfl
  have hexec := (plainAt_stampSecHi x).regRead ho
  rw [read] at hexec
  exact ⟨_, hexec, rfl, stampL_stampTaken s who.toNat x, latched_stampTaken s who.toNat x, rfl⟩

end

end Sys2Proof.Machine
end

section
/-! PROOFS. The registers of Caldera (R345, R355, R363), and the write rules of ports and crossbar put together. -/

namespace Sys2Proof.Machine

/-! ### Registers copied one after the other -/

/-- Registers `src i` are copied to `dst i`, for `i` in a list. -/
def State.copyRegs (s : State) (dst src : Nat → Nat) (l : List Nat) : State := l.foldl (fun s i => s.setReg (dst i) (s.reg (src i))) s

section
variable {dst src : Nat → Nat} {l : List Nat}

theorem regsOnly_copyRegs (s : State) : s.regsOnly (s.copyRegs dst src l) := by
  induction l generalizing s with
  | nil => exact .refl
  | cons j l ih => exact State.regsOnly.refl.setReg.trans (ih _)

theorem regsKept_copyRegs (s : State) : s.regsKept (s.copyRegs dst src l) (l.map dst) := by
  induction l generalizing s with
  | nil => exact .refl
  | cons j l ih => exact (State.regsKept.refl.setReg List.mem_cons_self).trans ((ih _).mono fun r hr => List.mem_cons_of_mem _ hr)

/-- A copy reads as its source did, where no copy before it falls on the source. -/
theorem reg_copyRegs (hd : ∀ i j, dst i = dst j → i = j) {i : Nat} (hi : i ∈ l) (hs : ∀ j ∈ l, src i ≠ dst j) (s : State) :
    (s.copyRegs dst src l).reg (dst i) = s.reg (src i) := by
  induction l generalizing s with
  | nil => exact absurd hi List.not_mem_nil
  | cons j l ih =>
    show ((s.setReg (dst j) (s.reg (src j))).copyRegs dst src l).reg (dst i) = _
    by_cases h : i ∈ l
    · rw [ih h fun k hk => hs k (List.mem_cons_of_mem _ hk), reg_setReg_other _ _ _ _ (hs j List.mem_cons_self)]
    · have off : dst i ∉ l.map dst := fun hm => by
        obtain ⟨k, hk, e⟩ := List.mem_map.mp hm
        exact h (hd k i e ▸ hk)
      obtain rfl := (List.mem_cons.mp hi).resolve_right h
      rw [regsKept_copyRegs _ _ off, reg_setReg_same]

end

/-! ### Multicast groups (R345, R363) -/

/-- The MAP registers. -/
def mapReg (i : Nat) : Nat := R.XB_MCG_MAP_0 + 4 * i

theorem mcgLoad_eq (s : State) (g : Nat) : s.mcgLoad g = s.copyRegs mapReg (mcgReg g) [0, 1, 2] := rfl
theorem mcgStore_eq (s : State) (g : Nat) : s.mcgStore g = s.copyRegs (mcgReg g) mapReg [0, 1, 2] := rfl

theorem mapReg_inj (i j : Nat) (h : mapReg i = mapReg j) : i = j := by unfold mapReg at h; omega
theorem mcgReg_inj (g i j : Nat) (h : mcgReg g i = mcgReg g j) : i = j := by unfold mcgReg at h; omega

theorem plainAt_mcgSel : PlainAt R.XB_MCG_SEL .xbar 0 regs_xbar[4] := plainAt_xbar (o := 0x50) (by decide) (by decide) (by decide) rfl rfl

theorem plainAt_mcgMap2 : PlainAt R.XB_MCG_MAP_2 .xbar 0 regs_xbar[7] := plainAt_xbar (o := 0x5C) (by decide) (by decide) (by decide) rfl rfl

/-- A write of a register of Caldera's page follows the rules of the page. -/
theorem writeReg_xbar {a : Nat} {r : RegD} (h : PlainAt a .xbar 0 r) (s : State) (who : Nat) (v : W32) :
    s.writeReg who (.here a) v = s.writeXbar who (.here a) v := by
  unfold State.writeReg
  rw [h.page]

section
variable {s : State} {who : Req} {v : W32}

theorem exec_xbMcgSelWrite (ho : s.open who R.XB_MCG_SEL) : exec (.xbMcgSelWrite who v) s =
    .next ((s.putW (.here R.XB_MCG_SEL) v).copyRegs mapReg (mcgReg (bits v.toNat 15 0)) [0, 1, 2]) := by
  refine (plainAt_mcgSel.regWrite ho (by decide) (by decide) (by decide) v).trans (congrArg Host.Outcome.next ?_)
  rw [writeReg_xbar plainAt_mcgSel, State.writeXbar, if_pos (by decide), mcgLoad_eq]
  rfl

theorem exec_xbMcgMap2Write (ho : s.open who R.XB_MCG_MAP_2) : exec (.xbMcgMap2Write who v) s =
    .next ((s.putW (.here R.XB_MCG_MAP_2) v).copyRegs (mcgReg (s.fld R.XB_MCG_SEL F.XB_MCG_SEL_GROUP)) mapReg [0, 1, 2]) := by
  refine (plainAt_mcgMap2.regWrite ho (by decide) (by decide) (by decide) v).trans (congrArg Host.Outcome.next ?_)
  rw [writeReg_xbar plainAt_mcgMap2, State.writeXbar, if_neg (by decide), if_pos (by decide), mcgStore_eq]

/-- The registers of a group and the MAP registers lie apart. -/
theorem mcgReg_ne_mapReg {g i j : Nat} (hj : j ∈ [0, 1, 2]) : mcgReg g i ≠ mapReg j := by
  simp only [List.mem_cons, List.not_mem_nil, or_false] at hj
  unfold mcgReg mapReg R.XB_MCG_MAP_0
  omega

theorem xbMcgSelWrite_loads (ho : s.open who R.XB_MCG_SEL) : Completes (.xbMcgSelWrite who v) s fun t =>
    t.fld R.XB_MCG_SEL F.XB_MCG_SEL_GROUP = bits v.toNat 15 0 ∧
      (∀ i, i < 3 → t.reg (R.XB_MCG_MAP_0 + 4 * i) = s.reg (mcgReg (bits v.toNat 15 0) i)) ∧
      s.onlyRegs t [R.XB_MCG_SEL, R.XB_MCG_MAP_0, R.XB_MCG_MAP_1, R.XB_MCG_MAP_2] := by
  have kept := regsKept_copyRegs (dst := mapReg) (src := mcgReg (bits v.toNat 15 0)) (l := [0, 1, 2]) (s.putW (.here R.XB_MCG_SEL) v)
  obtain ⟨-, written⟩ := onlyRegs_putW (s := s) (a := R.XB_MCG_SEL) (v := v)
  refine ⟨_, exec_xbMcgSelWrite ho, ?_, fun i hi => ?_, ?_⟩
  · rw [kept.fld (by decide)]
    exact fld_putW plainAt_mcgSel (by decide) (f := ⟨F.XB_MCG_SEL_GROUP, .rw, 0⟩) (by decide)
  · have listed : i ∈ [0, 1, 2] := by simp; omega
    have sel : mcgReg (bits v.toNat 15 0) i ∉ [R.XB_MCG_SEL] := by simp [mcgReg, R.XB_MCG_SEL]; omega
    exact (reg_copyRegs mapReg_inj listed (fun j hj => mcgReg_ne_mapReg hj) _).trans (written _ sel)
  · exact (State.regsOnly.refl.setReg.trans (regsOnly_copyRegs _)).onlyRegs
      ((written.mono (by simp)).trans (kept.mono (by simp [mapReg, R.XB_MCG_MAP_0, R.XB_MCG_MAP_1, R.XB_MCG_MAP_2])))

theorem xbMcgMap2Write_stores (ho : s.open who R.XB_MCG_MAP_2) : Completes (.xbMcgMap2Write who v) s fun t =>
    let g := s.fld R.XB_MCG_SEL F.XB_MCG_SEL_GROUP
    t.reg (mcgReg g 0) = s.reg R.XB_MCG_MAP_0 ∧ t.reg (mcgReg g 1) = s.reg R.XB_MCG_MAP_1 ∧ bits (t.reg (mcgReg g 2)).toNat 7 0 = bits v.toNat 7 0 ∧
      s.onlyRegs t [R.XB_MCG_MAP_2, mcgReg g 0, mcgReg g 1, mcgReg g 2] := by
  have kept := regsKept_copyRegs (dst := mcgReg (s.fld R.XB_MCG_SEL F.XB_MCG_SEL_GROUP)) (src := mapReg) (l := [0, 1, 2])
    (s.putW (.here R.XB_MCG_MAP_2) v)
  have copied {i : Nat} (hi : i ∈ [0, 1, 2]) := reg_copyRegs (mcgReg_inj (s.fld R.XB_MCG_SEL F.XB_MCG_SEL_GROUP)) hi
    (fun j _ => (mcgReg_ne_mapReg hi).symm) (s.putW (.here R.XB_MCG_MAP_2) v)
  obtain ⟨-, written⟩ := onlyRegs_putW (s := s) (a := R.XB_MCG_MAP_2) (v := v)
  have map2 : getF ((s.putW (.here R.XB_MCG_MAP_2) v).reg R.XB_MCG_MAP_2) F.XB_MCG_MAP_2 = getF v F.XB_MCG_MAP_2 :=
    fld_putW plainAt_mcgMap2 (by decide) (f := ⟨F.XB_MCG_MAP_2, .rw, 0⟩) (by decide)
  refine ⟨_, exec_xbMcgMap2Write ho, (copied (by decide)).trans (written _ (by decide)), (copied (by decide)).trans (written _ (by decide)), ?_,
    (State.regsOnly.refl.setReg.trans (regsOnly_copyRegs _)).onlyRegs ((written.mono (by simp)).trans (kept.mono (by simp)))⟩
  rw [copied (by decide)]
  exact map2

end

/-! ### Flushes (R355) -/

theorem plainAt_xbPort (x : AnyPort) : PlainAt (R.XB_PORT x) .xbar 0 regs_xbar[17] := by
  have desc : ∀ x : AnyPort, regs_xbar.find? (fun r => r.covers (0x200 + x * 4)) = some regs_xbar[17] := by decide
  rw [show R.XB_PORT x = 0x800000 + (0x200 + x * 4) by unfold R.XB_PORT; omega]
  exact plainAt_xbar (by omega) (by omega) (by omega) rfl (desc x)

/-- An order of FLUSH flushes the port. -/
theorem xbPortFlush_flushes {s : State} {who : Req} {x : AnyPort} (ho : s.open who (R.XB_PORT x)) :
    exec (.xbPortFlush who x) s = .next (s.flushPort x) := by
  have off : R.XB_PORT x % 0x1000 = 0x200 + x * 4 := by unfold R.XB_PORT; omega
  have flush : (bitW 29).getLsbD 29 = true := by decide
  refine ((plainAt_xbPort x).regWrite ho (by decide) (by decide) (by decide) _).trans (congrArg Host.Outcome.next ?_)
  rw [writeReg_xbar (plainAt_xbPort x)]
  unfold State.writeXbar
  dsimp only
  rw [off, if_neg (by omega), if_neg (by omega), if_neg (by omega), if_neg (by omega), if_pos (by omega), if_pos flush,
    show (0x200 + x.val * 4 - 0x200) / 4 = x.val by omega]

theorem flushPort_empty {s : State} (h : s.voqs = []) (x : Nat) : s.flushPort x = s := by
  unfold State.flushPort
  rw [h]
  rfl

/-- Settles O32: each command is an access that lands on its register, and follows the rule of its page there (R42, R46, R51, R57, R61, R345,
R355, R582; assumption log 20, 24, 26, 75, 143, 146). -/
theorem portAndCrossbarRegistersFollowTheirRules : Obligations.PortAndCrossbarRegistersFollowTheirRules :=
  ⟨fun _ _ _ _ _ => ⟨portModeWrite_stores, portModeWrite_refused, portDisable_ends_link, sdsLaneMapWrite_refused, sdsLaneMapWrite_stores,
    portTsTagRead_empty, fun _ _ _ => portTsTagRead_latches, fun _ => portTsSecHiRead_pops⟩,
   fun _ _ _ _ => ⟨xbMcgSelWrite_loads, xbMcgMap2Write_stores, fun ho h => (xbPortFlush_flushes ho).trans (by rw [flushPort_empty h]),
    xbPortFlush_flushes⟩⟩

end Sys2Proof.Machine
end

section
/-! PROOFS. The servo of the time unit (R65, R68, R69, R71, R75): which registers and which of the unit's times its operations leave. -/

namespace Sys2Proof.Machine

/-! ### What writes leave of the unit's record -/

section
variable (s : State) (a : Nat)

@[simp] theorem time_setFld (f : Fld) (x : Nat) : (s.setFld a f x).time = s.time := State.setReg_time s a _
@[simp] theorem time_raise (b : Nat) : (s.raise a b).time = s.time := State.setReg_time s (a + 0x10) _
@[simp] theorem time_cnt : (s.cnt a).time = s.time := (State.regsOnly.refl (s := s)).cnt.time
@[simp] theorem time_setTime (t : TimeSt) : (s.setTime t).time = t := rfl

@[simp] theorem time_setTimeAt (n : Nat) : (s.setTimeAt a n).time = s.time := by
  unfold State.setTimeAt
  rw [State.setReg_time, State.setReg_time, State.setReg_time]

theorem reg_setTime (t : TimeSt) : (s.setTime t).reg a = s.reg a := rfl
theorem reg_emit (o : Out) : (s.emit o).reg a = s.reg a := rfl

end

/-! ### Flags -/

/-- A flag reads as its field was set. -/
theorem flag_setFld_same {s : State} {a x : Nat} {f : Fld} (order : f.lo ≤ f.hi) (fits : f.hi < 32) :
    (s.setFld a f x).flag a f = decide (x % 2 ^ (f.hi + 1 - f.lo) ≠ 0) := by
  rw [State.flag, fld_setFld_same _ _ _ _ order fits]

theorem State.regsKept.setTime {s t : State} {l : List Nat} (h : s.regsKept t l) (u : TimeSt) : s.regsKept (t.setTime u) l :=
  fun r hr => h r hr

/-! ### States of the servo (R68) -/

theorem regsOnly_toServo (s : State) (st : Nat) : s.regsOnly (s.toServo st) := by
  unfold State.toServo
  split
  · exact .refl
  · exact State.regsOnly.refl.setFld.raise

theorem regsKept_toServo (s : State) (st : Nat) : s.regsKept (s.toServo st) [R.TIME_STAT, 0x10010] :=
  regsKept_ite .refl ((State.regsKept.refl.setFld (by decide)).raise (by decide))

theorem tState_toServo (s : State) {st : Nat} (h : st < 8) : (s.toServo st).tState = st := by
  unfold State.toServo
  split
  · assumption
  · have stat : R.TIME_STAT ≠ 0x10000 + 0x10 := by decide
    rw [State.tState, State.fld, reg_raise_other _ _ _ _ stat, ← State.fld, fld_setFld_same _ _ _ _ (by decide) (by decide)]
    exact Nat.mod_eq_of_lt h

/-- A change of state is raised. -/
theorem raised_toServo {s : State} {st : Nat} (h : s.tState ≠ st) : ((s.toServo st).reg 0x10010).getLsbD 0 = true := by
  rw [State.toServo, if_neg h]
  exact getLsbD_raise _ 0x10000 (by decide)

/-! ### Samples (R69) -/

/-- The registers that the servo writes. -/
def servoRegs : List Nat := [R.TIME_FREQ, R.TIME_STAT, R.PPS_REJECT, 0x10010]

/-- The servo has acted: only registers of its own have changed, and neither D, nor the last edge, nor memory. -/
structure State.servoed (s t : State) : Prop where
  kept : s.regsKept t servoRegs
  d : t.time.d = s.time.d
  edge : t.time.edge = s.time.edge
  mem : t.mem = s.mem

namespace State.servoed
variable {s t u : State} {a x : Nat} {f : Fld} {v : W32}

theorem refl : s.servoed s := ⟨.refl, rfl, rfl, rfl⟩

theorem trans (h : s.servoed t) (h' : t.servoed u) : s.servoed u :=
  ⟨h.kept.trans h'.kept, h'.d.trans h.d, h'.edge.trans h.edge, h'.mem.trans h.mem⟩

theorem of_regs {l : List Nat} (h : s.regsOnly t) (hk : s.regsKept t l) (hl : ∀ r ∈ l, r ∈ servoRegs) : s.servoed t :=
  ⟨hk.mono hl, congrArg TimeSt.d h.time, congrArg TimeSt.edge h.time, h.mem⟩

theorem setReg (h : s.servoed t) (ha : a ∈ servoRegs) : s.servoed (t.setReg a v) := ⟨h.kept.setReg ha, h.d, h.edge, h.mem⟩

theorem setFld (h : s.servoed t) (ha : a ∈ servoRegs) : s.servoed (t.setFld a f x) := h.setReg ha

theorem setTime (h : s.servoed t) {w : TimeSt} (hd : w.d = t.time.d) (he : w.edge = t.time.edge) : s.servoed (t.setTime w) :=
  ⟨h.kept.setTime w, hd.trans h.d, he.trans h.edge, h.mem⟩

theorem toServo (h : s.servoed t) (st : Nat) : s.servoed (t.toServo st) :=
  h.trans (of_regs (regsOnly_toServo t st) (regsKept_toServo t st) (by decide))

theorem addSlew (h : s.servoed t) (n : Int) : s.servoed (t.addSlew n) :=
  (h.setTime (w := { t.time with slew := t.time.slew + n * nsU }) rfl rfl).setFld (by decide)

end State.servoed

theorem servoed_sample (s : State) (e : Int) (hw : Bool) : s.servoed (s.sample e hw) := by
  unfold State.sample
  extract_lets before s1 ki still s2 fresh s3 good last s4
  have sampled : s.servoed s1 := .setTime .refl rfl rfl
  have slewed : s.servoed s2 := by
    unfold s2
    split
    · have stopped : s.servoed (s1.setTime { s1.time with slew := 0 }) := sampled.setTime rfl rfl
      exact (stopped.addSlew (-e)).setReg (by decide)
    · exact sampled
  have acquired : s.servoed s3 := by
    unfold s3
    split
    · exact slewed.toServo _
    · exact slewed
  have judged : s.servoed s4 := .setTime acquired rfl rfl
  split
  · exact slewed
  · split
    · exact judged.toServo _
    · exact judged

/-! ### HOLDOVER (R71) -/

/-- Entry to HOLDOVER leaves D. -/
theorem enterHoldover_enters (s : State) (h : s.tState ≠ tHOLDOVER) :
    s.enterHoldover.tState = tHOLDOVER ∧ (s.enterHoldover.reg 0x10010).getLsbD 0 = true ∧ s.enterHoldover.time.d = s.time.d := by
  unfold State.enterHoldover
  extract_lets hist n sum s1
  have averaged : s.servoed s1 := by
    unfold s1
    split
    · exact .refl
    · exact State.servoed.refl.setReg (by decide)
  have same : s1.tState = s.tState := by
    unfold s1
    split
    · rfl
    · exact fld_setReg_other (by decide)
  refine ⟨tState_toServo _ (by decide), raised_toServo (same.trans_ne h), ((averaged.setTime ?_ ?_).toServo tHOLDOVER).d⟩
  · rfl
  · rfl

end Sys2Proof.Machine
end

section
/-! PROOFS. The 1PPS and time-of-day inputs and outputs, the reference and the watermark (R63, R65, R66, R68, R74, R75, R77, R82). -/

namespace Sys2Proof.Machine

/-! ### Edges (R65) -/

/-- The phase error of an edge at the present D. -/
def State.phaseErr (s : State) : Int :=
  if s.dNs % 1000000000 ≤ 500000000 then (s.dNs % 1000000000 : Nat) else ((s.dNs % 1000000000 : Nat) : Int) - 1000000000

theorem natAbs_phaseErr (s : State) : s.phaseErr.natAbs =
    if s.dNs % 1000000000 ≤ 500000000 then s.dNs % 1000000000 else 1000000000 - s.dNs % 1000000000 := by
  unfold State.phaseErr
  split <;> omega

/-- The state in which an edge has been timed. -/
def State.edgeTimed (s : State) : State :=
  (s.setTime { s.time with edge := some (s.time.d, s.time.run) }).setReg R.TIME_PPS_ERR (BitVec.ofInt 32 s.phaseErr)

/-- The state in which a timed edge has been counted and raised as rejected. -/
def State.edgeRejected (s : State) : State := (s.edgeTimed.cnt R.PPS_REJECT).raise 0x10000 2

theorem regsOnly_edgeRejected (s : State) : s.edgeTimed.regsOnly s.edgeRejected := State.regsOnly.refl.cnt.raise

theorem regsKept_edgeRejected (s : State) : s.edgeTimed.regsKept s.edgeRejected [R.PPS_REJECT, 0x10010] :=
  (State.regsKept.refl.cnt (by decide)).raise (by decide)

theorem exec_ppsEdge {s : State} (hm : s.mode ≠ mOFF) : exec .ppsEdge s =
    if s.time.stepTick = some s.clk then .next s.edgeTimed
    else if s.tState = tLOCKED ∧ s.fld R.TIME_IO F.TIME_IO_PPS_REJ * 1000 < s.phaseErr.natAbs then
      if s.time.rej + 1 = 4 then .next ((s.edgeRejected.setTime { s.edgeRejected.time with rej := 0, good := 0 }).toServo tACQUIRE)
      else .next (s.edgeRejected.setTime { s.edgeRejected.time with rej := s.time.rej + 1 })
    else
      let s2 := s.edgeTimed.setTime { s.edgeTimed.time with rej := 0 }
      .next (if s.tSrc = 2 then s2.sample s.phaseErr true else s2) := if_neg hm

/-- Whatever becomes of an edge, once timed it only moves the servo. -/
theorem ppsEdge_moves_servo {s : State} (hm : s.mode ≠ mOFF) : Completes .ppsEdge s s.edgeTimed.servoed := by
  have rejected : s.edgeTimed.servoed s.edgeRejected := .of_regs (regsOnly_edgeRejected s) (regsKept_edgeRejected s) (by decide)
  have cleared : s.edgeTimed.servoed (s.edgeTimed.setTime { s.edgeTimed.time with rej := 0 }) := .setTime .refl rfl rfl
  rw [Completes, exec_ppsEdge hm]
  split
  · exact ⟨_, rfl, .refl⟩
  · split
    · split
      · exact ⟨_, rfl, (rejected.setTime (w := { s.edgeRejected.time with rej := 0, good := 0 }) rfl rfl).toServo _⟩
      · exact ⟨_, rfl, rejected.setTime rfl rfl⟩
    · refine ⟨_, rfl, ?_⟩
      split
      · exact cleared.trans (servoed_sample _ _ _)
      · exact cleared

theorem ppsEdge_times {s : State} (hm : s.mode ≠ mOFF) : Completes .ppsEdge s fun t => t.time.edge = some (s.time.d, s.time.run) ∧
    t.reg R.TIME_PPS_ERR = BitVec.ofInt 32 s.phaseErr ∧ t.time.d = s.time.d ∧ t.mem = s.mem := by
  obtain ⟨t, hexec, moved⟩ := ppsEdge_moves_servo hm
  exact ⟨t, hexec, moved.edge, (moved.kept _ (by decide)).trans (reg_setReg_same _ _ _), moved.d, moved.mem⟩

theorem ppsEdge_rejects {s : State} (hm : s.mode ≠ mOFF) (hstep : s.time.stepTick ≠ some s.clk) (hl : s.tState = tLOCKED)
    (hr : s.fld R.TIME_IO F.TIME_IO_PPS_REJ * 1000 < s.phaseErr.natAbs) (hn : s.time.rej + 1 ≠ 4) :
    Completes .ppsEdge s fun t => t.time.rej = s.time.rej + 1 ∧ t.tState = tLOCKED ∧ (t.reg 0x10010).getLsbD 2 = true := by
  have hexec := exec_ppsEdge hm
  rw [if_neg hstep, if_pos ⟨hl, hr⟩, if_neg hn] at hexec
  have state : s.edgeRejected.tState = s.tState :=
    ((regsKept_edgeRejected s).fld (by decide)).trans (fld_setReg_other (s := s) (by decide))
  exact ⟨_, hexec, rfl, state.trans hl, getLsbD_raise _ 0x10000 (by decide)⟩

/-! ### Messages of the time of day (R66, R67) -/

section
variable {s : State} {first : Byte} {rest : List Byte} {d at_ : Nat}

theorem todMessage_without_edge (he : s.time.edge = none) :
    exec (.todMessage first rest) s = .next ((s.cnt R.TOD_ERR).raise 0x10000 3) := by
  show execTodMessage first rest s = _
  unfold execTodMessage
  rw [he]

theorem todMessage_discarded (he : s.time.edge = some (d, at_))
    (h : s.time.run - at_ < 10000000 * nsU ∨ 900000000 * nsU < s.time.run - at_ ∨ ¬ todOk (first :: rest)) :
    exec (.todMessage first rest) s = .next ((s.cnt R.TOD_ERR).raise 0x10000 3) := by
  show execTodMessage first rest s = _
  unfold execTodMessage
  rw [he]
  exact if_pos h

/-- A message that agrees with its edge, where AUTOSET is off. -/
theorem todMessage_agrees (he : s.time.edge = some (d, at_)) (hlo : 10000000 * nsU ≤ s.time.run - at_)
    (hhi : s.time.run - at_ ≤ 900000000 * nsU) (hok : todOk (first :: rest) = true)
    (hv : ((first :: rest).getD 3 0).getLsbD 0 = true) (hs : valBE (((first :: rest).drop 4).take 6) = (d / nsU + 500000000) / 1000000000)
    (ha : s.flag R.TIME_CTL F.TIME_CTL_AUTOSET = false) :
    exec (.todMessage first rest) s = .next { s with time := { s.time with todAt := some s.clk, mism := 0 } } := by
  have good : ¬ (s.time.run - at_ < 10000000 * nsU ∨ 900000000 * nsU < s.time.run - at_ ∨ ¬ todOk (first :: rest) = true) := by
    rintro (h | h | h)
    · exact Nat.not_lt.mpr hlo h
    · exact Nat.not_lt.mpr hhi h
    · exact h hok
  show execTodMessage first rest s = _
  unfold execTodMessage
  rw [he]
  dsimp only
  rw [if_neg good, if_neg (not_not_intro hv), ha, Bool.false_and, if_neg Bool.false_ne_true, if_pos hs, if_pos hs]
  rfl

end

/-! ### The message that is sent (R66, R82) -/

theorem length_bytesLE (n v : Nat) : (bytesLE n v).length = n := by
  induction n generalizing v with
  | zero => rfl
  | succ n ih => rw [bytesLE, List.length_cons, ih]

theorem length_bytesBE (n v : Nat) : (bytesBE n v).length = n := (List.length_reverse).trans (length_bytesLE n v)

theorem valBE_bytesBE (n v : Nat) : valBE (bytesBE n v) = v % 256 ^ n := by
  rw [valBE, bytesBE, List.reverse_reverse, valLE_bytesLE]

/-- The bytes 2 to 13 of the message, over which its check is made. -/
def State.todBody (s : State) (secs utc : Nat) : List Byte :=
  [(0x01 : Byte), BitVec.ofNat 8 (b2n (s.tState == tLOCKED))] ++ (bytesBE 6 secs ++ (bytesBE 2 utc ++ [0, 0]))

theorem length_todBody (s : State) (secs utc : Nat) : (s.todBody secs utc).length = 12 := by
  simp [State.todBody, length_bytesBE]

theorem todMessage_eq (s : State) (secs utc : Nat) :
    s.todMessage secs utc = [(0x5A : Byte), 0xA5] ++ (s.todBody secs utc ++ bytesBE 2 (crc16 (s.todBody secs utc)).toNat) := by
  simp [State.todMessage, State.todBody]

theorem length_todMessage (s : State) (secs utc : Nat) : (s.todMessage secs utc).length = 16 := by
  simp [todMessage_eq, length_todBody, length_bytesBE]

/-- The message passes its own checks. -/
theorem todOk_todMessage (s : State) (secs utc : Nat) : todOk (s.todMessage secs utc) = true := by
  have start : (s.todMessage secs utc).take 3 = [0x5A, 0xA5, 0x01] := rfl
  have tail : (s.todMessage secs utc).drop 2 = s.todBody secs utc ++ bytesBE 2 (crc16 (s.todBody secs utc)).toNat := by
    rw [todMessage_eq]; rfl
  have body : ((s.todMessage secs utc).drop 2).take 12 = s.todBody secs utc := by
    rw [tail, List.take_left' (length_todBody s secs utc)]
  have check : (s.todMessage secs utc).drop 14 = bytesBE 2 (crc16 (s.todBody secs utc)).toNat := by
    rw [show 14 = 2 + 12 from rfl, ← List.drop_drop, tail, List.drop_left' (length_todBody s secs utc)]
  have crc : valBE ((s.todMessage secs utc).drop 14) = (crc16 (s.todBody secs utc)).toNat := by
    rw [check, valBE_bytesBE]
    exact Nat.mod_eq_of_lt (crc16 _).isLt
  simp [todOk, length_todMessage, start, body, crc]

/-- The seconds of the message. -/
theorem secs_todMessage (s : State) (secs utc : Nat) : valBE (((s.todMessage secs utc).drop 4).take 6) = secs % 2 ^ 48 := by
  have seconds : ((s.todMessage secs utc).drop 4).take 6 = bytesBE 6 secs := by
    rw [todMessage_eq]
    show ((bytesBE 6 secs ++ (bytesBE 2 utc ++ [0, 0])) ++ _).take 6 = _
    rw [List.append_assoc, List.take_left' (length_bytesBE 6 secs)]
  exact (congrArg valBE seconds).trans (valBE_bytesBE 6 secs)

theorem todOutSend_sends {s : State} (he : s.flag R.TIME_IO F.TIME_IO_TOD_OUT_EN = true) (hs : s.secondAnd 100000000 = true)
    (hm : s.mode ≠ mOFF) : Completes .todOutSend s fun t => ∃ b, t.outs = s.outs ++ [.tod b] ∧ b.length = 16 ∧ todOk b = true ∧
      valBE ((b.drop 4).take 6) = s.dNs / 1000000000 % 2 ^ 48 := by
  have due : (s.flag R.TIME_IO F.TIME_IO_TOD_OUT_EN && s.secondAnd 100000000 && decide (s.mode ≠ mOFF)) = true := by
    rw [he, hs, decide_eq_true hm]; rfl
  exact ⟨_, if_pos due, _, rfl, length_todMessage _ _ _, todOk_todMessage _ _ _, secs_todMessage _ _ _⟩

theorem ppsOutEdge_rises {s : State} (he : s.flag R.TIME_IO F.TIME_IO_PPS_OUT_EN = true) (hs : s.secondAnd 0 = true) (hm : s.mode ≠ mOFF) :
    exec .ppsOutEdge s = .next { s with outs := s.outs ++ [.pps (s.fld R.TIME_IO F.TIME_IO_PPS_W)] } := by
  have due : (s.flag R.TIME_IO F.TIME_IO_PPS_OUT_EN && s.secondAnd 0 && decide (s.mode ≠ mOFF)) = true := by
    rw [he, hs, decide_eq_true hm]; rfl
  exact if_pos due

/-! ### The reference, the slew and the watermark (R63, R68, R75, R77) -/

section
variable {s : State}

theorem holdoverTimeout_enters (hs : s.tSrc ≠ 0) (ht : s.tState ≠ tHOLDOVER) (hm : s.mode ≠ mOFF) :
    Completes .holdoverTimeout s fun t => t.tState = tHOLDOVER ∧ (t.reg 0x10010).getLsbD 0 = true ∧ t.time.d = s.time.d := by
  have lost : ¬ (s.tSrc = 0 ∨ s.tState = tHOLDOVER ∨ s.mode = mOFF) := by simp [hs, ht, hm]
  exact ⟨_, if_neg lost, enterHoldover_enters s ht⟩

/-- A flag of TIME_STAT is set or cleared, and nothing else. -/
theorem timeStat_shows {f : Fld} (x : Nat) (order : f.lo ≤ f.hi) (fits : f.hi < 32) :
    (s.setFld R.TIME_STAT f x).flag R.TIME_STAT f = decide (x % 2 ^ (f.hi + 1 - f.lo) ≠ 0) ∧
      s.onlyRegs (s.setFld R.TIME_STAT f x) [R.TIME_STAT] :=
  ⟨flag_setFld_same order fits, State.regsOnly.refl.setFld.onlyRegs (State.regsKept.refl.setFld List.mem_cons_self)⟩

theorem timePllLock_shows (hm : s.mode ≠ mOFF) : Completes .timePllLock s fun t =>
    t.flag R.TIME_STAT F.TIME_STAT_REF_OK = true ∧ s.onlyRegs t [R.TIME_STAT] :=
  ⟨_, if_neg hm, timeStat_shows 1 (by decide) (by decide)⟩

theorem timePllLockLost_shows : Completes .timePllLockLost s fun t =>
    t.flag R.TIME_STAT F.TIME_STAT_REF_OK = false ∧ s.onlyRegs t [R.TIME_STAT] :=
  ⟨_, rfl, timeStat_shows 0 (by decide) (by decide)⟩

theorem slewEnd_clears (h : s.time.slew = 0) : Completes .slewEnd s fun t =>
    t.flag R.TIME_STAT F.TIME_STAT_SLEWING = false ∧ s.onlyRegs t [R.TIME_STAT] :=
  ⟨_, if_pos h, timeStat_shows 0 (by decide) (by decide)⟩

theorem watermarkReached_clears {w : Nat} (hw : s.time.w = some w) (hd : w ≤ s.time.d) :
    exec .watermarkReached s = .next { s with time := { s.time with w := none } } := by
  show execWatermarkReached s = _
  unfold execWatermarkReached
  rw [hw]
  exact if_pos hd

end

end Sys2Proof.Machine
end

section
/-! PROOFS. What the events of the other blocks leave of the time unit (R78, R80): its record and its registers. -/

namespace Sys2Proof.Machine

/-! ### The time unit kept -/

/-- The time unit is as before: its record, and every register below the page of Geyser, its own among them. -/
structure State.unitKept (s t : State) : Prop where
  time : t.time = s.time
  low : ∀ r, r < 0x30000 → t.reg r = s.reg r

namespace State.unitKept
variable {s t u : State} {a n b x : Nat} {f : Fld} {v : W32}

theorem refl : s.unitKept s := ⟨rfl, fun _ _ => rfl⟩

theorem trans (h : s.unitKept t) (h' : t.unitKept u) : s.unitKept u := ⟨h'.time.trans h.time, fun r hr => (h'.low r hr).trans (h.low r hr)⟩

theorem of_regs (ht : t.time = s.time) (hr : t.regs = s.regs) : s.unitKept t := ⟨ht, fun r _ => congrArg (smGet regDefault · r) hr⟩

theorem setReg (h : s.unitKept t) (ha : 0x30000 ≤ a) : s.unitKept (t.setReg a v) :=
  ⟨h.time, fun r hr => (reg_setReg_other t a r v (by omega)).trans (h.low r hr)⟩

theorem setFld (h : s.unitKept t) (ha : 0x30000 ≤ a) : s.unitKept (t.setFld a f x) := h.setReg ha

theorem raise (h : s.unitKept t) (ha : 0x30000 ≤ a) : s.unitKept (t.raise a b) := h.setReg (by omega)

theorem cnt (h : s.unitKept t) (ha : 0x30000 ≤ a) : s.unitKept (t.cnt a) := by
  unfold State.cnt
  split
  · exact h
  · exact h.setReg ha

theorem cnt64 (h : s.unitKept t) (ha : 0x30000 ≤ a) : s.unitKept (t.cnt64 a n) := (h.setReg ha).setReg (by omega)

theorem setTimeAt (h : s.unitKept t) (ha : 0x30000 ≤ a) : s.unitKept (t.setTimeAt a n) :=
  ((h.setReg ha).setReg (by omega)).setReg (by omega)

theorem ite {p : Prop} [Decidable p] (ht : s.unitKept t) (hu : s.unitKept u) : s.unitKept (if p then t else u) := by
  split
  · exact ht
  · exact hu

theorem foldl {α : Type} {g : State → α → State} (h : ∀ (t : State) (a : α), t.unitKept (g t a)) (l : List α) (s : State) :
    s.unitKept (l.foldl g s) := by
  induction l generalizing s with
  | nil => exact .refl
  | cons a l ih => exact (h s a).trans (ih (g s a))

theorem flag (h : s.unitKept t) (ha : a < 0x30000) : t.flag a f = s.flag a f := by rw [State.flag, State.fld, h.low a ha]; rfl

end State.unitKept

/-! ### The error log -/

theorem unitKept_logErr (s : State) (sev block inst code loc : Nat) : s.unitKept (s.logErr sev block inst code loc) := by
  have counted : s.unitKept (if sev = 1 then s.cnt R.RAS_CE else if sev = 2 then s.cnt R.RAS_REPAIR else if sev = 3 then s.cnt R.RAS_UE else s) :=
    .ite (.cnt .refl (by decide)) (.ite (.cnt .refl (by decide)) (.ite (.cnt .refl (by decide)) .refl))
  unfold State.logErr
  extract_lets s1 s2 e s3
  have raised : s.unitKept s2 := .ite (counted.raise (by decide)) counted
  have logged : s.unitKept s3 := raised.trans (.of_regs rfl rfl)
  exact .ite counted (.ite (raised.cnt (by decide)) (.ite (logged.raise (by decide)) logged))

/-- An entry of severity 2 is kept while there is room. -/
theorem rasLog_logErr {s : State} (h : s.rasLog.length < 512) (block inst code loc : Nat) :
    (s.logErr 2 block inst code loc).rasLog.length = s.rasLog.length + 1 := by
  unfold State.logErr
  extract_lets s1 s2 e s3
  have kept : s3.rasLog.length = s.rasLog.length + 1 := List.length_append
  rw [if_neg (by simp), if_neg (Nat.not_le.mpr h)]
  split
  · exact kept
  · exact kept

/-! ### Frames that end (R317, R348, R376) -/

section
variable (s : State)

theorem unitKept_audSkipIf (p : Nat) : s.unitKept (s.audSkipIf p) := .ite (.of_regs rfl rfl) .refl

theorem unitKept_setPool (k : Nat) (p : Pool) : s.unitKept (s.setPool k p) := .of_regs rfl rfl

theorem unitKept_pushBuf (p : Nat) : s.unitKept (s.pushBuf p) := by
  have place : 0x30000 ≤ R.SINT_FREE (ptrPool p) := by unfold R.SINT_FREE; omega
  unfold State.pushBuf
  extract_lets k pool s1
  have counted : s.unitKept s1 := (State.unitKept.refl.cnt64 place).trans (unitKept_audSkipIf _ p)
  exact .ite (counted.trans (unitKept_setPool s1 k _)) ((counted.cnt (by decide)).raise (by decide))

theorem unitKept_setAcct (a : Nat) (c : Acct) : s.unitKept (s.setAcct a c) := .of_regs rfl rfl

theorem unitKept_evalXoff (a : Nat) : s.unitKept (s.evalXoff a) := unitKept_setAcct s a _

theorem unitKept_uncharge (a b : Nat) : s.unitKept (s.uncharge a b) := by
  unfold State.uncharge
  extract_lets c h sh r s1
  have settled : s.unitKept s1 := (unitKept_setAcct s a _).trans (unitKept_evalXoff _ a)
  exact .ite ((settled.cnt (by decide)).raise (by decide)) settled

theorem unitKept_freeChain (p owner : Nat) : s.unitKept (s.freeChain p owner) :=
  .foldl (fun _ _ => .ite (.trans (unitKept_pushBuf _ _) (unitKept_uncharge _ _ _)) .refl) _ s

theorem unitKept_setCopy (n : Nat) (c : Option (Nat × Pkt)) : s.unitKept (s.setCopy n c) := .of_regs rfl rfl

theorem unitKept_copyRelease (n : Nat) : s.unitKept (s.copyRelease n) := by
  unfold State.copyRelease
  split
  · exact .refl
  · exact .ite ((unitKept_setCopy s n none).trans (unitKept_freeChain _ _ _)) (unitKept_setCopy s n _)

theorem unitKept_releaseBufs (k : Nat) : s.unitKept (s.releaseBufs k) := by
  unfold State.releaseBufs
  extract_lets q s1
  have emptied : s.unitKept s1 := .of_regs rfl rfl
  split
  · exact emptied.trans (unitKept_copyRelease _ _)
  · exact .ite emptied (emptied.trans (unitKept_freeChain _ _ _))

theorem inflReg_above (v : Nat) : 0x30000 ≤ inflReg v := by
  unfold inflReg
  split <;> decide

theorem unitKept_viewSub (v : Nat) : s.unitKept (s.viewSub v) := by
  have left : s.unitKept (s.setReg (inflReg v) (s.reg (inflReg v) - 1)) := .setReg .refl (inflReg_above v)
  exact .ite (((left.setFld (by decide)).raise (by decide)).raise (by decide)) left

theorem unitKept_endPkt (k : Nat) : s.unitKept (s.endPkt k) := by
  unfold State.endPkt
  extract_lets v s1
  have released : s.unitKept s1 := (unitKept_releaseBufs s k).trans (.of_regs rfl rfl)
  cases v with
  | none => exact released
  | some n => exact released.trans (unitKept_viewSub _ _)

theorem unitKept_giveUp (k : Nat) : s.unitKept (s.giveUp k) := .ite (unitKept_endPkt s k) (.of_regs rfl rfl)

end

theorem unitKept_trimQueue (s : State) (x c fuel : Nat) : s.unitKept (s.trimQueue x c fuel) := by
  induction fuel generalizing s with
  | zero => exact .refl
  | succ fuel ih =>
    unfold State.trimQueue
    split
    · exact .refl
    · next k l _ =>
      extract_lets q gone
      have taken : s.unitKept (s.setTxq x c l) := .of_regs rfl rfl
      have dropped : s.unitKept (gone s) := taken.trans (unitKept_giveUp _ k)
      have fcs : 0x30000 ≤ R.TX_FCS_DROP x := by unfold R.TX_FCS_DROP; omega
      have big : 0x30000 ≤ R.TM_TOO_BIG x := by unfold R.TM_TOO_BIG; omega
      have counted : s.unitKept (if x < 64 then (gone s).cnt (R.TX_FCS_DROP x) else gone s) := .ite (dropped.cnt fcs) dropped
      have raised : s.unitKept (((gone s).cnt (R.TM_TOO_BIG x)).raise (0x910000 + x * 0x1000) 1) := (dropped.cnt big).raise (by omega)
      split
      · exact dropped.trans (ih _)
      · split
        · exact counted.trans (ih _)
        · split
          · exact dropped.trans (ih _)
          · split
            · exact raised.trans (ih _)
            · exact .refl

theorem unitKept_trimPort (s : State) (x : Nat) : s.unitKept (s.trimPort x) := .foldl (fun _ _ => unitKept_trimQueue _ _ _ _) _ s

/-! ### Gates and the wheel (R371, R374) -/

theorem unitKept_gclSwitch (s : State) (x : Nat) : s.unitKept (s.gclSwitch x) := by
  have base : 0x30000 ≤ R.TM_GCL_OPER_BASE_NS x := by unfold R.TM_GCL_OPER_BASE_NS; omega
  have cycle : 0x30000 ≤ R.TM_GCL_OPER_CYCLE x := by unfold R.TM_GCL_OPER_CYCLE; omega
  have len : 0x30000 ≤ R.TM_GCL_OPER_LEN x := by unfold R.TM_GCL_OPER_LEN; omega
  have ctl : 0x30000 ≤ R.TM_GCL_CTL x := by unfold R.TM_GCL_CTL; omega
  have chg : 0x30000 ≤ R.TM_CFG_CHG x := by unfold R.TM_CFG_CHG; omega
  have stat : 0x30000 ≤ R.TM_PORT_STAT x := by unfold R.TM_PORT_STAT; omega
  unfold State.gclSwitch
  extract_lets c g s1 s2 s3
  have installed : s.unitKept s3 :=
    (((((State.unitKept.refl.setTimeAt base).setReg cycle).setReg len).setFld ctl).setFld ctl).setFld ctl
  exact (((installed.cnt chg).raise (by omega)).setFld stat).trans (unitKept_trimPort _ x)

theorem unitKept_gclSkip (s : State) : s.unitKept s.gclSkip :=
  .ite (.foldl (fun _ _ => .ite (unitKept_gclSwitch _ _) .refl) _ s) .refl

theorem unitKept_wheelRun (s : State) (now : Nat) : s.unitKept (s.wheelRun now) := .ite (.of_regs rfl rfl) (.of_regs rfl rfl)

/-! ### Tasks (R393, R394, R404, R406) -/

section
variable (s : State)

theorem unitKept_tephraPut (rec : Word) : s.unitKept (s.tephraPut rec) := by
  unfold State.tephraPut
  extract_lets wp hbm size base adr s1 s2
  have stored : s.unitKept s1 := .ite (.ite (.of_regs rfl rfl) .refl) (.of_regs rfl rfl)
  have moved : s.unitKept s2 := stored.setReg (by decide)
  exact .ite (.cnt .refl (by decide)) (.ite ((moved.setFld (by decide)).raise (by decide)) moved)

theorem unitKept_tephraTask (k : Nat) (frm dst : TaskSt) (reason : Nat) : s.unitKept (s.tephraTask k frm dst reason) :=
  .ite (unitKept_tephraPut _ _) .refl

theorem unitKept_setTask (k : Nat) (t : Tce) : s.unitKept (s.setTask k t) := .of_regs rfl rfl

theorem unitKept_setReadyL (a p : Nat) (l : List Nat) : s.unitKept (s.setReadyL a p l) := .of_regs rfl rfl

theorem unitKept_makeReady (k reason cause : Nat) (atHead : Bool) : s.unitKept (s.makeReady k reason cause atHead) :=
  ((unitKept_setTask s k _).trans (unitKept_setReadyL _ _ _ _)).trans (unitKept_tephraTask _ _ _ _ _)

theorem unitKept_untime (k : Nat) : s.unitKept (s.untime k) := .of_regs rfl rfl

theorem unitKept_timeUp (k : Nat) : s.unitKept (s.timeUp k) := by
  unfold State.timeUp
  split
  · exact unitKept_makeReady _ _ _ _ _
  · exact unitKept_makeReady _ _ _ _ _
  · exact .refl

theorem unitKept_release (k reason : Nat) : s.unitKept (s.release k reason) := by
  unfold State.release
  extract_lets t
  split
  · exact .refl
  · exact (unitKept_untime s k).trans (unitKept_makeReady _ _ _ _ _)
  · exact (unitKept_setTask s k _).cnt (by decide)

theorem unitKept_setDelayL (g : Nat) (l : List (Nat × Nat)) : s.unitKept (s.setDelayL g l) := .of_regs rfl rfl

theorem unitKept_geyserSkip (old new : Nat) : s.unitKept (s.geyserSkip old new) := by
  have tick : ∀ g, 0x30000 ≤ R.TSK_GRP_TICK g := fun g => by unfold R.TSK_GRP_TICK; omega
  unfold State.geyserSkip
  extract_lets due s1
  have ticked : s.unitKept s1 := .foldl (fun _ g => .ite ((State.unitKept.refl.setReg (tick g)).trans (unitKept_setDelayL _ _ _)) .refl) _ s
  have waiting : s1.unitKept { s1 with tmouts := s1.tmouts.filter fun e => decide (new * nsU < e.1) } := .of_regs rfl rfl
  exact (ticked.trans waiting).trans (.foldl (fun _ _ => unitKept_timeUp _ _) _ _)

end

end Sys2Proof.Machine
end

section
/-! PROOFS. Forced steps, skipped events and triggers (R76–R78, R81, R84), and the events of the time unit put together. -/

namespace Sys2Proof.Machine

/-! ### The distribution (R74) -/

theorem timeDistBroadcast_reports (s : State) : Completes (.timeDistBroadcast true) s fun t =>
    t.reg R.DIST_ERR = (if s.reg R.DIST_ERR = 0xFFFFFFFF then 0xFFFFFFFF else s.reg R.DIST_ERR + 1) ∧ (t.reg 0x10010).getLsbD 4 = true ∧
      (s.rasLog.length < 512 → t.rasLog.length = s.rasLog.length + 1) := by
  have logged := unitKept_logErr ((s.cnt R.DIST_ERR).raise 0x10000 4) 2 1 0 0x10 0
  have entries : ((s.cnt R.DIST_ERR).raise 0x10000 4).rasLog = s.rasLog := by
    obtain ⟨r, e⟩ := (State.regsOnly.refl (s := s)).cnt.raise (a := 0x10000) (b := 4)
    rw [e]
  refine ⟨_, rfl, ?_, ?_, fun room => ?_⟩
  · rw [logged.low _ (by decide), reg_raise_other _ _ _ _ (by decide), reg_cnt_same]
    split
    · assumption
    · rfl
  · rw [logged.low _ (by decide)]
    exact getLsbD_raise _ 0x10000 (by decide)
  · rw [rasLog_logErr (by rw [entries]; exact room), entries]

/-! ### A step that is complete (R76) -/

section
variable (s : State)

theorem busy_stepDone : s.stepDone.flag R.TIME_STEP F.TIME_STEP_BUSY = false := by
  have step : R.TIME_STEP ≠ 0x10000 + 0x10 := by decide
  rw [State.stepDone, State.flag, State.fld, reg_raise_other _ _ _ _ step]
  exact flag_setFld_same (by decide) (by decide)

theorem raised_stepDone : (s.stepDone.reg 0x10010).getLsbD 1 = true := getLsbD_raise _ 0x10000 (by decide)

theorem stat_stepDone : s.stepDone.reg R.TIME_STAT = s.reg R.TIME_STAT := by
  have stat : R.TIME_STAT ≠ 0x10000 + 0x10 := by decide
  rw [State.stepDone, reg_raise_other _ _ _ _ stat, reg_setFld_other _ _ _ _ _ (by decide), reg_setTime]

end

/-! ### The tick of a step (R76, R77) -/

/-- The record of the time unit with the skipped events that wait for their release. -/
def TimeSt.skipping (t : TimeSt) (w : Option (Nat × Nat)) : TimeSt := { t with skipFrom := w }

theorem time_stepDone (s : State) : s.stepDone.time = s.time.skipping none := by
  simp [State.stepDone, TimeSt.skipping]

/-- The record of the time unit once an ordered step has set D. -/
def State.stepTime (s : State) : TimeSt :=
  { s.time with d := s.stepTarget, inc := 0, w := if s.stepTarget < s.time.sched then some s.time.sched else none, slew := 0,
                ordered := false, target := none, stepTick := some s.clk }

/-- Scheduling time never decreases over a step (R77). -/
theorem sched_le_stepTime (s : State) : s.time.sched ≤ s.stepTime.sched := by
  unfold TimeSt.sched State.stepTime
  dsimp only
  split
  · exact Nat.le_max_right _ _
  · next h => exact Nat.le_trans (Nat.not_lt.mp h) (Nat.le_max_left _ _)

/-- The state in which a step has set D, counted, and shown itself in TIME_STAT. -/
def State.stepped (s : State) : State :=
  (((s.setTime s.stepTime).cnt R.STEP_CNT).setFld R.TIME_STAT F.TIME_STAT_VALID 1).setFld R.TIME_STAT F.TIME_STAT_SLEWING 0

theorem time_stepped (s : State) : s.stepped.time = s.stepTime := by simp [State.stepped]

theorem valid_stepped (s : State) : s.stepped.flag R.TIME_STAT F.TIME_STAT_VALID = true := by
  have above := fld_setFld_above (s := ((s.setTime s.stepTime).cnt R.STEP_CNT).setFld R.TIME_STAT F.TIME_STAT_VALID 1) (a := R.TIME_STAT) (x := 0)
    (f := F.TIME_STAT_SLEWING) (g := F.TIME_STAT_VALID) (by decide) (by decide) (by decide)
  rw [State.flag, State.stepped, above]
  exact flag_setFld_same (by decide) (by decide)

section
variable {s : State} (ho : s.time.ordered = true) (hm : s.mode ≠ mOFF)
include ho hm

/-- What an ordered step does (R76, R78, R84): what is due fires; backward it is complete at once, forward where it skips no event. -/
theorem exec_forcedStep : exec .forcedStep s =
    let u := s.fireDue
    let v := u.stepped.gclSkip
    if u.stepTarget < u.time.d then .next u.stepped.stepDone
    else if v.skips (u.time.sched / nsU) then .next (v.setTime (v.time.skipping (some (u.time.sched, v.time.sched))))
    else .next (if v.mainClk then (v.geyserSkip (u.time.sched / nsU) v.sNs).stepDone else v.stepDone) :=
  if_neg (by rw [ho]; exact fun h => h.elim (fun n => n rfl) hm)

theorem forcedStep_backward (hb : s.fireDue.stepTarget < s.fireDue.time.d) : Completes .forcedStep s fun t =>
    t.time.d = s.fireDue.stepTarget ∧ t.time.slew = 0 ∧ t.time.ordered = false ∧ t.flag R.TIME_STEP F.TIME_STEP_BUSY = false ∧
      s.fireDue.time.sched ≤ t.time.sched ∧ (t.reg 0x10010).getLsbD 1 = true ∧ t.flag R.TIME_STAT F.TIME_STAT_VALID = true := by
  have time : s.fireDue.stepped.stepDone.time = s.fireDue.stepTime.skipping none := by rw [time_stepDone, time_stepped]
  refine ⟨_, (exec_forcedStep ho hm).trans (if_pos hb), ?_, ?_, ?_, busy_stepDone _, ?_, raised_stepDone _, ?_⟩
  · rw [time]; rfl
  · rw [time]; rfl
  · rw [time]; rfl
  · rw [time]; exact sched_le_stepTime s.fireDue
  · rw [State.flag, State.fld, stat_stepDone]
    exact valid_stepped s.fireDue

/-- After a forward step the record of the time unit is that of the step, but for the events it skips, and VALID is set. -/
theorem forcedStep_forward_keeps (hf : s.fireDue.time.d ≤ s.fireDue.stepTarget) : Completes .forcedStep s fun t =>
    (∃ w, t.time = s.fireDue.stepTime.skipping w) ∧ t.reg R.TIME_STAT = s.fireDue.stepped.reg R.TIME_STAT := by
  have gates := unitKept_gclSkip s.fireDue.stepped
  have time : s.fireDue.stepped.gclSkip.time = s.fireDue.stepTime := gates.time.trans (time_stepped s.fireDue)
  have stat : s.fireDue.stepped.gclSkip.reg R.TIME_STAT = s.fireDue.stepped.reg R.TIME_STAT := gates.low _ (by decide)
  -- a step that is complete in its own tick
  have complete : ∀ v : State, s.fireDue.stepped.gclSkip.unitKept v →
      (∃ w, v.stepDone.time = s.fireDue.stepTime.skipping w) ∧ v.stepDone.reg R.TIME_STAT = s.fireDue.stepped.reg R.TIME_STAT :=
    fun v hv => ⟨⟨none, by rw [time_stepDone, hv.time, time]⟩, (stat_stepDone v).trans ((hv.low _ (by decide)).trans stat)⟩
  rw [Completes, exec_forcedStep ho hm]
  dsimp only
  rw [if_neg (Nat.not_lt.mpr hf)]
  split
  · exact ⟨_, rfl, ⟨_, (time_setTime _ _).trans (congrArg (TimeSt.skipping · _) time)⟩, (reg_setTime _ _ _).trans stat⟩
  · refine ⟨_, rfl, ?_⟩
    split
    · exact complete _ (unitKept_geyserSkip _ _ _)
    · exact complete _ .refl

theorem forcedStep_forward (hf : s.fireDue.time.d ≤ s.fireDue.stepTarget) : Completes .forcedStep s fun t =>
    t.time.d = s.fireDue.stepTarget ∧ t.time.ordered = false ∧ t.flag R.TIME_STAT F.TIME_STAT_VALID = true ∧
      s.fireDue.time.sched ≤ t.time.sched := by
  obtain ⟨t, hexec, ⟨w, time⟩, stat⟩ := forcedStep_forward_keeps ho hm hf
  refine ⟨t, hexec, ?_, ?_, ?_, ?_⟩
  · rw [time]; rfl
  · rw [time]; rfl
  · rw [State.flag, State.fld, stat]
    exact valid_stepped s.fireDue
  · rw [time]; exact sched_le_stepTime s.fireDue

end

/-! ### Triggers (R78, R81) -/

/-- A firing leaves the record of the time unit. -/
theorem time_trigFire (s : State) (t : Nat) (batch : Bool) : (s.trigFire t batch).time = s.time := by
  unfold State.trigFire
  extract_lets c arg s1 s2 per nx
  have acted : s2.time = s.time := by
    have raised : s1.time = s.time := time_raise s 0x10000 (8 + t)
    unfold s2
    split
    · exact raised
    · split
      · exact (unitKept_release s1 arg 3).time.trans raised
      · exact raised
  split
  · rw [time_setFld, acted]
  · split
    · rw [time_setTimeAt, time_setFld, acted]
    · rw [time_setTimeAt, acted]

theorem skippedEventRelease_completes {s : State} {old new : Nat} (h : s.time.skipFrom = some (old, new)) :
    Completes .skippedEventRelease s fun t => t.time.skipFrom = none ∧ t.time.d = s.time.d ∧
      t.flag R.TIME_STEP F.TIME_STEP_BUSY = false ∧ (t.reg 0x10010).getLsbD 1 = true := by
  have fired : ((s.trigsDue (new / nsU)).foldl (fun s e => s.trigFire e.2 true) s).time = s.time :=
    foldl_keeps (g := State.time) (fun _ _ => time_trigFire _ _ _) _ _
  have complete : ∀ v : State, v.time = s.time → v.stepDone.time.skipFrom = none ∧ v.stepDone.time.d = s.time.d ∧
      v.stepDone.flag R.TIME_STEP F.TIME_STEP_BUSY = false ∧ (v.stepDone.reg 0x10010).getLsbD 1 = true := fun v hv =>
    ⟨by rw [time_stepDone]; rfl, by rw [time_stepDone, hv]; rfl, busy_stepDone v, raised_stepDone v⟩
  show ∃ t, execSkippedEventRelease s = .next t ∧ _
  unfold execSkippedEventRelease
  rw [h]
  refine ⟨_, rfl, ?_⟩
  split
  · exact complete _ (((unitKept_wheelRun _ _).trans (unitKept_geyserSkip _ _ _)).time.trans fired)
  · exact complete _ fired

/-- A one-shot trigger that pulses a pin. -/
theorem trigFire_pulses {s : State} {t : Nat} (ha : s.fld (R.TIME_TRIG_CTL t) F.TIME_TRIG_CTL_ACT = 1)
    (hp : s.fld (R.TIME_TRIG_CTL t) F.TIME_TRIG_CTL_PERIOD_US = 0) (batch : Bool) : s.trigFire t batch =
      ((s.raise 0x10000 (8 + t)).emit (.gpioPulse (s.fld (R.TIME_TRIG_CTL t) F.TIME_TRIG_CTL_ARG % 32))).setFld (R.TIME_TRIG_CTL t)
        F.TIME_TRIG_CTL_ARM 0 := by
  unfold State.trigFire
  dsimp only
  rw [if_pos ha, if_pos (by rw [hp])]

theorem timeTriggerFire_pulses {s : State} {k : Fin 8} (harm : s.flag (R.TIME_TRIG_CTL k) F.TIME_TRIG_CTL_ARM = true)
    (hskip : s.time.skipFrom = none) (ht : s.trigNs k ≤ s.sNs) (hm : s.mode ≠ mOFF)
    (ha : s.fld (R.TIME_TRIG_CTL k) F.TIME_TRIG_CTL_ACT = 1) (hp : s.fld (R.TIME_TRIG_CTL k) F.TIME_TRIG_CTL_PERIOD_US = 0) :
    Completes (.timeTriggerFire k) s fun t => t.flag (R.TIME_TRIG_CTL k) F.TIME_TRIG_CTL_ARM = false ∧
      (t.reg 0x10010).getLsbD (8 + k) = true ∧ t.outs = s.outs ++ [.gpioPulse (s.fld (R.TIME_TRIG_CTL k) F.TIME_TRIG_CTL_ARG % 32)] ∧
      t.time = s.time := by
  have fires : (s.flag (R.TIME_TRIG_CTL k) F.TIME_TRIG_CTL_ARM && s.time.skipFrom.isNone && decide (s.trigNs k ≤ s.sNs) &&
      decide (s.mode ≠ mOFF)) = true := by
    rw [harm, hskip, decide_eq_true ht, decide_eq_true hm]; rfl
  have raw : 0x10010 ≠ R.TIME_TRIG_CTL k := by unfold R.TIME_TRIG_CTL; omega
  have hexec : exec (.timeTriggerFire k) s = .next (s.trigFire k false) := if_pos fires
  rw [trigFire_pulses ha hp] at hexec
  refine ⟨_, hexec, flag_setFld_same (by decide) (by decide), ?_, ?_, ?_⟩
  · rw [reg_setFld_other _ _ _ _ _ raw, reg_emit]
    exact getLsbD_raise s 0x10000 (by omega)
  · simp [State.setFld, State.raise, State.emit]
  · rw [time_setFld, State.emit_time, time_raise]

/-! ### The statement -/

/-- Settles O33: the events one by one, and the steps by the record that an ordered step sets, which the events released with it leave
(R65, R66, R68, R75–R79, R81, R82; assumption log 114). -/
theorem timeEventsAndStepsHaveTheirEffect : Obligations.TimeEventsAndStepsHaveTheirEffect := by
  refine ⟨fun s first rest => ⟨ppsEdge_times, fun hm hstep hl hr hn => ppsEdge_rejects hm hstep hl (natAbs_phaseErr s ▸ hr) hn, ?_, ?_,
    fun _ _ => todMessage_agrees, holdoverTimeout_enters, timePllLock_shows, timePllLockLost_shows, slewEnd_clears,
    fun _ => watermarkReached_clears, timeDistBroadcast_reports s, ppsOutEdge_rises, todOutSend_sends⟩,
    fun s => ⟨forcedStep_backward, forcedStep_forward, fun _ _ => skippedEventRelease_completes, fun k => timeTriggerFire_pulses⟩⟩
  · rintro (he | hbad)
    · exact todMessage_without_edge he
    · cases he : s.time.edge with
      | none => exact todMessage_without_edge he
      | some e => exact todMessage_discarded he (.inr (.inr (by rw [hbad]; exact Bool.false_ne_true)))
  · intro d at_ he late
    exact todMessage_discarded he (late.imp_right .inl)

end Sys2Proof.Machine
end

section
/-! PROOFS. The registers of the time unit (R62, R64, R69, R75, R76, R88, R582). -/

namespace Sys2Proof.Machine

/-! ### Accesses of the TIME page -/

theorem plainAt_time {o : Nat} {r : RegD} (ho : o < 0x1000) (ha : o % 4 = 0) (hpast : 0x40 ≤ o) (hw : r.wide = false)
    (hd : regs_time.find? (fun r => r.covers o) = some r) : PlainAt (0x10000 + o) .time 0 r := by
  have off : (0x10000 + o) % 0x1000 = o := by omega
  have page : pageOf (0x10000 + o) = some (.time, 0) := by
    have hn : (0x10000 + o) / 0x1000 = 0x10 := by omega
    simp [pageOf, hn]
  exact plainAt_of_page page rfl (off.symm ▸ hd) hw (by omega) (by omega) (.inl (by omega))

theorem plainAt_timeCtl : PlainAt R.TIME_CTL .time 0 regs_time[0] :=
  plainAt_time (o := 0x40) (by decide) (by decide) (by decide) rfl (by decide)
theorem plainAt_timeNowFrac : PlainAt R.TIME_NOW_FRAC .time 0 regs_time[2] :=
  plainAt_time (o := 0x48) (by decide) (by decide) (by decide) rfl (by decide)
theorem plainAt_timeAdjNs : PlainAt R.TIME_ADJ_NS .time 0 regs_time[7] :=
  plainAt_time (o := 0x5C) (by decide) (by decide) (by decide) rfl (by decide)
theorem plainAt_timeStep : PlainAt R.TIME_STEP .time 0 regs_time[13] :=
  plainAt_time (o := 0x74) (by decide) (by decide) (by decide) rfl (by decide)

/-- A write of a register of the TIME page follows the rules of the page. -/
theorem PlainAt.timeWrite {a : Nat} {r : RegD} (h : PlainAt a .time 0 r) {s : State} {who : Req} (ho : s.open who a) (hw : r.writable = true)
    (v : W32) : s.regWrite who a v = .next (s.writeTime who.toNat (.here a) v) := by
  have page : s.writeReg who.toNat (.here a) v = s.writeTime who.toNat (.here a) v := by
    unfold State.writeReg
    rw [h.page]
  exact (h.regWrite ho (by decide) (by decide) hw v).trans (congrArg Host.Outcome.next page)

section
variable {s : State} {who : Req} {v : W32}

/-! ### TIME_ADJ_NS (R69, R75) -/

theorem exec_timeAdjNsWrite (ho : s.open who R.TIME_ADJ_NS) : exec (.timeAdjNsWrite who v) s =
    .next (if s.tSrc = 2 then s.violAt who.toNat 3 R.TIME_ADJ_NS
      else if s.tSrc = 1 then (s.addSlew (s32 v)).sample (-(s32 v)) false else s.addSlew (s32 v)) :=
  plainAt_timeAdjNs.timeWrite ho (by decide) v

theorem timeAdjNsWrite_adds (ho : s.open who R.TIME_ADJ_NS) (h : s.tSrc = 0) : Completes (.timeAdjNsWrite who v) s fun t =>
    t.time.slew = s.time.slew + v.toInt * 2 ^ 48 ∧ t.time.d = s.time.d ∧ s.regsKept t [R.TIME_STAT] := by
  have hexec := exec_timeAdjNsWrite (v := v) ho
  rw [if_neg (by rw [h]; decide), if_neg (by rw [h]; decide)] at hexec
  refine ⟨_, hexec, ?_, ?_, (State.regsKept.refl.setTime _).setFld List.mem_cons_self⟩
  · rw [State.addSlew, time_setFld]; rfl
  · rw [State.addSlew, time_setFld]; rfl

theorem timeAdjNsWrite_refused (ho : s.open who R.TIME_ADJ_NS) (h : s.tSrc = 2) :
    exec (.timeAdjNsWrite who v) s = .next (s.violAt who.toNat 3 R.TIME_ADJ_NS) :=
  (exec_timeAdjNsWrite ho).trans (by rw [if_pos h])

/-! ### TIME_STEP (R76, R78) -/

/-- The state in which a step to TIME_SET is ordered. -/
def State.stepOrdered (s : State) : State :=
  (s.setTime { s.time with ordered := true, target := none }).setFld R.TIME_STEP F.TIME_STEP_BUSY 1

theorem exec_timeStepGo (ho : s.open who R.TIME_STEP) : exec (.timeStepGo who) s =
    .next (if s.flag R.TIME_STEP F.TIME_STEP_BUSY then s.violAt who.toNat 3 R.TIME_STEP else s.stepOrdered) :=
  plainAt_timeStep.timeWrite ho (by decide) (bitW 31)

theorem timeStepGo_orders (ho : s.open who R.TIME_STEP) (h : s.flag R.TIME_STEP F.TIME_STEP_BUSY = false) :
    Completes (.timeStepGo who) s fun t => t.time.ordered = true ∧ t.time.target = none ∧ t.time.d = s.time.d ∧
      t.flag R.TIME_STEP F.TIME_STEP_BUSY = true ∧ s.regsKept t [R.TIME_STEP] := by
  have hexec := exec_timeStepGo ho
  rw [if_neg (ne_true_of_eq_false h)] at hexec
  have time : s.stepOrdered.time = { s.time with ordered := true, target := none } := by rw [State.stepOrdered, time_setFld]; rfl
  refine ⟨_, hexec, ?_, ?_, ?_, flag_setFld_same (by decide) (by decide), (State.regsKept.refl.setTime _).setFld List.mem_cons_self⟩
  · rw [time]
  · rw [time]
  · rw [time]

theorem timeStepGo_refused (ho : s.open who R.TIME_STEP) (h : s.flag R.TIME_STEP F.TIME_STEP_BUSY = true) :
    exec (.timeStepGo who) s = .next (s.violAt who.toNat 3 R.TIME_STEP) :=
  (exec_timeStepGo ho).trans (by rw [if_pos h])

end

/-! ### TIME_NOW (R62, R88, R582) -/

section
variable {s : State} {who : Nat}

theorem readHit_time {a : Nat} {r : RegD} (h : PlainAt a .time 0 r) : s.readHit who (.here a) = s.plainRead who (.here a) := by
  have past := h.past
  unfold State.readHit
  dsimp only
  rw [if_neg (show ¬ a % 0x1000 = 0x1C by omega), if_neg (Nat.not_lt.mpr past), h.desc, if_neg (by simp), h.page]

/-- A register that shows the time unit. -/
theorem value_time {a n : Nat} (ha : 0x40 ≤ a % 0x1000) (hp : pageOf a = some (.time, 0)) (h : s.timeReg a = some n) :
    s.value (.here a) = w32 n := by
  have shown : s.shown (.here a) = some (w32 n) := by
    unfold State.shown
    dsimp only
    rw [hp, h]
    rfl
  unfold State.value
  dsimp only
  rw [shown, if_neg (by omega), if_neg (by omega)]

theorem latched_setLatch_other {a b : Nat} (v : Option W32) (h : b ≠ a) : (s.setLatch who a v).latched who b = s.latched who b :=
  smGet_smSet_other _ _ _ (by unfold latchKey; omega)

/-- A read of TIME_NOW_FRAC latches the three other registers for its reader. -/
theorem latchGroup_timeNow : s.latchGroup who (.here R.TIME_NOW_FRAC) =
    ((s.setLatch who R.TIME_NOW_NS (some (w32 (s.dNs % 1000000000)))).setLatch who R.TIME_NOW_SEC_LO
      (some (w32 (s.dNs / 1000000000 % 2 ^ 32)))).setLatch who R.TIME_NOW_SEC_HI (some (w32 (s.dNs / 1000000000 / 2 ^ 32 % 65536))) := by
  have h := plainAt_timeNowFrac
  rw [← value_time (s := s) (a := R.TIME_NOW_NS) (by decide) (by decide) rfl,
    ← value_time (s := s) (a := R.TIME_NOW_SEC_LO) (by decide) (by decide) rfl,
    ← value_time (s := s) (a := R.TIME_NOW_SEC_HI) (by decide) (by decide) rfl]
  have noLog : ¬ R.TIME_NOW_FRAC = R.RAS_LOG_W 0 := by decide
  unfold State.latchGroup
  rw [h.desc]
  simp only [h.low, noLog, Bool.false_eq_true, if_false]
  rfl

end

theorem timeNowFracRead_latches {s : State} {who : Req} (ho : s.open who R.TIME_NOW_FRAC) (hl : s.latched who.toNat R.TIME_NOW_FRAC = none) :
    Completes (.timeNowFracRead who) s fun t => t.rdata = BitVec.ofNat 32 (s.time.d / 2 ^ 32 % 65536) ∧
      t.latched who.toNat R.TIME_NOW_NS = some (BitVec.ofNat 32 (s.dNs % 1000000000)) ∧
      t.latched who.toNat R.TIME_NOW_SEC_LO = some (BitVec.ofNat 32 (s.dNs / 1000000000 % 2 ^ 32)) ∧ t.regs = s.regs ∧ t.time = s.time := by
  have fraction : s.value (.here R.TIME_NOW_FRAC) = w32 (s.time.d / 2 ^ 32 % 65536) := value_time (by decide) (by decide) rfl
  have plain : s.plainRead who.toNat (.here R.TIME_NOW_FRAC) =
      (w32 (s.time.d / 2 ^ 32 % 65536), s.latchGroup who.toNat (.here R.TIME_NOW_FRAC)) := by
    unfold State.plainRead
    rw [hl, fraction, clearRead_of_no_rc plainAt_timeNowFrac (by decide)]
  have hexec := plainAt_timeNowFrac.regRead ho
  rw [readHit_time plainAt_timeNowFrac, plain, latchGroup_timeNow] at hexec
  refine ⟨_, hexec, rfl, ?_, ?_, rfl, rfl⟩
  · rw [latched_with_rdata, latched_setLatch_other _ (by decide), latched_setLatch_other _ (by decide), latched_setLatch_same]
    rfl
  · rw [latched_with_rdata, latched_setLatch_other _ (by decide), latched_setLatch_same]
    rfl

/-! ### TIME_CTL (R64, R68) -/

/-- A captured violation changes registers of its page and nothing else. -/
theorem regsOnly_violAt (s : State) (agent type addr : Nat) : s.regsOnly (s.violAt agent type addr) := by
  unfold State.violAt State.viol
  dsimp only
  split
  · exact State.regsOnly.refl.setReg
  · exact State.regsOnly.refl.setReg.setReg

section
variable {s : State} {who : Req} {v : W32}

/-- TIME_CTL as its fields are stored, REF where its test allows it. -/
def State.timeCtlStored (s : State) (who : Nat) (v : W32) (refused : Bool) : State :=
  s.putF who (.here R.TIME_CTL) v (badIf refused F.TIME_CTL_REF)

theorem regsOnly_timeCtlStored (refused : Bool) : s.regsOnly (s.timeCtlStored who.toNat v refused) := by
  cases refused with
  | false => exact State.regsOnly.refl.setReg
  | true => exact State.regsOnly.refl.setReg.trans (regsOnly_violAt _ _ _ _)

/-- The source is stored whatever becomes of REF. -/
theorem tSrc_timeCtlStored (refused : Bool) : (s.timeCtlStored who.toNat v refused).tSrc = getF v F.TIME_CTL_SRC := by
  have stored : ∀ w : W32, (s.putW (.here R.TIME_CTL) w).tSrc = getF w F.TIME_CTL_SRC := fun w =>
    fld_putW plainAt_timeCtl (by decide) (f := ⟨F.TIME_CTL_SRC, .rw, 0⟩) (by decide)
  cases refused with
  | false => exact stored v
  | true =>
    have capture : ∀ t : State, (t.violAt who.toNat 3 R.TIME_CTL).tSrc = t.tSrc := fun t =>
      congrArg (getF · F.TIME_CTL_SRC) (reg_viol_other t _ _ _ _ _ _ (by decide) (by decide))
    exact (capture _).trans ((stored _).trans (getF_setF_below _ _ _ _ (by decide) (by decide) (by decide)))

theorem timeCtlWrite_reserved (ho : s.open who R.TIME_CTL) (h : getF v F.TIME_CTL_SRC = 3) :
    exec (.timeCtlWrite who v) s = .next (s.violAt who.toNat 3 R.TIME_CTL) :=
  (plainAt_timeCtl.timeWrite ho (by decide) v).trans (congrArg Host.Outcome.next (if_pos h))

/-- Without a source the servo runs freely, whatever HOLD says; D stands. -/
theorem timeCtl_unsourced (h : getF v F.TIME_CTL_SRC = 0) : (s.timeCtl who.toNat (.here R.TIME_CTL) v).tSrc = 0 ∧
    (s.timeCtl who.toNat (.here R.TIME_CTL) v).tState = tFREERUN ∧ (s.timeCtl who.toNat (.here R.TIME_CTL) v).time.d = s.time.d := by
  have known : ¬ getF v F.TIME_CTL_SRC = 3 := by rw [h]; decide
  unfold State.timeCtl
  extract_lets r free s1 s2 before s3
  rw [if_neg known]
  have stored : s1.tSrc = 0 ∧ s1.time.d = s.time.d :=
    ⟨(tSrc_timeCtlStored _).trans h, congrArg TimeSt.d (regsOnly_timeCtlStored (who := who) (v := v) _).time⟩
  have relocked : s2.tSrc = 0 ∧ s2.time.d = s.time.d := by
    unfold s2
    split
    · exact stored
    · exact ⟨(fld_setFld_other (by decide)).trans stored.1, by rw [time_setFld, stored.2]⟩
  have restarted : s3.tSrc = 0 ∧ s3.time.d = s.time.d := by
    unfold s3
    split
    · exact relocked
    · exact relocked
  rw [if_pos restarted.1]
  exact ⟨((regsKept_toServo s3 tFREERUN).fld (by decide)).trans restarted.1, tState_toServo s3 (by decide),
    by rw [(regsOnly_toServo s3 tFREERUN).time, restarted.2]⟩

theorem timeCtlWrite_freeruns (ho : s.open who R.TIME_CTL) (h : getF v F.TIME_CTL_SRC = 0) :
    Completes (.timeCtlWrite who v) s fun t => t.tSrc = 0 ∧ t.tState = tFREERUN ∧ t.time.d = s.time.d :=
  ⟨_, plainAt_timeCtl.timeWrite ho (by decide) v, timeCtl_unsourced h⟩

end

/-! ### The statement -/

/-- Settles O34: each command is an access that lands on its register, and follows the rule of its page there (R62, R64, R69, R75, R76, R88,
R582; assumption log 20, 26, 33). -/
theorem timeRegistersFollowTheirRules : Obligations.TimeRegistersFollowTheirRules :=
  fun _ _ _ => ⟨timeAdjNsWrite_adds, timeAdjNsWrite_refused, timeStepGo_orders, timeStepGo_refused, timeNowFracRead_latches,
    timeCtlWrite_reserved, timeCtlWrite_freeruns⟩

end Sys2Proof.Machine
end

section
/-! PROOFS. The stage channel (R117, R120–R123): what a delivery and a commit change of threads, engines and packets. -/

namespace Sys2Proof.Machine

/-! ### Rules of the updates -/

namespace State.regsOnly
variable {s t : State} (h : s.regsOnly t)
include h

theorem thr (a : Nat) : t.thr a = s.thr a := by obtain ⟨r, rfl⟩ := h; rfl
theorem eng (e : Nat) : t.eng e = s.eng e := by obtain ⟨r, rfl⟩ := h; rfl
theorem pkt (k : Nat) : t.pkt k = s.pkt k := by obtain ⟨r, rfl⟩ := h; rfl
theorem src (p x : Nat) : t.src p x = s.src p x := by obtain ⟨r, rfl⟩ := h; rfl
theorem near : t.near = s.near := by obtain ⟨r, rfl⟩ := h; rfl

end State.regsOnly

theorem eng_setEng_same (s : State) (e : Nat) (g : Eng) : (s.setEng e g).eng e = g := smGet_smSet_same _ _ _ _
theorem eng_setEng_other (s : State) {e e' : Nat} (g : Eng) (h : e' ≠ e) : (s.setEng e g).eng e' = s.eng e' := smGet_smSet_other _ _ _ h

theorem thr_event_same (s : State) (a ev : Nat) :
    (s.event a ev).thr a = { s.thr a with evPend := (s.thr a).evPend ||| BitVec.ofNat 16 (2 ^ ev) } := thr_setThr_same _ _ _
theorem thr_event_other (s : State) {a b : Nat} (ev : Nat) (h : b ≠ a) : (s.event a ev).thr b = s.thr b := thr_setThr_other _ _ _ _ h

/-- An event changes no field of a thread but its pending events. -/
theorem thr_event (s : State) (a ev b : Nat) : ∃ m, (s.event a ev).thr b = { s.thr b with evPend := m } := by
  by_cases h : b = a
  · rw [h]; exact ⟨_, thr_event_same s a ev⟩
  · exact ⟨_, thr_event_other s ev h⟩

/-- The turn of the next packet is an event of a thread, or nothing (R117). -/
theorem turnEvent_cases (s : State) (e : Nat) : s.turnEvent e = s ∨ ∃ a, s.turnEvent e = s.event a 2 := by
  unfold State.turnEvent
  split
  · split
    · exact .inr ⟨_, rfl⟩
    · exact .inl rfl
  · exact .inl rfl

/-- The start of a debug hold raises its cause, and does nothing else (R566). -/
theorem holdFrom_cases (s s0 : State) (p : Nat) : s.holdFrom s0 p = s ∨ s.holdFrom s0 p = s.raise 0xF00000 1 := by
  unfold State.holdFrom
  split
  · exact .inr rfl
  · exact .inl rfl

theorem regsOnly_holdFrom (s s0 : State) (p : Nat) : s.regsOnly (s.holdFrom s0 p) := by
  rcases holdFrom_cases s s0 p with h | h
  · rw [h]; exact .refl
  · rw [h]; exact State.regsOnly.refl.raise

theorem reg64_holdFrom (s s0 : State) (p : Nat) {r : Nat} (h : r + 4 < 0xF00010) : (s.holdFrom s0 p).reg64 r = s.reg64 r := by
  have kept : s.regsKept (s.holdFrom s0 p) [0xF00010] := by
    rcases holdFrom_cases s s0 p with e | e
    · rw [e]; exact .refl
    · rw [e]; exact State.regsKept.refl.raise List.mem_cons_self
  exact reg64_kept kept (by simp; omega) (by simp; omega)

/-- What follows a commit: the turn of the next packet, and the debug hold that the commit may begin. -/
def State.settled (s s0 : State) (e : Nat) : State := (s.turnEvent e).holdFrom s0 (e / 16)

/-- What follows a commit touches nothing but threads and registers. -/
theorem settled_eq (s s0 : State) (e : Nat) : ∃ m r, s.settled s0 e = { s with thrs := m, regs := r } := by
  obtain ⟨r, held⟩ := regsOnly_holdFrom (s.turnEvent e) s0 (e / 16)
  rw [State.settled, held]
  rcases turnEvent_cases s e with h | ⟨a, h⟩
  · rw [h]; exact ⟨_, _, rfl⟩
  · rw [h]; exact ⟨_, _, rfl⟩

section
variable (s s0 : State) (e : Nat)

theorem pkt_settled (k : Nat) : (s.settled s0 e).pkt k = s.pkt k := by
  obtain ⟨m, r, h⟩ := settled_eq s s0 e
  rw [h]; rfl

theorem eng_settled (d : Nat) : (s.settled s0 e).eng d = s.eng d := by
  obtain ⟨m, r, h⟩ := settled_eq s s0 e
  rw [h]; rfl

theorem mem_settled : (s.settled s0 e).mem = s.mem := by
  obtain ⟨m, r, h⟩ := settled_eq s s0 e
  rw [h]

theorem thr_settled (a : Nat) : ∃ m, (s.settled s0 e).thr a = { s.thr a with evPend := m } := by
  have held : (s.settled s0 e).thr a = (s.turnEvent e).thr a := (regsOnly_holdFrom _ _ _).thr a
  rw [held]
  rcases turnEvent_cases s e with h | ⟨b, h⟩
  · exact ⟨_, by rw [h]⟩
  · rw [h]; exact thr_event s b 2 a

theorem reg64_settled {r : Nat} (h : r + 4 < 0xF00010) : (s.settled s0 e).reg64 r = s.reg64 r := by
  have turned : (s.turnEvent e).reg64 r = s.reg64 r := by
    rcases turnEvent_cases s e with h' | ⟨a, h'⟩
    · rw [h']
    · rw [h']; rfl
  rw [State.settled, reg64_holdFrom _ _ _ h, turned]

end

/-! ### A packet moves on (R120, R123) -/

/-- A packet leaves the queue of an engine for that of the next. -/
def State.movedOn (s : State) (e k : Nat) : State := (s.leave e k).setEng (e + 1) { s.eng (e + 1) with q := (s.eng (e + 1)).q ++ [k] }

section
variable (s : State) (e k : Nat)

theorem eng_leave_next : (s.leave e k).eng (e + 1) = s.eng (e + 1) := eng_setEng_other s _ (by omega)

theorem q_movedOn_next : ((s.movedOn e k).eng (e + 1)).q = (s.eng (e + 1)).q ++ [k] := by rw [State.movedOn, eng_setEng_same]

theorem not_mem_q_movedOn : k ∉ ((s.movedOn e k).eng e).q := by
  rw [State.movedOn, eng_setEng_other _ _ (by omega), State.leave, eng_setEng_same]
  simp

theorem pkt_movedOn (j : Nat) : (s.movedOn e k).pkt j = s.pkt j := rfl
theorem thr_movedOn (a : Nat) : (s.movedOn e k).thr a = s.thr a := rfl
theorem mem_movedOn : (s.movedOn e k).mem = s.mem := rfl
theorem reg64_movedOn (r : Nat) : (s.movedOn e k).reg64 r = s.reg64 r := rfl

variable {e}

section
variable (r n : Nat)

theorem engs_cnt64 : (s.cnt64 r n).engs = s.engs := by rw [State.cnt64, State.setReg64, State.setReg_engs, State.setReg_engs]
theorem mem_cnt64 : (s.cnt64 r n).mem = s.mem := by rw [State.cnt64, State.setReg64, State.setReg_mem, State.setReg_mem]
theorem eng_cnt64 (d : Nat) : (s.cnt64 r n).eng d = s.eng d := congrArg (smGet _ · d) (engs_cnt64 s r n)
theorem pkt_cnt64 (j : Nat) : (s.cnt64 r n).pkt j = s.pkt j := congrArg (smGet _ · j) (pkts_cnt64 s r n)

theorem reg64_leave : (s.leave e k).reg64 r = s.reg64 r := rfl

/-- A count does not mind when a packet leaves its engine. -/
theorem cnt64_leave : (s.leave e k).cnt64 r n = (s.cnt64 r n).leave e k := by
  have set : ∀ t a v, (State.leave t e k).setReg a v = (t.setReg a v).leave e k := fun _ _ _ => rfl
  rw [State.cnt64, State.setReg64, set, set, reg64_leave, State.cnt64, State.setReg64]

end

/-- Inside a pipeline's row of engines a packet is handed to the next engine. -/
theorem handOff_next (h11 : e % 16 ≠ 11) (h15 : e % 16 ≠ 15) (f : State → Nat → State) :
    s.handOff e k f = s.setEng (e + 1) { s.eng (e + 1) with q := (s.eng (e + 1)).q ++ [k] } := by
  rw [State.handOff, if_neg h11, if_neg h15]

theorem handOff_leave (h11 : e % 16 ≠ 11) (h15 : e % 16 ≠ 15) (f : State → Nat → State) : (s.leave e k).handOff e k f = s.movedOn e k := by
  rw [handOff_next _ _ h11 h15, eng_leave_next]
  rfl

end

theorem reg64_lt (s : State) (r : Nat) : s.reg64 r < 2 ^ 64 := by
  unfold State.reg64
  have lo := (s.reg r).isLt
  have hi := (s.reg (r + 4)).isLt
  omega

/-! ### Commits (R121, R123) -/

/-- The send slot of a thread becomes the context of its packet, and the thread is idle. -/
def State.sendTaken (s : State) (k a : Nat) : State :=
  (s.setPkt k { s.pkt k with ctx := (s.thr a).slot }).setThr a { s.thr a with pkt := none, wait := .run, slot := [] }

/-- A send of a packet that stands counts. -/
def State.sendCounted (s : State) (e k : Nat) : State := if (s.pkt k).sent then s.cnt64 (R.ENG_PKT e) 1 else s

theorem sendCounted_counts (s : State) (e k : Nat) : (s.sendCounted e k).engs = s.engs ∧ (s.sendCounted e k).mem = s.mem ∧
    (s.sendCounted e k).reg64 (R.ENG_PKT e) = (s.reg64 (R.ENG_PKT e) + (if (s.pkt k).sent then 1 else 0)) % 2 ^ 64 := by
  unfold State.sendCounted
  by_cases sent : (s.pkt k).sent = true
  · rw [if_pos sent, if_pos sent]
    exact ⟨engs_cnt64 _ _ _, mem_cnt64 _ _ _, reg64_cnt64_same _ _ _⟩
  · rw [if_neg sent, if_neg sent, Nat.add_zero, Nat.mod_eq_of_lt (reg64_lt _ _)]
    exact ⟨rfl, rfl, rfl⟩

/-- A standing send of a packet without a thread is used up, and counts. -/
def State.standingTaken (s : State) (e k : Nat) : State := (s.sendCounted e k).setPkt k { s.pkt k with sent := false }

section
variable {s : State} {e : EngN} {k : Nat} (on : s.pipeOn (e.val / 16) = true) (room : s.hasRoom e = true) (h11 : e.val % 16 ≠ 11)
  (h15 : e.val % 16 ≠ 15)
include on room h11 h15

theorem exec_sendCommit {a : Nat} (hr : s.sendReady e = some (k, a)) :
    exec (.sendCommit e) s = .next ((((s.sendTaken k a).cnt64 (R.ENG_PKT e) 1).movedOn e k).settled s e) := by
  have commits : s.commitSend e k a State.toTx =
      ((((s.sendTaken k a).leave e k).cnt64 (R.ENG_PKT e) 1).handOff e k State.toTx).turnEvent e := by
    rw [State.commitSend, State.sendTaken]
  rw [cnt64_leave, handOff_leave _ _ h11 h15] at commits
  change execSendCommit e s = _
  rw [execSendCommit, hr, State.settled, ← commits]
  exact if_pos (by rw [on, room]; rfl)

theorem exec_discardCommit (hr : s.discardReady e = some k) :
    exec (.discardCommit e) s = .next (((s.standingTaken e k).movedOn e k).settled s e) := by
  have same : (s.sendCounted e k).pkt k = s.pkt k := by
    unfold State.sendCounted
    split
    · exact pkt_cnt64 _ _ _ _
    · rfl
  have commits : s.commitDiscard e k State.toTx = (((s.standingTaken e k).leave e k).handOff e k State.toTx).turnEvent e := by
    rw [State.standingTaken, ← same, State.commitDiscard, State.sendCounted]
  rw [handOff_leave _ _ h11 h15] at commits
  change execDiscardCommit e s = _
  rw [execDiscardCommit, hr, State.settled, ← commits]
  exact if_pos (by rw [on, room]; rfl)

theorem sendCommit_moves {a : Nat} (hr : s.sendReady e = some (k, a)) : Completes (.sendCommit e) s fun t =>
    (t.pkt k).ctx = (s.thr a).slot ∧ (t.thr a).pkt = none ∧ (t.thr a).wait = .run ∧
      (t.eng (e.val + 1)).q = (s.eng (e.val + 1)).q ++ [k] ∧ t.reg64 (R.ENG_PKT e) = (s.reg64 (R.ENG_PKT e) + 1) % 2 ^ 64 ∧ t.mem = s.mem := by
  have place : R.ENG_PKT e + 4 < 0xF00010 := by unfold R.ENG_PKT; omega
  have count : (s.sendTaken k a).reg64 (R.ENG_PKT e) = s.reg64 (R.ENG_PKT e) := rfl
  have idle : (s.sendTaken k a).thr a = { s.thr a with pkt := none, wait := .run, slot := [] } := thr_setThr_same _ _ _
  obtain ⟨m, thread⟩ := thr_settled (((s.sendTaken k a).cnt64 (R.ENG_PKT e) 1).movedOn e k) s e a
  rw [thr_movedOn, thr_cnt64, idle] at thread
  refine ⟨_, exec_sendCommit on room h11 h15 hr, ?_, by rw [thread], by rw [thread], ?_, ?_, ?_⟩
  · rw [pkt_settled, pkt_movedOn, pkt_cnt64]
    exact congrArg Pkt.ctx (pkt_setPkt_same s k { s.pkt k with ctx := (s.thr a).slot })
  · rw [eng_settled, q_movedOn_next, eng_cnt64]; rfl
  · rw [reg64_settled _ _ _ place, reg64_movedOn, reg64_cnt64_same, count]
  · rw [mem_settled, mem_movedOn, mem_cnt64]; rfl

theorem discardCommit_moves (hr : s.discardReady e = some k) : Completes (.discardCommit e) s fun t => t.pkt k = { s.pkt k with sent := false } ∧
    t.reg64 (R.ENG_PKT e) = (s.reg64 (R.ENG_PKT e) + (if (s.pkt k).sent then 1 else 0)) % 2 ^ 64 ∧
      (t.eng (e.val + 1)).q = (s.eng (e.val + 1)).q ++ [k] ∧ k ∉ (t.eng e).q ∧ t.mem = s.mem := by
  have place : R.ENG_PKT e + 4 < 0xF00010 := by unfold R.ENG_PKT; omega
  obtain ⟨engines, memory, count⟩ := sendCounted_counts s e k
  refine ⟨_, exec_discardCommit on room h11 h15 hr, ?_, ?_, ?_, ?_, ?_⟩
  · rw [pkt_settled, pkt_movedOn, State.standingTaken, pkt_setPkt_same]
  · rw [reg64_settled _ _ _ place, reg64_movedOn]
    exact count
  · rw [eng_settled, q_movedOn_next]
    exact congrArg (fun m => (smGet (fun _ => ({} : Eng)) m (e.val + 1)).q ++ [k]) engines
  · rw [eng_settled]
    exact not_mem_q_movedOn _ _ _
  · rw [mem_settled, mem_movedOn]
    exact memory

end

/-! ### Delivery (R117, R121) -/

/-- A packet is in the context buffer of a thread of an engine, which is to start at the packet entry. -/
def State.handed (s : State) (e k t : Nat) (rest : List Nat) : State :=
  (s.setThr (e * 8 + t) { s.thr (e * 8 + t) with
    pkt := some k, slot := (s.pkt k).ctx, pc := s.fld (R.ENG_ENTRY e) F.ENG_ENTRY_PKT_ENTRY, wait := .run, fresh := false }).setEng e
      { s.eng e with q := rest, held := (s.eng e).held ++ [k], last := t }

/-- Event 0, and event 2 on the thread of a packet that is OLDEST at once. -/
def State.told (s : State) (a : Nat) (first : Bool) : State := if first then (s.event a 0).event a 2 else s.event a 0

theorem thr_told_same (s : State) (a : Nat) (first : Bool) : ∃ m : BitVec 16, m.getLsbD 0 = true ∧
    (s.told a first).thr a = { s.thr a with evPend := m } := by
  unfold State.told
  cases first with
  | true => exact ⟨(s.thr a).evPend ||| BitVec.ofNat 16 (2 ^ 0) ||| BitVec.ofNat 16 (2 ^ 2), by simp, by
      rw [if_pos rfl, thr_event_same, thr_event_same]⟩
  | false => exact ⟨(s.thr a).evPend ||| BitVec.ofNat 16 (2 ^ 0), by simp, thr_event_same s a 0⟩

theorem told_eq (s : State) (a : Nat) (first : Bool) : ∃ m, s.told a first = { s with thrs := m } := by
  unfold State.told
  split <;> exact ⟨_, rfl⟩

theorem thr_told_other (s : State) {a b : Nat} (first : Bool) (h : b ≠ a) : (s.told a first).thr b = s.thr b := by
  unfold State.told
  split
  · rw [thr_event_other _ _ h, thr_event_other _ _ h]
  · exact thr_event_other _ _ h

theorem told_handed (s : State) (e k t : Nat) (rest : List Nat) : (s.handed e k t rest).told (e * 8 + t) (s.eng e).held.isEmpty =
    if (s.eng e).held.isEmpty then ((s.handed e k t rest).event (e * 8 + t) 0).event (e * 8 + t) 2 else (s.handed e k t rest).event (e * 8 + t) 0 := rfl

section
variable {s : State} {e : EngN} {k i : Nat} {rest : List Nat} (hq : (s.eng e).q = k :: rest) (on : s.pipeOn (e.val / 16) = true)
  (run : s.engRun e = true) (keep : (s.pkt k).discard = false) (due : s.landed k (e.val % 16) = true)
  (found : [1, 2, 3, 4, 5, 6, 7, 8].find? (fun i => s.suits e (((s.eng e).last + i) % 8) k) = some i)
include hq on run keep due found

theorem exec_packetDelivery : exec (.packetDelivery e) s =
    .next ((s.handed e k (((s.eng e).last + i) % 8) rest).told (e.val * 8 + ((s.eng e).last + i) % 8) (s.eng e).held.isEmpty) := by
  have goes : ¬ (¬ s.pipeOn (e.val / 16) = true ∨ ¬ s.engRun e = true ∨ (s.pkt k).discard = true ∨ ¬ s.landed k (e.val % 16) = true) := by
    simp [on, run, keep, due]
  change execPacketDelivery e s = _
  unfold execPacketDelivery
  dsimp only
  rw [hq]
  dsimp only
  rw [if_neg goes, found]
  exact congrArg Host.Outcome.next (told_handed s e k _ rest).symm

theorem packetDelivery_delivers : Completes (.packetDelivery e) s fun t =>
    let a := e.val * 8 + ((s.eng e).last + i) % 8
    (t.thr a).pkt = some k ∧ (t.thr a).slot = (s.pkt k).ctx ∧ t.pc a = s.fld (R.ENG_ENTRY e) F.ENG_ENTRY_PKT_ENTRY ∧
    (t.thr a).evPend.getLsbD 0 = true ∧ (t.eng e).q = rest ∧ (t.eng e).held = (s.eng e).held ++ [k] ∧ t.regs = s.regs ∧ t.mem = s.mem ∧
    ∀ b, b ≠ a → t.thr b = s.thr b := by
  refine ⟨_, exec_packetDelivery hq on run keep due found, ?_⟩
  generalize ((s.eng e).last + i) % 8 = n
  generalize (s.eng e).held.isEmpty = first
  obtain ⟨m, event0, thread⟩ := thr_told_same (s.handed e k n rest) (e.val * 8 + n) first
  obtain ⟨ths, rest_kept⟩ := told_eq (s.handed e k n rest) (e.val * 8 + n) first
  have holds : (s.handed e k n rest).thr (e.val * 8 + n) = { s.thr (e.val * 8 + n) with
      pkt := some k, slot := (s.pkt k).ctx, pc := s.fld (R.ENG_ENTRY e) F.ENG_ENTRY_PKT_ENTRY, wait := .run, fresh := false } := thr_setThr_same _ _ _
  have engine : ((s.handed e k n rest).told (e.val * 8 + n) first).eng e =
      { s.eng e with q := rest, held := (s.eng e).held ++ [k], last := n } := by
    rw [rest_kept]; exact eng_setEng_same _ _ _
  rw [holds] at thread
  refine ⟨by rw [thread], by rw [thread], by rw [State.pc, thread], by rw [thread]; exact event0, by rw [engine], by rw [engine],
    by rw [rest_kept]; rfl, by rw [rest_kept]; rfl, fun b hb => ?_⟩
  rw [thr_told_other _ _ hb]
  exact thr_setThr_other _ _ _ _ hb

end

end Sys2Proof.Machine
end

section
/-! PROOFS. The parser (R89, R107): the state it works on, the frame it takes, and the way of a packet through the stages put together. -/

namespace Sys2Proof.Machine

/-! ### What the parser works on -/

/-- What of a state the parsing of a frame does not touch: all but registers, packets, lookups, numbers and source checks. -/
def State.pastParser (s : State) : State := { s with regs := [], pkts := [], lkps := [], nextId := 0, srcChks := [] }

theorem engs_of_pastParser {s t : State} (h : t.pastParser = s.pastParser) : t.engs = s.engs := (congrArg State.engs h :)
theorem srcQ_of_pastParser {s t : State} (h : t.pastParser = s.pastParser) : t.srcQ = s.srcQ := (congrArg State.srcQ h :)
theorem mem_of_pastParser {s t : State} (h : t.pastParser = s.pastParser) : t.mem = s.mem := (congrArg State.mem h :)
theorem near_of_pastParser {s t : State} (h : t.pastParser = s.pastParser) : t.near = s.near := (congrArg State.near h :)

theorem pastParser_setReg (s : State) (a : Nat) (v : W32) : (s.setReg a v).pastParser = s.pastParser := rfl
theorem pastParser_cnt64 (s : State) (r n : Nat) : (s.cnt64 r n).pastParser = s.pastParser := by
  rw [State.cnt64, State.setReg64, pastParser_setReg, pastParser_setReg]

/-- The parser of pipeline `p` has worked on for packet `k`: the packet stays where it is, and no other frame counts. -/
structure State.parsesOn (s t : State) (p k : Nat) : Prop where
  past  : t.pastParser = s.pastParser
  loc   : (t.pkt k).loc = (s.pkt k).loc
  count : t.reg64 (R.PARSE_FRM p) = s.reg64 (R.PARSE_FRM p)

namespace State.parsesOn
variable {s t u : State} {p k a b : Nat} {v : W32}

theorem refl : s.parsesOn s p k := ⟨rfl, rfl, rfl⟩

theorem trans (h : s.parsesOn t p k) (h' : t.parsesOn u p k) : s.parsesOn u p k :=
  ⟨h'.past.trans h.past, h'.loc.trans h.loc, h'.count.trans h.count⟩

theorem setReg (h : s.parsesOn t p k) (low : a ≠ R.PARSE_FRM p) (high : a ≠ R.PARSE_FRM p + 4) : s.parsesOn (t.setReg a v) p k :=
  h.trans ⟨rfl, rfl, reg64_kept (l := [a]) (State.regsKept.refl.setReg List.mem_cons_self) (by simpa using low.symm) (by simpa using high.symm)⟩

theorem raise (h : s.parsesOn t p k) (low : a + 0x10 ≠ R.PARSE_FRM p) (high : a + 0x10 ≠ R.PARSE_FRM p + 4) : s.parsesOn (t.raise a b) p k :=
  h.setReg low high

theorem cnt (h : s.parsesOn t p k) (low : a ≠ R.PARSE_FRM p) (high : a ≠ R.PARSE_FRM p + 4) : s.parsesOn (t.cnt a) p k := by
  unfold State.cnt
  split
  · exact h
  · exact h.setReg low high

theorem setCtx (h : s.parsesOn t p k) (c : SMap Byte) : s.parsesOn (t.setPkt k { t.pkt k with ctx := c }) p k :=
  h.trans ⟨rfl, by rw [pkt_setPkt_same], rfl⟩

theorem issueLkp (h : s.parsesOn t p k) (l : Lkp) : s.parsesOn (t.issueLkp l) p k := h.trans ⟨rfl, rfl, rfl⟩

theorem ite {c : Prop} [Decidable c] (ht : s.parsesOn t p k) (hu : s.parsesOn u p k) : s.parsesOn (if c then t else u) p k := by
  split
  · exact ht
  · exact hu

theorem foldl {α : Type} {g : State → α → State} (h : ∀ (t : State) (a : α), t.parsesOn (g t a) p k) (l : List α) (s : State) :
    s.parsesOn (l.foldl g s) p k := by
  induction l generalizing s with
  | nil => exact .refl
  | cons a l ih => exact (h s a).trans (ih (g s a))

end State.parsesOn

/-! ### A frame is parsed (R97–R107) -/

theorem parsesOn_preLookups (s : State) (p k q : Nat) (h : Walk) (w : Win) (c : SMap Byte) : s.parsesOn (s.preLookups p k q h w c) p k := by
  unfold State.preLookups
  refine .foldl (fun s n => ?_) _ s
  extract_lets r slot kind tbl put
  have put_on : ∀ st, s.parsesOn (put s st) p k := fun st => State.parsesOn.refl.setCtx _
  refine .ite ?_ .refl
  split
  · exact (put_on 1).issueLkp _
  · refine ((put_on 5).cnt ?_ ?_).raise ?_ ?_ <;> simp only [R.PARSE_KEYINV, R.PARSE_FRM] <;> omega

theorem parsesOn_viewAdd (s : State) {p : Nat} (k v : Nat) (hp : p < 16) : s.parsesOn (s.viewAdd v) p k := by
  have above : R.PARSE_FRM p + 4 < inflReg v := by
    unfold inflReg R.PARSE_FRM
    split
    · unfold R.VIEW_INFL_0; omega
    · unfold R.VIEW_INFL_1; omega
  exact State.parsesOn.refl.setReg (by omega) (by omega)

/-- A parsed frame is counted, and joins the queue of the first engine as a packet on the ingress side. -/
theorem parseFrame_joins (s : State) {p : Nat} (k : Nat) (hp : p < 16) : ∃ q u, q.loc = .ing p ∧
    ((s.setPkt k q).cnt64 (R.PARSE_FRM p) 1).parsesOn u p k ∧
      s.parseFrame p k = u.setEng (p * 16) { u.eng (p * 16) with q := (u.eng (p * 16)).q ++ [k] } := by
  unfold State.parseFrame
  extract_lets q rc win rh whole w h0 h i b1 view cls user f inst flen meta0 bd c0 c1 c2 c3 hash c4 c5 c6 s1 s2 s3 s4 s5 chk s6
  have viewed : s1.parsesOn s2 p k := .ite .refl (parsesOn_viewAdd s1 k view hp)
  have stopped : s1.parsesOn s3 p k := .ite (viewed.cnt (by simp only [R.PARSE_STOP, R.PARSE_FRM]; omega)
    (by simp only [R.PARSE_STOP, R.PARSE_FRM]; omega)) viewed
  have raised : s1.parsesOn s4 p k := .ite (stopped.raise (by simp only [R.PARSE_FRM]; omega) (by simp only [R.PARSE_FRM]; omega)) stopped
  have looked : s1.parsesOn s5 p k := raised.trans (parsesOn_preLookups _ _ _ _ _ _ _)
  have checked : s1.parsesOn s6 p k := .ite (looked.trans ⟨rfl, rfl, rfl⟩) looked
  exact ⟨_, s6, rfl, checked, rfl⟩

/-! ### The parser takes a frame (R89) -/

/-- The next frame of a source is taken from it. -/
def State.frameTaken (s : State) (p port : Nat) (rest : List Nat) : State :=
  { s.setSrc p port rest with parsed := smSet (fun _ => 127) s.parsed p port }

section
variable {s : State} {p : PipeN} {port k : Nat} {rest : List Nat} (on : s.pipeOn p = true) (unfenced : s.fenced p = false)
  (room : s.ingUsed p < 256) (space : (s.eng (p.val * 16)).q.length < 16) (next : s.nextSrc p = some port) (waits : s.src p port = k :: rest)
include on unfenced room space next waits

theorem exec_parseStart : exec (.parseStart p) s = .next (((s.frameTaken p port rest).parseFrame p k).holdFrom s p) := by
  have goes : ¬ (¬ s.pipeOn p = true ∨ s.fenced p = true ∨ 256 ≤ s.ingUsed p ∨ 16 ≤ (s.eng (p.val * 16)).q.length) := by
    simp only [on, unfenced, not_true, Bool.false_eq_true, false_or]
    omega
  change execParseStart p s = _
  unfold execParseStart
  dsimp only
  rw [if_neg goes, next]
  dsimp only
  rw [waits]
  rfl

theorem parseStart_takes : Completes (.parseStart p) s fun t => t.src p port = rest ∧ (t.eng (p.val * 16)).q = (s.eng (p.val * 16)).q ++ [k] ∧
    (t.pkt k).loc = .ing p ∧ t.reg64 (R.PARSE_FRM p) = (s.reg64 (R.PARSE_FRM p) + 1) % 2 ^ 64 ∧ t.mem = s.mem ∧ t.near = s.near := by
  refine ⟨_, exec_parseStart on unfenced room space next waits, ?_⟩
  obtain ⟨q, u, inside, parsed, joins⟩ := parseFrame_joins (s.frameTaken p port rest) k p.isLt
  have place : R.PARSE_FRM p + 4 < 0xF00010 := by unfold R.PARSE_FRM; omega
  have past : u.pastParser = (s.frameTaken p port rest).pastParser := parsed.past.trans (pastParser_cnt64 _ _ _)
  have count : ((s.frameTaken p port rest).setPkt k q).reg64 (R.PARSE_FRM p) = s.reg64 (R.PARSE_FRM p) := rfl
  have engines : u.engs = s.engs := (engs_of_pastParser past :)
  have held := regsOnly_holdFrom (u.setEng (p.val * 16) { u.eng (p.val * 16) with q := (u.eng (p.val * 16)).q ++ [k] }) s p
  rw [joins]
  refine ⟨?_, ?_, ?_, ?_, ?_, ?_⟩
  · rw [held.src]
    exact (congrArg (smGet _ · (p.val * 128 + port)) (srcQ_of_pastParser past)).trans (src_setSrc_same s p port rest)
  · rw [held.eng, eng_setEng_same, State.eng, engines]
    rfl
  · rw [held.pkt]
    refine parsed.loc.trans ?_
    rw [pkt_cnt64, pkt_setPkt_same, inside]
  · rw [reg64_holdFrom _ _ _ place]
    refine parsed.count.trans ?_
    rw [reg64_cnt64_same, count]
  · rw [held.mem]
    exact (mem_of_pastParser past :)
  · rw [held.near]
    exact (near_of_pastParser past :)

end

/-! ### The statement -/

/-- Settles O24: what a parsing, a delivery and the two commits change, and the frames that they keep. -/
theorem packetsMoveThroughTheStages : Obligations.PacketsMoveThroughTheStages := fun _ _ _ =>
  ⟨fun _ _ _ on unfenced room space next waits => parseStart_takes on unfenced room space next waits,
   fun _ _ _ hq on run keep due found => packetDelivery_delivers hq on run keep due found,
   fun _ _ ready on room h11 h15 => sendCommit_moves on room h11 h15 ready,
   fun _ ready on room h11 h15 => discardCommit_moves on room h11 h15 ready⟩

end Sys2Proof.Machine
end

section
/-! PROOFS. The landing of lookups (R101, R216, R217, R219, R225): what it reads and keeps, and what a search gives. -/

namespace Sys2Proof.Machine

/-! ### Before the landing -/

/-- What of a state a request to HBM keeps: all but the queues of requests. -/
def State.pastAsk (s : State) : State := { s with hbmQ := [], hbmWait := [] }

theorem pastAsk_hbmAsk (s : State) (client : Nat) (wr : Bool) (a n : Nat) : (s.hbmAsk client wr a n).pastAsk = s.pastAsk := by
  have offer : ∀ (t : State) (r : HbmReq), (t.hbmOffer r).pastAsk = t.pastAsk := fun t r => by
    unfold State.hbmOffer
    dsimp only
    split <;> rfl
  unfold State.hbmAsk
  split
  · rfl
  · exact foldl_keeps (fun t i => by split; exacts [offer _ _, rfl]) _ s

/-- What of a state the service of a lookup does not touch before its result lands: all but registers, the error log, the slots that could
not be read, the bucket caches and the requests to HBM. -/
def State.pastService (s : State) : State := { s with regs := [], rasLog := [], emBad := [], bcache := [], hbmQ := [], hbmWait := [] }

section
variable {s t : State} (h : t.pastService = s.pastService)
include h

theorem pkts_of_pastService : t.pkts = s.pkts := (congrArg State.pkts h :)
theorem thrs_of_pastService : t.thrs = s.thrs := (congrArg State.thrs h :)
theorem lkps_of_pastService : t.lkps = s.lkps := (congrArg State.lkps h :)
theorem em_of_pastService : t.em = s.em := (congrArg State.em h :)
theorem tcr_of_pastService : t.tcr = s.tcr := (congrArg State.tcr h :)
theorem mem_of_pastService : t.mem = s.mem := (congrArg State.mem h :)

end

section
variable (s : State)

@[simp] theorem pastService_setReg (a : Nat) (v : W32) : (s.setReg a v).pastService = s.pastService := (rfl)
@[simp] theorem pastService_raise (p b : Nat) : (s.raise p b).pastService = s.pastService := (rfl)
@[simp] theorem pastService_setCache (h b : Nat) (l : List (Nat × List Byte)) : (s.setCache h b l).pastService = s.pastService := (rfl)
@[simp] theorem pastService_touchCache (h b : Nat) (bs : List Byte) : (s.touchCache h b bs).pastService = s.pastService := (rfl)
@[simp] theorem pastService_emBad (m : SMap Bool) : ({ s with emBad := m } : State).pastService = s.pastService := (rfl)
@[simp] theorem pastService_rasLog (l : List Nat) : ({ s with rasLog := l } : State).pastService = s.pastService := (rfl)

@[simp] theorem pastService_cnt (a : Nat) : (s.cnt a).pastService = s.pastService := by
  unfold State.cnt; split <;> simp

@[simp] theorem pastService_cnt64 (a n : Nat) : (s.cnt64 a n).pastService = s.pastService := by
  rw [State.cnt64, State.setReg64, pastService_setReg, pastService_setReg]

@[simp] theorem pastService_logErr (sev block inst code loc : Nat) : (s.logErr sev block inst code loc).pastService = s.pastService := by
  have counted : (if sev = 1 then s.cnt R.RAS_CE else if sev = 2 then s.cnt R.RAS_REPAIR else if sev = 3 then s.cnt R.RAS_UE else s).pastService =
      s.pastService := by split_ifs <;> simp
  unfold State.logErr
  extract_lets s1 s2 e s3
  have raised : s2.pastService = s.pastService := by
    unfold s2
    split
    · exact (pastService_raise _ _ _).trans counted
    · exact counted
  have logged : s3.pastService = s.pastService := (pastService_rasLog _ _).trans raised
  split_ifs
  · exact counted
  · exact (pastService_cnt _ _).trans raised
  · exact (pastService_raise _ _ _).trans logged
  · exact logged

@[simp] theorem pastService_hbmAsk (client : Nat) (wr : Bool) (a n : Nat) : (s.hbmAsk client wr a n).pastService = s.pastService :=
  (congrArg State.pastService (pastAsk_hbmAsk s client wr a n) :)

end

/-! ### The slot (R101, R225) -/

/-- A result stands in its slot in the context of its packet, where no later lookup of the slot is under way and no thread holds the packet. -/
def State.slotGets (s t : State) (id : Nat) (l : Lkp) (status data : Nat) : Prop :=
  s.hasPkt l.pkt = true → (∀ e ∈ s.lkps, id < e.1 → e.2.pkt = l.pkt → e.2.slot ≠ l.slot) → s.holderOf l.pkt = none →
    (t.pkt l.pkt).ctx = setCtxWord (s.pkt l.pkt).ctx (8 + l.slot) (slotWord status l.kind l.table data)

section
variable (s : State) (id : Nat) (l : Lkp) (status data : Nat)

/-- A landing ends the lookup, and reaches a packet or a thread. -/
theorem landSlot_eq : ∃ m n, s.landSlot id l status data = { s with lkps := smErase s.lkps id, thrs := m, pkts := n } := by
  unfold State.landSlot
  extract_lets s1 put
  split
  · exact ⟨_, _, rfl⟩
  · split
    · exact ⟨_, _, rfl⟩
    · exact ⟨_, _, rfl⟩

theorem lkps_landSlot : (s.landSlot id l status data).lkps = smErase s.lkps id := by
  obtain ⟨m, n, h⟩ := landSlot_eq s id l status data
  rw [h]

theorem regs_landSlot : (s.landSlot id l status data).regs = s.regs := by
  obtain ⟨m, n, h⟩ := landSlot_eq s id l status data
  rw [h]

theorem reg64_landSlot (r : Nat) : (s.landSlot id l status data).reg64 r = s.reg64 r := by
  simp only [State.reg64, State.reg, regs_landSlot]

theorem cached_landSlot (h b : Nat) : (s.landSlot id l status data).cached h b = s.cached h b := by
  obtain ⟨m, n, e⟩ := landSlot_eq s id l status data
  rw [e]; rfl

theorem slotGets_landSlot : s.slotGets (s.landSlot id l status data) id l status data := by
  intro there alone unheld
  have none_later : ¬ (s.lkps.any (fun e => decide (id < e.1) && e.2.pkt == l.pkt && e.2.slot == l.slot) = true) := by
    rw [List.any_eq_true]
    rintro ⟨e, he, hit⟩
    simp only [Bool.and_eq_true, decide_eq_true_eq, beq_iff_eq] at hit
    obtain ⟨⟨later, pkt⟩, slot⟩ := hit
    exact alone e he later pkt slot
  have unheld' : ({ s with lkps := smErase s.lkps id } : State).holderOf l.pkt = none := unheld
  unfold State.landSlot
  extract_lets s1 put
  rw [if_neg (by simp only [there, none_later]; simp)]
  split
  · next a held => exact absurd (held.symm.trans unheld') (by simp)
  · rw [pkt_setPkt_same]
    rfl

end

/-- A lookup of a state has landed: it is under way no longer, its slot has the result, and tables and memory are as before. -/
structure State.landsAs (s t : State) (id : Nat) (l : Lkp) (status data : Nat) : Prop where
  lkps : t.lkps = smErase s.lkps id
  slot : s.slotGets t id l status data
  em   : t.em = s.em
  tcr  : t.tcr = s.tcr
  mem  : t.mem = s.mem

theorem State.landsAs.gone {s t : State} {id status data : Nat} {l : Lkp} (h : s.landsAs t id l status data) : smFind t.lkps id = none := by
  rw [h.lkps]; exact smFind_smErase_same _ _

theorem landsAs_landSlot {s u : State} (h : u.pastService = s.pastService) (id : Nat) (l : Lkp) (status data : Nat) :
    s.landsAs (u.landSlot id l status data) id l status data := by
  have pkts := pkts_of_pastService h
  have lkps := lkps_of_pastService h
  have slot := slotGets_landSlot u id l status data
  simp only [State.slotGets, State.hasPkt, State.pkt, State.holderOf, pkts, lkps, thrs_of_pastService h] at slot
  obtain ⟨m, n, e⟩ := landSlot_eq u id l status data
  exact ⟨by rw [lkps_landSlot, lkps], slot, by rw [e, ← em_of_pastService h], by rw [e, ← tcr_of_pastService h],
    by rw [e, ← mem_of_pastService h]⟩

/-! ### The half that serves (R548) -/

theorem servedBy_lt {s : State} {l : Lkp} (h : l.half < 2) : s.servedBy l < 2 := by
  unfold State.servedBy
  split <;> omega

theorem servedBy_kept {s t : State} {regs : List Nat} (h : s.regsKept t regs) (fence : R.DEV_FENCE ∉ regs) (mode : R.DEV_MODE ∉ regs)
    (test : R.RAS_TEST_CTL ∉ regs) (l : Lkp) : t.servedBy l = s.servedBy l := by
  simp only [State.servedBy, State.halfFenced, State.testTakes, State.testRuns, h _ fence, h.mode mode, h.fld test]
  rfl

/-! ### A search (R216, R217, R219) -/

/-- The entries of a table with a key, in a view: the first of them is what a search finds. -/
theorem find?_keyEnts (s : State) (t v : Nat) (key : List Byte) : (s.keyEnts t key).find? (fun e => e.2.inView v) =
    (s.bucketEnts (s.emDeep t) (s.bucketOf t key (s.emDeep t)) ++ s.ovfEnts).find? fun e => (e.2.tbl == t) && (e.2.key == key) && e.2.inView v := by
  rw [State.keyEnts, List.find?_filter]
  simp only [Bool.decide_and, Bool.decide_eq_true]

theorem find?_keyEnts_again (s : State) (t v : Nat) (key : List Byte) :
    (s.keyEnts t key).find? (fun e => (e.2.tbl == t) && (e.2.key == key) && e.2.inView v) = (s.keyEnts t key).find? fun e => e.2.inView v := by
  rw [find?_keyEnts, State.keyEnts, List.find?_filter]
  congr 1
  funext e
  cases e.2.tbl == t <;> cases e.2.key == key <;> simp

section
variable (s : State) (id : Nat) (l : Lkp) (ents : List (Nat × EmEnt))

/-- The test of a search. -/
def State.searches (s : State) (l : Lkp) (e : Nat × EmEnt) : Bool := (e.2.tbl == l.table) && (e.2.key == s.lkpKey l) && e.2.inView l.view

theorem landExact_miss (h : ents.find? (s.searches l) = none) :
    s.landExact id l ents false = (s.cnt64 (R.EM_LKP (s.servedBy l)) 1).landSlot id l 3 0 := by
  change ents.find? (fun e => (e.2.tbl == l.table) && (e.2.key == s.lkpKey l) && e.2.inView l.view) = none at h
  simp only [State.landExact, h, Bool.false_eq_true, if_false]

theorem landExact_unread (h : ents.find? (s.searches l) = none) : s.landExact id l ents true =
    (((s.cnt64 (R.EM_LKP (s.servedBy l)) 1).cnt (R.EM_ERR (s.servedBy l))).raise (0x400000 + s.servedBy l * 0x100000) 2).landSlot id l 6 0 := by
  change ents.find? (fun e => (e.2.tbl == l.table) && (e.2.key == s.lkpKey l) && e.2.inView l.view) = none at h
  simp only [State.landExact, h, if_true]

/-- The counts of a hit. -/
def State.hitCounted (s : State) (l : Lkp) : State := (s.cnt64 (R.EM_LKP (s.servedBy l)) 1).cnt64 (R.EM_HIT (s.servedBy l)) 1

theorem landExact_hit {c : Nat} {e : EmEnt} (h : ents.find? (s.searches l) = some (c, e)) (bad : Bool) (counter : e.ctr = 0)
    (age : (s.hitCounted l).flag (R.LRN_AGE e.tbl) F.LRN_AGE_RF_LKP = false) :
    s.landExact id l ents bad = (s.hitCounted l).landSlot id l 2 (valBE e.data) := by
  have same : ∀ n, (s.hitCounted l).ctrHit l.half e.ctr n = s.hitCounted l := fun n => if_pos counter
  have young : (s.hitCounted l).refresh c e false = s.hitCounted l := if_neg fun h => by
    rw [if_neg Bool.false_ne_true, age] at h
    exact Bool.false_ne_true h.1
  change ents.find? (fun e => (e.2.tbl == l.table) && (e.2.key == s.lkpKey l) && e.2.inView l.view) = some (c, e) at h
  unfold State.landExact
  dsimp only
  rw [h]
  exact congrArg (State.landSlot · id l 2 (valBE e.data)) ((congrArg (State.refresh · c e false) (same _)).trans young)

end

/-! ### Slots that could not be read (R219) -/

theorem filter_readOk_zero (l : List (Nat × EmEnt)) : l.filter (readOk 0#5) = l := List.filter_eq_self.mpr fun e _ => by simp [readOk]

theorem filter_readOk_none (l : List (Nat × EmEnt)) : l.filter (readOk 31) = [] := List.filter_eq_nil_iff.mpr fun e _ => by
  have bit : ∀ j < 5, (31 : BitVec 5).getLsbD j = true := by decide
  have first : 0 < e.2.slots := Nat.two_pow_pos _
  unfold readOk
  split
  · simp
  · rw [List.all_eq_true]
    intro all
    have := all 0 (List.mem_range.mpr first)
    rw [bit _ (by omega)] at this
    exact Bool.noConfusion this

end Sys2Proof.Machine
end

section
/-! PROOFS. LOOKUP_LAND (R217, R219, R222, R225): what each kind of lookup gives. -/

namespace Sys2Proof.Machine

/-! ### What the protection of the memories lets a lookup read -/

section
variable {s : State} (id : Nat) {l : Lkp}

/-- A table that is disabled, or whose entries lie in the other store, answers BADTBL. -/
theorem land_badTable (kind : l.kind = 0) (bad : s.emEn l.table = false ∨ s.emDeep l.table = true) :
    s.land id l .clean = (s.cnt (R.EM_BADTBL (s.servedBy l))).landSlot id l 5 0 := by
  have wrong : ¬ s.emEn l.table = true ∨ s.emDeep l.table ≠ (l.kind == 1) := by
    rw [kind]
    exact bad.imp (by simp [·]) (by simp [·])
  unfold State.land
  dsimp only
  rw [if_neg (by omega), if_neg (by omega), if_pos wrong]

theorem land_exact (kind : l.kind = 0) (on : s.emEn l.table = true) (near : s.emDeep l.table = false) (whole : s.emBad = []) :
    s.land id l .clean = s.landExact id l (s.keyEnts l.table (s.lkpKey l)) false := by
  have shallow : (l.kind == 1) = false := by rw [kind]; rfl
  unfold State.land
  dsimp only
  rw [shallow, if_neg (by omega), if_neg (by omega), if_neg (by simp [on, near])]
  simp [whole, filter_readOk_zero]

/-- A search that neither replica serves: the error is logged, and the slots of the bucket are marked. -/
def State.lostLogged (s : State) (l : Lkp) : State :=
  let b := s.bucketOf l.table (s.lkpKey l) false
  let t := s.logErr 3 (0x40 + s.servedBy l * 0x10) 0 1 b
  { t with emBad := (List.range 4).foldl (fun x i => if (31 : BitVec 5).getLsbD i then smSet (fun _ => false) x (4 * b + i) true else x) t.emBad }

theorem land_lost (kind : l.kind = 0) (on : s.emEn l.table = true) (near : s.emDeep l.table = false) :
    s.land id l (.bothReplicas 31) = (s.lostLogged l).landExact id l [] true := by
  have shallow : (l.kind == 1) = false := by rw [kind]; rfl
  have all : ∀ x : BitVec 5, 31 ||| x = 31 := by decide
  unfold State.land
  dsimp only
  rw [shallow, if_neg (by omega), if_neg (by omega), if_neg (by simp [on, near]), if_neg Bool.false_ne_true, if_neg Bool.false_ne_true,
    Option.getD_some, all, filter_readOk_none]
  rfl

theorem pastService_lostLogged : (s.lostLogged l).pastService = s.pastService := (pastService_emBad _ _).trans (pastService_logErr _ _ _ _ _ _)

theorem land_tern (kind : l.kind = 2) (on : s.tcEn l.table = true) : s.land id l .clean = s.landTern id l := by
  simp [State.land, kind, on]

theorem land_deep (kind : l.kind = 1) (on : s.emEn l.table = true) (deep : s.emDeep l.table = true) :
    s.land id l .clean = s.landDeep id { l with unread := false } := by
  simp [State.land, kind, on, deep]

end

/-! ### Lookups that land -/

/-- The registers of the error log. -/
def logRegs : List Nat := [R.RAS_CE, R.RAS_REPAIR, R.RAS_UE, 0xE00010, R.RAS_LOG_OVF]

theorem regsKept_logErr (s : State) (sev block inst code loc : Nat) : s.regsKept (s.logErr sev block inst code loc) logRegs := by
  have ite : ∀ {p : Prop} [Decidable p] {t u : State}, s.regsKept t logRegs → s.regsKept u logRegs → s.regsKept (if p then t else u) logRegs :=
    fun ht hu => by split; exacts [ht, hu]
  have counted : s.regsKept (if sev = 1 then s.cnt R.RAS_CE else if sev = 2 then s.cnt R.RAS_REPAIR else if sev = 3 then s.cnt R.RAS_UE else s)
      logRegs := ite (.cnt .refl (by decide)) (ite (.cnt .refl (by decide)) (ite (.cnt .refl (by decide)) .refl))
  unfold State.logErr
  extract_lets s1 s2 e s3
  have raised : s.regsKept s2 logRegs := ite (counted.raise (by decide)) counted
  have logged : s.regsKept s3 logRegs := raised.trans fun _ _ => rfl
  exact ite counted (ite (raised.cnt (by decide)) (ite (logged.raise (by decide)) logged))

theorem regsKept_lostLogged (s : State) (l : Lkp) : s.regsKept (s.lostLogged l) logRegs :=
  (regsKept_logErr _ _ _ _ _ _).trans fun _ _ => rfl

section
variable {s : State} {id : Nat} {l : Lkp} (under : smFind s.lkps id = some l) (clk : s.mainClk = true) (ready : l.miss = false)
  (on : s.domOn (16 + s.servedBy l) = true)

include under in
/-- A lookup that waits for a fill does not land (R222). -/
theorem lookupLand_waits (waits : l.miss = true) (ecc : LkEcc) : exec (.lookupLand id ecc) s = .next s := by
  change execLookupLand id ecc s = _
  rw [execLookupLand, under]
  exact congrArg Host.Outcome.next (if_pos (.inl waits))

include under clk ready on

theorem exec_lookupLand (ecc : LkEcc) : exec (.lookupLand id ecc) s = .next (s.land id l ecc) := by
  change execLookupLand id ecc s = _
  rw [execLookupLand, under]
  exact congrArg Host.Outcome.next (if_neg (by simp [ready, clk, on]))

theorem lookupLand_badTable (kind : l.kind = 0) (bad : s.emEn l.table = false ∨ s.emDeep l.table = true) :
    Completes (.lookupLand id .clean) s fun t => s.landsAs t id l 5 0 :=
  ⟨_, exec_lookupLand under clk ready on _, by
    rw [land_badTable id kind bad]
    exact landsAs_landSlot (pastService_cnt _ _) _ _ _ _⟩

section
variable (kind : l.kind = 0) (en : s.emEn l.table = true) (near : s.emDeep l.table = false)
include kind en near

theorem lookupLand_misses (whole : s.emBad = []) (unmatched : (s.keyEnts l.table (s.lkpKey l)).find? (fun e => e.2.inView l.view) = none) :
    Completes (.lookupLand id .clean) s fun t =>
      s.landsAs t id l 3 0 ∧ t.reg64 (R.EM_LKP (s.servedBy l)) = (s.reg64 (R.EM_LKP (s.servedBy l)) + 1) % 2 ^ 64 := by
  refine ⟨_, exec_lookupLand under clk ready on _, ?_⟩
  rw [land_exact id kind en near whole, landExact_miss s id l _ ((find?_keyEnts_again s _ _ _).trans unmatched)]
  exact ⟨landsAs_landSlot (pastService_cnt64 _ _ _) _ _ _ _, by rw [reg64_landSlot, reg64_cnt64_same]⟩

theorem lookupLand_hits {c : Nat} {e : EmEnt} (half : l.half < 2) (whole : s.emBad = [])
    (first : (s.keyEnts l.table (s.lkpKey l)).find? (fun e => e.2.inView l.view) = some (c, e)) (counter : e.ctr = 0)
    (age : s.flag (R.LRN_AGE e.tbl) F.LRN_AGE_RF_LKP = false) :
    Completes (.lookupLand id .clean) s fun t => s.landsAs t id l 2 (valBE e.data) := by
  have lkp : s.regsKept (s.hitCounted l) [R.EM_LKP (s.servedBy l), R.EM_LKP (s.servedBy l) + 4, R.EM_HIT (s.servedBy l), R.EM_HIT (s.servedBy l) + 4] :=
    (State.regsKept.refl.cnt64 (by simp) (by simp)).cnt64 (by simp) (by simp)
  have apart : R.LRN_AGE e.tbl ∉ [R.EM_LKP (s.servedBy l), R.EM_LKP (s.servedBy l) + 4, R.EM_HIT (s.servedBy l), R.EM_HIT (s.servedBy l) + 4] := by
    have := servedBy_lt (s := s) half
    simp only [R.LRN_AGE, R.EM_LKP, R.EM_HIT, List.mem_cons, List.not_mem_nil, or_false, not_or]
    omega
  refine ⟨_, exec_lookupLand under clk ready on _, ?_⟩
  rw [land_exact id kind en near whole,
    landExact_hit s id l _ ((find?_keyEnts_again s _ _ _).trans first) false counter ((lkp.flag apart).trans age)]
  exact landsAs_landSlot ((pastService_cnt64 _ _ _).trans (pastService_cnt64 _ _ _)) _ _ _ _

theorem lookupLand_lost (half : l.half < 2) : Completes (.lookupLand id (.bothReplicas 31)) s fun t =>
    s.landsAs t id l 6 0 ∧ t.reg64 (R.EM_LKP (s.servedBy l)) = (s.reg64 (R.EM_LKP (s.servedBy l)) + 1) % 2 ^ 64 := by
  have small := servedBy_lt (s := s) half
  have logged := regsKept_lostLogged s l
  have same : (s.lostLogged l).servedBy l = s.servedBy l := servedBy_kept logged (by decide) (by decide) (by decide) l
  have erred : ∀ u : State, u.regsKept ((u.cnt (R.EM_ERR (s.servedBy l))).raise (0x400000 + s.servedBy l * 0x100000) 2)
      [R.EM_ERR (s.servedBy l), 0x400000 + s.servedBy l * 0x100000 + 0x10] := fun u => (State.regsKept.refl.cnt (by simp)).raise (by simp)
  refine ⟨_, exec_lookupLand under clk ready on _, ?_⟩
  rw [land_lost id kind en near, landExact_unread _ id l [] rfl, same]
  refine ⟨landsAs_landSlot ?_ _ _ _ _, ?_⟩
  · rw [pastService_raise, pastService_cnt, pastService_cnt64, pastService_lostLogged]
  · rw [reg64_landSlot, reg64_kept (erred _), reg64_cnt64_same, reg64_kept logged]
    all_goals
      simp only [logRegs, R.EM_LKP, R.EM_ERR, R.RAS_CE, R.RAS_REPAIR, R.RAS_UE, R.RAS_LOG_OVF, List.mem_cons, List.not_mem_nil, or_false, not_or]
      omega

end

theorem lookupLand_tern_misses (kind : l.kind = 2) (whole : s.tcBad = []) (en : s.tcEn l.table = true)
    (unmatched : s.tcSearch l.table (valBE (fitKey 20 l.key)) l.view = none) : Completes (.lookupLand id .clean) s fun t => s.landsAs t id l 3 0 := by
  have misses : s.landTern id l = (s.cnt64 (R.TC_LKP (s.servedBy l)) 1).landSlot id l 3 0 := by
    simp only [State.landTern, unmatched, whole, List.any_nil, Bool.false_eq_true, if_false]
  refine ⟨_, exec_lookupLand under clk ready on _, ?_⟩
  rw [land_tern id kind en, misses]
  exact landsAs_landSlot (pastService_cnt64 _ _ _) _ _ _ _

theorem lookupLand_fills (kind : l.kind = 1) (en : s.emEn l.table = true) (deep : s.emDeep l.table = true)
    (absent : s.cached (s.servedBy l) (s.bucketOf l.table (s.lkpKey l) true) = false) : Completes (.lookupLand id .clean) s fun t =>
      (∃ st, smFind t.lkps id = some { l with miss := true, unread := false, stale := st }) ∧ t.pkts = s.pkts ∧ t.thrs = s.thrs := by
  have no_copy : s.cacheCopy (s.servedBy l) (s.bucketOf l.table (s.lkpKey l) true) = none := Option.not_isSome_iff_eq_none.mp (by
    rw [← State.cached, absent]; exact Bool.false_ne_true)
  obtain ⟨u, st, past, waits⟩ : ∃ (u : State) (st : Bool), u.pastService = s.pastService ∧ s.landDeep id { l with unread := false } =
      { u with lkps := smPut s.lkps id { l with miss := true, unread := false, stale := st } } := by
    unfold State.landDeep
    extract_lets sv b waits s1 u
    have copy : s.cacheCopy sv b = none := no_copy
    rw [copy]
    dsimp only
    refine ⟨u, _, ?_, rfl⟩
    unfold u
    split
    · rw [pastService_hbmAsk, pastService_cnt64]
    · exact pastService_cnt64 _ _ _
  refine ⟨_, exec_lookupLand under clk ready on _, ?_⟩
  rw [land_deep id kind en deep, waits]
  exact ⟨⟨st, smFind_smPut_same _ _ _⟩, (pkts_of_pastService past :), (thrs_of_pastService past :)⟩

end

end Sys2Proof.Machine
end

section
/-! PROOFS. DEEP_FILL_ARRIVE (R220–R222, R236): the bucket that a lookup waits for, stale or fresh; and lookups put together. -/

namespace Sys2Proof.Machine

/-! ### Buckets that can be read (R477, R480) -/

theorem hbmRead_poisoned (s : State) (a n : Nat) : (s.hbmRead a n).2 = (List.range n).any fun i => s.poisoned (a + i) := by
  unfold State.hbmRead
  dsimp only
  rw [List.any_map]
  refine List.any_congr rfl fun i => ?_
  dsimp only [Function.comp]
  split
  · next poison => exact poison.symm
  · next sound =>
    rw [Bool.eq_false_of_not_eq_true sound]
    split <;> rfl

/-- A range reads whole when each byte has a place and none is poison. -/
theorem reads_whole_iff (s : State) (a n : Nat) : ((s.hbmRead a n).2 || !(s.hbmOk a n)) = false ↔
    ∀ i < n, s.poisoned (a + i) = false ∧ (s.hbmPlace (a + i)).isSome = true := by
  rw [hbmRead_poisoned, State.hbmOk, Bool.or_eq_false_iff, Bool.not_eq_false', List.any_eq_false, List.all_eq_true]
  simp only [List.mem_range, Bool.not_eq_true]
  exact ⟨fun h i hi => ⟨h.1 i hi, h.2 i hi⟩, fun h => ⟨fun i hi => (h i hi).1, fun i hi => (h i hi).2⟩⟩

theorem deepBad_of_whole {s : State} {b : Nat} (whole : s.bucketBad b = false) : s.deepBad b = 0 := by
  have bytes := (reads_whole_iff s (deepAt b) 128).mp whole
  have word : ∀ i < 2, ((s.hbmRead (deepAt b + 64 * i) 64).2 || !(s.hbmOk (deepAt b + 64 * i) 64)) = false := fun i hi =>
    (reads_whole_iff s (deepAt b + 64 * i) 64).mpr fun j hj => by
      rw [Nat.add_assoc]
      exact bytes (64 * i + j) (by omega)
  unfold State.deepBad
  extract_lets w
  have low : w 0 = false := word 0 (by omega)
  have high : w 1 = false := word 1 (by omega)
  rw [low, high]
  rfl

theorem cacheSet_setCache_same (s : State) (h b : Nat) (l : List (Nat × List Byte)) : (s.setCache h b l).cacheSet h b = l :=
  smGet_smSet_same _ _ _ _

/-- A bucket that was used last is in the cache. -/
theorem cached_touchCache (s : State) (h b : Nat) (bs : List Byte) : (s.touchCache h b bs).cached h b = true := by
  rw [State.cached, State.cacheCopy, State.touchCache, cacheSet_setCache_same]
  simp

theorem cached_cnt64 (s : State) (a k h b : Nat) : (s.cnt64 a k).cached h b = s.cached h b := by
  have cache : (s.cnt64 a k).bcache = s.bcache := by rw [State.cnt64, State.setReg64, State.setReg_bcache, State.setReg_bcache]
  rw [State.cached, State.cacheCopy, State.cacheSet, cache]
  rfl

/-! ### A fill -/

section
variable {s : State} {id : Nat} {l : Lkp}

/-- The bucket of a lookup that waits for a fill. -/
def State.fillOf (s : State) (l : Lkp) : Nat := s.bucketOf l.table (s.lkpKey l) true

theorem bucketOf_lkpKey (s : State) (l : Lkp) : s.bucketOf l.table (s.lkpKey l) true = s.fillOf l := rfl

/-- A fill for another lookup, or of another bucket, does nothing. -/
theorem deepFillArrive_other (under : smFind s.lkps id = some l) {h : HalfN} {n : BitVec 25} (other : l.miss = false ∨ n.toNat ≠ s.fillOf l) :
    exec (.deepFillArrive h id n) s = .next s := by
  change execDeepFillArrive h id n s = _
  rw [execDeepFillArrive, under]
  refine if_pos ?_
  rcases other with ready | bucket
  · exact .inl (by simp [ready])
  · exact .inr (.inl bucket)

variable (alone : s.lkps = [(id, l)]) (clk : s.mainClk = true) (waits : l.miss = true) {h : HalfN} {n : BitVec 25} (half : h.val = s.servedBy l)
  (bucket : n.toNat = s.fillOf l) (arrived : s.reads cDEEP (deepAt (s.fillOf l)) 128 = false)

include waits in
/-- A lookup waits for the fill of its bucket in the half that serves it. -/
theorem fills_own : (s.fills (s.fillOf l) l && (s.servedBy l == s.servedBy l)) = true := by
  rw [State.fills, waits, ← State.fillOf]
  simp

include clk waits half bucket arrived in
/-- No guard turns the fill away. -/
theorem arrives : ¬ (¬ l.miss = true ∨ n.toNat ≠ s.fillOf l ∨ s.servedBy l ≠ h.val ∨ ¬ s.mainClk = true ∨
    s.reads cDEEP (deepAt (s.fillOf l)) 128 = true) := by
  simp [waits, bucket, half, clk, arrived]

include alone clk waits half bucket arrived

theorem deepFillArrive_rereads (stale : l.stale = true) : Completes (.deepFillArrive h id n) s fun t =>
    t.lkps = [(id, { l with stale := false })] ∧ t.pkts = s.pkts ∧ t.thrs = s.thrs ∧ t.bcache = s.bcache := by
  have under : smFind s.lkps id = some l := by rw [alone, smFind, if_pos rfl]
  have runs : exec (.deepFillArrive h id n) s = .next
      (({ s with lkps := [(id, { l with stale := false })] } : State).hbmAsk cDEEP false (deepAt (s.fillOf l)) 128) := by
    change execDeepFillArrive h id n s = _
    unfold execDeepFillArrive
    rw [under]
    dsimp only
    rw [bucketOf_lkpKey, if_neg (arrives clk waits half bucket arrived), if_pos stale, alone, half,
      List.map_cons, List.map_nil, if_pos (fills_own waits)]
  have kept := pastAsk_hbmAsk { s with lkps := [(id, { l with stale := false })] } cDEEP false (deepAt (s.fillOf l)) 128
  exact ⟨_, runs, (congrArg State.lkps kept :), (congrArg State.pkts kept :), (congrArg State.thrs kept :), (congrArg State.bcache kept :)⟩

/-- The bucket has been read into the cache. -/
def State.filled (s : State) (l : Lkp) : State := s.touchCache (s.servedBy l) (s.fillOf l) (s.hbmRead (deepAt (s.fillOf l)) 128).1

theorem exec_deepFillArrive_fresh (fresh : l.stale = false) (read : l.unread = false) (whole : s.bucketBad (s.fillOf l) = false) :
    exec (.deepFillArrive h id n) s = .next ((s.filled l).landExact id l
      (s.deepEnts (s.fillOf l) (s.hbmRead (deepAt (s.fillOf l)) 128).1 ++ s.ovfEnts) false) := by
  have under : smFind s.lkps id = some l := by rw [alone, smFind, if_pos rfl]
  have sound : s.deepBad (s.fillOf l) = 0#5 := deepBad_of_whole whole
  change execDeepFillArrive h id n s = _
  unfold execDeepFillArrive
  rw [under]
  dsimp only
  rw [bucketOf_lkpKey, if_neg (arrives clk waits half bucket arrived), if_neg (by simp [fresh]), sound,
    if_pos (show 0#5 = 0 from rfl), filter_readOk_zero, half, alone, List.filter_cons, if_pos (fills_own waits), List.filter_nil, List.foldl_cons, List.foldl_nil, read]
  rfl

theorem deepFillArrive_misses (deep : s.emDeep l.table = true) (fresh : l.stale = false) (read : l.unread = false)
    (whole : s.bucketBad (s.fillOf l) = false) (unmatched : (s.keyEnts l.table (s.lkpKey l)).find? (fun e => e.2.inView l.view) = none) :
    Completes (.deepFillArrive h id n) s fun t => s.landsAs t id l 3 0 ∧ t.cached (s.servedBy l) (s.fillOf l) = true := by
  have miss : (s.deepEnts (s.fillOf l) (s.hbmRead (deepAt (s.fillOf l)) 128).1 ++ s.ovfEnts).find? ((s.filled l).searches l) = none := by
    rw [find?_keyEnts, deep] at unmatched
    exact unmatched
  refine ⟨_, exec_deepFillArrive_fresh alone clk waits half bucket arrived fresh read whole, ?_⟩
  rw [landExact_miss _ _ _ _ miss]
  refine ⟨landsAs_landSlot ((pastService_cnt64 _ _ _).trans (pastService_touchCache _ _ _ _)) _ _ _ _, ?_⟩
  rw [cached_landSlot, cached_cnt64]
  exact cached_touchCache _ _ _ _

end

/-- Settles O38: the landing of a lookup by its kind and by what its search finds, and the fill that one waits for (R101, R216, R217, R219,
R222, R225; assumption log 105 and 121). -/
theorem lookupsLand : Obligations.LookupsLand := by
  intro s id l under clk half sv key slot
  refine ⟨fun ready on kind bad => ?_, fun ready on kind en near whole unmatched => ?_, fun c e ready on kind en near whole first counter age => ?_,
    fun ready on kind en near => ?_, fun ready on kind whole en unmatched => ?_, fun ready on kind en deep absent => ?_,
    fun waits => lookupLand_waits under waits .clean, fun h n other => deepFillArrive_other under other,
    fun h n waits serves bucket alone arrived stale => deepFillArrive_rereads alone clk waits serves bucket arrived stale,
    fun h n waits serves bucket alone deep arrived fresh read whole unmatched => ?_⟩
  · obtain ⟨t, runs, lands⟩ := lookupLand_badTable under clk ready on kind bad
    exact ⟨t, runs, lands.gone, lands.slot, lands.em, lands.mem⟩
  · obtain ⟨t, runs, lands, counts⟩ := lookupLand_misses under clk ready on kind en near whole unmatched
    exact ⟨t, runs, lands.gone, lands.slot, lands.em, counts⟩
  · obtain ⟨t, runs, lands⟩ := lookupLand_hits under clk ready on kind en near half whole first counter age
    exact ⟨t, runs, lands.gone, lands.slot, lands.em⟩
  · obtain ⟨t, runs, lands, counts⟩ := lookupLand_lost under clk ready on kind en near half
    exact ⟨t, runs, lands.gone, lands.slot, lands.em, counts⟩
  · obtain ⟨t, runs, lands⟩ := lookupLand_tern_misses under clk ready on kind whole en unmatched
    exact ⟨t, runs, lands.gone, lands.slot, lands.tcr⟩
  · exact lookupLand_fills under clk ready on kind en deep absent
  · obtain ⟨t, runs, lands, cached⟩ := deepFillArrive_misses alone clk waits serves bucket arrived deep fresh read whole unmatched
    have none_left : smErase s.lkps id = [] := by rw [alone, smErase, if_pos rfl, smErase]
    exact ⟨t, runs, lands.lkps.trans none_left, lands.slot, lands.mem, cached⟩

end Sys2Proof.Machine
end

section
/-! PROOFS. The issue of an instruction (R115, R160): what it changes, and how the effect of an instruction stands over it. -/

namespace Sys2Proof.Machine

/-! ### Nothing but one thread -/

namespace State.threadBut
variable {s t u : State} {a r n : Nat} {l : List Nat} {h : Thr} {v : W32}

theorem refl : s.threadBut s a l := ⟨rfl, fun e => by split <;> rfl, fun _ _ => rfl, fun _ => rfl, .refl⟩

theorem trans (h : s.threadBut t a l) (h' : t.threadBut u a l) : s.threadBut u a l := by
  obtain ⟨rest, engs, thrs, mem, regs⟩ := h
  obtain ⟨rest', engs', thrs', mem', regs'⟩ := h'
  refine ⟨?_, fun e => ?_, fun b hb => (thrs' b hb).trans (thrs b hb), fun m => (mem' m).trans (mem m), regs.trans regs'⟩
  · exact (congrArg (fun w : State => { w with thrs := s.thrs, regs := s.regs, engs := s.engs }) rest').trans rest
  · rw [engs' e, engs e]
    split <;> rfl

theorem setThr (h' : s.threadBut t a l) : s.threadBut (t.setThr a h) a l :=
  h'.trans ⟨rfl, fun e => by split <;> rfl, fun _ hb => thr_setThr_other _ _ _ _ hb, fun _ => rfl, fun _ _ => rfl⟩

theorem setReg (h' : s.threadBut t a l) (hr : r ∈ l) : s.threadBut (t.setReg r v) a l :=
  h'.trans ⟨rfl, fun e => by split <;> rfl, fun _ _ => rfl, fun _ => rfl, State.regsKept.refl.setReg hr⟩

theorem cnt64 (h' : s.threadBut t a l) (hr : r ∈ l) (hr4 : r + 4 ∈ l) : s.threadBut (t.cnt64 r n) a l := (h'.setReg hr).setReg hr4

theorem setArb (h' : s.threadBut t a l) (g : Arb) : s.threadBut (t.setEng (unitOf a) { t.eng (unitOf a) with arb := g }) a l := by
  refine h'.trans ⟨rfl, fun e => ?_, fun _ _ => rfl, fun _ => rfl, fun _ _ => rfl⟩
  split
  · next he => subst he; rw [eng_setEng_same]
  · next he => exact eng_setEng_other _ _ he

theorem thr (h : s.threadBut t a l) {b : Nat} (hb : b ≠ a) : t.thr b = s.thr b := h.2.2.1 b hb

theorem memKept (h : s.threadBut t a l) : s.memKept t 0 0 := fun b _ => h.2.2.2.1 b

theorem regsKept (h : s.threadBut t a l) : s.regsKept t l := h.2.2.2.2

theorem clk (h : s.threadBut t a l) : t.clk = s.clk := (congrArg State.clk h.1 :)

theorem cycles (h : s.threadBut t a l) (b : Nat) : t.cycles b = s.cycles b := by
  have base : t.cycBase = s.cycBase := (congrArg State.cycBase h.1 :)
  rw [State.cycles, h.clk, base]; rfl

end State.threadBut

/-! ### The issue -/

section
variable (s : State) (a len : Nat) (ns : List Nat) (k : Kind)

theorem threadOnly_issued : s.threadOnly (s.issued a len k) a := by
  have thread : s.threadOnly (s.setThr a { s.thr a with pc := ((s.thr a).pc + len) % pcMod a, step := false }) a := State.threadBut.refl.setThr
  unfold State.issued
  dsimp only
  split
  · next heng =>
    exact (thread.setArb _).cnt64 (by simp [issueRegs, heng]) (by simp [issueRegs, heng])
  · exact thread.setArb _

theorem threadOnly_took : s.threadOnly (s.took a len ns k) a := by
  unfold State.took
  split
  · exact State.threadBut.setArb (State.threadBut.refl.setThr) _
  · exact threadOnly_issued s a len k

/-- An issue moves the pc past the instruction; what it makes of a debugger's step stands in the record itself. -/
theorem thr_took_passed : (s.took a len ns k).thr a = (s.thr a).passed ((s.took a len ns k).thr a) a len := by
  unfold State.took
  split
  · have joined : (s.joined a len k).thr a = { s.thr a with pc := ((s.thr a).pc + len) % pcMod a } := thr_setThr_same s a _
    rw [joined]
    rfl
  · have issued : (s.issued a len k).thr a = { s.thr a with pc := ((s.thr a).pc + len) % pcMod a, step := false } := by
      unfold State.issued
      dsimp only
      split
      · exact (thr_cnt64 _ _ _ a).trans (thr_setThr_same s a _)
      · exact thr_setThr_same s a _
    rw [issued]
    rfl

theorem thr_took_other {b : Nat} (hb : b ≠ a) : (s.took a len ns k).thr b = s.thr b := (threadOnly_took s a len ns k).thr hb

/-- The issue of a context counts nowhere. -/
theorem took_of_context (h : 0x800 ≤ a) : ∃ m g, s.took a len ns k = { s with thrs := m, engs := g } := by
  unfold State.took
  split
  · exact ⟨_, _, rfl⟩
  · unfold State.issued
    dsimp only
    rw [if_neg (Nat.not_lt.mpr h)]
    exact ⟨_, _, rfl⟩

end

/-! ### Effects over an issue -/

section
variable {s : State} {c : Instr} {a len : Nat} {ns : List Nat} {k : Kind}

/-- An instruction that does nothing beyond its issue. -/
theorem passes_of_took (runs : exec c s = .next (s.took a len ns k)) : s.passes c a len id :=
  ⟨_, runs, thr_took_passed s a len ns k, threadOnly_took s a len ns k⟩

/-- An instruction that does nothing but change its thread. -/
theorem passes_of_setThr {g : Thr → Thr} (runs : exec c s = .next ((s.took a len ns k).setThr a (g ((s.took a len ns k).thr a))))
    (step : ∀ t, (g t).step = t.step) : s.passes c a len g := by
  have passed := thr_took_passed s a len ns k
  refine ⟨_, runs, ?_, (threadOnly_took s a len ns k).setThr⟩
  rw [thr_setThr_same]
  generalize (s.took a len ns k).thr a = u at passed ⊢
  have same : (s.thr a).passed (g u) a len = (s.thr a).passed u a len := by rw [Thr.passed, Thr.passed, step u]
  rw [same, ← passed]

/-- An instruction that does nothing but write a register. -/
theorem gives_of_setX {rd : Reg} {v : Word} (runs : exec c s = .next ((s.took a len ns k).setX a rd v)) : s.gives c a len rd v := by
  have passed := thr_took_passed s a len ns k
  have written : ((s.took a len ns k).setX a rd v).thr a = ((s.took a len ns k).thr a).set rd v := thr_setThr_same _ _ _
  refine ⟨_, runs, x_setX_same _ _ _ _, fun r hr => ?_, ?_, ?_, (threadOnly_took s a len ns k).setThr⟩
  · rw [x_setX_other _ _ _ _ _ r.isLt rd.isLt (fun h => hr (Fin.ext h)), x_took]
  · rw [State.flg, written]
    obtain ⟨pc, st, h⟩ := thr_took s a len ns k
    rw [h]; rfl
  · rw [written]
    generalize (s.took a len ns k).thr a = u at passed ⊢
    rw [passed]
    rfl

end

end Sys2Proof.Machine
end

section
/-! PROOFS. System instructions (R117–R119, R171, R173, R489, R564): each over the issue of its thread. -/

namespace Sys2Proof.Machine

section
variable {s : State} {a : Agent} {lg : Bool} {rd rs1 rs2 : Reg}

/-! ### NOP, FENCE, SEND (R123, R173) -/

theorem nop_passes (can : s.canIssue a [] = true) : s.passes (.nop a lg) a (ilen lg) id :=
  passes_of_took (show execNop a lg s = _ from instr_of_canIssue can _ {} _)

theorem fence_passes (can : s.canIssue a [] = true) : s.passes (.fence a) a 2 id :=
  passes_of_took (show execFence a s = _ from instr_of_canIssue can _ kAlone _)

theorem send_waits (can : s.canIssue a [] = true) (eng : a.val < 0x800) (holds : (s.thr a).pkt.isSome = true) :
    s.passes (.send a lg) a (ilen lg) fun t => { t with wait := .sendWait } := by
  have profile : ¬ ¬ isEng a.val = true := not_not_intro (decide_eq_true eng)
  have packet : ¬ ((s.took a (ilen lg) [] kTail).thr a).pkt.isNone = true := by
    rw [pkt_took, Option.isNone_iff_eq_none]
    exact Option.isSome_iff_ne_none.mp holds
  have runs : exec (.send a lg) s = _ := show execSend a lg s = _ from instr_of_canIssue can _ kTail _
  rw [if_neg profile, if_neg packet] at runs
  exact passes_of_setThr runs fun _ => rfl

/-! ### WFE (R118) -/

/-- The kind of WFE. -/
abbrev kWfe (rd : Reg) : Kind := { tail := true, writes := [rd.val] }

theorem evPend_took (s : State) (a len : Nat) (ns : List Nat) (k : Kind) : ((s.took a len ns k).thr a).evPend = (s.thr a).evPend := by
  obtain ⟨pc, st, h⟩ := thr_took s a len ns k
  rw [h]

/-- The mask that WFE takes from its operand. -/
def State.wfeMask (s : State) (a : Nat) (rs1 : Reg) : BitVec 16 := (s.x a rs1).truncate 16

/-- The events that a WFE of that mask returns. -/
def State.wfeNow (s : State) (a : Nat) (rs1 : Reg) : BitVec 16 := wfeEvents (s.thr a).evPend (s.wfeMask a rs1)

theorem exec_wfe (can : s.canIssue a [rd, rs1] = true) : exec (.wfe a lg rd rs1) s =
    let u := s.took a (ilen lg) [rd, rs1] (kWfe rd)
    .next (if s.wfeNow a rs1 = 0
      then u.setThr a { u.thr a with evMask := s.wfeMask a rs1, wait := .wfe (s.wfeMask a rs1) ((u.thr a).phys rd) (ilen lg) }
      else u.setThr a { (u.thr a).set rd ((s.wfeNow a rs1).zeroExtend 64) with
        evMask := s.wfeMask a rs1, evPend := (s.thr a).evPend &&& ~~~s.wfeNow a rs1 }) := by
  rw [State.wfeNow, State.wfeMask, ← evPend_took s a (ilen lg) [rd.val, rs1.val] (kWfe rd), ← x_took s a (ilen lg) [rd.val, rs1.val] (kWfe rd)]
  exact show execWfe a lg rd rs1 s = _ from instr_of_canIssue can _ (kWfe rd) _

theorem wfe_waits (can : s.canIssue a [rd, rs1] = true) (nothing : s.wfeNow a rs1 = 0) :
    s.passes (.wfe a lg rd rs1) a (ilen lg) fun t =>
      { t with evMask := s.wfeMask a rs1, wait := .wfe (s.wfeMask a rs1) (t.phys rd) (ilen lg) } := by
  have runs := exec_wfe (lg := lg) can
  dsimp only at runs
  rw [if_pos nothing] at runs
  exact passes_of_setThr runs fun _ => rfl

theorem wfe_returns (can : s.canIssue a [rd, rs1] = true) (some_pending : s.wfeNow a rs1 ≠ 0) : Completes (.wfe a lg rd rs1) s fun t =>
    t.x a rd = (s.wfeNow a rs1).zeroExtend 64 ∧ (∀ r : Reg, r ≠ rd → t.x a r = s.x a r) ∧ s.threadOnly t a ∧
      t.thr a = { (s.thr a).passed (t.thr a) a (ilen lg) with
        rf := (t.thr a).rf, evMask := s.wfeMask a rs1, evPend := (s.thr a).evPend &&& ~~~s.wfeNow a rs1 } := by
  have runs := exec_wfe (lg := lg) can
  dsimp only at runs
  rw [if_neg some_pending] at runs
  have keeps := threadOnly_took s a (ilen lg) [rd.val, rs1.val] (kWfe rd)
  have passed := thr_took_passed s a (ilen lg) [rd.val, rs1.val] (kWfe rd)
  have read := x_took s a (ilen lg) [rd.val, rs1.val] (kWfe rd)
  refine ⟨_, runs, ?_, fun r hr => ?_, keeps.setThr, ?_⟩
  · rw [State.x, thr_setThr_same]
    exact get_set_same _ _ _
  · rw [State.x, thr_setThr_same, ← read]
    exact get_set_other _ _ _ _ r.isLt rd.isLt fun h => hr (Fin.ext h)
  · rw [thr_setThr_same]
    generalize (s.took a (ilen lg) [rd.val, rs1.val] (kWfe rd)).thr a = u at passed ⊢
    rw [passed]
    rfl

/-! ### TMR (R119) -/

theorem exec_tmr (can : s.canIssue a [rs1] = true) : exec (.tmr a lg rs1) s =
    let u := s.took a (ilen lg) [rs1] {}
    let n := (s.x a rs1).toNat % 2 ^ 31
    .next (u.setThr a { u.thr a with tmr := if n = 0 then none else some (s.cycles a + n) }) := by
  rw [← x_took s a (ilen lg) [rs1.val] {}, ← (threadOnly_took s a (ilen lg) [rs1.val] {}).cycles a]
  exact show execTmr a lg rs1 s = _ from instr_of_canIssue can _ {} _

theorem tmr_disarms (can : s.canIssue a [rs1] = true) (zero : (s.x a rs1).toNat % 2 ^ 31 = 0) :
    s.passes (.tmr a lg rs1) a (ilen lg) fun t => { t with tmr := none } := by
  have runs := exec_tmr (lg := lg) can
  dsimp only at runs
  rw [if_pos zero] at runs
  exact passes_of_setThr runs fun _ => rfl

theorem tmr_arms (can : s.canIssue a [rs1] = true) (later : (s.x a rs1).toNat % 2 ^ 31 ≠ 0) :
    s.passes (.tmr a lg rs1) a (ilen lg) fun t => { t with tmr := some (s.cycles a + (s.x a rs1).toNat % 2 ^ 31) } := by
  have runs := exec_tmr (lg := lg) can
  dsimp only at runs
  rw [if_neg later] at runs
  exact passes_of_setThr runs fun _ => rfl

/-! ### RGET and RPUT (R171, R190) -/

/-- An instruction that may name any register issues when no unit result is in flight. -/
theorem instrAll_of_settled (can : s.canIssue a [] = true) (settled : (s.thr a).fu = []) (len : Nat) (k : Kind) (f : State → State) :
    s.instrAll a len k f = .next (f (s.took a len [] k)) :=
  (if_pos (by rw [settled]; rfl)).trans (instr_of_canIssue can len k f)

/-- The kind of RGET. -/
abbrev kRget (rd : Reg) : Kind := { writes := [rd.val], also := allRegs }

theorem rget_gives (can : s.canIssue a [] = true) (settled : (s.thr a).fu = []) :
    s.gives (.rget a rd rs1) a 2 rd (s.x a ((s.x a rs1).toNat % 32)) := by
  rw [← x_took s a 2 [] (kRget rd), ← x_took s a 2 [] (kRget rd)]
  exact gives_of_setX (instrAll_of_settled can settled _ (kRget rd) _)

theorem rput_gives (can : s.canIssue a [] = true) (settled : (s.thr a).fu = []) :
    s.gives (.rput a rs1 rs2) a 2 ⟨(s.x a rs1).toNat % 32, Nat.mod_lt _ (by decide)⟩ (s.x a rs2) := by
  refine gives_of_setX (k := kAlone) (ns := []) ((instrAll_of_settled can settled _ kAlone _).trans ?_)
  rw [x_took, x_took]

/-! ### SLEEP (R489) -/

theorem thr_took_any (s : State) (a len : Nat) (ns : List Nat) (k : Kind) (b : Nat) :
    ∃ pc st, (s.took a len ns k).thr b = { s.thr b with pc := pc, step := st } := by
  by_cases hb : b = a
  · rw [hb]; exact thr_took s a len ns k
  · exact ⟨_, _, thr_took_other s a len ns k hb⟩

/-- The issue of a context does not wake its core. -/
theorem wakePending_took (context : 0x800 ≤ a.val) (len : Nat) (ns : List Nat) (k : Kind) (c : Nat) :
    (s.took a len ns k).wakePending c = s.wakePending c := by
  have thread := thr_took_any s a len ns k
  obtain ⟨m, g, same⟩ := took_of_context s a len ns k context
  rw [same] at thread ⊢
  have waits : ∀ b, (State.switchReq { s with thrs := m, engs := g } b ||
      ((State.thr { s with thrs := m, engs := g } b).task.isNone && (State.bestTask { s with thrs := m, engs := g } b 0).isSome) ||
      (State.thr { s with thrs := m, engs := g } b).evPend.getLsbD 4) =
      (s.switchReq b || ((s.thr b).task.isNone && (s.bestTask b 0).isSome) || (s.thr b).evPend.getLsbD 4) := fun b => by
    obtain ⟨pc, st, h⟩ := thread b
    unfold State.switchReq
    rw [h]
    rfl
  unfold State.wakePending
  rw [funext waits]
  rfl

/-- The state in which a context sleeps. -/
def State.asleep (s : State) (a : Nat) : State := s.setThr a { s.thr a with wait := .sleep }

theorem exec_sleep (can : s.canIssue a [] = true) (context : 0x800 ≤ a.val) (privileged : (s.thr a).status.getLsbD 3 = false)
    (awake : s.wakePending (coreOf a) = false) : exec (.sleep a) s = .next (((s.took a 2 [] kAlone).asleep a).slpRes a 1) := by
  have profile : ¬ isEng a.val = true := by simpa [isEng] using context
  have supervisor : ¬ (s.took a 2 [] kAlone).userMode a = true := by
    obtain ⟨pc, st, h⟩ := thr_took s a 2 [] kAlone
    rw [State.userMode, h, privileged, Bool.and_false]
    exact Bool.false_ne_true
  have quiet : ¬ (s.took a 2 [] kAlone).wakePending (coreOf a) = true := by simp [wakePending_took context, awake]
  refine (show execSleep a s = _ from instr_of_canIssue can _ kAlone _).trans ?_
  rw [if_neg profile, if_neg supervisor, if_neg quiet]
  rfl

/-- The result of a sleep stands in the core's status register alone. -/
theorem slpRes_cases (s : State) (a r : Nat) : s.slpRes a r = s ∨ ∃ v, s.slpRes a r = s.setReg (R.DEV_CORE_STAT (coreOf a)) v := by
  unfold State.slpRes
  split
  · exact .inr ⟨_, rfl⟩
  · exact .inl rfl

theorem regsOnly_slpRes (s : State) (a r : Nat) : s.regsOnly (s.slpRes a r) := by
  rcases slpRes_cases s a r with h | ⟨v, h⟩
  · rw [h]; exact .refl
  · rw [h]; exact State.regsOnly.refl.setReg

theorem regsKept_slpRes (s : State) (a r : Nat) : s.regsKept (s.slpRes a r) [R.DEV_CORE_STAT (coreOf a)] := by
  rcases slpRes_cases s a r with h | ⟨v, h⟩
  · rw [h]; exact .refl
  · rw [h]; exact State.regsKept.refl.setReg List.mem_cons_self

theorem bits_slpRes {a r : Nat} (s : State) (h : a < 0x810) (hr : r < 4) :
    bits ((s.slpRes a r).reg (R.DEV_CORE_STAT (coreOf a))).toNat (2 * ((a - 0x800) % 4) + 1) (2 * ((a - 0x800) % 4)) = r := by
  rw [State.slpRes, if_pos h]
  exact (fld_setFld_same _ _ _ _ (by simp) (by dsimp only; omega)).trans (Nat.mod_eq_of_lt (by simpa [Nat.add_sub_cancel_left, Nat.add_assoc] using hr))

theorem sleep_sleeps (can : s.canIssue a [] = true) (context : 0x800 ≤ a.val) (privileged : (s.thr a).status.getLsbD 3 = false)
    (awake : s.wakePending (coreOf a) = false) : Completes (.sleep a) s fun t =>
      t.thr a = { (s.thr a).passed (t.thr a) a 2 with wait := .sleep } ∧ (∀ b, b ≠ a.val → t.thr b = s.thr b) ∧
        s.regsKept t [R.DEV_CORE_STAT (coreOf a)] ∧ s.memKept t 0 0 ∧
        (a.val < 0x810 → bits (t.reg (R.DEV_CORE_STAT (coreOf a))).toNat (2 * ((a.val - 0x800) % 4) + 1) (2 * ((a.val - 0x800) % 4)) = 1) := by
  have runs := exec_sleep can context privileged awake
  have passed := thr_took_passed s a 2 [] kAlone
  have keeps : s.threadOnly ((s.took a 2 [] kAlone).asleep a) a := (threadOnly_took s a 2 [] kAlone).setThr
  have sleeping : ((s.took a 2 [] kAlone).asleep a).thr a = { (s.took a 2 [] kAlone).thr a with wait := .sleep } := thr_setThr_same _ _ _
  have uncounted : issueRegs a = [] := if_neg (Nat.not_lt.mpr context)
  have shown : a.val < 0x810 → _ := fun h => bits_slpRes ((s.took a 2 [] kAlone).asleep a) h (show 1 < 4 by decide)
  generalize s.took a 2 [] kAlone = u at runs passed keeps sleeping shown
  generalize u.asleep a = w at runs keeps sleeping shown
  have only := regsOnly_slpRes w a 1
  have kept := regsKept_slpRes w a 1
  generalize w.slpRes a 1 = t at runs only kept shown
  obtain ⟨g, rfl⟩ := only
  refine ⟨_, runs, ?_, fun b hb => keeps.thr hb, (keeps.regsKept.mono ?_).trans kept, keeps.memKept, shown⟩
  · refine sleeping.trans ?_
    change _ = { (s.thr a).passed (w.thr a) a 2 with wait := .sleep }
    rw [sleeping]
    generalize u.thr a = x at passed ⊢
    rw [passed]
    rfl
  · rw [uncounted]
    exact fun _ hr => absurd hr List.not_mem_nil

/-! ### BRK (R564) -/

/-- No register of the debugger is an issue count. -/
theorem debug_not_issue {r : Nat} (h : 0xF00000 ≤ r) : r ∉ issueRegs a := by
  have engines : ∀ n < 0x800, 0x200108 + n / 8 * 0x1000 + 4 < r := fun n hn => by omega
  unfold issueRegs
  split
  · next eng =>
    have below := engines a eng
    simp only [R.ENG_ISSUE, engOf, List.mem_cons, List.not_mem_nil, or_false, not_or]
    omega
  · exact List.not_mem_nil

/-- A breakpoint raises its cause, and on an engine the cause of the debug hold that it may begin (R564, R566). -/
def State.brkRaised (s s0 : State) (a : Nat) : State :=
  if isEng a then (s.raise 0xF00000 0).holdFrom s0 (pipeOf a) else s.raise 0xF00000 0

theorem brkRaised_cases (s s0 : State) (a : Nat) :
    s.brkRaised s0 a = s.raise 0xF00000 0 ∨ s.brkRaised s0 a = (s.raise 0xF00000 0).raise 0xF00000 1 := by
  unfold State.brkRaised
  split
  · exact holdFrom_cases _ _ _
  · exact .inl rfl

theorem regsOnly_brkRaised (s s0 : State) (a : Nat) : s.regsOnly (s.brkRaised s0 a) := by
  rcases brkRaised_cases s s0 a with h | h
  · rw [h]; exact State.regsOnly.refl.raise
  · rw [h]; exact State.regsOnly.refl.raise.raise

theorem regsKept_brkRaised (s s0 : State) (a : Nat) : s.regsKept (s.brkRaised s0 a) [0xF00010] := by
  have listed : 0xF00000 + 0x10 ∈ [0xF00010] := List.mem_cons_self
  rcases brkRaised_cases s s0 a with h | h
  · rw [h]; exact State.regsKept.refl.raise listed
  · rw [h]; exact (State.regsKept.refl.raise listed).raise listed

theorem getLsbD_brkRaised (s s0 : State) (a : Nat) : ((s.brkRaised s0 a).reg (0xF00000 + 0x10)).getLsbD 0 = true := by
  have raised := getLsbD_raise s 0xF00000 (i := 0) (by decide)
  rcases brkRaised_cases s s0 a with h | h
  · rw [h]; exact raised
  · rw [h, reg_raise_same, BitVec.getLsbD_or, raised]; rfl

/-- A thread that a breakpoint has halted. -/
def State.haltedAt (s : State) (a : Nat) : State := s.setThr a { s.thr a with halted := true }

theorem exec_brk (can : s.canIssue a [] = true) (attached : s.flag R.DBG_CTL F.DBG_CTL_ATTACH = true) : exec (.brk a lg) s =
    .next (((s.took a (ilen lg) [] kAlone).haltedAt a).brkRaised (s.took a (ilen lg) [] kAlone) a) := by
  have attach : (s.took a (ilen lg) [] kAlone).flag R.DBG_CTL F.DBG_CTL_ATTACH = true := by
    rw [State.flag, (threadOnly_took s a (ilen lg) [] kAlone).regsKept.fld (debug_not_issue (by decide))]
    exact attached
  refine (show execBrk a lg s = _ from instr_of_canIssue can _ kAlone _).trans ?_
  rw [if_pos attach]
  rfl

theorem brk_halts (can : s.canIssue a [] = true) (attached : s.flag R.DBG_CTL F.DBG_CTL_ATTACH = true) : Completes (.brk a lg) s fun t =>
    t.thr a = { (s.thr a).passed (t.thr a) a (ilen lg) with halted := true } ∧ (∀ b, b ≠ a.val → t.thr b = s.thr b) ∧
      (t.reg (0xF00000 + 0x10)).getLsbD 0 = true ∧ s.memKept t 0 0 ∧ s.regsKept t (0xF00010 :: issueRegs a) := by
  have runs := exec_brk (lg := lg) can attached
  have passed := thr_took_passed s a (ilen lg) [] kAlone
  have halted : ((s.took a (ilen lg) [] kAlone).haltedAt a).thr a = { (s.took a (ilen lg) [] kAlone).thr a with halted := true } :=
    thr_setThr_same _ _ _
  have keeps : s.threadOnly ((s.took a (ilen lg) [] kAlone).haltedAt a) a := (threadOnly_took s a (ilen lg) [] kAlone).setThr
  generalize s.took a (ilen lg) [] kAlone = u at runs passed halted keeps
  have cause := getLsbD_brkRaised (u.haltedAt a) u a
  have kept := regsKept_brkRaised (u.haltedAt a) u a
  have only := regsOnly_brkRaised (u.haltedAt a) u a
  generalize u.haltedAt a = w at runs halted keeps cause kept only
  generalize w.brkRaised u a = t at runs cause kept only
  have threads : t.thr = w.thr := by
    obtain ⟨r, rfl⟩ := only
    rfl
  refine ⟨t, runs, ?_, fun b hb => ?_, cause, fun m hm => ?_, ?_⟩
  · rw [threads, halted]
    generalize u.thr a = x at passed ⊢
    rw [passed]
    rfl
  · rw [threads, keeps.thr hb]
  · obtain ⟨r, rfl⟩ := only
    exact keeps.memKept m hm
  · exact (keeps.regsKept.mono fun _ => List.mem_cons_of_mem _).trans (kept.mono fun _ hr => List.mem_cons.mpr (.inl (List.mem_singleton.mp hr)))

/-! ### SIG (R117, R171) -/

/-- The siblings named in a mask get an event. -/
def State.signalled (s : State) (b ev n : Nat) (m : Word) : State :=
  (List.range n).foldl (fun s t => if m.getLsbD t then s.event (b + t) ev else s) s

theorem signalled_succ (s : State) (b ev n : Nat) (m : Word) : s.signalled b ev (n + 1) m =
    if m.getLsbD n then (s.signalled b ev n m).event (b + n) ev else s.signalled b ev n m := by
  rw [State.signalled, List.range_succ, List.foldl_append]
  rfl

theorem signalled_thrs (s : State) (b ev n : Nat) (m : Word) : ∃ l, s.signalled b ev n m = { s with thrs := l } := by
  induction n with
  | zero => exact ⟨_, rfl⟩
  | succ n ih =>
    obtain ⟨l, h⟩ := ih
    rw [signalled_succ, h]
    split
    · exact ⟨_, rfl⟩
    · exact ⟨_, rfl⟩

theorem thr_signalled_other (s : State) (b ev n : Nat) (m : Word) {c : Nat} (h : ¬ (b ≤ c ∧ c < b + n)) :
    (s.signalled b ev n m).thr c = s.thr c := by
  induction n with
  | zero => rfl
  | succ n ih =>
    rw [signalled_succ]
    split
    · exact (thr_event_other _ _ (by omega)).trans (ih (by omega))
    · exact ih (by omega)

theorem thr_signalled (s : State) (b ev : Nat) {n i : Nat} (m : Word) (h : i < n) : (s.signalled b ev n m).thr (b + i) =
    { s.thr (b + i) with
      evPend := if m.getLsbD i then (s.thr (b + i)).evPend ||| BitVec.ofNat 16 (2 ^ ev) else (s.thr (b + i)).evPend } := by
  induction n with
  | zero => omega
  | succ n ih =>
    rw [signalled_succ]
    rcases Nat.lt_succ_iff_lt_or_eq.mp h with before | rfl
    · rw [← ih before]
      split
      · exact thr_event_other _ _ (by omega)
      · rfl
    · have last := thr_signalled_other s b ev i m (c := b + i) (by omega)
      split
      · rw [thr_event_same, last]
      · exact last

/-- An agent is one of its siblings. -/
theorem mem_siblings (a : Agent) : (siblings a).1 ≤ a.val ∧ a.val < (siblings a).1 + (siblings a).2 := by
  unfold siblings
  split
  · dsimp only; omega
  · split <;> dsimp only <;> omega

theorem exec_sig (can : s.canIssue a [rs1] = true) : exec (.sig a lg rs1) s =
    .next ((s.took a (ilen lg) [rs1] kTail).signalled (siblings a).1 (6 + (a.val - (siblings a).1)) (siblings a).2 (s.x a rs1)) := by
  rw [← x_took s a (ilen lg) [rs1.val] kTail]
  exact show execSig a lg rs1 s = _ from instr_of_canIssue can _ kTail _

theorem sig_raises (can : s.canIssue a [rs1] = true) : Completes (.sig a lg rs1) s fun t =>
    (∀ i, i < (siblings a).2 → (siblings a).1 + i ≠ a.val → t.thr ((siblings a).1 + i) =
      { s.thr ((siblings a).1 + i) with
        evPend := if (s.x a rs1).getLsbD i then (s.thr ((siblings a).1 + i)).evPend ||| BitVec.ofNat 16 (2 ^ (6 + (a.val - (siblings a).1)))
          else (s.thr ((siblings a).1 + i)).evPend }) ∧
    (∀ c, ¬ ((siblings a).1 ≤ c ∧ c < (siblings a).1 + (siblings a).2) → t.thr c = s.thr c) ∧ s.memKept t 0 0 ∧ s.regsKept t (issueRegs a) := by
  have keeps := threadOnly_took s a (ilen lg) [rs1.val] kTail
  obtain ⟨l, same⟩ := signalled_thrs (s.took a (ilen lg) [rs1] kTail) (siblings a).1 (6 + (a.val - (siblings a).1)) (siblings a).2 (s.x a rs1)
  refine ⟨_, exec_sig can, fun i hi other => ?_, fun c hc => ?_, ?_, ?_⟩
  · rw [thr_signalled _ _ _ _ hi, keeps.thr other]
  · rw [thr_signalled_other _ _ _ _ _ hc, keeps.thr fun e => hc (by rw [e]; exact mem_siblings a)]
  · rw [same]; exact keeps.memKept
  · rw [same]; exact keeps.regsKept

end

/-- Settles O13, each instruction over the issue of its thread (rules R117, R118, R119, R123, R171, R489, R564; assumption log 43, 118). -/
theorem systemInstructionsHaveTheirEffect : Obligations.SystemInstructionsHaveTheirEffect := fun _ _ _ _ _ _ =>
  ⟨nop_passes, fence_passes, send_waits, wfe_returns, wfe_waits, tmr_disarms, tmr_arms, rget_gives, rput_gives, sleep_sleeps, brk_halts, sig_raises⟩

end Sys2Proof.Machine
end

section
/-! PROOFS. What the ends of tasks and the releases of locks leave alone (R405–R413): packets, engines, the clock, the registers of the other
blocks, and of a thread everything but its task, its request and its events. -/

namespace Sys2Proof.Machine

/-- A thread past what Geyser and the lock unit change of it. -/
def Thr.pastGeyser (t : Thr) : Thr := { t with evPend := 0, lockReq := none, task := none, stopReq := false }

/-- The state past threads, registers, memory and what Geyser and the lock unit hold themselves. -/
def State.pastGeyser (s : State) : State :=
  { s with thrs := [], regs := [], mem := [], freeCtr := 0, tasks := [], ready := [], delays := [], tmouts := [], locks := [], tephra := [], coreWakes := [] }

/-- Nothing has changed but what the end of a task or the release of a lock changes. -/
structure State.geyserKept (s t : State) : Prop where
  rest : t.pastGeyser = s.pastGeyser
  regs : ∀ r, ¬ (0x30000 ≤ r ∧ r < 0x50000) → t.reg r = s.reg r
  thrs : ∀ a, (t.thr a).pastGeyser = (s.thr a).pastGeyser

namespace State.geyserKept
variable {s t u : State} {a r n x : Nat} {f : Fld} {v : W32} {h : Thr}

theorem refl : s.geyserKept s := ⟨rfl, fun _ _ => rfl, fun _ => rfl⟩

theorem trans (h : s.geyserKept t) (h' : t.geyserKept u) : s.geyserKept u :=
  ⟨h'.rest.trans h.rest, fun r hr => (h'.regs r hr).trans (h.regs r hr), fun a => (h'.thrs a).trans (h.thrs a)⟩

/-- An update that touches neither threads nor registers. -/
theorem of_rest (hr : t.pastGeyser = s.pastGeyser) (hregs : t.regs = s.regs) (hthrs : t.thrs = s.thrs) : s.geyserKept t :=
  ⟨hr, fun r _ => congrArg (smGet regDefault · r) hregs, fun a => congrArg (fun m => (smGet (fun _ => ({} : Thr)) m a).pastGeyser) hthrs⟩

theorem setReg (h : s.geyserKept t) (hr : 0x30000 ≤ r ∧ r < 0x50000) : s.geyserKept (t.setReg r v) :=
  h.trans ⟨rfl, fun b hb => reg_setReg_other t r b v fun e => hb (e ▸ hr), fun _ => rfl⟩

theorem setFld (h : s.geyserKept t) (hr : 0x30000 ≤ r ∧ r < 0x50000) : s.geyserKept (t.setFld r f x) := h.setReg hr

theorem raise (h : s.geyserKept t) (hr : 0x30000 ≤ r ∧ r + 0x10 < 0x50000) : s.geyserKept (t.raise r x) := h.setReg (by omega)

theorem ite {p : Prop} [Decidable p] (ht : s.geyserKept t) (hu : s.geyserKept u) : s.geyserKept (if p then t else u) := by
  split
  · exact ht
  · exact hu

theorem cnt (h : s.geyserKept t) (hr : 0x30000 ≤ r ∧ r < 0x50000) : s.geyserKept (t.cnt r) := .ite h (h.setReg hr)

theorem cnt64 (h : s.geyserKept t) (hr : 0x30000 ≤ r ∧ r + 4 < 0x50000) : s.geyserKept (t.cnt64 r n) :=
  (h.setReg (by omega)).setReg (by omega)

theorem setThr (h' : s.geyserKept t) (hh : h.pastGeyser = (t.thr a).pastGeyser) : s.geyserKept (t.setThr a h) := by
  refine h'.trans ⟨rfl, fun _ _ => rfl, fun b => ?_⟩
  by_cases hb : b = a
  · subst hb; rw [thr_setThr_same]; exact hh
  · rw [thr_setThr_other _ _ _ _ hb]

theorem foldl {α : Type} {g : State → α → State} (h : ∀ (t : State) (a : α), t.geyserKept (g t a)) (l : List α) (s : State) :
    s.geyserKept (l.foldl g s) := by
  induction l generalizing s with
  | nil => exact .refl
  | cons a l ih => exact (h s a).trans (ih _)

theorem clk (h : s.geyserKept t) : t.clk = s.clk := (congrArg State.clk h.rest :)
theorem engs (h : s.geyserKept t) : t.engs = s.engs := (congrArg State.engs h.rest :)
theorem pkts (h : s.geyserKept t) : t.pkts = s.pkts := (congrArg State.pkts h.rest :)
theorem held (h : s.geyserKept t) (a : Nat) : (t.thr a).pkt = (s.thr a).pkt := (congrArg Thr.pkt (h.thrs a) :)
theorem wait (h : s.geyserKept t) (a : Nat) : (t.thr a).wait = (s.thr a).wait := (congrArg Thr.wait (h.thrs a) :)
theorem slot (h : s.geyserKept t) (a : Nat) : (t.thr a).slot = (s.thr a).slot := (congrArg Thr.slot (h.thrs a) :)

end State.geyserKept

/-! ### Tasks -/

section
variable (s : State)

theorem geyserKept_event (a ev : Nat) : s.geyserKept (s.event a ev) := .setThr .refl rfl

theorem geyserKept_setTask (k : Nat) (t : Tce) : s.geyserKept (s.setTask k t) := .of_rest rfl rfl rfl

theorem geyserKept_setLock (n : Nat) (l : Lock) : s.geyserKept (s.setLock n l) := .of_rest rfl rfl rfl

theorem geyserKept_setReadyL (a p : Nat) (l : List Nat) : s.geyserKept (s.setReadyL a p l) := .of_rest rfl rfl rfl

theorem geyserKept_unready (k : Nat) : s.geyserKept (s.unready k) := .of_rest rfl rfl rfl

theorem geyserKept_untime (k : Nat) : s.geyserKept (s.untime k) := .of_rest rfl rfl rfl

theorem geyserKept_tephraPut (rec : Word) : s.geyserKept (s.tephraPut rec) := by
  unfold State.tephraPut
  extract_lets wp hbm size base adr s1 s2
  have stored : s.geyserKept s1 := .ite (.ite (.of_rest rfl rfl rfl) .refl) (.of_rest rfl rfl rfl)
  have moved : s.geyserKept s2 := stored.setReg (by decide)
  exact .ite (.cnt .refl (by decide)) (.ite ((moved.setFld (by decide)).raise (by decide)) moved)

theorem geyserKept_tephraTask (k : Nat) (frm dst : TaskSt) (reason : Nat) : s.geyserKept (s.tephraTask k frm dst reason) :=
  .ite (geyserKept_tephraPut s _) .refl

theorem geyserKept_setEprio (k p : Nat) : s.geyserKept (s.setEprio k p) := by
  unfold State.setEprio
  extract_lets t reason s1
  refine .ite .refl ?_
  split
  · have requeued : s.geyserKept s1 := (geyserKept_unready s k).trans (geyserKept_setTask _ _ _)
    exact (requeued.trans (geyserKept_setReadyL _ _ _ _)).trans (geyserKept_tephraTask _ _ _ _ _)
  · exact (geyserKept_setTask s _ _).trans (geyserKept_tephraTask _ _ _ _ _)

/-! ### Locks -/

theorem geyserKept_dropPrio (k : Nat) : s.geyserKept (s.dropPrio k) := .ite .refl (geyserKept_setEprio s _ _)

theorem geyserKept_wakeCore (a : Nat) : s.geyserKept (s.wakeCore a) := .ite .refl (.ite (.of_rest rfl rfl rfl) .refl)

theorem geyserKept_tellGrant (w : Waiter) : s.geyserKept (s.tellGrant w) := by
  have answered : s.geyserKept (s.setThr w.agent { s.thr w.agent with lockReq := none }) := .setThr .refl rfl
  unfold State.tellGrant
  exact (answered.trans (.ite (geyserKept_event _ _ _) (geyserKept_setTask _ _ _))).trans (geyserKept_wakeCore _ _)

theorem geyserKept_passLock (n : Nat) : s.geyserKept (s.passLock n) := by
  unfold State.passLock
  dsimp only
  split
  · exact geyserKept_setLock s _ _
  · exact ((geyserKept_setLock s _ _).trans (geyserKept_tellGrant _ _)).cnt64 (by decide)

theorem geyserKept_lockAbandon (n : Nat) : s.geyserKept (s.lockAbandon n) := by
  unfold State.lockAbandon
  exact ((((geyserKept_setLock s _ _).cnt (by decide)).raise (by decide)).trans (geyserKept_passLock _ _)).trans (geyserKept_dropPrio _ _)

theorem geyserKept_abandonWhere (p : Nat → Nat → Bool) : s.geyserKept (s.abandonWhere p) := .foldl (fun t _ => geyserKept_lockAbandon t _) _ s

theorem geyserKept_dropRequests (a : Nat) : s.geyserKept (s.dropRequests a) := by
  unfold State.dropRequests
  split
  · exact .refl
  · refine ((geyserKept_setLock s _ _).setThr ?_).trans (geyserKept_dropPrio _ _)
    rfl

theorem geyserKept_abandonAgent (a : Nat) : s.geyserKept (s.abandonAgent a) :=
  (geyserKept_dropRequests s a).trans (geyserKept_abandonWhere _ _)

/-! ### The end of a task (R408) -/

theorem geyserKept_taskOff (k reason : Nat) : s.geyserKept (s.taskOff k reason) := by
  unfold State.taskOff
  extract_lets t s1
  have unlisted : s.geyserKept s1 := .ite (geyserKept_unready s k) (geyserKept_untime s k)
  exact ((unlisted.trans (geyserKept_setTask _ _ _)).trans (geyserKept_tephraTask _ _ _ _ _)).trans (geyserKept_abandonWhere _ _)

theorem geyserKept_abortTask (a : Nat) : s.geyserKept (s.abortTask a) := by
  unfold State.abortTask
  split
  · exact .refl
  · next k _ =>
    have taskless : s.geyserKept (s.setThr a { s.thr a with task := none, stopReq := false }) := .setThr .refl rfl
    exact .ite (((taskless.trans (geyserKept_taskOff _ k 0xE)).cnt (by decide)).raise (by decide)) taskless

/-- What a reset stops of a spill lies in memory (R183). -/
theorem geyserKept_cutSpill (a : Nat) : s.geyserKept (s.cutSpill a) := by
  unfold State.cutSpill
  split
  · exact .refl
  · exact .ite .refl (.of_rest rfl rfl rfl)

end

/-! ### A thread reset (R132, R133, R136, R200) -/

/-- What a thread reset does to locks, tasks and a spill. -/
def State.unhanded (s : State) (a : Nat) : State := ((s.cutSpill a).abandonAgent a).abortTask a

theorem geyserKept_unhanded (s : State) (a : Nat) : s.geyserKept (s.unhanded a) :=
  ((geyserKept_cutSpill s a).trans (geyserKept_abandonAgent _ a)).trans (geyserKept_abortTask _ a)

end Sys2Proof.Machine
end

section
/-! PROOFS. The registers of engines and clusters (R134, R141, R142, R207): where their accesses land, and what the data and key registers do. -/

namespace Sys2Proof.Machine

/-! ### Accesses of the ENG and CLU pages -/

/-- The addresses of the CLU pages (R575). -/
theorem pageOf_clu (c : CluN) {o : Nat} (ho : o < 0x1000) : pageOf (0x300000 + c * 0x1000 + o) = some (.clu, c.val) := by
  have hn : (0x300000 + c.val * 0x1000 + o) / 0x1000 = c.val + 0x300 := by omega
  have lo (n : Nat) (h : n ≤ 0x300) : ¬ c.val + 0x300 < n := by omega
  have hi : c.val + 0x300 < 0x340 := by have := c.isLt; omega
  simp [pageOf, hn, lo, hi]

section
variable {o : Nat} {r : RegD} (ho : o < 0x1000) (ha : o % 4 = 0) (hpast : 0x40 ≤ o) (hw : r.wide = false)
include ho ha hpast hw

theorem plainAt_eng (e : EngN) (hd : regs_eng.find? (fun r => r.covers o) = some r) : PlainAt (0x200000 + e * 0x1000 + o) .eng e r := by
  have off : (0x200000 + e.val * 0x1000 + o) % 0x1000 = o := by omega
  exact plainAt_of_page (pageOf_eng e o ho) rfl (off.symm ▸ hd) hw (by omega) (by omega) (.inl (by omega))

theorem plainAt_clu (c : CluN) (hd : regs_clu.find? (fun r => r.covers o) = some r) : PlainAt (0x300000 + c * 0x1000 + o) .clu c r := by
  have off : (0x300000 + c.val * 0x1000 + o) % 0x1000 = o := by omega
  exact plainAt_of_page (pageOf_clu c ho) rfl (off.symm ▸ hd) hw (by omega) (by omega) (.inl (by omega))

end

theorem plainAt_engCtl (e : EngN) : PlainAt (R.ENG_CTL e) .eng e regs_eng[0] := by
  rw [show R.ENG_CTL e = 0x200000 + e * 0x1000 + 0x40 by unfold R.ENG_CTL; omega]
  exact plainAt_eng (by decide) (by decide) (by decide) rfl e rfl

theorem plainAt_engThrCfg (e : EngN) : PlainAt (R.ENG_THR_CFG e) .eng e regs_eng[1] := by
  rw [show R.ENG_THR_CFG e = 0x200000 + e * 0x1000 + 0x44 by unfold R.ENG_THR_CFG; omega]
  exact plainAt_eng (by decide) (by decide) (by decide) rfl e rfl

theorem plainAt_engThrRst (e : EngN) : PlainAt (R.ENG_THR_RST e) .eng e regs_eng[4] := by
  rw [show R.ENG_THR_RST e = 0x200000 + e * 0x1000 + 0x50 by unfold R.ENG_THR_RST; omega]
  exact plainAt_eng (by decide) (by decide) (by decide) rfl e rfl

theorem plainAt_engHkeyLo (e : EngN) : PlainAt (R.ENG_HKEY_LO e) .eng e regs_eng[8] := by
  rw [show R.ENG_HKEY_LO e = 0x200000 + e * 0x1000 + 0x64 by unfold R.ENG_HKEY_LO; omega]
  exact plainAt_eng (by decide) (by decide) (by decide) rfl e rfl

theorem plainAt_engHkeyHi (e : EngN) : PlainAt (R.ENG_HKEY_HI e) .eng e regs_eng[9] := by
  rw [show R.ENG_HKEY_HI e = 0x200000 + e * 0x1000 + 0x68 by unfold R.ENG_HKEY_HI; omega]
  exact plainAt_eng (by decide) (by decide) (by decide) rfl e rfl

theorem plainAt_cluIramData (c : CluN) : PlainAt (R.CLU_IRAM_DATA c) .clu c regs_clu[1] := by
  rw [show R.CLU_IRAM_DATA c = 0x300000 + c * 0x1000 + 0x44 by unfold R.CLU_IRAM_DATA; omega]
  exact plainAt_clu (by decide) (by decide) (by decide) rfl c rfl

theorem plainAt_cluShrData (c : CluN) : PlainAt (R.CLU_SHR_DATA c) .clu c regs_clu[3] := by
  rw [show R.CLU_SHR_DATA c = 0x300000 + c * 0x1000 + 0x4C by unfold R.CLU_SHR_DATA; omega]
  exact plainAt_clu (by decide) (by decide) (by decide) rfl c rfl

theorem plainAt_cluIramFixData (c : CluN) : PlainAt (R.CLU_IRAM_FIX_DATA c) .clu c regs_clu[5] := by
  rw [show R.CLU_IRAM_FIX_DATA c = 0x300000 + c * 0x1000 + 0x54 by unfold R.CLU_IRAM_FIX_DATA; omega]
  exact plainAt_clu (by decide) (by decide) (by decide) rfl c rfl

/-! ### Writes of the ENG page, and its soft reset (R594) -/

/-- The soft reset of an ENG page is the same for each of its registers. -/
theorem softNow_eng (s : State) {a : Nat} (e : EngN) (h : a / 0x1000 = 0x200 + e) : s.softNow a = s.atPoint (0x200008 + e * 0x1000) := by
  have split : a = 0x200000 + e * 0x1000 + a % 0x1000 := by omega
  have page : pageOf a = some (.eng, e.val) := by
    rw [split]
    exact pageOf_eng e _ (Nat.mod_lt _ (by decide))
  have srst : a / 0x1000 * 0x1000 + 8 = 0x200008 + e * 0x1000 := by omega
  rw [State.softNow, page, srst, Bool.true_and]

/-- Without a soft reset of its page in this cycle a register of it is as calm as ENG_CTL. -/
theorem softNow_of_calm {s : State} {a : Nat} {e : EngN} (calm : s.softNow (R.ENG_CTL e) = false) (h : a / 0x1000 = 0x200 + e) : s.softNow a = false := by
  rw [softNow_eng s e h, ← softNow_eng s (a := R.ENG_CTL e) e (by unfold R.ENG_CTL; omega)]
  exact calm

section
variable {a : Nat} {e : EngN} {r : RegD} {s : State} {who : Req}

/-- A register is at no address of another kind of page. -/
theorem PlainAt.off_page {k k' : PageKind} {i j b : Nat} (h : PlainAt a k i r) (page : pageOf b = some (k', j)) (other : k ≠ k') : a ≠ b := fun at_ => by
  rw [← at_, h.page] at page
  exact other (congrArg Prod.fst (Option.some.inj page))

theorem PlainAt.notDbg (h : PlainAt a .eng e r) : a ≠ R.DBG_ACC_CTL :=
  h.off_page (show pageOf R.DBG_ACC_CTL = some (.dbg, 0) by decide) (by decide)

/-- A write of a register of an ENG page follows the rules of the page, unless the page is soft-reset in this cycle. -/
theorem PlainAt.engWrite (h : PlainAt a .eng e r) (ho : s.open who a) (hw : r.writable = true) (calm : s.softNow a = false) (v : W32) :
    s.regWrite who a v = .next (s.writeEng who.toNat (.here a) v e) := by
  have page : s.writeReg who.toNat (.here a) v = s.writeEng who.toNat (.here a) v e := by
    unfold State.writeReg
    rw [h.page]
  have hit : s.writeHit who.toNat (.here a) v = s.writeReg who.toNat (.here a) v := by
    simp [State.writeHit, calm, (h.lands s).2.2.2, Nat.not_lt.mpr h.past, h.desc, hw, h.low]
  rw [State.regWrite, busWrite_of_reach v (reach_of_open ho (h.lands s) true) h.notDbg, hit, page]

/-- What is written beside a soft reset of the page is lost. -/
theorem PlainAt.engWrite_soft (h : PlainAt a .eng e r) (ho : s.open who a) (soft : s.softNow a = true) (v : W32) : s.regWrite who a v = .next s := by
  have hit : s.writeHit who.toNat (.here a) v = s := if_pos soft
  rw [State.regWrite, busWrite_of_reach v (reach_of_open ho (h.lands s) true) h.notDbg, hit]

end

/-! ### The data registers of a cluster (R141, R142) -/

section
variable {s : State} {who : Req} {c : CluN} {a : Nat} {r : RegD} {v : W32}

theorem PlainAt.cluWrite (h : PlainAt a .clu c r) (ho : s.open who a) (hw : r.writable = true) : s.regWrite who a v =
    .next (s.writeClu who.toNat (.here a) v c) := by
  have page : s.writeReg who.toNat (.here a) v = s.writeClu who.toNat (.here a) v c := by
    unfold State.writeReg
    rw [h.page]
  exact (h.regWrite ho (by decide) (by decide) hw v).trans (congrArg Host.Outcome.next page)

theorem readHit_clu (h : PlainAt a .clu c r) (who : Nat) : s.readHit who (.here a) =
    ((s.plainRead who (.here a)).1, (s.plainRead who (.here a)).2.cluNext c (a % 0x1000)) := by
  have past := h.past
  unfold State.readHit
  dsimp only
  rw [if_neg (show ¬ a % 0x1000 = 0x1C by omega), if_neg (Nat.not_lt.mpr past), h.desc, if_neg (by simp), h.page]

/-- A data register of a cluster shows the word that its address names. -/
theorem value_cluData (h : PlainAt a .clu c r) (data : a % 0x1000 = 0x44 ∨ a % 0x1000 = 0x4C ∨ a % 0x1000 = 0x54) :
    s.value (.here a) = w32 (s.rdLE (s.cluAddr c (a % 0x1000)) 4) := by
  have shown : s.shown (.here a) = some (w32 (s.rdLE (s.cluAddr c (a % 0x1000)) 4)) := by
    unfold State.shown
    dsimp only
    rw [h.page]
    exact if_pos data
  unfold State.value
  dsimp only
  rw [shown, if_neg (by omega), if_neg (by omega)]

/-- A read of a data register latches and clears nothing. -/
theorem plainRead_cluData (h : PlainAt a .clu c r) (data : a % 0x1000 = 0x44 ∨ a % 0x1000 = 0x4C ∨ a % 0x1000 = 0x54)
    (hr : (r.flds.filter fun f => f.ty == .rc).isEmpty = true) (alone : r.wide = false ∧ r.latch = []) {who : Nat} (unlatched : s.latched who a = none) :
    s.plainRead who (.here a) = (w32 (s.rdLE (s.cluAddr c (a % 0x1000)) 4), s) := by
  have notLog : a ≠ R.RAS_LOG_W 0 := h.off_page (show pageOf (R.RAS_LOG_W 0) = some (.ras, 0) by decide) (by decide)
  have latches : s.latchGroup who (.here a) = s := by
    unfold State.latchGroup
    rw [h.desc]
    simp only [h.low, notLog, alone, Bool.false_eq_true, if_false, List.foldl_nil]
  unfold State.plainRead
  rw [unlatched, value_cluData h data, latches, clearRead_of_no_rc h hr]

/-- The access of a data register moves nothing but its address. -/
theorem regsOnly_cluNext (s : State) (c o : Nat) : s.regsOnly (s.cluNext c o) := by
  unfold State.cluNext
  split
  · exact State.regsOnly.refl.setFld
  · split
    · exact State.regsOnly.refl.setFld
    · exact .refl

theorem length_rdMap (m : SMap Byte) (a n : Nat) : (rdMap m a n).length = n := by
  induction n generalizing a with
  | zero => rfl
  | succ n ih => rw [rdMap, List.length_cons, ih]

theorem valLE_lt (bs : List Byte) : valLE bs < 256 ^ bs.length := by
  induction bs with
  | nil => exact Nat.one_pos
  | cons b bs ih =>
    have byte : b.toNat < 256 := b.isLt
    rw [valLE, List.length_cons, Nat.pow_succ]
    omega

theorem rdLE_lt (s : State) (a n : Nat) : s.rdLE a n < 256 ^ n := by
  have bound := valLE_lt (s.rdBytes a n)
  rw [State.rdBytes, length_rdMap] at bound
  exact bound

theorem toNat_rdLE (s : State) (a : Nat) : (w32 (s.rdLE a 4)).toNat = s.rdLE a 4 :=
  (BitVec.toNat_ofNat _ _).trans (Nat.mod_eq_of_lt (rdLE_lt s a 4))

theorem rdLE_wrLE (s : State) (a n v : Nat) : (s.wrLE a n v).rdLE a n = v % 256 ^ n := by
  have stored := rdBytes_wrBytes s a (bytesLE n v)
  rw [length_bytesLE] at stored
  rw [State.rdLE, State.wrLE, stored, valLE_bytesLE]

theorem memKept_wrLE (s : State) (a n v : Nat) : s.memKept (s.wrLE a n v) a n := fun b hb =>
  rd8_wrBytes_other _ _ _ _ (by rwa [length_bytesLE])

/-- The state after a word has been put where a data register points. -/
def State.cluPut (s : State) (c o : Nat) (v : W32) : State := (s.wrLE (s.cluAddr c o) 4 v.toNat).cluNext c o

theorem rdLE_cluPut (s : State) (c o : Nat) (v : W32) : (s.cluPut c o v).rdLE (s.cluAddr c o) 4 = v.toNat := by
  have stored := rdLE_wrLE s (s.cluAddr c o) 4 v.toNat
  obtain ⟨r, moved⟩ := regsOnly_cluNext (s.wrLE (s.cluAddr c o) 4 v.toNat) c o
  rw [State.cluPut, moved]
  exact stored.trans (Nat.mod_eq_of_lt v.isLt)

theorem memKept_cluPut (s : State) (c o : Nat) (v : W32) : s.memKept (s.cluPut c o v) (s.cluAddr c o) 4 := by
  have kept := memKept_wrLE s (s.cluAddr c o) 4 v.toNat
  obtain ⟨r, moved⟩ := regsOnly_cluNext (s.wrLE (s.cluAddr c o) 4 v.toNat) c o
  rw [State.cluPut, moved]
  exact kept

/-- The address of a fix word does not advance. -/
theorem regs_cluPut_fix (s : State) (c : Nat) (v : W32) : (s.cluPut c 0x54 v).regs = s.regs := rfl

theorem iramAddr_steps (s : State) (c : Nat) : (s.cluNext c 0x44).fld (R.CLU_IRAM_ADDR c) F.CLU_IRAM_ADDR_ADDR =
    (getF (s.reg (R.CLU_IRAM_ADDR c)) F.CLU_IRAM_ADDR_ADDR + 1) % 2 ^ 15 := fld_setFld_same _ _ _ _ (by decide) (by decide)

theorem shrAddr_steps (s : State) (c : Nat) : (s.cluNext c 0x4C).fld (R.CLU_SHR_ADDR c) F.CLU_SHR_ADDR_ADDR =
    (getF (s.reg (R.CLU_SHR_ADDR c)) F.CLU_SHR_ADDR_ADDR + 1) % 2 ^ 16 := fld_setFld_same _ _ _ _ (by decide) (by decide)

theorem offset_cluIramData (c : Nat) : R.CLU_IRAM_DATA c % 0x1000 = 0x44 := by unfold R.CLU_IRAM_DATA; omega
theorem offset_cluShrData (c : Nat) : R.CLU_SHR_DATA c % 0x1000 = 0x4C := by unfold R.CLU_SHR_DATA; omega
theorem offset_cluIramFixData (c : Nat) : R.CLU_IRAM_FIX_DATA c % 0x1000 = 0x54 := by unfold R.CLU_IRAM_FIX_DATA; omega

theorem cluIramDataAccess_reads (ho : s.open who (R.CLU_IRAM_DATA c)) (unlatched : s.latched who.toNat (R.CLU_IRAM_DATA c) = none) :
    Completes (.cluIramDataAccess who c .read) s fun t => t.rdata.toNat = s.rdLE (s.cluAddr c 0x44) 4 ∧ t.mem = s.mem ∧
      t.fld (R.CLU_IRAM_ADDR c) F.CLU_IRAM_ADDR_ADDR = (getF (s.reg (R.CLU_IRAM_ADDR c)) F.CLU_IRAM_ADDR_ADDR + 1) % 2 ^ 15 := by
  have h := plainAt_cluIramData c
  have off := offset_cluIramData c
  have runs := h.regRead ho
  rw [readHit_clu h, plainRead_cluData h (.inl off) (by decide) ⟨rfl, rfl⟩ unlatched, off] at runs
  exact ⟨_, runs, toNat_rdLE _ _, (regsOnly_cluNext s c 0x44).mem, iramAddr_steps s c⟩

theorem cluShrDataAccess_reads (ho : s.open who (R.CLU_SHR_DATA c)) (unlatched : s.latched who.toNat (R.CLU_SHR_DATA c) = none) :
    Completes (.cluShrDataAccess who c .read) s fun t => t.rdata.toNat = s.rdLE (s.cluAddr c 0x4C) 4 ∧ t.mem = s.mem := by
  have h := plainAt_cluShrData c
  have off := offset_cluShrData c
  have runs := h.regRead ho
  rw [readHit_clu h, plainRead_cluData h (.inr (.inl off)) (by decide) ⟨rfl, rfl⟩ unlatched, off] at runs
  exact ⟨_, runs, toNat_rdLE _ _, (regsOnly_cluNext s c 0x4C).mem⟩

theorem exec_cluIramDataAccess_write (ho : s.open who (R.CLU_IRAM_DATA c)) : exec (.cluIramDataAccess who c (.write v)) s =
    .next (if s.clusterRuns c || s.reqSigned then s.violAt who.toNat 3 (R.CLU_IRAM_DATA c) else s.cluPut c 0x44 v) := by
  refine ((plainAt_cluIramData c).cluWrite ho (by decide)).trans (congrArg Host.Outcome.next ?_)
  rw [State.writeClu, offset_cluIramData]
  rfl

theorem cluIramDataAccess_writes (ho : s.open who (R.CLU_IRAM_DATA c)) (still : s.clusterRuns c = false) (unsigned : s.reqSigned = false) :
    Completes (.cluIramDataAccess who c (.write v)) s fun t => t.rdLE (s.cluAddr c 0x44) 4 = v.toNat ∧ s.memKept t (s.cluAddr c 0x44) 4 ∧
      t.fld (R.CLU_IRAM_ADDR c) F.CLU_IRAM_ADDR_ADDR = (getF (s.reg (R.CLU_IRAM_ADDR c)) F.CLU_IRAM_ADDR_ADDR + 1) % 2 ^ 15 := by
  have runs := exec_cluIramDataAccess_write (v := v) ho
  rw [still, unsigned, Bool.or_false, if_neg Bool.false_ne_true] at runs
  exact ⟨_, runs, rdLE_cluPut _ _ _ _, memKept_cluPut _ _ _ _, iramAddr_steps _ _⟩

theorem cluIramDataAccess_refused (ho : s.open who (R.CLU_IRAM_DATA c)) (bars : s.clusterRuns c = true ∨ s.reqSigned = true) :
    exec (.cluIramDataAccess who c (.write v)) s = .next (s.violAt who.toNat 3 (R.CLU_IRAM_DATA c)) := by
  rw [exec_cluIramDataAccess_write ho, if_pos (by simpa using bars)]

theorem cluShrDataAccess_writes (ho : s.open who (R.CLU_SHR_DATA c)) : Completes (.cluShrDataAccess who c (.write v)) s fun t =>
    t.rdLE (s.cluAddr c 0x4C) 4 = v.toNat ∧ s.memKept t (s.cluAddr c 0x4C) 4 ∧
      t.fld (R.CLU_SHR_ADDR c) F.CLU_SHR_ADDR_ADDR = (getF (s.reg (R.CLU_SHR_ADDR c)) F.CLU_SHR_ADDR_ADDR + 1) % 2 ^ 16 := by
  have stored : s.writeClu who.toNat (.here (R.CLU_SHR_DATA c)) v c = s.cluPut c 0x4C v := by
    rw [State.writeClu, offset_cluShrData]
    rfl
  exact ⟨_, ((plainAt_cluShrData c).cluWrite ho (by decide)).trans (congrArg Host.Outcome.next stored), rdLE_cluPut _ _ _ _, memKept_cluPut _ _ _ _,
    shrAddr_steps _ _⟩

theorem exec_cluIramFixDataWrite (ho : s.open who (R.CLU_IRAM_FIX_DATA c)) : exec (.cluIramFixDataWrite who c v) s =
    .next (if s.reqSigned then s.violAt who.toNat 3 (R.CLU_IRAM_FIX_DATA c) else s.cluPut c 0x54 v) := by
  refine ((plainAt_cluIramFixData c).cluWrite ho (by decide)).trans (congrArg Host.Outcome.next ?_)
  rw [State.writeClu, offset_cluIramFixData]
  rfl

theorem cluIramFixDataWrite_writes (ho : s.open who (R.CLU_IRAM_FIX_DATA c)) (unsigned : s.reqSigned = false) :
    Completes (.cluIramFixDataWrite who c v) s fun t => t.rdLE (s.cluAddr c 0x54) 4 = v.toNat ∧ s.memKept t (s.cluAddr c 0x54) 4 ∧
      t.regs = s.regs := by
  have runs := exec_cluIramFixDataWrite (v := v) ho
  rw [unsigned, if_neg Bool.false_ne_true] at runs
  exact ⟨_, runs, rdLE_cluPut _ _ _ _, memKept_cluPut _ _ _ _, regs_cluPut_fix _ _ _⟩

theorem cluIramFixDataWrite_refused (ho : s.open who (R.CLU_IRAM_FIX_DATA c)) (signed : s.reqSigned = true) :
    exec (.cluIramFixDataWrite who c v) s = .next (s.violAt who.toNat 3 (R.CLU_IRAM_FIX_DATA c)) := by
  rw [exec_cluIramFixDataWrite ho, if_pos signed]

end

/-! ### The key registers of an engine (R207) -/

section
variable {s : State} {who : Req} {e : EngN} {a : Nat} {r : RegD} {v : W32}

theorem readHit_eng (h : PlainAt a .eng e r) (who : Nat) : s.readHit who (.here a) =
    if a % 0x1000 = 0x68 then ((s.plainRead who (.here a)).1, (s.plainRead who (.here a)).2.hkeyNext e) else s.plainRead who (.here a) := by
  have past := h.past
  unfold State.readHit
  dsimp only
  rw [if_neg (show ¬ a % 0x1000 = 0x1C by omega), if_neg (Nat.not_lt.mpr past), h.desc, if_neg (by simp), h.page]

/-- A register of an ENG page that the model computes. -/
theorem value_eng {w : W32} (past : 0x40 ≤ a % 0x1000) (shown : s.shown (.here a) = some w) : s.value (.here a) = w := by
  unfold State.value
  dsimp only
  rw [shown, if_neg (by omega), if_neg (by omega)]

theorem offset_engHkeyLo (e : Nat) : R.ENG_HKEY_LO e % 0x1000 = 0x64 := by unfold R.ENG_HKEY_LO; omega
theorem offset_engHkeyHi (e : Nat) : R.ENG_HKEY_HI e % 0x1000 = 0x68 := by unfold R.ENG_HKEY_HI; omega

theorem value_engHkeyLo (s : State) (e : EngN) : s.value (.here (R.ENG_HKEY_LO e)) = w32 (s.hkey e).toNat := by
  have off := offset_engHkeyLo e
  refine value_eng (by omega) ?_
  unfold State.shown
  dsimp only
  rw [(plainAt_engHkeyLo e).page, off]
  rfl

theorem value_engHkeyHi (s : State) (e : EngN) : s.value (.here (R.ENG_HKEY_HI e)) = w32 ((s.hkey e).toNat / 2 ^ 32) := by
  have off := offset_engHkeyHi e
  refine value_eng (by omega) ?_
  unfold State.shown
  dsimp only
  rw [(plainAt_engHkeyHi e).page, off]
  rfl

theorem PlainAt.notLog (h : PlainAt a .eng e r) : a ≠ R.RAS_LOG_W 0 :=
  h.off_page (show pageOf (R.RAS_LOG_W 0) = some (.ras, 0) by decide) (by decide)

/-- A read of ENG_HKEY_LO latches the high half for its reader (R582). -/
theorem latchGroup_engHkeyLo (s : State) (who : Nat) (e : EngN) : s.latchGroup who (.here (R.ENG_HKEY_LO e)) =
    s.setLatch who (R.ENG_HKEY_HI e) (some (w32 ((s.hkey e).toNat / 2 ^ 32))) := by
  have h := plainAt_engHkeyLo e
  have high : R.ENG_HKEY_HI e = R.ENG_HKEY_LO e + 4 := by unfold R.ENG_HKEY_HI R.ENG_HKEY_LO; omega
  rw [← value_engHkeyHi, high]
  unfold State.latchGroup
  rw [h.desc]
  simp only [h.low, h.notLog, Bool.false_eq_true, if_false]
  rfl

theorem latchGroup_engHkeyHi (s : State) (who : Nat) (e : EngN) : s.latchGroup who (.here (R.ENG_HKEY_HI e)) = s := by
  have h := plainAt_engHkeyHi e
  unfold State.latchGroup
  rw [h.desc]
  simp only [h.low, h.notLog, Bool.false_eq_true, if_false]
  rfl

theorem engHkeyLoRead_latches (ho : s.open who (R.ENG_HKEY_LO e)) (unlatched : s.latched who.toNat (R.ENG_HKEY_LO e) = none) :
    Completes (.engHkeyLoRead who e) s fun t => t.rdata = BitVec.ofNat 32 (s.hkey e).toNat ∧
      t.latched who.toNat (R.ENG_HKEY_HI e) = some (BitVec.ofNat 32 ((s.hkey e).toNat / 2 ^ 32)) ∧ t.regs = s.regs := by
  have h := plainAt_engHkeyLo e
  have plain : s.plainRead who.toNat (.here (R.ENG_HKEY_LO e)) =
      (w32 (s.hkey e).toNat, s.setLatch who.toNat (R.ENG_HKEY_HI e) (some (w32 ((s.hkey e).toNat / 2 ^ 32)))) := by
    unfold State.plainRead
    rw [unlatched, value_engHkeyLo, clearRead_of_no_rc h (by decide), latchGroup_engHkeyLo]
  have runs := h.regRead ho
  rw [readHit_eng h, if_neg (by rw [offset_engHkeyLo]; decide), plain] at runs
  exact ⟨_, runs, rfl, (latched_with_rdata _ _ _ _).trans (latched_setLatch_same _ _ _ _), rfl⟩

theorem engHkeyHiAccess_reads (ho : s.open who (R.ENG_HKEY_HI e)) (unlatched : s.latched who.toNat (R.ENG_HKEY_HI e) = none) :
    Completes (.engHkeyHiAccess who e .read) s fun t => t.rdata = BitVec.ofNat 32 ((s.hkey e).toNat / 2 ^ 32) ∧
      s.regsKept t [R.ENG_HKEY_SEL e] := by
  have h := plainAt_engHkeyHi e
  have plain : s.plainRead who.toNat (.here (R.ENG_HKEY_HI e)) = (w32 ((s.hkey e).toNat / 2 ^ 32), s) := by
    unfold State.plainRead
    rw [unlatched, value_engHkeyHi, latchGroup_engHkeyHi, clearRead_of_no_rc h (by decide)]
  have runs := h.regRead ho
  rw [readHit_eng h, if_pos (offset_engHkeyHi e), plain] at runs
  exact ⟨_, runs, rfl, State.regsKept.refl.setFld (t := s) List.mem_cons_self⟩

/-- What a write of ENG_HKEY_HI does while the page is not soft-reset. -/
theorem exec_engHkeyHiAccess_write (ho : s.open who (R.ENG_HKEY_HI e)) (calm : s.softNow (R.ENG_CTL e) = false) :
    exec (.engHkeyHiAccess who e (.write v)) s =
      .next (if s.engRun e then s.violAt who.toNat 3 (R.ENG_HKEY_HI e) else (s.setHkey e v).hkeyNext e) := by
  have here : s.softNow (R.ENG_HKEY_HI e) = false := softNow_of_calm calm (by unfold R.ENG_HKEY_HI; omega)
  refine ((plainAt_engHkeyHi e).engWrite ho (by decide) here v).trans (congrArg Host.Outcome.next ?_)
  rw [State.writeEng, offset_engHkeyHi]
  rfl

theorem engHkeyHiAccess_writes (ho : s.open who (R.ENG_HKEY_HI e)) (calm : s.softNow (R.ENG_CTL e) = false) (still : s.engRun e = false) :
    Completes (.engHkeyHiAccess who e (.write v)) s fun t =>
      smGet (fun _ => (0 : Word)) (t.eng e).keys (s.fld (R.ENG_HKEY_SEL e) F.ENG_HKEY_SEL_IDX) =
        BitVec.ofNat 64 (v.toNat * 2 ^ 32 + (s.reg (R.ENG_HKEY_LO e)).toNat) ∧
      t.fld (R.ENG_HKEY_SEL e) F.ENG_HKEY_SEL_IDX = (getF (s.reg (R.ENG_HKEY_SEL e)) F.ENG_HKEY_SEL_IDX + 1) % 2 ^ 5 := by
  have runs := exec_engHkeyHiAccess_write (v := v) ho calm
  rw [still, if_neg Bool.false_ne_true] at runs
  refine ⟨_, runs, ?_, fld_setFld_same _ _ _ _ (by decide) (by decide)⟩
  have stored : ((s.setHkey e v).hkeyNext e).eng e = _ := eng_setEng_same s e _
  rw [stored]
  exact smGet_smSet_same _ _ _ _

theorem engHkeyHiAccess_refused (ho : s.open who (R.ENG_HKEY_HI e)) (calm : s.softNow (R.ENG_CTL e) = false) (runs : s.engRun e = true) :
    exec (.engHkeyHiAccess who e (.write v)) s = .next (s.violAt who.toNat 3 (R.ENG_HKEY_HI e)) := by
  rw [exec_engHkeyHiAccess_write ho calm, if_pos runs]

end

end Sys2Proof.Machine
end

section
/-! PROOFS. Resets of threads and engines (R128, R132–R136): the record of a restarted thread, its packet, and what stands beside it. -/

namespace Sys2Proof.Machine

/-! ### The send that commits in this cycle (R123) -/

/-- Which send commits in this cycle depends on the engines, the thread's packet and wait, the mode and the power domains. -/
theorem sendsNow_congr {s t : State} {a : Nat} (engs : t.engs = s.engs) (pkt : (t.thr a).pkt = (s.thr a).pkt)
    (wait : (t.thr a).wait = (s.thr a).wait) (low : ∀ r, r < 0x30000 → t.reg r = s.reg r) : t.sendsNow a = s.sendsNow a := by
  have mode : t.mode = s.mode := congrArg (getF · F.DEV_MODE_MODE) (low R.DEV_MODE (by decide))
  have pwr : t.reg R.DEV_PWR_STAT = s.reg R.DEV_PWR_STAT := low _ (by decide)
  have eng : t.eng = s.eng := funext fun e => congrArg (smGet (fun _ => ({} : Eng)) · e) engs
  have oldest : t.oldest (engOf a) = s.oldest (engOf a) := by rw [State.oldest, eng]; rfl
  have room : t.hasRoom (engOf a) = s.hasRoom (engOf a) := by rw [State.hasRoom, eng]; rfl
  have clocks : t.mainClk = s.mainClk := by rw [State.mainClk, State.mainOn, mode]; rfl
  have powered : t.domOn (pipeOf a) = s.domOn (pipeOf a) := by rw [State.domOn, State.mainOn, mode, pwr]; rfl
  rw [State.sendsNow, oldest, pkt, wait, clocks, powered, room]
  rfl

theorem State.geyserKept.sendsNow {s t : State} (h : s.geyserKept t) (a : Nat) : t.sendsNow a = s.sendsNow a :=
  sendsNow_congr h.engs (h.held a) (h.wait a) fun r hr => h.regs r (by omega)

/-! ### A thread reset in parts -/

/-- What a thread reset does before it restarts the thread: a spill ends, tasks and locks are given up, and the packet is marked for discard
unless its send commits in this cycle. -/
def State.packetLeft (s : State) (a : Nat) (wdog : Bool) : State :=
  match (s.thr a).pkt with
  | some k =>
    if s.sendsNow a = some k then
      { s.unhanded a with
        pkts := smSet (fun _ => {}) (s.unhanded a).pkts k { (s.unhanded a).pkt k with ctx := (s.thr a).slot, sent := true } }
    else ((s.unhanded a).markDiscard k).cnt (if wdog then R.WDOG_DROP (engOf a) else R.RST_DROP (engOf a))
  | none => s.unhanded a

/-- A thread starts over: its record is blank but for its mask of events, its halt and the end of the reset. -/
def State.restart (s : State) (a : Nat) (t : Thr) (ends : Nat) : State :=
  let run := s.engRun (engOf a) && (s.role a == rService)
  let g := s.eng (engOf a)
  (s.setEng (engOf a) { g with arb := { g.arb with lead := none, late := g.arb.late.filter (· ≠ a) } }).setThr a
    { tvec := BitVec.ofNat 64 (s.fld (R.CLU_TVEC (cluOf a)) F.CLU_TVEC_TVEC), halted := t.halted, rstEnd := ends,
      evMask := t.evMask, fresh := !run, pc := if run then s.fld (R.ENG_ENTRY (engOf a)) F.ENG_ENTRY_SVC_ENTRY else 0 }

section
variable (s : State) (a : Nat) (wdog : Bool) (n : Nat)

theorem threadReset_eq : s.threadReset a wdog n =
    ((s.packetLeft a wdog).cntN (R.FU_KILL (engOf a)) (s.thr a).fu.length).restart a (s.thr a) (s.clk + n) := rfl

/-- Beyond tasks and locks the packet of a reset thread changes, and registers count it. -/
theorem packetLeft_beyond : ∃ p r, s.packetLeft a wdog = { s.unhanded a with pkts := p, regs := r } := by
  unfold State.packetLeft
  split
  · next k _ =>
    split
    · exact ⟨_, _, rfl⟩
    · obtain ⟨r, counted⟩ := (State.regsOnly.refl (s := (s.unhanded a).markDiscard k)).cnt (a := if wdog then R.WDOG_DROP (engOf a) else R.RST_DROP (engOf a))
      exact ⟨_, r, counted⟩
  · exact ⟨_, _, rfl⟩

/-- The registers of an engine that a thread reset counts in. -/
def resetRegs (e : Nat) : List Nat := [R.WDOG_DROP e, R.RST_DROP e, R.FU_KILL e]

theorem regsKept_packetLeft : (s.unhanded a).regsKept (s.packetLeft a wdog) (resetRegs (engOf a)) := by
  unfold State.packetLeft
  split
  · next k _ =>
    split
    · exact fun _ _ => rfl
    · refine State.regsKept.cnt (fun _ _ => rfl) ?_
      split
      · exact List.mem_cons_self
      · exact List.mem_cons_of_mem _ List.mem_cons_self
  · exact .refl

/-- A thread that starts over. -/
structure Thr.startsOver (t u : Thr) (ends : Nat) : Prop where
  pkt : u.pkt = none
  task : u.task = none
  rf : u.rf = []
  fu : u.fu = []
  status : u.status = 0
  wait : u.wait = .run
  evMask : u.evMask = t.evMask
  halted : u.halted = t.halted
  rstEnd : u.rstEnd = ends

theorem thr_threadReset_same : (s.thr a).startsOver ((s.threadReset a wdog n).thr a) (s.clk + n) := by
  rw [threadReset_eq, State.restart, thr_setThr_same]
  exact ⟨rfl, rfl, rfl, rfl, rfl, rfl, rfl, rfl, rfl⟩

theorem thr_threadReset_other {b : Nat} (h : b ≠ a) : ((s.threadReset a wdog n).thr b).pastGeyser = (s.thr b).pastGeyser := by
  have counted : (s.threadReset a wdog n).thr b = (s.unhanded a).thr b := by
    obtain ⟨p, r, left⟩ := packetLeft_beyond s a wdog
    rw [threadReset_eq, left]
    exact thr_setThr_other _ _ _ _ h
  rw [counted, (geyserKept_unhanded s a).thrs b]

theorem clk_threadReset : (s.threadReset a wdog n).clk = s.clk := by
  obtain ⟨p, r, left⟩ := packetLeft_beyond s a wdog
  rw [threadReset_eq, left]
  exact (geyserKept_unhanded s a).clk

theorem reg_threadReset {r : Nat} (geyser : ¬ (0x30000 ≤ r ∧ r < 0x50000)) (counts : r ∉ resetRegs (engOf a)) :
    (s.threadReset a wdog n).reg r = s.reg r := by
  have kills : ((s.packetLeft a wdog).cntN (R.FU_KILL (engOf a)) (s.thr a).fu.length).reg r = (s.packetLeft a wdog).reg r :=
    reg_setReg_other _ _ _ _ fun e => counts (e ▸ List.mem_cons_of_mem _ (List.mem_cons_of_mem _ List.mem_cons_self))
  exact kills.trans ((regsKept_packetLeft s a wdog r counts).trans ((geyserKept_unhanded s a).regs r geyser))

theorem pkt_threadReset (k : Nat) : (s.threadReset a wdog n).pkt k = (s.packetLeft a wdog).pkt k := rfl

variable {s a wdog n} {k : Nat}

/-- The packet of a reset thread is marked for discard. -/
theorem pkt_threadReset_discards (holds : (s.thr a).pkt = some k) (unsent : s.sendsNow a ≠ some k) :
    (s.threadReset a wdog n).pkt k = { s.pkt k with discard := true } := by
  have marked : ((s.unhanded a).markDiscard k).pkt k = { (s.unhanded a).pkt k with discard := true } := smGet_smSet_same _ _ _ _
  have same : (s.unhanded a).pkt k = s.pkt k := congrArg (smGet (fun _ => ({} : Pkt)) · k) (geyserKept_unhanded s a).pkts
  rw [pkt_threadReset, State.packetLeft, holds]
  dsimp only
  rw [if_neg unsent, State.pkt, pkts_cnt, ← same]
  exact marked

/-- The packet of a send that commits in this cycle stands, and leaves the thread with its context. -/
theorem pkt_threadReset_sends (holds : (s.thr a).pkt = some k) (sends : s.sendsNow a = some k) :
    (s.threadReset a wdog n).pkt k = { s.pkt k with ctx := (s.thr a).slot, sent := true } := by
  have same : (s.unhanded a).pkt k = s.pkt k := congrArg (smGet (fun _ => ({} : Pkt)) · k) (geyserKept_unhanded s a).pkts
  rw [pkt_threadReset, State.packetLeft, holds]
  dsimp only
  rw [if_pos sends, ← same]
  exact smGet_smSet_same _ _ _ _

end

/-! ### Resets of several threads (R132, R133) -/

/-- The threads of an engine that a mask names. -/
def namedThrs (bits : Nat) : List Nat := (List.range 8).filter fun t => bits.testBit t

/-- The requests of some threads of an engine are dropped. -/
def State.requestsDropped (s : State) (e : Nat) (l : List Nat) : State := l.foldl (fun s t => s.dropRequests (e * 8 + t)) s

/-- Some threads of an engine start over. -/
def State.startedOver (s : State) (e : Nat) (l : List Nat) (n : Nat) : State := l.foldl (fun s t => s.threadReset (e * 8 + t) false n) s

theorem resetThreads_eq (s : State) (e bits n : Nat) :
    s.resetThreads e bits n = (s.requestsDropped e (namedThrs bits)).startedOver e (namedThrs bits) n := rfl

theorem geyserKept_requestsDropped (s : State) (e : Nat) (l : List Nat) : s.geyserKept (s.requestsDropped e l) :=
  .foldl (fun t _ => geyserKept_dropRequests t _) l s

/-- What a reset of an engine leaves in each of its threads. -/
def Thr.emptied (t : Thr) (ends : Nat) : Prop := t.pkt = none ∧ t.rf = [] ∧ t.rstEnd = ends

theorem emptied_of_pastGeyser {t u : Thr} {ends : Nat} (h : u.pastGeyser = t.pastGeyser) (ht : t.emptied ends) : u.emptied ends := by
  obtain ⟨pkt, rf, rstEnd⟩ := ht
  exact ⟨(congrArg Thr.pkt h :).trans pkt, (congrArg Thr.rf h :).trans rf, (congrArg Thr.rstEnd h :).trans rstEnd⟩

/-- A thread that starts over is not touched by the reset of another. -/
theorem emptied_threadReset {s : State} {a b n c : Nat} (clk : s.clk = c) (h : b = a ∨ (s.thr b).emptied (c + n)) :
    ((s.threadReset a false n).thr b).emptied (c + n) := by
  by_cases same : b = a
  · have begun := thr_threadReset_same s a false n
    rw [same, ← clk]
    exact ⟨begun.pkt, begun.rf, begun.rstEnd⟩
  · exact emptied_of_pastGeyser (thr_threadReset_other s a false n same) (h.resolve_left same)

theorem emptied_startedOver {s : State} {e t n c : Nat} (l : List Nat) (clk : s.clk = c) (h : t ∈ l ∨ (s.thr (e * 8 + t)).emptied (c + n)) :
    ((s.startedOver e l n).thr (e * 8 + t)).emptied (c + n) := by
  induction l generalizing s with
  | nil => exact h.resolve_left List.not_mem_nil
  | cons b l ih =>
    refine ih ((clk_threadReset s _ false n).trans clk) ?_
    rcases h with named | empty
    · rcases List.mem_cons.mp named with rfl | later
      · exact .inr (emptied_threadReset clk (.inl rfl))
      · exact .inl later
    · exact .inr (emptied_threadReset clk (.inr empty))

theorem emptied_resetThreads (s : State) (e n : Nat) {bits t : Nat} (ht : t < 8) (named : bits.testBit t = true) :
    ((s.resetThreads e bits n).thr (e * 8 + t)).emptied (s.clk + n) := by
  rw [resetThreads_eq]
  exact emptied_startedOver _ (geyserKept_requestsDropped s e _).clk (.inl (List.mem_filter.mpr ⟨List.mem_range.mpr ht, named⟩))

/-- A mask of one bit names one thread. -/
theorem resetThreads_single (s : State) (e n : Nat) {t : Nat} (ht : t < 8) :
    s.resetThreads e (2 ^ t) n = (s.dropRequests (e * 8 + t)).threadReset (e * 8 + t) false n := by
  have one : ∀ t < 8, namedThrs (2 ^ t) = [t] := by decide
  rw [resetThreads_eq, one t ht]
  rfl

/-- An empty mask names none. -/
theorem resetThreads_none (s : State) (e n : Nat) : s.resetThreads e 0 n = s := by
  have none_named : namedThrs 0 = [] := by decide
  rw [resetThreads_eq, none_named]
  rfl

end Sys2Proof.Machine
end

section
/-! PROOFS. Resets, RUN and roles, the watchdog and the event-deadlock check of an engine (R128, R130, R132–R134). -/

namespace Sys2Proof.Machine

/-! ### Bits of ENG_CTL -/

/-- A field is the same where its bits are. -/
theorem bits_congr {n m hi lo : Nat} (h : ∀ i < hi + 1 - lo, n.testBit (lo + i) = m.testBit (lo + i)) : bits n hi lo = bits m hi lo := by
  refine Nat.eq_of_testBit_eq fun i => ?_
  unfold bits
  rw [Nat.testBit_mod_two_pow, Nat.testBit_mod_two_pow, Nat.testBit_div_two_pow, Nat.testBit_div_two_pow, Nat.add_comm i lo]
  by_cases inside : i < hi + 1 - lo
  · rw [h i inside]
  · rw [decide_eq_false inside, Bool.false_and, Bool.false_and]

/-- Whether an engine runs is the top bit of its ENG_CTL. -/
theorem engRun_eq (s : State) (e : Nat) : s.engRun e = (s.reg (R.ENG_CTL e)).getLsbD 31 := by
  have run : getF (s.reg (R.ENG_CTL e)) F.ENG_CTL_RUN = (s.reg (R.ENG_CTL e)).toNat / 2 ^ 31 % 2 := rfl
  rw [State.engRun, State.flag, State.fld, run, BitVec.getLsbD, Nat.testBit_eq_decide_div_mod_eq]
  exact decide_eq_decide.mpr (by omega)

/-- The fields of ENG_CTL that a write can set. -/
def engCtlFields (v : W32) : W32 := v &&& 0xFF000000

/-- A write of ENG_CTL that keeps the express fields of `old`. -/
def engCtlKeeping (v old : W32) : W32 := (engCtlFields v &&& 0x80000000) ||| (old &&& 0x7F000000)

theorem getLsbD_engCtlFields (v : W32) : (engCtlFields v).getLsbD 31 = v.getLsbD 31 := by
  rw [engCtlFields, BitVec.getLsbD_and]
  exact Bool.and_true _

theorem bits_engCtlFields (v : W32) : bits (engCtlFields v).toNat 30 24 = bits v.toNat 30 24 := by
  have mask : ∀ i < 30 + 1 - 24, (0xFF000000 : W32).toNat.testBit (24 + i) = true := by decide
  refine bits_congr fun i hi => ?_
  rw [engCtlFields, BitVec.toNat_and, Nat.testBit_and, mask i hi, Bool.and_true]

theorem getLsbD_engCtlKeeping (v old : W32) : (engCtlKeeping v old).getLsbD 31 = v.getLsbD 31 := by
  rw [engCtlKeeping, BitVec.getLsbD_or, BitVec.getLsbD_and, BitVec.getLsbD_and, getLsbD_engCtlFields]
  exact (congrArg₂ or (Bool.and_true _) (Bool.and_false _)).trans (Bool.or_false _)

theorem bits_engCtlKeeping (v old : W32) : bits (engCtlKeeping v old).toNat 30 24 = bits old.toNat 30 24 := by
  have run : ∀ i < 30 + 1 - 24, (0x80000000 : W32).toNat.testBit (24 + i) = false := by decide
  have express : ∀ i < 30 + 1 - 24, (0x7F000000 : W32).toNat.testBit (24 + i) = true := by decide
  refine bits_congr fun i hi => ?_
  rw [engCtlKeeping, BitVec.toNat_or, Nat.testBit_or, BitVec.toNat_and, BitVec.toNat_and, Nat.testBit_and, Nat.testBit_and, run i hi, express i hi,
    Bool.and_false, Bool.and_true, Bool.false_or]

/-! ### The start of an engine (R134) -/

/-- A service thread that has not run since its reset starts at the service entry. -/
def State.serviceStart (s : State) (a : Nat) (entry : Nat) : State :=
  if s.role a = rService ∧ (s.thr a).fresh = true then s.setThr a { s.thr a with pc := entry, fresh := false } else s

/-- The service threads among the first `n` threads of an engine start. -/
def State.servicesStart (s : State) (e n : Nat) : State :=
  (List.range n).foldl (fun s t => s.serviceStart (e * 8 + t) (s.fld (R.ENG_ENTRY e) F.ENG_ENTRY_SVC_ENTRY)) s

theorem engCtl_eq (s : State) (e who : Nat) (v : W32) : s.engCtl e who v =
    let old := s.reg (R.ENG_CTL e)
    let s1 := if s.engRun e = true ∧ bits (engCtlFields v).toNat 30 24 ≠ bits old.toNat 30 24
      then (s.violAt who 3 (R.ENG_CTL e)).setReg (R.ENG_CTL e) (engCtlKeeping v old) else s.setReg (R.ENG_CTL e) (engCtlFields v)
    if !(s.engRun e) && s1.engRun e then s1.servicesStart e 8 else s1 := rfl

theorem regs_serviceStart (s : State) (a entry : Nat) : (s.serviceStart a entry).regs = s.regs := by
  unfold State.serviceStart
  split <;> rfl

theorem servicesStart_succ (s : State) (e n : Nat) : s.servicesStart e (n + 1) =
    (s.servicesStart e n).serviceStart (e * 8 + n) ((s.servicesStart e n).fld (R.ENG_ENTRY e) F.ENG_ENTRY_SVC_ENTRY) := by
  rw [State.servicesStart, List.range_succ, List.foldl_append]
  rfl

theorem regs_servicesStart (s : State) (e n : Nat) : (s.servicesStart e n).regs = s.regs := by
  induction n with
  | zero => rfl
  | succ n ih => rw [servicesStart_succ, regs_serviceStart, ih]

theorem reg_servicesStart (s : State) (e n r : Nat) : (s.servicesStart e n).reg r = s.reg r :=
  congrArg (smGet regDefault · r) (regs_servicesStart s e n)

theorem thr_serviceStart_other (s : State) {a b : Nat} (entry : Nat) (h : b ≠ a) : (s.serviceStart a entry).thr b = s.thr b := by
  unfold State.serviceStart
  split
  · exact thr_setThr_other _ _ _ _ h
  · rfl

theorem thr_servicesStart_later (s : State) (e : Nat) {n i : Nat} (h : n ≤ i) : (s.servicesStart e n).thr (e * 8 + i) = s.thr (e * 8 + i) := by
  induction n with
  | zero => rfl
  | succ n ih => rw [servicesStart_succ, thr_serviceStart_other _ _ (by omega), ih (by omega)]

/-- A fresh service thread starts at the entry that its engine's register names. -/
theorem pc_servicesStart (s : State) (e : Nat) {n i : Nat} (h : i < n) (service : s.role (e * 8 + i) = rService) (fresh : (s.thr (e * 8 + i)).fresh = true) :
    ((s.servicesStart e n).thr (e * 8 + i)).pc = s.fld (R.ENG_ENTRY e) F.ENG_ENTRY_SVC_ENTRY := by
  induction n with
  | zero => omega
  | succ n ih =>
    rw [servicesStart_succ]
    rcases Nat.lt_succ_iff_lt_or_eq.mp h with before | rfl
    · rw [thr_serviceStart_other _ _ (by omega), ih before]
    · have entry : (s.servicesStart e i).fld (R.ENG_ENTRY e) F.ENG_ENTRY_SVC_ENTRY = s.fld (R.ENG_ENTRY e) F.ENG_ENTRY_SVC_ENTRY :=
        congrArg (getF · F.ENG_ENTRY_SVC_ENTRY) (reg_servicesStart s e i _)
      have role : (s.servicesStart e i).role (e * 8 + i) = rService := by
        rw [State.role, reg_servicesStart]
        exact service
      have waiting : ((s.servicesStart e i).thr (e * 8 + i)).fresh = true := by
        rw [thr_servicesStart_later s e (Nat.le_refl i)]
        exact fresh
      rw [State.serviceStart, if_pos ⟨role, waiting⟩, thr_setThr_same, entry]

/-! ### Writes of ENG_CTL (R134) -/

section
variable {s : State} {who : Req} {e : EngN} {x : EngThr} {v : W32}

/-- What VIOL_CAP holds after a violation without a segment. -/
theorem reg_viol_of_type (s : State) (who : Req) (page : Nat) {type off : Nat} (ht : type < 16) (ho : off < 4096) :
    (s.viol page who.toNat type 0 off).reg (page + 0x1C) = BitVec.ofNat 32 (who.toNat * 2 ^ 20 + type * 2 ^ 16 + off) := by
  rw [reg_viol_cap, Nat.mod_eq_of_lt who.isLt, Nat.mod_eq_of_lt ht, Nat.mod_eq_of_lt ho, Nat.zero_mod, Nat.zero_mul, Nat.add_zero]

theorem thrs_violAt (s : State) (agent type addr : Nat) : (s.violAt agent type addr).thrs = s.thrs := by
  obtain ⟨r, viol⟩ := regsOnly_violAt s agent type addr
  rw [viol]

theorem offset_engCtl (e : Nat) : R.ENG_CTL e % 0x1000 = 0x40 := by unfold R.ENG_CTL; omega

theorem engCtlWrite_lost (ho : s.open who (R.ENG_CTL e)) (soft : s.softNow (R.ENG_CTL e) = true) : exec (.engCtlWrite who e v) s = .next s :=
  (plainAt_engCtl e).engWrite_soft ho soft v

theorem exec_engCtlWrite (ho : s.open who (R.ENG_CTL e)) (calm : s.softNow (R.ENG_CTL e) = false) : exec (.engCtlWrite who e v) s =
    .next (if v.getLsbD 31 && s.ploadBars e then s.violAt who.toNat 3 (R.ENG_CTL e) else s.engCtl e who.toNat v) := by
  refine ((plainAt_engCtl e).engWrite ho (by decide) calm v).trans (congrArg Host.Outcome.next ?_)
  rw [State.writeEng, offset_engCtl]
  rfl

theorem engCtlWrite_refused (ho : s.open who (R.ENG_CTL e)) (calm : s.softNow (R.ENG_CTL e) = false) (runs : v.getLsbD 31 = true)
    (bars : s.ploadBars e = true) : exec (.engCtlWrite who e v) s = .next (s.violAt who.toNat 3 (R.ENG_CTL e)) := by
  rw [exec_engCtlWrite ho calm, runs, bars]
  rfl

theorem engCtlWrite_stops (ho : s.open who (R.ENG_CTL e)) (calm : s.softNow (R.ENG_CTL e) = false) (run : s.engRun e = true)
    (express : bits v.toNat 30 24 = bits (s.reg (R.ENG_CTL e)).toNat 30 24) (stops : v.getLsbD 31 = false) :
    Completes (.engCtlWrite who e v) s fun t => t.reg (R.ENG_CTL e) = v &&& 0xFF000000 ∧ s.onlyRegs t [R.ENG_CTL e] := by
  have runs := exec_engCtlWrite (v := v) ho calm
  have same : ¬ (s.engRun e = true ∧ bits (engCtlFields v).toNat 30 24 ≠ bits (s.reg (R.ENG_CTL e)).toNat 30 24) := by
    rw [bits_engCtlFields]
    exact fun h => h.2 express
  rw [stops, Bool.false_and, if_neg Bool.false_ne_true, engCtl_eq] at runs
  dsimp only at runs
  rw [if_neg same, run, Bool.not_true, Bool.false_and, if_neg Bool.false_ne_true] at runs
  exact ⟨_, runs, reg_setReg_same _ _ _, State.regsOnly.refl.setReg.onlyRegs (State.regsKept.refl.setReg List.mem_cons_self)⟩

theorem engCtlWrite_keeps_express (ho : s.open who (R.ENG_CTL e)) (calm : s.softNow (R.ENG_CTL e) = false) (run : s.engRun e = true)
    (express : bits v.toNat 30 24 ≠ bits (s.reg (R.ENG_CTL e)).toNat 30 24) (stops : v.getLsbD 31 = false) :
    Completes (.engCtlWrite who e v) s fun t => t.engRun e = false ∧
      bits (t.reg (R.ENG_CTL e)).toNat 30 24 = bits (s.reg (R.ENG_CTL e)).toNat 30 24 ∧
      t.reg (0x20001C + e * 0x1000) = BitVec.ofNat 32 (who.toNat * 2 ^ 20 + 3 * 2 ^ 16 + 0x40) ∧ t.thrs = s.thrs := by
  have runs := exec_engCtlWrite (v := v) ho calm
  have differs : s.engRun e = true ∧ bits (engCtlFields v).toNat 30 24 ≠ bits (s.reg (R.ENG_CTL e)).toNat 30 24 := by
    rw [bits_engCtlFields]
    exact ⟨run, express⟩
  rw [stops, Bool.false_and, if_neg Bool.false_ne_true, engCtl_eq] at runs
  dsimp only at runs
  rw [if_pos differs, run, Bool.not_true, Bool.false_and, if_neg Bool.false_ne_true] at runs
  have page : R.ENG_CTL e / 0x1000 * 0x1000 = 0x200000 + e * 0x1000 := by unfold R.ENG_CTL; omega
  have captured := reg_viol_of_type s who (0x200000 + e * 0x1000) (type := 3) (off := 0x40) (by decide) (by decide)
  refine ⟨_, runs, ?_, ?_, ?_, ?_⟩
  · rw [engRun_eq, reg_setReg_same, getLsbD_engCtlKeeping]
    exact stops
  · rw [reg_setReg_same, bits_engCtlKeeping]
  · rw [reg_setReg_other _ _ _ _ (by unfold R.ENG_CTL; omega), State.violAt, page,
      show 0x20001C + e.val * 0x1000 = 0x200000 + e * 0x1000 + 0x1C by omega, offset_engCtl, captured]
  · exact (State.setReg_thrs _ _ _).trans (thrs_violAt s who.toNat 3 (R.ENG_CTL e))

theorem engCtlWrite_starts (ho : s.open who (R.ENG_CTL e)) (calm : s.softNow (R.ENG_CTL e) = false) (still : s.engRun e = false)
    (starts : v.getLsbD 31 = true) (free : s.ploadBars e = false) : Completes (.engCtlWrite who e v) s fun t =>
      t.reg (R.ENG_CTL e) = v &&& 0xFF000000 ∧ ∀ i : Fin 8, s.role (e * 8 + i) = rService → (s.thr (e * 8 + i)).fresh = true →
        (t.thr (e * 8 + i)).pc = s.fld (R.ENG_ENTRY e) F.ENG_ENTRY_SVC_ENTRY := by
  have runs := exec_engCtlWrite (v := v) ho calm
  have same : ¬ (s.engRun e = true ∧ bits (engCtlFields v).toNat 30 24 ≠ bits (s.reg (R.ENG_CTL e)).toNat 30 24) := by simp [still]
  have on : (s.setReg (R.ENG_CTL e) (engCtlFields v)).engRun e = true := by
    rw [engRun_eq, reg_setReg_same, getLsbD_engCtlFields]
    exact starts
  rw [free, Bool.and_false, if_neg Bool.false_ne_true, engCtl_eq] at runs
  dsimp only at runs
  rw [if_neg same, still, on, if_pos (by decide)] at runs
  refine ⟨_, runs, ?_, fun i service fresh => ?_⟩
  · rw [reg_servicesStart]
    exact reg_setReg_same _ _ _
  · have cfg : (s.setReg (R.ENG_CTL e) (engCtlFields v)).reg (R.ENG_THR_CFG ((e * 8 + i) / 8)) = s.reg (R.ENG_THR_CFG ((e * 8 + i) / 8)) :=
      reg_setReg_other _ _ _ _ (by unfold R.ENG_THR_CFG R.ENG_CTL; omega)
    have role : (s.setReg (R.ENG_CTL e) (engCtlFields v)).role (e * 8 + i) = rService := by
      rw [State.role, cfg]
      exact service
    have entry : (s.setReg (R.ENG_CTL e) (engCtlFields v)).reg (R.ENG_ENTRY e) = s.reg (R.ENG_ENTRY e) :=
      reg_setReg_other _ _ _ _ (by unfold R.ENG_ENTRY R.ENG_CTL; omega)
    exact (pc_servicesStart _ e i.isLt role fresh).trans (congrArg (getF · F.ENG_ENTRY_SVC_ENTRY) entry)

/-! ### Writes of ENG_THR_CFG (R134) -/

theorem offset_engThrCfg (e : Nat) : R.ENG_THR_CFG e % 0x1000 = 0x44 := by unfold R.ENG_THR_CFG; omega

/-- The threads whose role differs between two values of ENG_THR_CFG. -/
def rolesDiff (new old : Nat) : Nat :=
  (List.range 8).foldl (fun n t => if bits new (2 * t + 1) (2 * t) ≠ bits old (2 * t + 1) (2 * t) then n + 2 ^ t else n) 0

theorem rolesDiff_same (old : Nat) : rolesDiff (old % 65536) old = 0 := by
  have kept : ∀ l : List Nat, (∀ t ∈ l, t < 8) → l.foldl (fun n t =>
      if bits (old % 65536) (2 * t + 1) (2 * t) ≠ bits old (2 * t + 1) (2 * t) then n + 2 ^ t else n) 0 = 0 := by
    intro l
    induction l with
    | nil => exact fun _ => rfl
    | cons t l ih =>
      intro below
      have same : bits (old % 65536) (2 * t + 1) (2 * t) = bits old (2 * t + 1) (2 * t) :=
        bits_mod_two_pow (w := 16) (by have := below t List.mem_cons_self; omega) old
      rw [List.foldl_cons, if_neg (not_not_intro same)]
      exact ih fun u hu => below u (List.mem_cons_of_mem _ hu)
  exact kept _ fun t ht => List.mem_range.mp ht

theorem exec_engThrCfgWrite (ho : s.open who (R.ENG_THR_CFG e)) (calm : s.softNow (R.ENG_CTL e) = false) : exec (.engThrCfgWrite who e v) s =
    .next (if s.engRun e then s.violAt who.toNat 3 (R.ENG_THR_CFG e)
      else (s.setReg (R.ENG_THR_CFG e) (BitVec.ofNat 32 (fixRoles v.toNat))).resetThreads e
        (rolesDiff (fixRoles v.toNat) (s.reg (R.ENG_THR_CFG e)).toNat)) := by
  have here : s.softNow (R.ENG_THR_CFG e) = false := softNow_of_calm calm (by unfold R.ENG_THR_CFG; omega)
  refine ((plainAt_engThrCfg e).engWrite ho (by decide) here v).trans (congrArg Host.Outcome.next ?_)
  rw [State.writeEng, offset_engThrCfg]
  rfl

theorem engThrCfgWrite_refused (ho : s.open who (R.ENG_THR_CFG e)) (calm : s.softNow (R.ENG_CTL e) = false) (run : s.engRun e = true) :
    exec (.engThrCfgWrite who e v) s = .next (s.violAt who.toNat 3 (R.ENG_THR_CFG e)) := by
  rw [exec_engThrCfgWrite ho calm, if_pos run]

theorem engThrCfgWrite_keeps_roles (ho : s.open who (R.ENG_THR_CFG e)) (calm : s.softNow (R.ENG_CTL e) = false) (still : s.engRun e = false)
    (same : fixRoles v.toNat = (s.reg (R.ENG_THR_CFG e)).toNat % 65536) : Completes (.engThrCfgWrite who e v) s fun t =>
      t.reg (R.ENG_THR_CFG e) = BitVec.ofNat 32 (fixRoles v.toNat) ∧ s.onlyRegs t [R.ENG_THR_CFG e] := by
  have runs := exec_engThrCfgWrite (v := v) ho calm
  have none_reset : rolesDiff (fixRoles v.toNat) (s.reg (R.ENG_THR_CFG e)).toNat = 0 := by rw [same, rolesDiff_same]
  rw [still, if_neg Bool.false_ne_true, none_reset, resetThreads_none] at runs
  exact ⟨_, runs, reg_setReg_same _ _ _, State.regsOnly.refl.setReg.onlyRegs (State.regsKept.refl.setReg List.mem_cons_self)⟩

/-! ### Resets by register (R132, R133, R594) -/

theorem offset_engThrRst (e : Nat) : R.ENG_THR_RST e % 0x1000 = 0x50 := by unfold R.ENG_THR_RST; omega

theorem exec_threadReset (ho : s.open who (R.ENG_THR_RST (x / 8))) (calm : s.softNow (R.ENG_THR_RST (x / 8)) = false) :
    exec (.threadReset who x) s = .next ((s.dropRequests x).threadReset x false 3) := by
  have engine : x.val / 8 < 256 := by omega
  have place : x.val / 8 * 8 + x.val % 8 = x := by omega
  have below : x.val % 8 < 8 := Nat.mod_lt _ (by decide)
  have mask : ∀ b < 8, (bitW b).toNat % 256 = 2 ^ b := by decide
  have written := (plainAt_engThrRst ⟨x / 8, engine⟩).engWrite (v := bitW (x % 8)) ho (by decide) calm
  refine written.trans (congrArg Host.Outcome.next ?_)
  have named : s.writeEng who.toNat (.here (R.ENG_THR_RST (x / 8))) (bitW (x % 8)) (x / 8) = s.resetThreads (x / 8) ((bitW (x % 8)).toNat % 256) := by
    rw [State.writeEng, offset_engThrRst]
    rfl
  refine named.trans ?_
  rw [mask _ below, resetThreads_single _ _ _ below, place]

theorem threadReset_clears (ho : s.open who (R.ENG_THR_RST (x / 8))) (calm : s.softNow (R.ENG_THR_RST (x / 8)) = false) :
    Completes (.threadReset who x) s fun t => ((t.thr x).pkt = none ∧ (t.thr x).task = none ∧ (t.thr x).rf = [] ∧ (t.thr x).fu = [] ∧
      (t.thr x).status = 0 ∧ (t.thr x).wait = .run) ∧ (t.thr x).evMask = (s.thr x).evMask ∧ (t.thr x).halted = (s.thr x).halted ∧
      (t.thr x).rstEnd = s.clk + 3 ∧
      ∀ k, (s.thr x).pkt = some k → (s.sendsNow x ≠ some k → (t.pkt k).discard = true) ∧
        (s.sendsNow x = some k → (t.pkt k).discard = (s.pkt k).discard ∧ (t.pkt k).ctx = (s.thr x).slot ∧ (t.pkt k).sent = true) := by
  have dropped := geyserKept_dropRequests s x
  have begun := thr_threadReset_same (s.dropRequests x) x false 3
  have before : (s.dropRequests x).pkt = s.pkt := funext fun k => congrArg (smGet (fun _ => ({} : Pkt)) · k) dropped.pkts
  refine ⟨_, exec_threadReset ho calm, ⟨begun.pkt, begun.task, begun.rf, begun.fu, begun.status, begun.wait⟩,
    begun.evMask.trans (congrArg Thr.evMask (dropped.thrs x) :), begun.halted.trans (congrArg Thr.halted (dropped.thrs x) :),
    begun.rstEnd.trans (by rw [dropped.clk]), fun k held => ⟨fun unsent => ?_, fun sends => ?_⟩⟩
  · rw [pkt_threadReset_discards ((dropped.held x).trans held) (by rw [dropped.sendsNow]; exact unsent)]
  · rw [pkt_threadReset_sends ((dropped.held x).trans held) ((dropped.sendsNow x).trans sends), before, dropped.slot]
    exact ⟨rfl, rfl, rfl⟩

/-- SRST of an ENG page resets its engine, at the end of the cycle (R133, R594). -/
theorem writeHdr_srst {h : Hit} {who e : Nat} (off : h.cap % 0x1000 = 8) (order : v.getLsbD 30 = true) :
    s.writeHdr who h v .eng e = ((s.setReg h.cap (v &&& 0x80000000)).resetThreads e 255 6).point h.cap := by
  unfold State.writeHdr
  dsimp only
  rw [off]
  exact (if_pos order).trans (if_pos rfl)

theorem exec_engineReset (ho : s.open who (0x200008 + e * 0x1000)) (calm : s.softNow (R.ENG_CTL e) = false) : ∃ w,
    exec (.engineReset who e) s = .next (((s.setReg (0x200008 + e * 0x1000) w).resetThreads e 255 6).point (0x200008 + e * 0x1000)) := by
  have off : (0x200008 + e.val * 0x1000) % 0x1000 = 8 := by omega
  have page : pageOf (0x200008 + e * 0x1000) = some (.eng, e.val) := by
    rw [show 0x200008 + e.val * 0x1000 = 0x200000 + e * 0x1000 + 8 by omega]
    exact pageOf_eng e 8 (by decide)
  have lands : s.lands (0x200008 + e * 0x1000) := by
    have own : aliasOf (0x200008 + e * 0x1000) = 0x200008 + e * 0x1000 := if_pos (.inl (by omega))
    have noRing : ¬ (0xB00084 ≤ 0x200008 + e.val * 0x1000 ∧ 0x200008 + e.val * 0x1000 < 0xB000A4) := by omega
    exact ⟨(if_neg noRing).trans own, by omega, by simp [page], by omega⟩
  have here : s.softNow (0x200008 + e * 0x1000) = false := softNow_of_calm calm (by omega)
  have notDbg : 0x200008 + e.val * 0x1000 ≠ R.DBG_ACC_CTL := by unfold R.DBG_ACC_CTL; omega
  have order : ((s.reg (0x200008 + e * 0x1000) &&& 0x80000000) ||| bitW 30).getLsbD 30 = true := by
    rw [BitVec.getLsbD_or]
    exact Bool.or_true _
  refine ⟨((s.reg (0x200008 + e * 0x1000) &&& 0x80000000) ||| bitW 30) &&& 0x80000000, congrArg Host.Outcome.next ?_⟩
  refine (busWrite_of_reach _ (reach_of_open ho lands true) notDbg).trans ?_
  rw [State.writeHit, if_neg (ne_true_of_eq_false here), if_neg (not_not_intro lands.2.2.2),
    if_pos (show (0x200008 + e.val * 0x1000) % 0x1000 < 0x40 by omega), page]
  exact writeHdr_srst off order

theorem engineReset_empties (ho : s.open who (0x200008 + e * 0x1000)) (calm : s.softNow (R.ENG_CTL e) = false) :
    Completes (.engineReset who e) s fun t => ∀ i : Fin 8, (t.thr (e * 8 + i)).pkt = none ∧ (t.thr (e * 8 + i)).rf = [] ∧
      (t.thr (e * 8 + i)).rstEnd = s.clk + 6 := by
  obtain ⟨w, runs⟩ := exec_engineReset ho calm
  have every : ∀ i : Fin 8, (255).testBit i.val = true := by decide
  exact ⟨_, runs, fun i => emptied_resetThreads (s.setReg (0x200008 + e * 0x1000) w) e 6 i.isLt (every i)⟩

end

end Sys2Proof.Machine
end

section
/-! PROOFS. The watchdog and the event-deadlock check of an engine (R128, R130, R138), and the rules of its registers put together. -/

namespace Sys2Proof.Machine

/-! ### The watchdog (R128) -/

/-- The state in which an expiry of the watchdog has been counted and reported. -/
def State.wdogCounted (s : State) (e : Nat) : State := (s.cnt (R.WDOG_EXP e)).raise (0x200000 + e * 0x1000) 0

theorem regsOnly_wdogCounted (s : State) (e : Nat) : s.regsOnly (s.wdogCounted e) := State.regsOnly.refl.cnt.raise

theorem regsKept_wdogCounted (s : State) (e : Nat) : s.regsKept (s.wdogCounted e) [R.WDOG_EXP e, 0x200010 + e * 0x1000] := by
  have raw : 0x200000 + e * 0x1000 + 0x10 = 0x200010 + e * 0x1000 := by omega
  refine (State.regsKept.refl.cnt List.mem_cons_self).raise ?_
  rw [raw]
  exact List.mem_cons_of_mem _ List.mem_cons_self

/-- The event of a deadlock passes on, or nothing happens (R138). -/
theorem passDeadlock_cases (s : State) (e a : Nat) (was : Thr) :
    s.passDeadlock e a was = s ∨ ∃ v b, s.passDeadlock e a was = (s.setReg (R.ENG_DL e) v).event b 15 := by
  unfold State.passDeadlock
  dsimp only
  split
  · exact (ite_eq_or_eq _ _ _).symm.imp_right fun h => ⟨_, _, h⟩
  · exact .inl rfl

theorem thr_passDeadlock (s : State) (e a : Nat) (was : Thr) (b : Nat) :
    ∃ m, (s.passDeadlock e a was).thr b = { s.thr b with evPend := m } := by
  rcases passDeadlock_cases s e a was with h | ⟨v, c, h⟩
  · exact ⟨_, by rw [h]⟩
  · rw [h]
    exact thr_event (s.setReg (R.ENG_DL e) v) c 15 b

theorem pkt_passDeadlock (s : State) (e a : Nat) (was : Thr) (k : Nat) : (s.passDeadlock e a was).pkt k = s.pkt k := by
  rcases passDeadlock_cases s e a was with h | ⟨v, c, h⟩
  · rw [h]
  · rw [h]; rfl

theorem reg_passDeadlock (s : State) (e a : Nat) (was : Thr) {r : Nat} (other : r ≠ R.ENG_DL e) : (s.passDeadlock e a was).reg r = s.reg r := by
  rcases passDeadlock_cases s e a was with h | ⟨v, c, h⟩
  · rw [h]
  · rw [h]
    exact reg_setReg_other _ _ _ _ other

/-- Without the action of RAS_CFG an expiry fences nothing (R543). -/
theorem wdogFence_of_off {s : State} (off : s.flag R.RAS_CFG F.RAS_CFG_AF_WDOG = false) (p : Nat) : ∃ m, s.wdogFence p = { s with wdogAt := m } :=
  ⟨_, if_neg fun h => absurd h.1 (ne_true_of_eq_false off)⟩

/-- A thread that holds a packet of an engine is one of it. -/
theorem holder_some {s : State} {e k a : Nat} (h : s.holder e k = some a) : (s.thr a).pkt = some k ∧ engOf a = e := by
  obtain ⟨t, found, rfl⟩ := Option.map_eq_some_iff.mp h
  obtain ⟨holds, below, -⟩ := List.find?_range_eq_some.mp found
  have ht := List.mem_range.mp below
  exact ⟨eq_of_beq holds, by unfold engOf; omega⟩

section
variable {s : State} {e : EngN}

theorem stageWatchdogExpire_idle (idle : s.wdogCounts e = false) : exec (.stageWatchdogExpire e) s = .next s :=
  if_pos (ne_true_of_eq_false idle)

theorem exec_stageWatchdogExpire (counts : s.wdogCounts e = true) : exec (.stageWatchdogExpire e) s =
    .next (if s.fld (R.ENG_WDOG e) F.ENG_WDOG_ACT = 2 then (s.wdogExpire e).wdogFence (e / 16) else s.wdogExpire e) :=
  if_neg (not_not_intro counts)

theorem stageWatchdogExpire_reports (counts : s.wdogCounts e = true) (act : s.fld (R.ENG_WDOG e) F.ENG_WDOG_ACT ≠ 2) :
    Completes (.stageWatchdogExpire e) s fun t => (t.reg (0x200010 + e * 0x1000)).getLsbD 0 = true ∧
      s.onlyRegs t [R.WDOG_EXP e, 0x200010 + e * 0x1000] := by
  have runs := exec_stageWatchdogExpire counts
  have expires : s.wdogExpire e = s.wdogCounted e := if_neg act
  have raw : 0x200010 + e.val * 0x1000 = 0x200000 + e * 0x1000 + 0x10 := by omega
  rw [if_neg act, expires] at runs
  refine ⟨_, runs, ?_, (regsOnly_wdogCounted s e).onlyRegs (regsKept_wdogCounted s e)⟩
  rw [raw]
  exact getLsbD_raise _ _ (by decide)

/-- The state in which the watchdog has reset the thread that holds the oldest packet. -/
def State.wdogReset (s : State) (e a : Nat) : State := ((s.wdogCounted e).threadReset a true).passDeadlock e a (s.thr a)

theorem wdogExpire_eq_reset {k a : Nat} (act : s.fld (R.ENG_WDOG e) F.ENG_WDOG_ACT = 2) (oldest : s.oldest e = some k)
    (holder : s.holder e k = some a) : s.wdogExpire e = s.wdogReset e a := by
  unfold State.wdogExpire
  dsimp only
  rw [if_pos act, oldest]
  dsimp only
  rw [holder]
  rfl

theorem flag_wdogReset {a : Nat} (own : engOf a = e) : (s.wdogReset e a).flag R.RAS_CFG F.RAS_CFG_AF_WDOG = s.flag R.RAS_CFG F.RAS_CFG_AF_WDOG := by
  have low := e.isLt
  have ras : R.RAS_CFG ∉ resetRegs (engOf a) ∧ R.RAS_CFG ≠ R.ENG_DL e ∧ R.RAS_CFG ∉ [R.WDOG_EXP e, 0x200010 + e * 0x1000] := by
    rw [own]
    simp only [resetRegs, R.RAS_CFG, R.WDOG_DROP, R.RST_DROP, R.FU_KILL, R.ENG_DL, R.WDOG_EXP, List.mem_cons, List.not_mem_nil, or_false, not_or]
    omega
  obtain ⟨resets, deadlock, counts⟩ := ras
  have kept : (s.wdogReset e a).reg R.RAS_CFG = s.reg R.RAS_CFG :=
    (reg_passDeadlock _ _ _ _ deadlock).trans ((reg_threadReset _ _ _ _ (by decide) resets).trans (regsKept_wdogCounted s e _ counts))
  rw [State.flag, State.fld, kept]
  rfl

theorem stageWatchdogExpire_resets (k a : Nat) (counts : s.wdogCounts e = true) (act : s.fld (R.ENG_WDOG e) F.ENG_WDOG_ACT = 2)
    (noFence : s.flag R.RAS_CFG F.RAS_CFG_AF_WDOG = false) (oldest : s.oldest e = some k) (holder : s.holder e k = some a)
    (unsent : s.sendsNow a ≠ some k) : Completes (.stageWatchdogExpire e) s fun t => ((t.thr a).pkt = none ∧ (t.thr a).task = none ∧
      (t.thr a).rf = [] ∧ (t.thr a).fu = [] ∧ (t.thr a).status = 0 ∧ (t.thr a).wait = .run) ∧ (t.pkt k).discard = true := by
  obtain ⟨holds, own⟩ := holder_some holder
  have runs := exec_stageWatchdogExpire counts
  rw [if_pos act, wdogExpire_eq_reset act oldest holder] at runs
  obtain ⟨m, fence⟩ := wdogFence_of_off ((flag_wdogReset own).trans noFence) (e / 16)
  rw [fence] at runs
  have begun := thr_threadReset_same (s.wdogCounted e) a true 3
  obtain ⟨pend, passed⟩ := thr_passDeadlock ((s.wdogCounted e).threadReset a true) e a (s.thr a) a
  have discards : ((s.wdogReset e a).pkt k).discard = true := by
    have low : ∀ r, r < 0x30000 → (s.wdogCounted e).reg r = s.reg r := fun r hr => regsKept_wdogCounted s e r (by
      simp only [R.WDOG_EXP, List.mem_cons, List.not_mem_nil, or_false]
      omega)
    obtain ⟨r, counted⟩ := regsOnly_wdogCounted s e
    have same : (s.wdogCounted e).sendsNow a = s.sendsNow a := sendsNow_congr (by rw [counted]) (by rw [counted]; rfl) (by rw [counted]; rfl) low
    have held : ((s.wdogCounted e).thr a).pkt = some k := by rw [counted]; exact holds
    rw [State.wdogReset, pkt_passDeadlock, pkt_threadReset_discards held (by rw [same]; exact unsent)]
  refine ⟨_, runs, ?_, discards⟩
  have thread : (({ s.wdogReset e a with wdogAt := m } : State).thr a) = { ((s.wdogCounted e).threadReset a true).thr a with evPend := pend } := passed
  rw [thread]
  exact ⟨begun.pkt, begun.task, begun.rf, begun.fu, begun.status, begun.wait⟩

/-! ### The event-deadlock check (R130) -/

theorem eventDeadlock_none (no : s.pipeOn (e / 16) = false ∨ s.deadlocked e = false) : exec (.eventDeadlock e) s = .next s := by
  have idle : ¬ (s.pipeOn (e / 16) && s.deadlocked e) = true := by
    rcases no with h | h
    · simp [h]
    · simp [h]
  exact if_neg idle

theorem exec_eventDeadlock {t : Nat} (on : s.pipeOn (e / 16) = true) (dead : s.deadlocked e = true)
    (first : (List.range 8).find? (fun t => s.role (e * 8 + t) != rOff) = some t) : exec (.eventDeadlock e) s =
      .next ((((s.event (e * 8 + t) 15).setReg (R.ENG_DL e) (BitVec.ofNat 32 (2 ^ 31 + t))).cnt (R.DL_CNT e)).raise (0x200000 + e * 0x1000) 1) := by
  change execEventDeadlock e s = _
  unfold execEventDeadlock
  dsimp only
  rw [on, dead, first]
  rfl

theorem eventDeadlock_reports (i : Fin 8) (on : s.pipeOn (e / 16) = true) (dead : s.deadlocked e = true) (live : s.role (e * 8 + i) ≠ rOff)
    (lowest : ∀ j : Fin 8, j < i → s.role (e * 8 + j) = rOff) : Completes (.eventDeadlock e) s fun t =>
      t.reg (R.ENG_DL e) = BitVec.ofNat 32 (2 ^ 31 + i.val) ∧ (t.thr (e * 8 + i)).evPend.getLsbD 15 = true ∧
        (t.reg (0x200010 + e * 0x1000)).getLsbD 1 = true := by
  have first : (List.range 8).find? (fun t => s.role (e * 8 + t) != rOff) = some i.val :=
    List.find?_range_eq_some.mpr ⟨by simpa using live, List.mem_range.mpr i.isLt, fun j hj => by simpa using lowest ⟨j, by omega⟩ hj⟩
  have raw : 0x200010 + e.val * 0x1000 = 0x200000 + e * 0x1000 + 0x10 := by omega
  refine ⟨_, exec_eventDeadlock on dead first, ?_, ?_, ?_⟩
  · have notCause : R.ENG_DL e ≠ 0x200000 + e * 0x1000 + 0x10 := by unfold R.ENG_DL; omega
    have notCount : R.ENG_DL e ≠ R.DL_CNT e := by unfold R.ENG_DL R.DL_CNT; omega
    exact (reg_setReg_other _ _ _ _ notCause).trans ((reg_cnt_other _ _ _ notCount).trans (reg_setReg_same _ _ _))
  · have pending : ∀ m : BitVec 16, (m ||| BitVec.ofNat 16 (2 ^ 15)).getLsbD 15 = true := fun m => by
      rw [BitVec.getLsbD_or]
      exact Bool.or_true _
    have thread := (thr_cnt ((s.event (e * 8 + i) 15).setReg (R.ENG_DL e) (BitVec.ofNat 32 (2 ^ 31 + i))) (R.DL_CNT e) (e * 8 + i)).trans
      (thr_event_same s (e * 8 + i) 15)
    exact (congrArg (fun t => t.evPend.getLsbD 15) thread).trans (pending _)
  · rw [raw]
    exact getLsbD_raise _ _ (by decide)

end

/-- Settles O44, each register and each command of an engine or cluster by its own rule (R128, R130, R132, R133, R134, R141, R193, R207;
assumption log 53, 124). -/
theorem engineRegistersFollowTheirRules : Obligations.EngineRegistersFollowTheirRules := fun _ _ _ _ _ _ =>
  ⟨threadReset_clears, engineReset_empties, engCtlWrite_lost, engCtlWrite_stops, engCtlWrite_keeps_express, engCtlWrite_refused, engCtlWrite_starts,
    engThrCfgWrite_refused, engThrCfgWrite_keeps_roles, cluIramDataAccess_reads, cluIramDataAccess_writes, cluIramDataAccess_refused,
    cluShrDataAccess_reads, cluShrDataAccess_writes, cluIramFixDataWrite_writes, cluIramFixDataWrite_refused, engHkeyLoRead_latches,
    engHkeyHiAccess_reads, engHkeyHiAccess_writes, engHkeyHiAccess_refused, stageWatchdogExpire_idle, stageWatchdogExpire_reports,
    stageWatchdogExpire_resets, eventDeadlock_none, eventDeadlock_reports⟩

end Sys2Proof.Machine
end

section
/-! PROOFS. Register arithmetic and flags (R160, R164–R167): an instruction of registers over the issue of its thread, and the values that
the operations give. -/

namespace Sys2Proof.Machine

/-! ### Instructions of registers -/

section
variable {s : State} {c : Instr} {a len : Nat} {ns : List Nat} {k : Kind}

theorem issues_of_canIssue (can : s.canIssue a ns = true) : s.issues a len ns k := by
  rw [State.issues, can, Bool.or_true]

theorem issues_of_joins (joins : s.joins a len ns k = true) : s.issues a len ns k := by
  rw [State.issues, joins, Bool.true_or]

theorem instr_of_issues (h : s.issues a len ns k) (f : State → State) : s.instr a len ns k f = .next (f (s.took a len ns k)) := if_pos h

/-- The second of a pair joins the issue of the first, and no register counts it (R160). -/
theorem regs_took_of_joins (joins : s.joins a len ns k = true) : (s.took a len ns k).regs = s.regs := by
  rw [State.took, if_pos joins]
  rfl

theorem flg_took (s : State) (a len : Nat) (ns : List Nat) (k : Kind) : (s.took a len ns k).flg a = s.flg a := by
  obtain ⟨pc, st, h⟩ := thr_took s a len ns k
  rw [State.flg, h]
  rfl

variable {rd rs1 rs2 : Reg} {slow : Bool} {f : Word → Word → Word} {g : Word → Word}

theorem alu3_runs (runs : exec c s = s.alu3 a len rd rs1 rs2 f slow) (h : s.issues a len [rd, rs1, rs2] { writes := [rd], slow := slow }) :
    exec c s = .next ((s.took a len [rd, rs1, rs2] { writes := [rd], slow := slow }).setX a rd (f (s.x a rs1) (s.x a rs2))) := by
  rw [runs, State.alu3, instr_of_issues h, x_took, x_took]

theorem alu3_gives (runs : exec c s = s.alu3 a len rd rs1 rs2 f slow) (can : s.canIssue a [rd, rs1, rs2] = true) :
    s.gives c a len rd (f (s.x a rs1) (s.x a rs2)) :=
  gives_of_setX (alu3_runs runs (issues_of_canIssue can))

/-- As the second of a pair, too, and then ENG_ISSUE does not count it (R160). -/
theorem alu3_pairs (runs : exec c s = s.alu3 a len rd rs1 rs2 f) (joins : s.joins a len [rd, rs1, rs2] { writes := [rd.val] } = true) :
    s.gives c a len rd (f (s.x a rs1) (s.x a rs2)) ∧ Completes c s fun t => t.regs = s.regs :=
  have runs := alu3_runs runs (issues_of_joins joins)
  ⟨gives_of_setX runs, _, runs, regs_took_of_joins joins⟩

theorem alu2_gives (runs : exec c s = s.alu2 a len rd rs1 g) (can : s.canIssue a [rd, rs1] = true) :
    s.gives c a len rd (g (s.x a rs1)) :=
  gives_of_setX (runs.trans (by rw [State.alu2, instr_of_canIssue can, x_took]))

end

/-! ### Values of the operations (R165, R166) -/

theorem mul_eq_ofNat (x y : Word) : x * y = BitVec.ofNat 64 (x.toNat * y.toNat) := BitVec.eq_of_toNat_eq (by simp)

theorem quo_eq (x y : Word) : quo x y = if y = 0 then BitVec.allOnes 64 else BitVec.ofNat 64 (x.toNat / y.toNat) := by
  rw [quo, BitVec.udiv_def]

theorem rem_eq (x y : Word) : rem x y = if y = 0 then x else BitVec.ofNat 64 (x.toNat % y.toNat) := by
  rw [rem, BitVec.umod_def]

theorem smin_eq (x y : Word) : smin x y = if x.toInt ≤ y.toInt then x else y := by
  rw [smin, BitVec.slt_eq_decide]
  by_cases h : x.toInt ≤ y.toInt
  · simp [h, Int.not_lt.mpr h]
  · simp [h, Int.not_le.mp h]

theorem umin_eq (x y : Word) : umin x y = if x.toNat ≤ y.toNat then x else y := by
  rw [umin, BitVec.ult_eq_decide]
  by_cases h : x.toNat ≤ y.toNat
  · simp [h, Nat.not_lt.mpr h]
  · simp [h, Nat.not_le.mp h]

theorem umax_eq (x y : Word) : umax x y = if x.toNat ≤ y.toNat then y else x := by
  rw [umax, BitVec.ult_eq_decide]
  rcases Nat.lt_trichotomy x.toNat y.toNat with h | h | h
  · simp [h, Nat.le_of_lt h]
  · simp [BitVec.eq_of_toNat_eq h]
  · simp [Nat.not_le.mpr h, Nat.not_lt.mpr (Nat.le_of_lt h)]

theorem smax_eq (x y : Word) : smax x y = if x.toInt ≤ y.toInt then y else x := by
  rw [smax, BitVec.slt_eq_decide]
  rcases Int.lt_trichotomy x.toInt y.toInt with h | h | h
  · simp [h, Int.le_of_lt h]
  · simp [BitVec.eq_of_toInt_eq h]
  · simp [Int.not_le.mpr h, Int.not_lt.mpr (Int.le_of_lt h)]

/-- Settles O4: each instruction writes rd over its issue, alone or as the second of a pair, and its value is that of the operation (R144,
R160, R165, R166; what pairs is the model's reading, assumption log 40). -/
theorem registerArithmeticGivesItsResult : Obligations.RegisterArithmeticGivesItsResult := by
  refine ⟨fun s a lg rd rs1 rs2 => ?_, fun s a lg rd rs1 rs2 can => ?_⟩
  · intro x y n pair joins
    exact ⟨alu3_pairs rfl joins, alu3_pairs rfl joins, alu3_pairs rfl joins, alu3_pairs rfl joins, alu3_pairs rfl joins⟩
  · intro x y n k
    rw [← mul_eq_ofNat, ← quo_eq, ← rem_eq, ← smin_eq, ← smax_eq, ← umin_eq, ← umax_eq]
    have result {c : Instr} {m : Nat} {slow : Bool} (f : Word → Word → Word) (runs : exec c s = s.alu3 a m rd rs1 rs2 f slow := by rfl) :
        s.gives c a m rd (f x y) := alu3_gives runs can
    exact ⟨result (· + ·), result (· - ·), result (· &&& ·), result (· ||| ·), result (· ^^^ ·), result fun x y => x &&& ~~~y,
      result fun x y => x ||| ~~~y, result fun x y => x <<< shAmt y, result fun x y => x >>> shAmt y,
      result fun x y => x.sshiftRight (shAmt y), result fun x y => x.rotateRight (shAmt y), result (· * ·), result mulhi, result quo, result rem,
      result smin, result smax, result umin, result umax⟩

/-! ### The flags (R164) -/

section
variable (n z c v : Bool)

theorem flagN_mkFlags : flagN (mkFlags n z c v) = n := by revert n z c v; decide
theorem flagZ_mkFlags : flagZ (mkFlags n z c v) = z := by revert n z c v; decide
theorem flagC_mkFlags : flagC (mkFlags n z c v) = c := by revert n z c v; decide
theorem flagV_mkFlags : flagV (mkFlags n z c v) = v := by revert n z c v; decide

end

/-- A sum overflows where its sign differs from the common sign of the operands. -/
theorem add_overflow (x y : Word) : ((x.msb == y.msb) && ((x + y).msb != x.msb)) = decide ((x + y).toInt ≠ x.toInt + y.toInt) := by
  have meaning : x.saddOverflow y = ((x.msb == y.msb) && ((x + y).msb != x.msb)) := BitVec.saddOverflow_eq x y
  rw [← meaning]
  cases overflows : x.saddOverflow y
  · simpa using BitVec.toInt_add_of_not_saddOverflow (by simp [overflows])
  · have lt := BitVec.toInt_lt (x := x + y)
    have le := BitVec.le_toInt (x + y)
    simp only [BitVec.saddOverflow, Bool.or_eq_true, decide_eq_true_eq] at overflows
    rw [eq_comm, decide_eq_true_iff]
    omega

/-- A difference overflows where the operands' signs differ and its own is not the first operand's. -/
theorem sub_overflow (x y : Word) : ((x.msb != y.msb) && ((x - y).msb != x.msb)) = decide ((x - y).toInt ≠ x.toInt - y.toInt) := by
  have meaning : x.ssubOverflow y = ((x.msb != y.msb) && ((x - y).msb != x.msb)) := by
    rw [BitVec.ssubOverflow_eq]
    cases x.msb <;> cases y.msb <;> cases (x - y).msb <;> rfl
  rw [← meaning]
  cases overflows : x.ssubOverflow y
  · simpa using BitVec.toInt_sub_of_not_ssubOverflow (by simp [overflows])
  · have lt := BitVec.toInt_lt (x := x - y)
    have le := BitVec.le_toInt (x - y)
    simp only [BitVec.ssubOverflow, Bool.or_eq_true, decide_eq_true_eq] at overflows
    rw [eq_comm, decide_eq_true_iff]
    omega

theorem addFlags_eq (x y : Word) : addFlags x y = mkFlags (x + y).msb (decide (x + y = 0)) (decide (2 ^ 64 ≤ x.toNat + y.toNat))
    (decide ((x + y).toInt ≠ x.toInt + y.toInt)) := by
  rw [← add_overflow]; rfl

theorem subFlags_eq (x y : Word) : subFlags x y = mkFlags (x - y).msb (decide (x - y = 0)) (decide (x.toNat < y.toNat))
    (decide ((x - y).toInt ≠ x.toInt - y.toInt)) := by
  rw [← sub_overflow]; rfl

section
variable {s : State} {c : Instr} {a len : Nat} {ns : List Nat} {k : Kind} {n z cy v : Bool}

/-- An instruction that does nothing but set the flags. -/
theorem givesFlags_of_setFlg (runs : exec c s = .next ((s.took a len ns k).setFlg a (mkFlags n z cy v))) :
    s.givesFlags c a len n z cy v := by
  have passed := thr_took_passed s a len ns k
  have written : ((s.took a len ns k).setFlg a (mkFlags n z cy v)).thr a = { (s.took a len ns k).thr a with flg := mkFlags n z cy v } :=
    thr_setThr_same _ _ _
  have flags : ((s.took a len ns k).setFlg a (mkFlags n z cy v)).flg a = mkFlags n z cy v := by rw [State.flg, written]
  refine ⟨_, runs, ?_, ?_, ?_, ?_, fun r => ?_, ?_, (threadOnly_took s a len ns k).setThr⟩
  · rw [flags, flagN_mkFlags]
  · rw [flags, flagZ_mkFlags]
  · rw [flags, flagC_mkFlags]
  · rw [flags, flagV_mkFlags]
  · rw [← x_took s a len ns k, State.x, written]; rfl
  · rw [flags, written]
    generalize (s.took a len ns k).thr a = u at passed ⊢
    rw [passed]
    rfl

theorem cmp2_gives {rs1 rs2 : Reg} {f : Word → Word → BitVec 4} (runs : exec c s = s.cmp2 a len rs1 rs2 f)
    (can : s.canIssue a [rs1, rs2] = true) (flags : f (s.x a rs1) (s.x a rs2) = mkFlags n z cy v) : s.givesFlags c a len n z cy v :=
  givesFlags_of_setFlg (runs.trans (by rw [State.cmp2, instr_of_canIssue can, x_took, x_took, flags]))

/-- An instruction that writes a register and the flags. -/
theorem gives_and_flags {rd : Reg} {r : Word}
    (runs : exec c s = .next (((s.took a len ns k).setX a rd r).setFlg a (mkFlags n z cy v))) : Completes c s fun t =>
      t.x a rd = r ∧ (∀ q : Reg, q ≠ rd → t.x a q = s.x a q) ∧ flagN (t.flg a) = n ∧ flagZ (t.flg a) = z ∧ flagC (t.flg a) = cy ∧
      flagV (t.flg a) = v ∧ t.thr a = { (s.thr a).passed (t.thr a) a len with rf := (t.thr a).rf, flg := t.flg a } ∧ s.threadOnly t a := by
  have passed := thr_took_passed s a len ns k
  have read := x_took s a len ns k
  have keeps := threadOnly_took s a len ns k
  generalize s.took a len ns k = u at runs passed read keeps
  have written : ((u.setX a rd r).setFlg a (mkFlags n z cy v)).thr a = { (u.setX a rd r).thr a with flg := mkFlags n z cy v } :=
    thr_setThr_same _ _ _
  have flags : ((u.setX a rd r).setFlg a (mkFlags n z cy v)).flg a = mkFlags n z cy v := by rw [State.flg, written]
  have regs : ∀ q, ((u.setX a rd r).setFlg a (mkFlags n z cy v)).x a q = (u.setX a rd r).x a q := fun q => by rw [State.x, written]; rfl
  refine ⟨_, runs, ?_, fun q hq => ?_, ?_, ?_, ?_, ?_, ?_, keeps.setThr.setThr⟩
  · rw [regs, x_setX_same]
  · rw [regs, x_setX_other _ _ _ _ _ q.isLt rd.isLt fun h => hq (Fin.ext h), read]
  · rw [flags, flagN_mkFlags]
  · rw [flags, flagZ_mkFlags]
  · rw [flags, flagC_mkFlags]
  · rw [flags, flagV_mkFlags]
  · rw [flags, written, State.setX, thr_setThr_same]
    generalize u.thr a = w at passed ⊢
    rw [passed]
    rfl

end

section
variable {s : State} {a : Agent} {lg : Bool} {rd rs1 rs2 : Reg}

/-- The kind of ADDF and SUBF. -/
abbrev kFlags (rd : Reg) : Kind := { writes := [rd.val], setsF := true }

theorem exec_addf (can : s.canIssue a [rd, rs1, rs2] = true) : exec (.addf a rd rs1 rs2) s =
    .next (((s.took a 2 [rd, rs1, rs2] (kFlags rd)).setX a rd (s.x a rs1 + s.x a rs2)).setFlg a (addFlags (s.x a rs1) (s.x a rs2))) := by
  refine (show execAddf a rd rs1 rs2 s = _ from instr_of_canIssue can _ _ _).trans ?_
  rw [x_took, x_took]

theorem exec_subf (can : s.canIssue a [rd, rs1, rs2] = true) : exec (.subf a rd rs1 rs2) s =
    .next (((s.took a 2 [rd, rs1, rs2] (kFlags rd)).setX a rd (s.x a rs1 - s.x a rs2)).setFlg a (subFlags (s.x a rs1) (s.x a rs2))) := by
  refine (show execSubf a rd rs1 rs2 s = _ from instr_of_canIssue can _ _ _).trans ?_
  rw [x_took, x_took]

theorem exec_cmpi {imm : BitVec 15} (can : s.canIssue a [rs1] = true) : exec (.cmpi a lg rs1 imm) s =
    .next ((s.took a (ilen lg) [rs1] { setsF := true }).setFlg a (subFlags (s.x a rs1) (immSL lg imm))) := by
  refine (show execCmpi a lg rs1 imm s = _ from instr_of_canIssue can _ _ _).trans ?_
  rw [x_took]

end

/-- Settles O5: ADDF and SUBF over the register and the flags that they write, CMP, CMPI and TST over the flags (R157, R158, R164, R166). -/
theorem flagInstructionsSetTheFlags : Obligations.FlagInstructionsSetTheFlags := by
  intro s a lg rd rs1 rs2 imm x y i n
  have compared : ∀ u w : Word, subFlags u w = mkFlags (u - w).msb (decide (u = w)) (decide (u.toNat < w.toNat))
      (decide ((u - w).toInt ≠ u.toInt - w.toInt)) := fun u w => by
    rw [subFlags_eq, decide_eq_decide.mpr (sub_eq_zero (a := u) (b := w))]
  exact ⟨fun can => gives_and_flags ((exec_addf can).trans (by rw [addFlags_eq])),
    fun can => gives_and_flags ((exec_subf can).trans (by rw [subFlags_eq])),
    fun can => cmp2_gives rfl can (compared x y), fun can => cmp2_gives rfl can rfl,
    fun can => givesFlags_of_setFlg ((exec_cmpi can).trans (by rw [compared]; rfl))⟩

end Sys2Proof.Machine
end

section
/-! PROOFS. Select, unary and immediate instructions (R157, R158, R164–R167): the values that they compute. -/

namespace Sys2Proof.Machine

/-! ### Conditions (R164) -/

theorem condHolds_eq (c : Cond) (f : BitVec 4) : condHolds c f = condTable c (flagN f) (flagZ f) (flagC f) (flagV f) := by
  revert c f
  decide

/-! ### Counts of bits (R167) -/

theorem clz64_le (x : Word) : clz64 x ≤ 64 := by
  unfold clz64
  split <;> omega

theorem log2_lt_64 (x : Word) (nonzero : x ≠ 0) : Nat.log2 x.toNat < 64 :=
  (Nat.log2_lt fun h => nonzero (BitVec.eq_of_toNat_eq h)).mpr x.isLt

/-- Above the leading zeros lies nothing. -/
theorem lt_of_clz64 (x : Word) : x.toNat < 2 ^ (64 - clz64 x) := by
  unfold clz64
  split
  · next zero => rw [zero]; decide
  · next nonzero =>
    have bound := log2_lt_64 x nonzero
    have width : 64 - (63 - Nat.log2 x.toNat) = Nat.log2 x.toNat + 1 := by omega
    rw [width]
    exact Nat.lt_log2_self

/-- Below the leading zeros lies a set bit. -/
theorem le_of_clz64 (x : Word) (some_bit : clz64 x < 64) : 2 ^ (63 - clz64 x) ≤ x.toNat := by
  unfold clz64 at some_bit ⊢
  split at some_bit
  · omega
  · next nonzero =>
    have bound := log2_lt_64 x nonzero
    have width : 63 - (63 - Nat.log2 x.toNat) = Nat.log2 x.toNat := by omega
    rw [if_neg nonzero, width]
    exact Nat.log2_self_le fun h => nonzero (BitVec.eq_of_toNat_eq h)

/-- The trailing zeros end at the first set bit, or at the end of the word. -/
theorem ctz64_cases (x : Word) : (ctz64 x = 64 ∧ ∀ i, i < 64 → x.getLsbD i = false) ∨
    (ctz64 x < 64 ∧ x.getLsbD (ctz64 x) = true ∧ ∀ i, i < ctz64 x → x.getLsbD i = false) := by
  unfold ctz64
  cases first : (List.range 64).find? fun i => x.getLsbD i
  case none =>
    rw [List.find?_range_eq_none] at first
    exact .inl ⟨rfl, fun i hi => by simpa using first i hi⟩
  case some k =>
    rw [List.find?_range_eq_some] at first
    obtain ⟨set, inside, below⟩ := first
    exact .inr ⟨List.mem_range.mp inside, set, fun i hi => by simpa using below i hi⟩

theorem foldl_count (p : Nat → Bool) (l : List Nat) (m : Nat) : l.foldl (fun n i => n + b2n (p i)) m = m + (l.filter p).length := by
  induction l generalizing m with
  | nil => rfl
  | cons i l ih =>
    rw [List.foldl_cons, ih, List.filter_cons]
    cases p i
    · rfl
    · simp [b2n]; omega

theorem popc64_eq (x : Word) : popc64 x = ((List.range 64).filter fun i => x.getLsbD i).length := by
  rw [popc64, foldl_count, Nat.zero_add]

/-! ### Bytes and lanes (R167) -/

theorem getElem_bytesLE (n v j : Nat) (h : j < (bytesLE n v).length) : (bytesLE n v)[j] = BitVec.ofNat 8 (v / 256 ^ j) := by
  induction n generalizing v j with
  | zero => exact absurd h (Nat.not_lt_zero _)
  | succ n ih =>
    cases j with
    | zero => simp [bytesLE]
    | succ j => simp only [bytesLE, List.getElem_cons_succ, ih, Nat.div_div_eq_div_mul, Nat.pow_succ']

/-- A byte of the value of bytes is the byte. -/
theorem valLE_byte (bs : List Byte) (j : Nat) (h : j < bs.length) : valLE bs / 256 ^ j % 256 = bs[j].toNat := by
  induction bs generalizing j with
  | nil => exact absurd h (Nat.not_lt_zero _)
  | cons b bs ih =>
    have small := b.isLt
    cases j with
    | zero => rw [valLE, List.getElem_cons_zero]; omega
    | succ j =>
      rw [valLE, List.getElem_cons_succ, ← ih j (Nat.lt_of_succ_lt_succ h), Nat.pow_succ', ← Nat.div_div_eq_div_mul]
      congr 2
      omega

/-- The bytes of a value in network order, read as a number, are the value's bytes from the other end. -/
theorem valBE_bytesLE_byte (n v j : Nat) (h : j < n) : valBE (bytesLE n v) / 256 ^ j % 256 = v / 256 ^ (n - 1 - j) % 256 := by
  rw [valBE, valLE_byte _ j (by rw [List.length_reverse, length_bytesLE]; exact h), List.getElem_reverse, getElem_bytesLE]
  simp only [length_bytesLE, BitVec.toNat_ofNat]

theorem valBE_bytesLE_lt (n v : Nat) : valBE (bytesLE n v) < 256 ^ n := by
  have bound := valLE_lt (bytesLE n v).reverse
  rwa [List.length_reverse, length_bytesLE] at bound

theorem pow_256 (n : Nat) : 256 ^ n = 2 ^ (8 * n) := Nat.pow_mul 2 8 n ▸ rfl

/-- Byte `j` of a word. -/
theorem toNat_byte (x : Word) (j : Nat) : (x.extractLsb' (8 * j) 8).toNat = x.toNat / 256 ^ j % 256 := by
  rw [BitVec.extractLsb'_toNat, Nat.shiftRight_eq_div_pow, pow_256]

theorem toNat_bswapN (n : Nat) (x : Word) (h : n ≤ 8) : (bswapN n x).toNat = valBE (bytesLE n x.toNat) := by
  rw [bswapN, BitVec.toNat_ofNat]
  exact Nat.mod_eq_of_lt (Nat.lt_of_lt_of_le (valBE_bytesLE_lt n _) (Nat.pow_le_pow_right (by decide) h))

theorem bswapN_lt (n : Nat) (x : Word) (h : n ≤ 8) : (bswapN n x).toNat < 2 ^ (8 * n) := by
  rw [toNat_bswapN n x h, ← pow_256]
  exact valBE_bytesLE_lt n _

theorem bswapN_byte (n : Nat) (x : Word) (h : n ≤ 8) (j : Nat) (hj : j < n) :
    (bswapN n x).extractLsb' (8 * j) 8 = x.extractLsb' (8 * (n - 1 - j)) 8 := by
  refine BitVec.eq_of_toNat_eq ?_
  rw [toNat_byte, toNat_byte, toNat_bswapN n x h, valBE_bytesLE_byte n _ j hj]

theorem zextN_eq (w : Nat) (x : Word) : zextN w x = (x.truncate w).zeroExtend 64 := by
  refine BitVec.eq_of_toNat_eq ?_
  simp [zextN]

theorem sextN_eq (w : Nat) (x : Word) (positive : 0 < w) : sextN w x = (x.truncate w).signExtend 64 := by
  have half : 2 ^ w = 2 * 2 ^ (w - 1) := by rw [← Nat.pow_succ']; congr; omega
  have same : (x.truncate w).toInt = sint w x.toNat := by
    rw [BitVec.toInt_eq_toNat_cond, sint]
    simp only [BitVec.truncate, BitVec.toNat_setWidth]
    generalize x.toNat % 2 ^ w = m
    by_cases small : m < 2 ^ (w - 1)
    · rw [if_pos (by omega), if_pos small]
    · rw [if_neg (by omega), if_neg small]
  rw [sextN, BitVec.signExtend, same]

/-- A bit of a word with a lane replaced. -/
theorem getLsbD_setLane (x : Word) (lane : Nat) (imm : BitVec 16) (i : Nat) (h : i < 64) :
    (setLane x lane imm).getLsbD i = if 16 * lane ≤ i ∧ i < 16 * lane + 16 then imm.getLsbD (i - 16 * lane) else x.getLsbD i := by
  have ones : (0xFFFF : Word) = (BitVec.allOnes 16).setWidth 64 := rfl
  rw [setLane, immZ, ones]
  simp only [BitVec.getLsbD_or, BitVec.getLsbD_and, BitVec.getLsbD_not, BitVec.getLsbD_shiftLeft, BitVec.getLsbD_setWidth,
    BitVec.getLsbD_allOnes, h, decide_true, Bool.true_and]
  by_cases below : i < 16 * lane
  · have out : ¬ (16 * lane ≤ i ∧ i < 16 * lane + 16) := by omega
    simp [below, out]
  · by_cases above : i - 16 * lane < 16
    · have inside : 16 * lane ≤ i ∧ i < 16 * lane + 16 := by omega
      have narrow : i - 16 * lane < 64 := by omega
      simp [below, above, inside, narrow]
    · have out : ¬ (16 * lane ≤ i ∧ i < 16 * lane + 16) := by omega
      simp [below, above, out, BitVec.getLsbD_of_ge imm _ (Nat.not_lt.mp above)]

theorem setLane_lane (x : Word) (lane j : Fin 4) (imm : BitVec 16) :
    (setLane x lane imm).extractLsb' (16 * j.val) 16 = if j = lane then imm else x.extractLsb' (16 * j.val) 16 := by
  refine BitVec.eq_of_getLsbD_eq fun i hi => ?_
  have inside : 16 * j.val + i < 64 := by omega
  rw [BitVec.getLsbD_extractLsb', getLsbD_setLane _ _ _ _ inside]
  by_cases same : j = lane
  · have within : 16 * lane.val ≤ 16 * j.val + i ∧ 16 * j.val + i < 16 * lane.val + 16 := by rw [same]; omega
    rw [if_pos within, if_pos same, same, Nat.add_sub_cancel_left, decide_eq_true hi, Bool.true_and]
  · have apart : j.val ≠ lane.val := fun h => same (Fin.ext h)
    have outside : ¬ (16 * lane.val ≤ 16 * j.val + i ∧ 16 * j.val + i < 16 * lane.val + 16) := by omega
    rw [if_neg outside, if_neg same, BitVec.getLsbD_extractLsb']

/-! ### The instructions -/

/-- An instruction that names fewer registers issues, too. -/
theorem canIssue_mono {s : State} {a : Nat} {ms ns : List Nat} (sub : ms ⊆ ns) (can : s.canIssue a ns = true) : s.canIssue a ms = true := by
  simp only [State.canIssue, Thr.busy, Bool.and_eq_true, Bool.not_eq_true'] at can ⊢
  obtain ⟨⟨eligible, free⟩, chosen⟩ := can
  refine ⟨⟨eligible, ?_⟩, chosen⟩
  rw [List.any_eq_false] at free ⊢
  intro p hp
  have none_named := free p hp
  simp only [Bool.not_eq_true, List.any_eq_false] at none_named ⊢
  exact fun r hr => none_named r (sub hr)

section
variable {s : State} {a : Agent} {lg : Bool} {rd rs rs1 rs2 : Reg} {cond : Cond}

theorem pick_gives (can : s.canIssue a [rd, rs1, rs2] = true) (proper : cond ≠ 0xF) :
    s.gives (.pick a rd rs1 rs2 cond) a 2 rd (if condHolds cond (s.flg a) then s.x a rs1 else s.x a rs2) := by
  have runs := show execPick a rd rs1 rs2 cond s = _ from instr_of_canIssue can _ _ _
  rw [if_neg proper, flg_took, x_took, x_took] at runs
  exact gives_of_setX runs

theorem bool_gives (can : s.canIssue a [rd] = true) (proper : cond ≠ 0xF) :
    s.gives (.bool a rd cond) a 2 rd (if condHolds cond (s.flg a) then 1 else 0) := by
  have runs := show execBool a rd cond s = _ from instr_of_canIssue can _ _ _
  rw [if_neg proper, flg_took] at runs
  exact gives_of_setX runs

theorem movShort_gives (can : s.canIssue a [rd, rs] = true) (proper : ¬ (rd = 0 ∧ rs = 0)) :
    s.gives (.mov a (.regShort rs) rd) a 1 rd (s.x a rs) :=
  alu2_gives (g := fun x => x) (if_neg proper) can

theorem bswap_gives {sz : BitVec 2} (can : s.canIssue a [rd, rs] = true) (proper : sz ≠ 0) :
    s.gives (.bswap a rd rs sz) a 2 rd (bswapN (2 ^ sz.toNat) (s.x a rs)) := by
  have runs := show execBswap a rd rs sz s = _ from instr_of_canIssue can _ _ _
  rw [if_neg proper, x_took] at runs
  exact gives_of_setX runs

theorem zext_gives {sz : BitVec 2} (can : s.canIssue a [rd, rs] = true) (proper : sz ≠ 3) :
    s.gives (.zext a rd rs sz) a 2 rd (((s.x a rs).truncate (8 * 2 ^ sz.toNat)).zeroExtend 64) := by
  rw [← zextN_eq]
  have runs := show execZext a rd rs sz s = _ from instr_of_canIssue can _ _ _
  rw [if_neg proper, x_took] at runs
  exact gives_of_setX runs

theorem sext_gives {sz : BitVec 2} (can : s.canIssue a [rd, rs] = true) (proper : sz ≠ 3) :
    s.gives (.sext a rd rs sz) a 2 rd (((s.x a rs).truncate (8 * 2 ^ sz.toNat)).signExtend 64) := by
  rw [← sextN_eq _ _ (by have := Nat.two_pow_pos sz.toNat; omega)]
  have runs := show execSext a rd rs sz s = _ from instr_of_canIssue can _ _ _
  rw [if_neg proper, x_took] at runs
  exact gives_of_setX runs

/-- What an instruction that names rd alone loads from its own immediate. -/
theorem immediate_gives {c : Instr} {len : Nat} {k : Kind} {v : Word} (can : s.canIssue a [rd, rs] = true)
    (runs : exec c s = s.instr a len [rd] k fun s => s.setX a rd v) : s.gives c a len rd v :=
  gives_of_setX (runs.trans (instr_of_canIssue (canIssue_mono (by simp) can) _ _ _))

theorem ldik_gives {lane : Fin 4} {imm : BitVec 16} (can : s.canIssue a [rd] = true) :
    s.gives (.ldik a rd lane imm) a 2 rd (setLane (s.x a rd) lane imm) := by
  have runs := show execLdik a rd lane imm s = _ from instr_of_canIssue can _ _ _
  rw [x_took] at runs
  exact gives_of_setX runs

end

/-- Settles O6: PICK and BOOL by their condition, the unary and immediate instructions by the value of each (R157, R158, R165, R166, R167). -/
theorem oneOperandAndImmediateInstructionsGiveTheirResult : Obligations.OneOperandAndImmediateInstructionsGiveTheirResult := by
  refine ⟨fun s a rd rs1 rs2 cond => ?_, fun s a lg rd rs imm can => ?_, fun s a lg rd rs1 imm sh lane u can => ?_⟩
  · intro f h
    have holds : h = condHolds cond f := (condHolds_eq cond f).symm
    rw [holds]
    exact ⟨pick_gives, bool_gives⟩
  · intro x n
    have unary {c : Instr} {m : Nat} (g : Word → Word) (runs : exec c s = s.alu2 a m rd rs g := by rfl) : s.gives c a m rd (g x) :=
      alu2_gives runs can
    refine ⟨movShort_gives can, unary fun x => x, immediate_gives can rfl, unary fun x => 0 - x, unary fun x => ~~~x, ?clz, ?ctz, ?popc, ?bswap,
      zext_gives can (by decide), zext_gives can (by decide), zext_gives can (by decide), sext_gives can (by decide), sext_gives can (by decide),
      sext_gives can (by decide)⟩
    case clz => exact ⟨clz64 x, clz64_le x, lt_of_clz64 x, le_of_clz64 x, unary fun x => BitVec.ofNat 64 (clz64 x)⟩
    case ctz =>
      have count := unary (c := .ctz a rd rs) fun x => BitVec.ofNat 64 (ctz64 x)
      rcases ctz64_cases x with ⟨all, zeros⟩ | ⟨inside, set, zeros⟩
      · exact ⟨ctz64 x, by omega, fun i hi => zeros i (by omega), fun h => by omega, count⟩
      · exact ⟨ctz64 x, by omega, zeros, fun _ => set, count⟩
    case popc => exact popc64_eq x ▸ unary fun x => BitVec.ofNat 64 (popc64 x)
    case bswap =>
      intro sz proper
      have bytes : 2 ^ sz.toNat ≤ 8 := Nat.pow_le_pow_right (by decide) (show sz.toNat ≤ 3 by omega)
      exact ⟨_, bswap_gives can proper, bswapN_lt _ x bytes, bswapN_byte _ x bytes⟩
  · intro x n
    have unary {c : Instr} {m : Nat} (g : Word → Word) (runs : exec c s = s.alu2 a m rd rs1 g := by rfl) : s.gives c a m rd (g x) :=
      alu2_gives runs can
    exact ⟨unary fun x => x + immSL lg imm, unary fun x => x &&& immZ imm, unary fun x => x ||| immZ imm, unary fun x => x ^^^ immZ imm,
      unary fun x => x <<< sh.toNat, unary fun x => x >>> sh.toNat, unary fun x => x.sshiftRight sh.toNat, immediate_gives can rfl,
      immediate_gives can rfl, _, ldik_gives (canIssue_mono (by simp) can), fun j => setLane_lane _ lane j u⟩

end Sys2Proof.Machine
end

section
/-! PROOFS. Memory accesses (R151, R155, R168, R169): loads and atomics over the place that the segment names. A store in HBM asks for the
bank of its words beside writing them. -/

namespace Sys2Proof.Machine

/-! ### What an access reads stands over the issue -/

section
variable (s : State) (a len : Nat) (ns : List Nat) (k : Kind)

theorem mem_took : (s.took a len ns k).mem = s.mem := (congrArg State.mem (threadOnly_took s a len ns k).1 :)

theorem rdBytes_took (adr n : Nat) : (s.took a len ns k).rdBytes adr n = s.rdBytes adr n := by
  rw [State.rdBytes, mem_took]
  rfl

theorem hdr_took (p : Nat) : ((s.took a len ns k).pkt p).hdr = (s.pkt p).hdr := by
  obtain ⟨pkts, _, _⟩ := took_keeps s a len ns k
  rw [State.pkt, pkts]
  rfl

theorem portStatus_took : (s.took a len ns k).portStatus a = s.portStatus a := by
  obtain ⟨pc, st, h⟩ := thr_took s a len ns k
  rw [State.portStatus, State.curTask, h]
  rfl

end

/-! ### Loads (R168) -/

/-- An instruction that loads bytes has the effect of its place; no bytes are read at a violation. -/
theorem loads_of_load {s : State} {c : Instr} {a len : Nat} {ns : List Nat} {rd : Reg} {seg off n : Nat} {v : List Byte → Word}
    (runs : exec c s = s.instr a len ns (kLoad rd) fun t => t.load a rd seg off n v) (zero : v (List.replicate n 0) = 0) :
    s.loads c a len ns rd seg off n v := by
  intro issues
  rw [instr_of_issues issues, State.load, State.loadBytes] at runs
  dsimp only
  generalize (s.took a len ns (kLoad rd)).place a seg off n .load = place at runs
  match place with
  | .error e => exact runs.trans (by rw [zero])
  | .ok (.mem adr) =>
    exact gives_of_setX (runs.trans (by rw [← rdBytes_took s a len ns (kLoad rd)]; rfl))
  | .ok (.slot o) =>
    exact gives_of_setX (runs.trans (by rw [← slot_took s a len ns (kLoad rd)]; rfl))
  | .ok (.hdr p o) =>
    exact gives_of_setX (runs.trans (by rw [← hdr_took s a len ns (kLoad rd)]; rfl))
  | .ok (.hbm adr) => exact runs
  | .ok (.reg adr) => exact runs
  | .ok .port =>
    exact gives_of_setX (runs.trans (by rw [← portStatus_took s a len ns (kLoad rd)]))

/-- Settles O7: every load by the rule of the load operation, with what it makes of the bytes (R150, R151, R155, R168). -/
theorem loadsGiveTheBytesOfTheirPlace : Obligations.LoadsGiveTheBytesOfTheirPlace := by
  intro s a rd seg rb disp s3 w off base le be se
  exact ⟨loads_of_load rfl rfl, loads_of_load rfl rfl, loads_of_load rfl rfl, loads_of_load rfl rfl, loads_of_load rfl rfl,
    loads_of_load rfl rfl, loads_of_load rfl rfl, loads_of_load rfl rfl, loads_of_load rfl rfl, loads_of_load rfl rfl, loads_of_load rfl rfl,
    loads_of_load rfl rfl, loads_of_load rfl rfl⟩

/-! ### Atomics (R169) -/

/-- An atomic has the effect of its operation: `f` makes the new value of the old one, of rd and of rs, and fits the memory. -/
theorem swaps_of_atomic {s : State} {c : Instr} {a : Agent} {rd rb rs : Reg} {seg : SegN} {sz : Bool} {f : Nat → Nat → Nat → Nat} {new : Nat → Nat}
    (runs : exec c s = s.atomic a rd seg rb rs sz f)
    (value : let m := 2 ^ (8 * if sz then 8 else 4)
      ∀ old, old < m → f old ((s.x a rd).toNat % m) ((s.x a rs).toNat % m) % m = new old) :
    s.swaps c a (rd.val :: rs.val :: baseReg rb) rd seg (s.dispOff a rb 0) (if sz then 8 else 4) new := by
  intro issues
  rw [State.atomic, instr_of_issues issues] at runs
  have passed := thr_took_passed s a 2 (rd.val :: rs.val :: baseReg rb) (kLoad rd)
  have read := x_took s a 2 (rd.val :: rs.val :: baseReg rb) (kLoad rd)
  have keeps := threadOnly_took s a 2 (rd.val :: rs.val :: baseReg rb) (kLoad rd)
  have bytes := rdBytes_took s a 2 (rd.val :: rs.val :: baseReg rb) (kLoad rd)
  have offset : s.longOff a rb 0 = s.dispOff a rb 0 := rfl
  dsimp only at runs value ⊢
  rw [offset] at runs
  generalize s.took a 2 (rd.val :: rs.val :: baseReg rb) (kLoad rd) = i at runs passed read keeps bytes ⊢
  generalize (if sz then 8 else 4 : Nat) = n at runs value ⊢
  generalize i.place a seg (s.dispOff a rb 0) n .atom = place at runs
  match place with
  | .error e => exact runs
  | .ok (.mem adr) =>
    have old : i.rdLE adr n = s.rdLE adr n := congrArg valLE (bytes adr n)
    have fits := rdLE_lt s adr n
    dsimp only at runs
    rw [old] at runs
    rw [pow_256] at fits
    have stored := value _ fits
    generalize f (s.rdLE adr n) ((s.x a rd).toNat % 2 ^ (8 * n)) ((s.x a rs).toNat % 2 ^ (8 * n)) = v at runs stored
    obtain ⟨rest, engs, thrs, mem, regs⟩ := keeps
    refine ⟨_, runs, x_setX_same _ _ _ _, ?_, fun b hb => ?_, fun r hr => ?_, ?_, fun b hb => ?_, regs, engs, ?_⟩
    · exact (rdLE_wrLE i adr n v).trans (by rw [pow_256]; exact stored)
    · exact (rd8_wrBytes_other i adr b _ (by rwa [length_bytesLE])).trans (mem b)
    · rw [x_setX_other _ _ _ _ _ r.isLt rd.isLt fun h => hr (Fin.ext h)]
      exact read r
    · have written : ((i.wrLE adr n v).setX a rd (BitVec.ofNat 64 (s.rdLE adr n))).thr a = (i.thr a).set rd (BitVec.ofNat 64 (s.rdLE adr n)) :=
        thr_setThr_same _ _ _
      rw [written]
      generalize i.thr a = u at passed ⊢
      rw [passed]
      rfl
    · exact (thr_setThr_other _ _ _ _ hb).trans (thrs b hb)
    · exact (congrArg (fun w : State => { w with mem := s.mem }) rest :)
  | .ok (.hbm _) | .ok (.hdr _ _) | .ok (.slot _) | .ok (.reg _) | .ok .port => trivial

/-- Settles O9: the sum, the saturated sum and the exchange are each a value that fits the word or doubleword (R169, R414). -/
theorem atomicsReturnTheOldValue : Obligations.AtomicsReturnTheOldValue := by
  intro s a rd seg rb rs sz ns n m off r
  have small : r < m := Nat.mod_lt _ (Nat.two_pow_pos _)
  have width : 2 ^ (if sz then 64 else 32) = m := by cases sz <;> rfl
  refine ⟨swaps_of_atomic (f := fun old _ r => old + r) rfl fun old _ => rfl,
    swaps_of_atomic (f := fun old _ r => min (2 ^ (if sz then 64 else 32) - 1) (old + r)) rfl fun old _ => ?_,
    swaps_of_atomic (f := fun old d r => if old = d then r else old) rfl fun old fits => ?_⟩
  · rw [width]
    exact Nat.mod_eq_of_lt (show min (m - 1) (old + r) < m by omega)
  · have taken : (if old = (s.x a rd).toNat % m then r else old) < m := by
      split
      · exact small
      · exact fits
    exact Nat.mod_eq_of_lt taken

end Sys2Proof.Machine
end

section
/-! PROOFS. A store in HBM asks for the bank of its words (R471). -/

namespace Sys2Proof.Machine

/-- The clause of a store for a place in HBM. -/
theorem State.stores.in_hbm {s : State} {c : Instr} {a len seg off adr : Nat} {ns : List Nat} {bs : List Byte} (h : s.stores c a len ns seg off bs)
    (issues : s.issues a len ns kStore) (place : (s.took a len ns kStore).place a seg off bs.length .store = .ok (.hbm adr)) :
    exec c s = .next ((s.took a len ns kStore).hbmWrite adr bs) := by
  have clause := h issues
  dsimp only at clause
  rw [place] at clause
  exact clause

/-- A context that runs in FORWARD, with the control part of HBM in segment 3 (R150, R470). -/
def hbmStorer : State :=
  { released := true, regs := [(R.DEV_MODE, 4)], thrs := [(0x800, { segs := [(3, BitVec.ofNat 64 (7 * 2 ^ 61 + 3 * 2 ^ 56 + hbmCtl))] })] }

/-- The requests in bank queues after a command. -/
def bankRequests (r : Result) : SMap (List HbmReq) :=
  match r with
  | .next t => t.hbmQ
  | _ => []

/-- Refutes O8: a context stores the byte 0 at the start of segment 3, which lies in HBM. The statement gives the state with the byte written;
the model's store also asks for the word, so that a request stands in the queue of its bank (R471, R472). -/
theorem not_storesWriteTheBytesOfTheirPlace : ¬ Obligations.StoresWriteTheBytesOfTheirPlace := by
  intro h
  have store := (h hbmStorer 0x800 0 3 0 0 false 0).1
  have written := store.in_hbm (adr := hbmCtl) (issues_of_canIssue (by decide +kernel)) (by decide +kernel)
  have queued : bankRequests (exec (.stb 0x800 0 3 0 0) hbmStorer) ≠ [] := by decide +kernel
  exact queued ((congrArg bankRequests written).trans (by decide +kernel))

end Sys2Proof.Machine
end

section
/-! PROOFS. Branches and jumps (R156, R162, R164, R171). -/

namespace Sys2Proof.Machine

/-! ### Registers that count issues and kills -/

namespace State.threadBut
variable {s t : State} {a r : Nat} {l m : List Nat}

theorem mono (h : s.threadBut t a l) (sub : l ⊆ m) : s.threadBut t a m := by
  obtain ⟨rest, engs, thrs, mem, regs⟩ := h
  exact ⟨rest, engs, thrs, mem, regs.mono sub⟩

theorem cnt (h : s.threadBut t a l) (hr : r ∈ l) : s.threadBut (t.cnt r) a l := by
  unfold State.cnt
  split
  · exact h
  · exact h.setReg hr

end State.threadBut

theorem issueRegs_subset_killRegs (a : Nat) : issueRegs a ⊆ killRegs a := by
  unfold issueRegs killRegs
  split
  · exact fun r hr => by simp only [List.mem_cons, List.not_mem_nil, or_false] at hr ⊢; exact hr.elim .inl fun h => .inr (.inl h)
  · exact fun _ hr => hr

theorem mem_killRegs {a : Nat} (eng : isEng a = true) :
    R.ENG_ISSUE (engOf a) ∈ killRegs a ∧ R.ENG_ISSUE (engOf a) + 4 ∈ killRegs a ∧ R.FU_KILL (engOf a) ∈ killRegs a := by
  rw [killRegs, if_pos (of_decide_eq_true eng)]
  simp

section
variable (s : State) (a len : Nat) (ns : List Nat) (k : Kind)

theorem threadBut_took : s.threadBut (s.took a len ns k) a (killRegs a) :=
  (threadOnly_took s a len ns k).mono (issueRegs_subset_killRegs a)

theorem pc_took : (s.took a len ns k).pc a = (s.pc a + len) % pcMod a :=
  congrArg Thr.pc (thr_took_passed s a len ns k)

theorem pcMod_pos : 0 < pcMod a := by
  unfold pcMod
  split <;> decide

end

/-! ### The wrong path (R162, R200) -/

section
variable {s t : State} {a : Nat} {w : WrongPath}

theorem thr_squash (b : Nat) : (s.squash a w).thr b = s.thr b := by
  unfold State.squash
  split
  · rfl
  · cases w with
    | nothing => rfl
    | plain => exact thr_cnt64 _ _ _ _
    | fused => exact (thr_cnt _ _ _).trans (thr_cnt64 _ _ _ _)

theorem State.threadBut.squash (h : s.threadBut t a (killRegs a)) : s.threadBut (t.squash a w) a (killRegs a) := by
  unfold State.squash
  split
  · exact h
  · next eng =>
    obtain ⟨low, high, kill⟩ := mem_killRegs (Decidable.not_not.mp eng)
    cases w with
    | nothing => exact h
    | plain => exact h.cnt64 low high
    | fused => exact (h.cnt64 low high).cnt kill

end

/-! ### Targets (R156) -/

/-- Halfwords from the address of the branch itself, which the pc has passed. -/
theorem branch_target (p len m : Nat) (off : Int) (pos : 0 < m) :
    (((((p + len) % m : Nat) : Int) - len + off) % (m : Nat)).toNat % m = (((p : Int) + off) % (m : Nat)).toNat := by
  have passed : (((p + len) % m : Nat) : Int) - len + off = ((p : Int) + off) + (m : Int) * (-((p + len) / m : Nat)) := by
    have split := Nat.div_add_mod (p + len) m
    have : ((m * ((p + len) / m) + (p + len) % m : Nat) : Int) = (p + len : Nat) := by rw [split]
    push_cast at this ⊢
    linarith
  rw [passed, Int.add_mul_emod_self_left]
  exact Nat.mod_eq_of_lt (by have := Int.emod_lt_of_pos ((p : Int) + off) (Int.natCast_pos.mpr pos); omega)

section
variable {s : State} {c : Instr} {a len : Nat} {ns : List Nat} {k : Kind}

/-- The record of a thread that goes on elsewhere. -/
theorem thr_setPc (t : State) (pc : Nat) : (t.setPc a pc).thr a = { t.thr a with pc := pc % pcMod a } := thr_setThr_same _ _ _

/-- An issue and a move of the pc leave the rest of the thread. -/
theorem moved_of_passed {t u : Thr} {pc : Nat} (passed : t = u.passed t a len) : { t with pc := pc } = { u with pc := pc, step := t.step } := by
  generalize hv : t.step = v
  rw [passed, Thr.passed, ← hv]

theorem goesTo_of_setPc {pc : Nat} (runs : exec c s = .next ((s.took a len ns k).setPc a pc)) : s.goesTo c a (pc % pcMod a) := by
  have passed := thr_took_passed s a len ns k
  refine ⟨_, runs, ?_, (threadOnly_took s a len ns k).setThr⟩
  rw [thr_setPc]
  exact moved_of_passed passed

theorem branches_of_branchIf {lg h taken : Bool} {off : Int} {w : WrongPath} {P : Prop} (holds : taken = true ↔ P)
    (runs : exec c s = .next ((s.took a (ilen lg) ns k).branchIf a lg h off taken w)) : s.branches c a (ilen lg) off P := by
  have passed := thr_took_passed s a (ilen lg) ns k
  have keeps := threadBut_took s a (ilen lg) ns k
  have from_pc := pc_took s a (ilen lg) ns k
  generalize s.took a (ilen lg) ns k = i at runs passed keeps from_pc
  -- the state after the squash: the thread stands as after the issue
  obtain ⟨j, squashed, same, kept⟩ : ∃ j, i.branchIf a lg h off taken w = (if taken then j.branchTo a (ilen lg) off else j) ∧
      j.thr a = i.thr a ∧ s.threadBut j a (killRegs a) := by
    by_cases right : (if lg then h else decide (off < 0)) = taken
    · exact ⟨i, by rw [State.branchIf, if_pos right], rfl, keeps⟩
    · exact ⟨i.squash a w, by rw [State.branchIf, if_neg right], thr_squash a, keeps.squash⟩
  rw [squashed] at runs
  have pc : j.pc a = (s.pc a + ilen lg) % pcMod a := (congrArg Thr.pc same).trans from_pc
  cases taken with
  | true =>
    refine ⟨_, runs, fun _ => ?_, fun no => absurd (holds.mp rfl) no, kept.setThr⟩
    rw [if_pos rfl, State.branchTo, thr_setPc, same, pc, branch_target _ _ _ _ (pcMod_pos a)]
    exact moved_of_passed passed
  | false =>
    refine ⟨_, runs, fun yes => absurd (holds.mpr yes) Bool.false_ne_true, fun _ => ?_, kept⟩
    rw [if_neg Bool.false_ne_true, same]
    exact passed

end

/-! ### The instructions -/

section
variable {s : State} {a : Agent} {lg h : Bool} {w : WrongPath} {rs : Reg}

theorem bc_branches {cond : Cond} {o20 : BitVec 20} (can : s.canIssue a [] = true) (proper : cond ≠ 0xF) :
    s.branches (.bc a lg cond h o20 w) a (ilen lg) o20.toInt (condHolds cond (s.flg a) = true) := by
  have runs := show execBc a lg cond h o20 w s = _ from instr_of_canIssue can _ _ _
  rw [if_neg proper, flg_took] at runs
  exact branches_of_branchIf Iff.rfl runs

theorem brz_branches {o18 : BitVec 18} (can : s.canIssue a [rs] = true) :
    s.branches (.brz a lg rs h o18 w) a (ilen lg) o18.toInt (s.x a rs = 0) := by
  have runs := show execBrz a lg rs h o18 w s = _ from instr_of_canIssue can _ _ _
  rw [x_took] at runs
  exact branches_of_branchIf beq_iff_eq runs

theorem brnz_branches {o18 : BitVec 18} (can : s.canIssue a [rs] = true) :
    s.branches (.brnz a lg rs h o18 w) a (ilen lg) o18.toInt (s.x a rs ≠ 0) := by
  have runs := show execBrnz a lg rs h o18 w s = _ from instr_of_canIssue can _ _ _
  rw [x_took] at runs
  exact branches_of_branchIf bne_iff_ne runs

theorem j_goesTo {o25 : BitVec 25} (can : s.canIssue a [] = true) :
    s.goesTo (.j a lg o25) a (((s.pc a : Int) + o25.toInt) % (pcMod a : Nat)).toNat := by
  rw [← branch_target _ (ilen lg) _ _ (pcMod_pos a), ← pc_took s a (ilen lg) [] kTail]
  exact goesTo_of_setPc (show execJ a lg o25 s = _ from instr_of_canIssue can _ kTail _)

theorem jr_goesTo (can : s.canIssue a [rs] = true) : s.goesTo (.jr a lg rs) a ((s.x a rs).toNat % pcMod a) := by
  have runs := show execJr a lg rs s = _ from instr_of_canIssue can _ kTail _
  rw [x_took] at runs
  exact goesTo_of_setPc runs

end

/-- Settles O11: the branches by what a conditional branch leaves, the jumps by the pc that they set (R162, R164, R171). -/
theorem branchesGoToTheirTarget : Obligations.BranchesGoToTheirTarget := by
  intro s a lg h w cond rs o20 o18 o25 f n
  rw [← condHolds_eq]
  exact ⟨bc_branches, brz_branches, brnz_branches, j_goesTo, jr_goesTo⟩

end Sys2Proof.Machine
end

section
/-! PROOFS. Exceptions, undefined and refused instructions, returns and interrupts (R159, R174–R178, R197, R198, R490). -/

namespace Sys2Proof.Machine

/-! ### After the issue of an instruction -/

/-- An instruction of a thread has issued, and nothing else has changed but the counts of issues and kills. -/
structure State.afterIssue (s i : State) (a len : Nat) : Prop where
  passed : i.thr a = (s.thr a).passed (i.thr a) a len
  keeps : s.threadBut i a (killRegs a)

section
variable {s i : State} {c : Instr} {a len : Nat} {ns : List Nat} {k : Kind}

theorem afterIssue_took : s.afterIssue (s.took a len ns k) a len := ⟨thr_took_passed s a len ns k, threadBut_took s a len ns k⟩

theorem afterIssue_issued : s.afterIssue (s.issued a len k) a len := by
  have keeps := (threadOnly_issued s a len k).mono (issueRegs_subset_killRegs a)
  have issued : (s.issued a len k).thr a = { s.thr a with pc := ((s.thr a).pc + len) % pcMod a, step := false } := by
    unfold State.issued
    dsimp only
    split
    · exact (thr_cnt64 _ _ _ a).trans (thr_setThr_same s a _)
    · exact thr_setThr_same s a _
  exact ⟨by rw [issued]; rfl, keeps⟩

theorem ite_cases {P Q : Prop} [Decidable P] {x y : State} (h : P → Q) : (if P then x else y) = y ∨ Q ∧ (if P then x else y) = x := by
  by_cases holds : P
  · exact .inr ⟨h holds, if_pos holds⟩
  · exact .inl (if_neg holds)

/-- A kill of the second of a pair counts on an engine, and nothing else (R163, R200). -/
theorem killPartner_cases (s : State) (a enc : Nat) (lg : Bool) :
    s.killPartner a enc lg = s ∨ isEng a = true ∧ s.killPartner a enc lg = s.cnt (R.FU_KILL (engOf a)) :=
  ite_cases fun kills => by
    by_contra context
    simp [context] at kills

theorem State.afterIssue.killPartner (h : s.afterIssue i a len) (enc : Nat) (lg : Bool) : s.afterIssue (i.killPartner a enc lg) a len := by
  rcases killPartner_cases i a enc lg with same | ⟨eng, counted⟩
  · rw [same]; exact h
  · rw [counted]
    exact ⟨by rw [thr_cnt]; exact h.passed, h.keeps.cnt (mem_killRegs eng).2.2⟩

theorem status_of_passed (passed : i.thr a = (s.thr a).passed (i.thr a) a len) : (i.thr a).status = (s.thr a).status :=
  (congrArg Thr.status passed :)

/-! ### Raising an exception (R175) -/

/-- Outside an exception, one is taken as R175 says. -/
theorem excp_of_calm {cause epc : Nat} {info : Word} (calm : (i.thr a).status.getLsbD 2 = false) :
    i.excp a cause epc info = i.setThr a ((i.thr a).excepted a cause epc info) := by
  unfold State.excp
  rw [if_neg (by rw [calm]; exact Bool.false_ne_true)]
  rfl

/-- An exception after an issue saves the thread as it passed the instruction. -/
theorem thr_excepted {cause epc : Nat} {info : Word} (passed : i.thr a = (s.thr a).passed (i.thr a) a len) :
    (i.setThr a ((i.thr a).excepted a cause epc info)).thr a =
      ((s.thr a).passed ((i.setThr a ((i.thr a).excepted a cause epc info)).thr a) a len).excepted a cause epc info := by
  rw [thr_setThr_same]
  generalize i.thr a = u at passed ⊢
  have same : (s.thr a).passed (u.excepted a cause epc info) a len = (s.thr a).passed u a len := rfl
  rw [same, ← passed]

theorem raises_of_excp {cause epc : Nat} {info : Word} (h : s.afterIssue i a len) (runs : exec c s = .next (i.excp a cause epc info)) :
    s.raises c a len cause epc info := by
  intro calm
  rw [← status_of_passed h.passed] at calm
  rw [excp_of_calm calm] at runs
  exact ⟨_, runs, thr_excepted h.passed, h.keeps.setThr⟩

/-- The address of an instruction that the pc has passed. -/
theorem own_address {p len m : Nat} (small : p < m) (short : len ≤ m) : ((p + len) % m + m - len) % m = p := by
  by_cases wraps : p + len < m
  · rw [Nat.mod_eq_of_lt wraps, show p + len + m - len = p + m by omega, Nat.add_mod_right, Nat.mod_eq_of_lt small]
  · have wrapped : (p + len) % m = p + len - m := by rw [Nat.mod_eq_sub_mod (by omega), Nat.mod_eq_of_lt (by omega)]
    rw [wrapped, show p + len - m + m - len = p by omega, Nat.mod_eq_of_lt small]

theorem ilen_le_pcMod (lg : Bool) (a : Nat) : ilen lg ≤ pcMod a := by
  unfold ilen pcMod
  split <;> split <;> decide

theorem excpAt_eq {cause : Nat} {info : Word} (passed : i.thr a = (s.thr a).passed (i.thr a) a len) (small : s.pc a < pcMod a) (short : len ≤ pcMod a) :
    i.excpAt a len cause info = i.excp a cause (s.pc a) info := by
  have pc : (i.thr a).pc = (s.pc a + len) % pcMod a := congrArg Thr.pc passed
  rw [State.excpAt, pc, own_address small short]

theorem raises_of_excpAt {lg : Bool} {cause : Nat} {info : Word} (h : s.afterIssue i a (ilen lg)) (small : s.pc a < pcMod a)
    (runs : exec c s = .next (i.excpAt a (ilen lg) cause info)) : s.raises c a (ilen lg) cause (s.pc a) info := by
  rw [excpAt_eq h.passed small (ilen_le_pcMod lg a)] at runs
  exact raises_of_excp h runs

end

/-! ### The short form of BC with condition 0xF -/

/-- A context that runs in FORWARD at halfword 8. -/
def atEight : State := { released := true, regs := [(R.DEV_MODE, 4)], thrs := [(0x800, { pc := 8 })] }

/-- EPC of the first context after a command. -/
def epcAfter (r : Result) : Option Word :=
  match r with
  | .next t => some (t.thr 0x800).epc
  | _ => none

/-- Refutes O14: BC with condition 0xF in one halfword at halfword 8. EPC would name the instruction, and names the halfword before it: the
model raises UNDEF as for the long form of BC, which alone can encode that condition (R164, R171). -/
theorem not_exceptionsSaveTheThread : ¬ Obligations.ExceptionsSaveTheThread := by
  intro h
  obtain ⟨-, -, -, -, -, -, -, -, undefined, -⟩ := h atEight 0x800 false 0 0 0 0 false 0 .nothing
  obtain ⟨info, raises⟩ := undefined (by decide +kernel) (by decide +kernel)
  obtain ⟨t, runs, thread, -⟩ := raises (by decide +kernel)
  have epc : (t.thr 0x800).epc = 8 := congrArg Thr.epc thread
  have shown : epcAfter (exec (.bc 0x800 false 0xF false 0 .nothing) atEight) = some 7 := by decide +kernel
  have named : epcAfter (exec (.bc 0x800 false 0xF false 0 .nothing) atEight) = some (t.thr 0x800).epc := congrArg epcAfter runs
  rw [shown, epc] at named
  exact absurd named (by decide)

/-! ### What is fetched is undefined (R159) -/

/-- The registers that a short form names are in its halfword. -/
theorem namedRegs_short {h : Nat} (short : h < 0x8000) (l : Nat) : namedRegs h l = namedRegs h 0 := by
  unfold namedRegs
  rw [if_pos short, if_pos short]

section
variable {s : State} {a : Agent}

theorem fetch_of_mem {hw adr : Nat} (place : s.place a 0 (2 * hw) 2 .fetch = .ok (.mem adr)) : s.fetch a hw = (s.rdLE adr 2, s) := by
  rw [State.fetch, place]
  rfl

theorem peek_of_mem {hw adr : Nat} (place : s.place a 0 (2 * hw) 2 .fetch = .ok (.mem adr)) : s.peek a hw = s.rdLE adr 2 := by
  rw [State.peek, place]
  rfl

theorem undefinedInstruction_short {adr h : Nat} (can : s.canIssue a (namedRegs h 0) = true)
    (place : s.place a 0 (2 * s.pc a) 2 .fetch = .ok (.mem adr)) (word : s.rdLE adr 2 = h) (short : h < 0x8000)
    (undefined : shortOk (decide (a.val < 0x800)) h = false) :
    exec (.undefinedInstruction a) s = .next ((s.issued a 1 {}).undefPair a h false 0 0) := by
  have bad : ¬ shortOk (isEng a) h = true := by rw [isEng, undefined]; exact Bool.false_ne_true
  change execUndefinedInstruction a s = _
  rw [execUndefinedInstruction, peek_of_mem place, word, namedRegs_short short, if_neg (by simp [can]), fetch_of_mem place, word]
  dsimp only
  rw [if_pos short, if_neg bad]

/-! ### Refusals of the units (R197, R198) -/

/-- The registers that a unit instruction names. -/
abbrev fusedRegs (unit : Nat) (rd rs1 : Reg) (p : BitVec 13) : List Nat :=
  if fuTwo unit then [rd.val, rs1.val, pbits p 12 8] else [rd.val, rs1.val]

/-- The kind of a unit instruction. -/
abbrev kFused (rd : Reg) : Kind := { writes := [rd.val], unit := true }

variable {c : Instr} {unit op : Nat} {rd rs1 : Reg} {p : BitVec 13}

theorem fused_refused (runs : exec c s = s.fused a unit op rd rs1 p) (can : s.canIssue a (fusedRegs unit rd rs1 p) = true)
    (eng : a.val < 0x800) (zero : fuZeroOk unit op p = true) {code : Nat} (refusal : fuRefusal unit op p = code) (refused : code ≠ 0) :
    exec c s = .next (((s.took a 2 (fusedRegs unit rd rs1 p) (kFused rd)).cnt (R.FU_REFUSE (engOf a))).undef a
      (encLX (0x37 + unit) rd rs1 op p) true unit code) := by
  rw [runs, State.fused, instr_of_canIssue can]
  dsimp only
  rw [if_neg (by simp [isEng, eng]), if_neg (by simp [zero]), refusal, if_pos refused]

theorem fused_full_profile (runs : exec c s = s.fused a unit op rd rs1 p) (can : s.canIssue a (fusedRegs unit rd rs1 p) = true)
    (context : 0x800 ≤ a.val) :
    exec c s = .next ((s.took a 2 (fusedRegs unit rd rs1 p) (kFused rd)).undef a (encLX (0x37 + unit) rd rs1 op p) true unit 0xFF) := by
  rw [runs, State.fused, instr_of_canIssue can]
  dsimp only
  rw [if_pos (by simpa [isEng] using context)]

/-- The count of refusals is no count of issues. -/
theorem refuse_not_issue : R.FU_REFUSE (engOf a) ∉ issueRegs a := by
  unfold issueRegs
  split
  · simp only [R.FU_REFUSE, R.ENG_ISSUE, List.mem_cons, List.not_mem_nil, or_false]
    omega
  · exact List.not_mem_nil

/-- A refusal raises UNDEF with the unit and its code, and FU_REFUSE counts it. -/
theorem refusal_raises (runs : exec c s = s.fused a unit op rd rs1 p) (can : s.canIssue a (fusedRegs unit rd rs1 p) = true)
    (eng : a.val < 0x800) (zero : fuZeroOk unit op p = true) {code : Nat} (refusal : fuRefusal unit op p = code) (refused : code ≠ 0)
    (small : s.pc a < pcMod a) (calm : (s.thr a).status.getLsbD 2 = false) : Completes c s fun t =>
      t.thr a = ((s.thr a).passed (t.thr a) a 2).excepted a 1 (s.pc a) (einfo (encLX (0x37 + unit) rd rs1 op p) true unit code) ∧
      t.reg (R.FU_REFUSE (engOf a)) = (if s.reg (R.FU_REFUSE (engOf a)) = 0xFFFFFFFF then 0xFFFFFFFF else s.reg (R.FU_REFUSE (engOf a)) + 1) ∧
      (∀ b, b ≠ a.val → t.thr b = s.thr b) ∧ s.memKept t 0 0 := by
  have runs := fused_refused runs can eng zero refusal refused
  have keeps := threadOnly_took s a 2 (fusedRegs unit rd rs1 p) (kFused rd)
  have issued : s.afterIssue (s.took a 2 (fusedRegs unit rd rs1 p) (kFused rd)) a 2 := afterIssue_took
  generalize s.took a 2 (fusedRegs unit rd rs1 p) (kFused rd) = i at runs keeps issued
  -- the thread is as after the issue, and the count of refusals as before it
  have thread : (i.cnt (R.FU_REFUSE (engOf a))).thr a = (s.thr a).passed ((i.cnt (R.FU_REFUSE (engOf a))).thr a) a 2 := by
    rw [thr_cnt]; exact issued.passed
  have counted : i.reg (R.FU_REFUSE (engOf a)) = s.reg (R.FU_REFUSE (engOf a)) := keeps.regsKept _ refuse_not_issue
  have only : i.regsOnly (i.cnt (R.FU_REFUSE (engOf a))) := State.regsOnly.refl.cnt
  have count := reg_cnt_same i (R.FU_REFUSE (engOf a))
  rw [counted] at count
  generalize i.cnt (R.FU_REFUSE (engOf a)) = j at runs thread only count
  rw [State.undef, ilen, if_pos rfl, excpAt_eq thread small (ilen_le_pcMod true a),
    excp_of_calm (by rw [status_of_passed thread]; exact calm)] at runs
  refine ⟨_, runs, thr_excepted thread, ?_, fun b hb => ?_, fun m hm => ?_⟩
  · rw [reg_setThr, count]
    split
    · next full => exact full
    · rfl
  · refine (thr_setThr_other _ _ _ _ hb).trans ?_
    obtain ⟨r, rfl⟩ := only
    exact keeps.thr hb
  · obtain ⟨r, rfl⟩ := only
    exact keeps.memKept m hm

end

/-- Settles O15: an undefined halfword over its issue, a refusal over the issue and its count, and the full profile, which has no unit (R156,
R159, R174, R197, R198; EINFO of an undefined form is the model's reading, assumption log 54). -/
theorem undefinedAndRefusedInstructionsRaiseUndef : Obligations.UndefinedAndRefusedInstructionsRaiseUndef := by
  refine ⟨fun s a adr h can small calm place word short undefined => ?_, fun s a rd rs1 p small calm => ?_⟩
  · have runs := undefinedInstruction_short can place word short undefined
    have whole : einfo h false 0 0 = BitVec.ofNat 64 h := by simp [einfo, b2n]
    exact whole ▸ raises_of_excpAt (lg := false) (afterIssue_issued.killPartner h false) small runs calm
  · intro refused
    refine ⟨fun eng can long => ?_, fun eng can zero func => ?_, fun eng can bpos => ?_, fun eng can zero func => ?_, fun eng can zero func => ?_,
      fun context can => raises_of_excpAt (lg := true) afterIssue_took small (fused_full_profile (unit := uFLD) rfl can context)⟩
    · exact refusal_raises (unit := uFLD) (op := 0) rfl can eng rfl (if_pos long) (by decide) small calm
    · exact refusal_raises (unit := uHSH) (op := 0) rfl can eng (beq_iff_eq.mpr zero) (if_pos func) (by decide) small calm
    · exact refusal_raises (unit := uHSH) (op := 1) rfl can eng rfl (if_pos bpos) (by decide) small calm
    · exact refusal_raises (unit := uHSH) (op := 2) rfl can eng (beq_iff_eq.mpr zero) (if_pos func) (by decide) small calm
    · exact refusal_raises (unit := uCKS) (op := 1) rfl can eng (beq_iff_eq.mpr zero) (if_pos func) (by decide) small calm

end Sys2Proof.Machine
end

section
/-! PROOFS. The status register (R176–R178, R490) and the special registers (R149). -/

namespace Sys2Proof.Machine

/-! ### ERET (R176) -/

section
variable {s : State} {a : Agent}

/-- The status that ERET leaves: UM takes PUM, IE takes PIE, and EXL is cleared. -/
def eretStatus (status : BitVec 5) : BitVec 5 :=
  BitVec.ofNat 5 (b2n (status.getLsbD 4) * 16 + b2n (status.getLsbD 4) * 8 + b2n (status.getLsbD 1) * 2 + b2n (status.getLsbD 1))

theorem eretStatus_bits (status : BitVec 5) : (eretStatus status).getLsbD 2 = false ∧ (eretStatus status).getLsbD 0 = status.getLsbD 1 ∧
    (eretStatus status).getLsbD 1 = status.getLsbD 1 ∧ (eretStatus status).getLsbD 3 = status.getLsbD 4 ∧
    (eretStatus status).getLsbD 4 = status.getLsbD 4 := by
  unfold eretStatus
  generalize status.getLsbD 4 = pum
  generalize status.getLsbD 1 = pie
  revert pum pie
  decide

theorem eret_passes (can : s.canIssue a [] = true) (within : (s.thr a).status.getLsbD 2 = true) :
    s.passes (.eret a) a 2 fun t => { t with flg := t.eflg.truncate 4, pc := t.epc.toNat % pcMod a, status := eretStatus t.status } := by
  have runs := show execEret a s = _ from instr_of_canIssue can _ kAlone _
  rw [if_pos (by rw [status_of_passed (thr_took_passed s a 2 [] kAlone)]; exact within)] at runs
  exact passes_of_setThr runs fun _ => rfl

theorem eret_returns (can : s.canIssue a [] = true) (within : (s.thr a).status.getLsbD 2 = true) : Completes (.eret a) s fun t =>
    t.pc a = (s.thr a).epc.toNat % pcMod a ∧ t.flg a = (s.thr a).eflg.truncate 4 ∧ (t.thr a).status.getLsbD 2 = false ∧
      (t.thr a).status.getLsbD 0 = (s.thr a).status.getLsbD 1 ∧ (t.thr a).status.getLsbD 1 = (s.thr a).status.getLsbD 1 ∧
      (t.thr a).status.getLsbD 3 = (s.thr a).status.getLsbD 4 ∧ (t.thr a).status.getLsbD 4 = (s.thr a).status.getLsbD 4 ∧
      (∀ r : Reg, t.x a r = s.x a r) ∧ s.threadOnly t a := by
  obtain ⟨t, runs, thread, keeps⟩ := eret_passes can within
  obtain ⟨exl, ie, pie, um, pum⟩ := eretStatus_bits (s.thr a).status
  have status : (t.thr a).status = eretStatus (s.thr a).status := (congrArg Thr.status thread :)
  rw [← status] at exl ie pie um pum
  exact ⟨t, runs, (congrArg Thr.pc thread :), (congrArg Thr.flg thread :), exl, ie, pie, um, pum,
    fun r => (congrArg (Thr.get · r) thread :), keeps⟩

/-! ### Interrupts (R178) -/

/-- A thread that may issue waits for nothing. -/
theorem wait_of_eligible (eligible : s.eligible a = true) : (s.thr a).wait = .run := by
  simp only [State.eligible, Bool.and_eq_true, beq_iff_eq] at eligible
  obtain ⟨⟨⟨⟨⟨wait, -⟩, -⟩, -⟩, -⟩, -⟩ := eligible
  exact wait

theorem exec_interruptTake (eligible : s.eligible a = true) (running : (s.thr a).halted = false) (enabled : (s.thr a).status.getLsbD 0 = true)
    (calm : (s.thr a).status.getLsbD 2 = false) (input : s.irqInput a = true) :
    exec (.interruptTake a) s = .next ((s.setThr a (s.thr a)).setThr a ((s.thr a).excepted a 0x10 (s.pc a) 0)) := by
  have wait := wait_of_eligible eligible
  have here : (s.thr a).savePc = s.pc a := by rw [Thr.savePc, wait]; rfl
  have same : { s.thr a with wait := .run, pc := s.pc a } = s.thr a := by rw [← wait]; rfl
  change execInterruptTake a s = _
  unfold execInterruptTake
  dsimp only
  rw [wait]
  dsimp only
  rw [if_pos (by rw [eligible, running, enabled, calm, input]; rfl), here]
  refine (congrArg (fun u => Host.Outcome.next ((s.setThr a u).excp a 0x10 (s.pc a) 0)) same).trans ?_
  rw [excp_of_calm (by rw [thr_setThr_same]; exact calm), thr_setThr_same]

/-- A write of a thread leaves what stands beside the threads. -/
theorem withThrs_setThr (t s : State) (b : Nat) (u : Thr) : ({ t.setThr b u with thrs := s.thrs } : State) = { t with thrs := s.thrs } := rfl

/-- The status while an exception is taken with IE = 1. -/
theorem excepted_status_of_enabled {t : Thr} {cause epc : Nat} {info : Word} (enabled : t.status.getLsbD 0 = true) :
    (t.excepted a cause epc info).status = BitVec.ofNat 5 (b2n (t.status.getLsbD 3) * 16 + 6) := by
  unfold Thr.excepted
  rw [enabled]
  rfl

theorem interruptTake_excepts (eligible : s.eligible a = true) (running : (s.thr a).halted = false)
    (enabled : (s.thr a).status.getLsbD 0 = true) (calm : (s.thr a).status.getLsbD 2 = false) (input : s.irqInput a = true) :
    Completes (.interruptTake a) s fun t =>
      t.thr a = { (s.thr a) with epc := BitVec.ofNat 64 (s.pc a), ecause := 0x10, einfo := 0, eflg := (s.flg a).zeroExtend 64,
                                 status := BitVec.ofNat 5 (b2n ((s.thr a).status.getLsbD 3) * 16 + 6), pc := (s.thr a).tvec.toNat % pcMod a } ∧
      (∀ b, b ≠ a.val → t.thr b = s.thr b) ∧ ({ t with thrs := s.thrs } : State) = s := by
  refine ⟨_, exec_interruptTake eligible running enabled calm input, ?_, fun b hb => ?_,
    (withThrs_setThr _ s a _).trans (withThrs_setThr s s a _)⟩
  · rw [thr_setThr_same, ← excepted_status_of_enabled (a := a) (cause := 0x10) (epc := s.pc a) (info := 0) enabled]
    rfl
  · rw [thr_setThr_other _ _ _ _ hb, thr_setThr_other _ _ _ _ hb]

/-! ### Double faults (R177, R490) -/

theorem exec_trap_within {code : BitVec 15} (can : s.canIssue a [] = true) (within : (s.thr a).status.getLsbD 2 = true) :
    exec (.trap a code) s = .next ((s.took a 2 [] kAlone).doubleFault a) := by
  refine (show execTrap a code s = _ from instr_of_canIssue can _ kAlone _).trans ?_
  rw [State.excp, if_pos (by rw [status_of_passed (thr_took_passed s a 2 [] kAlone)]; exact within)]

/-- On an engine a double fault resets the thread. -/
theorem trap_resets {code : BitVec 15} (can : s.canIssue a [] = true) (within : (s.thr a).status.getLsbD 2 = true) (eng : a.val < 0x800) :
    Completes (.trap a code) s fun t => (∀ r : Reg, t.x a r = 0) ∧ (t.thr a).status = 0 ∧ (t.thr a).pkt = none ∧ (t.thr a).fu = [] := by
  refine ⟨_, exec_trap_within can within, ?_⟩
  rw [State.doubleFault, if_pos eng]
  have blank := thr_threadReset_same (s.took a 2 [] kAlone) a false 3
  refine ⟨fun r => ?_, blank.status, blank.pkt, blank.fu⟩
  rw [State.x, Thr.get, blank.rf]
  rfl

/-- A context that is dead may not issue. -/
theorem eligible_of_dead {b : Nat} (dead : (s.thr b).dead = true) : s.eligible b = false := by
  simp [State.eligible, dead]

/-- A double fault halts a context. -/
theorem trap_halts {code : BitVec 15} (can : s.canIssue a [] = true) (within : (s.thr a).status.getLsbD 2 = true) (context : 0x800 ≤ a.val) :
    Completes (.trap a code) s fun t => (t.thr a).dead = true ∧ t.eligible a = false := by
  refine ⟨_, exec_trap_within can within, ?_⟩
  have dead : (((s.took a 2 [] kAlone).doubleFault a).thr a).dead = true := by
    rw [State.doubleFault, if_neg (Nat.not_lt.mpr context)]
    dsimp only
    split
    · exact congrArg Thr.dead (thr_setThr_same _ _ _)
    · exact congrArg Thr.dead (thr_setThr_same _ _ _)
  exact ⟨dead, eligible_of_dead dead⟩

end

/-- Settles O16: ERET by the record that it leaves, an interrupt by the exception that it takes, a double fault by the reset of the thread or
the halt of the context (R175–R178, R490; the double fault of the Fumarole core is the model's reading, assumption log 42). -/
theorem returnInterruptAndDoubleFaultFollowTheStatus : Obligations.ReturnInterruptAndDoubleFaultFollowTheStatus :=
  ⟨fun _ _ => ⟨eret_returns, interruptTake_excepts⟩, fun _ _ _ can within => ⟨trap_resets can within, trap_halts can within⟩⟩

/-! ### What a special register reads stands over the issue (R149) -/

section
variable (s : State) (a len : Nat) (ns : List Nat) (k : Kind)

/-- No register below the ENG pages or above them counts an issue. -/
theorem clu_not_issue {r : Nat} (h : r < 0x200000 ∨ 0x300000 ≤ r) : r ∉ issueRegs a := by
  unfold issueRegs
  split
  · simp only [R.ENG_ISSUE, engOf, List.mem_cons, List.not_mem_nil, or_false]
    omega
  · exact List.not_mem_nil

theorem segDesc_took (n : Nat) : (s.took a len ns k).segDesc a n = s.segDesc a n := by
  have keeps := (threadOnly_took s a len ns k).regsKept
  have lo : (s.took a len ns k).reg (R.CLU_SEG_LO (cluOf a) n) = s.reg (R.CLU_SEG_LO (cluOf a) n) :=
    keeps _ (clu_not_issue a (by unfold R.CLU_SEG_LO; omega))
  have hi : (s.took a len ns k).reg (R.CLU_SEG_HI (cluOf a) n) = s.reg (R.CLU_SEG_HI (cluOf a) n) :=
    keeps _ (clu_not_issue a (by unfold R.CLU_SEG_HI; omega))
  have ctl : (s.took a len ns k).reg (R.CLU_SEG_CTL (cluOf a)) = s.reg (R.CLU_SEG_CTL (cluOf a)) :=
    keeps _ (clu_not_issue a (by unfold R.CLU_SEG_CTL; omega))
  have segs : ((s.took a len ns k).thr a).segs = (s.thr a).segs := (congrArg Thr.segs (thr_took_passed s a len ns k) :)
  have flag (f : Fld) : (s.took a len ns k).flag (R.CLU_SEG_CTL (cluOf a)) f = s.flag (R.CLU_SEG_CTL (cluOf a)) f := by
    rw [State.flag, State.fld, ctl]; rfl
  unfold State.segDesc
  dsimp only
  rw [pkt_took, flag, flag, lo, hi, segs]

theorem dNs_took : (s.took a len ns k).dNs = s.dNs := by
  have time : (s.took a len ns k).time = s.time := (congrArg State.time (threadOnly_took s a len ns k).1 :)
  rw [State.dNs, time]
  rfl

theorem sregGet_took (n : Nat) : (s.took a len ns k).sregGet a n = s.sregGet a n := by
  obtain ⟨pc, st, h⟩ := thr_took s a len ns k
  unfold State.sregGet
  dsimp only
  rw [segDesc_took, dNs_took, (threadOnly_took s a len ns k).cycles, h]

theorem userMode_took : (s.took a len ns k).userMode a = s.userMode a := by
  rw [State.userMode, status_of_passed (thr_took_passed s a len ns k)]
  rfl

/-- What issues alone is never the second of a pair (R160). -/
theorem took_alone : s.took a len ns kAlone = s.issued a len kAlone := by
  have apart : s.joins a len ns kAlone = false := by
    unfold State.joins
    split
    · rfl
    · simp [Kind.pairs, kAlone]
  rw [State.took, apart, if_neg Bool.false_ne_true]

end

/-! ### MFS, MTS, XCHS (R149) -/

section
variable {s : State} {a : Agent} {rd rs : Reg} {sreg : BitVec 12}

/-- The kind of MFS. -/
abbrev kMfs (rd : Reg) (sreg : BitVec 12) : Kind :=
  { writes := [rd.val], readsF := sreg == 1, slow := sreg == 0x00C || sreg == 0x00D }

theorem mfs_gives {v : Word} (can : s.canIssue a [rd] = true) (defined : s.sregGet a sreg.toNat = some v) :
    s.gives (.mfs a rd sreg) a 2 rd v := by
  have runs := show execMfs a rd sreg s = _ from instr_of_canIssue can _ _ _
  rw [sregGet_took, defined] at runs
  exact gives_of_setX runs

theorem mfs_violates (can : s.canIssue a [rd] = true) (undefined : s.sregGet a sreg.toNat = none) :
    exec (.mfs a rd sreg) s = .next (((s.took a 2 [rd] (kMfs rd sreg)).sregViol a sreg.toNat 1).setX a rd 0) := by
  have runs := show execMfs a rd sreg s = _ from instr_of_canIssue can _ _ _
  rw [sregGet_took, undefined] at runs
  exact runs

/-- MTS at a level that may write the register. -/
theorem exec_mts (can : s.canIssue a [rs] = true) (level : s.sregPriv a sreg.toNat = false) :
    exec (.mts a sreg rs) s = .next ((s.took a 2 [rs] kAlone).sregWrite a sreg.toNat (s.x a rs)) := by
  have runs := show execMts a sreg rs s = _ from instr_of_canIssue can _ _ _
  rw [x_took, if_neg (by rw [State.sregPriv, userMode_took]; rw [State.sregPriv] at level; rw [level]; exact Bool.false_ne_true)] at runs
  exact runs

/-- The registers 0x000 to 0x009 are there and may be written. -/
theorem sregWrite_low (t : State) (b : Nat) (v : Word) {n : Nat} (low : n < 0xA) : t.sregWrite b n v = t.sregSet b n v := by
  have there : ¬ (t.sregGet b n).isNone = true := by
    obtain rfl | rfl | rfl | rfl | rfl | rfl | rfl | rfl | rfl | rfl : n = 0 ∨ n = 1 ∨ n = 2 ∨ n = 3 ∨ n = 4 ∨ n = 5 ∨ n = 6 ∨ n = 7 ∨ n = 8 ∨
      n = 9 := by omega
    all_goals exact Bool.false_ne_true
  have writable : ¬ sregRO n = true := by
    simp only [sregRO, Bool.and_eq_true, decide_eq_true_eq]
    omega
  rw [State.sregWrite, if_neg there, if_neg writable, if_neg fun h => by omega]

/-- MTS of a register that is there and may be written. -/
theorem mts_passes {g : Thr → Thr} (can : s.canIssue a [rs] = true) (level : s.sregPriv a sreg.toNat = false) (low : sreg.toNat < 0xA)
    (sets : ∀ t : State, t.sregSet a sreg.toNat (s.x a rs) = t.setThr a (g (t.thr a))) (step : ∀ t, (g t).step = t.step) :
    s.passes (.mts a sreg rs) a 2 g :=
  passes_of_setThr ((exec_mts can level).trans (by rw [sregWrite_low _ _ _ low, sets])) step

theorem level_of_kernel (kernel : s.userMode a = false) (n : Nat) : s.sregPriv a n = false := by
  rw [State.sregPriv, kernel, Bool.false_and]

theorem kernel_of_engine (eng : a.val < 0x800) : s.userMode a = false := by
  simp [State.userMode, isEng, eng]

theorem mts_readOnly (can : s.canIssue a [rs] = true) (lo : 0xA ≤ sreg.toNat) (hi : sreg.toNat ≤ 0xF) :
    exec (.mts a sreg rs) s = .next ((s.issued a 2 kAlone).sregViol a sreg.toNat 2) := by
  have plain : sregS sreg.toNat = false := by
    simp only [sregS, Bool.or_eq_false_iff, Bool.and_eq_false_iff, beq_eq_false_iff_ne, decide_eq_false_iff_not]
    omega
  have there (t : State) : (t.sregGet a sreg.toNat).isNone = false := by
    generalize sreg.toNat = n at lo hi
    obtain rfl | rfl | rfl | rfl | rfl | rfl : n = 0xA ∨ n = 0xB ∨ n = 0xC ∨ n = 0xD ∨ n = 0xE ∨ n = 0xF := by omega
    all_goals rfl
  rw [exec_mts can (by rw [State.sregPriv, plain, Bool.and_false]), took_alone, State.sregWrite, there, if_neg Bool.false_ne_true,
    if_pos (by simp [sregRO, lo, hi])]

/-- The segments of an engine are not written by MTS. -/
theorem mts_segment (can : s.canIssue a [rs] = true) (eng : a.val < 0x800) (lo : 0x100 ≤ sreg.toNat) (hi : sreg.toNat < 0x108) :
    exec (.mts a sreg rs) s = .next ((s.issued a 2 kAlone).sregViol a sreg.toNat 4) := by
  have there (t : State) : (t.sregGet a sreg.toNat).isNone = false := by
    generalize sreg.toNat = n at lo hi
    obtain rfl | rfl | rfl | rfl | rfl | rfl | rfl | rfl : n = 0x100 ∨ n = 0x101 ∨ n = 0x102 ∨ n = 0x103 ∨ n = 0x104 ∨ n = 0x105 ∨ n = 0x106 ∨
      n = 0x107 := by omega
    all_goals simp [State.sregGet]
  have writable : ¬ sregRO sreg.toNat = true := by
    simp only [sregRO, Bool.and_eq_true, decide_eq_true_eq]
    omega
  rw [exec_mts can (level_of_kernel (kernel_of_engine eng) _), took_alone, State.sregWrite, there, if_neg Bool.false_ne_true, if_neg writable,
    if_pos ⟨decide_eq_true eng, lo⟩]

theorem mts_privileged (can : s.canIssue a [rs] = true) (user : s.userMode a = true) (small : s.pc a < pcMod a) :
    ∃ e, s.raises (.mts a 0x006 rs) a 2 2 (s.pc a) e := by
  have runs := show execMts a 0x006 rs s = _ from instr_of_canIssue can _ _ _
  rw [if_pos (by rw [State.sregPriv, userMode_took, user]; rfl)] at runs
  exact ⟨_, raises_of_excpAt (lg := true) afterIssue_took small runs⟩

/-- XCHS of a register that is there and may be written: rd takes the old value, and the register that of rd. -/
theorem xchs_exchanges {g : Thr → Thr} {v : Word} (can : s.canIssue a [rd] = true) (kernel : s.userMode a = false)
    (low : sreg.toNat < 0xA) (reads : s.sregGet a sreg.toNat = some v)
    (sets : ∀ t : State, t.sregSet a sreg.toNat (s.x a rd) = t.setThr a (g (t.thr a)))
    (keeps : ∀ t : Thr, (g t).step = t.step ∧ (g t).rf = t.rf ∧ (g t).base = t.base) : Completes (.xchs a rd sreg) s fun t =>
      t.x a rd = v ∧ (∀ r : Reg, r ≠ rd → t.x a r = s.x a r) ∧
      t.thr a = { g ((s.thr a).passed (t.thr a) a 2) with rf := (t.thr a).rf } ∧ s.threadOnly t a := by
  have runs := show execXchs a rd sreg s = _ from instr_of_canIssue can _ _ _
  have level : ¬ (s.took a 2 [rd] kAlone).sregPriv a sreg.toNat = true := by
    rw [level_of_kernel (by rw [userMode_took]; exact kernel)]; exact Bool.false_ne_true
  rw [if_neg level, sregGet_took, reads, Option.getD_some, x_took] at runs
  dsimp only at runs
  rw [sregWrite_low _ _ _ low, sets] at runs
  have passed := thr_took_passed s a 2 [rd.val] kAlone
  have read := x_took s a 2 [rd.val] kAlone
  have only := threadOnly_took s a 2 [rd.val] kAlone
  generalize s.took a 2 [rd.val] kAlone = i at runs passed read only
  have written : (i.setThr a (g (i.thr a))).thr a = g (i.thr a) := thr_setThr_same _ _ _
  have result : ((i.setThr a (g (i.thr a))).setX a rd v).thr a = (g (i.thr a)).set rd v := (thr_setThr_same _ _ _).trans (by rw [written])
  refine ⟨_, runs, x_setX_same _ _ _ _, fun r hr => ?_, ?_, only.setThr.setThr⟩
  · obtain ⟨-, rf, base⟩ := keeps (i.thr a)
    rw [x_setX_other _ _ _ _ _ r.isLt rd.isLt fun h => hr (Fin.ext h), ← read, State.x, written, Thr.get, Thr.phys, rf, base]
    rfl
  · rw [result]
    generalize i.thr a = u at passed ⊢
    have same : (s.thr a).passed ((g u).set rd v) a 2 = (s.thr a).passed u a 2 := by
      rw [Thr.passed, Thr.passed, show ((g u).set rd v).step = (g u).step from rfl, (keeps u).1]
    rw [same, ← passed]
    rfl

end

/-- Settles O17: MFS by what stands in the register, MTS and XCHS by the record that the register stands in, and the violations by the write
rule of the special registers (R143, R149, R171). -/
theorem specialRegistersReadAndWrite : Obligations.SpecialRegistersReadAndWrite := by
  intro s a rd rs sreg i m x k kernel
  refine ⟨fun _ => mfs_gives, mfs_violates, fun can kernel => mts_passes can (level_of_kernel kernel _) (by decide) (fun _ => rfl) fun _ => rfl,
    fun can kernel => mts_passes can (level_of_kernel kernel _) (by decide) (fun _ => rfl) fun _ => rfl,
    fun can kernel => mts_passes can (level_of_kernel kernel _) (by decide) (fun _ => rfl) fun _ => rfl,
    fun can kernel => mts_passes can (level_of_kernel kernel _) (by decide) (fun _ => rfl) fun _ => rfl,
    fun can kernel => mts_passes can (level_of_kernel kernel _) (by decide) (fun _ => rfl) fun _ => rfl,
    fun can kernel => mts_passes can (level_of_kernel kernel _) (by decide) (fun _ => rfl) fun _ => rfl,
    fun can => mts_passes can (by rw [State.sregPriv]; exact Bool.and_false _) (by decide) (fun _ => rfl) fun _ => rfl,
    fun can kernel context => mts_passes can (level_of_kernel kernel _) (by decide) (fun t => ?context) fun _ => rfl,
    fun can eng => mts_passes can (level_of_kernel (kernel_of_engine eng) _) (by decide) (fun t => ?engine) fun _ => rfl,
    mts_readOnly, mts_segment, mts_privileged, fun can kernel => ?escr0, fun can kernel => ?wsp⟩
  case context =>
    have full : ¬ isEng a.val = true := by simpa [isEng] using context
    exact congrArg (fun v => t.setThr a { t.thr a with status := v }) (if_neg full)
  case engine =>
    exact congrArg (fun v => t.setThr a { t.thr a with status := v }) (if_pos (decide_eq_true eng))
  case escr0 =>
    obtain ⟨t, runs, read, others, thread, only⟩ := xchs_exchanges (sreg := 0x007) (g := fun t => { t with escr0 := s.x a rd }) can kernel
      (by decide) rfl (fun _ => rfl) fun _ => ⟨rfl, rfl, rfl⟩
    exact ⟨t, runs, read, (congrArg Thr.escr0 thread :), others, thread, only⟩
  case wsp =>
    obtain ⟨t, runs, read, others, thread, only⟩ := xchs_exchanges (sreg := 0x009) (g := fun t => { t with wsp := s.x a rd }) can kernel
      (by decide) rfl (fun _ => rfl) fun _ => ⟨rfl, rfl, rfl⟩
    exact ⟨t, runs, read, (congrArg Thr.wsp thread :), others, thread, only⟩

end Sys2Proof.Machine
end

section
/-! PROOFS. The fused units (R187–R199). -/

namespace Sys2Proof.Machine

/-! ### Acceptance (R187, R188) -/

section
variable {s : State} {a : Agent} {c : Instr} {unit op : Nat} {rd rs1 : Reg} {p : BitVec 13} {v : Word} {key : Option (Nat × Word)} {lat : Nat}

/-- Of the engine an issue changes the choice of issues alone. -/
theorem eng_took (len : Nat) (ns : List Nat) (k : Kind) (eng : a.val < 0x800) :
    (s.took a len ns k).eng (engOf a) = { s.eng (engOf a) with arb := ((s.took a len ns k).eng (engOf a)).arb } := by
  obtain ⟨-, engs, -⟩ := threadOnly_took s a len ns k
  exact (engs (engOf a)).trans (if_pos (if_pos eng).symm)

/-- A unit instruction with its zero fields zero that its unit does not refuse is accepted with its value. -/
theorem fused_accepts (runs : exec c s = s.fused a unit op rd rs1 p) (can : s.canIssue a (fusedRegs unit rd rs1 p) = true)
    (eng : a.val < 0x800) (zero : fuZeroOk unit op p = true) (free : fuRefusal unit op p = 0)
    (value : ∀ arb, fuValue { s.eng (engOf a) with arb := arb } unit op p (s.x a rd) (s.x a rs1) (s.x a (pbits p 12 8)) = (v, key))
    (latency : fuLat unit op p = lat) : s.accepts c a rd v key lat := by
  have passed := thr_took_passed s a 2 (fusedRegs unit rd rs1 p) (kFused rd)
  have reads (n : Nat) : ((s.took a 2 (fusedRegs unit rd rs1 p) (kFused rd)).thr a).get n = s.x a n := x_took s a 2 _ _ n
  have keeps := threadOnly_took s a 2 (fusedRegs unit rd rs1 p) (kFused rd)
  have unitKept := eng_took (s := s) 2 (fusedRegs unit rd rs1 p) (kFused rd) eng
  rw [State.fused, instr_of_canIssue can] at runs
  dsimp only at runs
  rw [if_neg (by simp [isEng, eng]), if_neg (by simp [zero]), if_neg (by simp [free]), reads, reads, reads, unitKept, value, latency, ← unitKept]
    at runs
  generalize s.took a 2 (fusedRegs unit rd rs1 p) (kFused rd) = i at runs passed keeps
  have place : (i.thr a).phys rd = (s.thr a).phys rd := (congrArg (Thr.phys · rd) passed :)
  have flight : (i.thr a).fu = (s.thr a).fu := (congrArg Thr.fu passed :)
  rw [place, flight, keeps.clk] at runs
  refine ⟨_, runs, keeps.setThr, (thr_setThr_same _ _ _).trans ?_⟩
  rw [thr_setThr_same]
  generalize i.thr a = u at passed
  rw [passed]
  rfl

end

/-! ### The field unit, bit by bit (R191) -/

/-- The signed reading of the low bits is that of the bit vector of that width. -/
theorem sint_eq_toInt (w n : Nat) : sint (w + 1) n = (BitVec.ofNat (w + 1) n).toInt := by
  rw [BitVec.toInt_eq_msb_cond, sint, BitVec.toNat_ofNat, BitVec.msb_eq_decide, BitVec.toNat_ofNat, Nat.add_sub_cancel]
  by_cases low : n % 2 ^ (w + 1) < 2 ^ w
  · rw [if_pos low, if_neg (by simpa using low)]
  · rw [if_neg low, if_pos (by simpa using low)]

theorem getLsbD_fextVal (x : Word) (p : BitVec 13) {i : Nat} (hi : i < 64) : (fextVal x p).getLsbD i =
    if i < pbits p 6 1 + 1 then x.getLsbD (pbits p 12 7 + i)
    else (decide (pbits p 0 0 = 1) && x.getLsbD (pbits p 12 7 + (pbits p 6 1 + 1) - 1)) := by
  unfold fextVal
  generalize pbits p 12 7 = pos
  generalize pbits p 6 1 = top
  dsimp only
  have field (j : Nat) : (x.toNat / 2 ^ pos % 2 ^ (top + 1)).testBit j = (decide (j < top + 1) && x.getLsbD (pos + j)) := by
    rw [Nat.testBit_mod_two_pow, Nat.testBit_div_two_pow, Nat.add_comm j pos, BitVec.testBit_toNat]
  by_cases sign : pbits p 0 0 = 1
  · rw [if_pos sign, sint_eq_toInt]
    change ((BitVec.ofNat (top + 1) _).signExtend 64).getLsbD i = _
    rw [BitVec.getLsbD_signExtend, BitVec.msb_eq_getLsbD_last, BitVec.getLsbD_ofNat, BitVec.getLsbD_ofNat, field, field]
    by_cases inside : i < top + 1
    · simp [hi, inside]
    · simp [hi, inside, sign]
  · rw [if_neg sign, BitVec.getLsbD_ofNat, field]
    by_cases inside : i < top + 1
    · simp [hi, inside]
    · simp [inside, sign]

theorem getLsbD_finsVal (d x : Word) (p : BitVec 13) {i : Nat} (hi : i < 64) : (finsVal d x p).getLsbD i =
    if pbits p 12 7 ≤ i ∧ i < pbits p 12 7 + (pbits p 6 1 + 1) then x.getLsbD (i - pbits p 12 7) else d.getLsbD i := by
  unfold finsVal
  generalize pbits p 12 7 = pos
  generalize pbits p 6 1 + 1 = len
  dsimp only
  have mask : ((2 ^ len - 1) * 2 ^ pos).testBit i = decide (pos ≤ i ∧ i < pos + len) := by
    rw [Nat.testBit_mul_two_pow, Nat.testBit_two_pow_sub_one, Bool.decide_and]
    by_cases above : pos ≤ i
    · simp only [above, decide_true, Bool.true_and, decide_eq_decide]
      omega
    · simp [above]
  simp only [BitVec.getLsbD_or, BitVec.getLsbD_and, BitVec.getLsbD_not, BitVec.getLsbD_shiftLeft, BitVec.getLsbD_ofNat, hi, mask, decide_true,
    Bool.true_and]
  by_cases inside : pos ≤ i ∧ i < pos + len
  · obtain ⟨above, below⟩ := inside
    simp [above, below, Nat.not_lt.mpr above]
  · simp [inside]

/-! ### Writeback (R188, R199) -/

theorem nextBack_mem {l : List FuPend} {f : FuPend} (h : nextBack l = some f) : f ∈ l := by
  induction l with
  | nil => cases h
  | cons g l ih =>
    rw [nextBack] at h
    cases rest : nextBack l with
    | none =>
      rw [rest] at h
      exact Option.some.inj h ▸ List.mem_cons_self
    | some r =>
      rw [rest] at h
      dsimp only at h
      split at h
      · exact List.mem_cons_of_mem _ (ih (rest.trans h))
      · exact Option.some.inj h ▸ List.mem_cons_self

/-- What nothing after it comes before is written back first of a list that it heads. -/
theorem nextBack_cons {f : FuPend} {m : List FuPend} (last : ∀ g ∈ m, g.before f = false) : nextBack (f :: m) = some f := by
  rw [nextBack]
  cases rest : nextBack m with
  | none => rfl
  | some r => exact if_neg (by rw [last r (nextBack_mem rest)]; exact Bool.false_ne_true)

theorem nextBack_append {f : FuPend} {l m : List FuPend} (first : ∀ g ∈ l, f.before g = true) (last : ∀ g ∈ m, g.before f = false) :
    nextBack (l ++ f :: m) = some f := by
  induction l with
  | nil => exact nextBack_cons last
  | cons g l ih =>
    rw [List.cons_append, nextBack, ih fun h hl => first h (List.mem_cons_of_mem _ hl)]
    exact if_pos (first g List.mem_cons_self)

theorem before_irrefl (f : FuPend) : f.before f = false := by simp [FuPend.before]

theorem erase_of_first {f : FuPend} {l m : List FuPend} (first : ∀ g ∈ l, f.before g = true) : (l ++ f :: m).erase f = l ++ m := by
  have absent : f ∉ l := fun hl => Bool.false_ne_true ((before_irrefl f).symm.trans (first f hl))
  rw [List.erase_append_right _ absent, List.erase_cons_head]

section
variable {s : State} {a : EngThr} {f : FuPend} {l m : List FuPend}

/-- The key words of an engine after a writeback. -/
def writtenKeys (g : Eng) : Option (Nat × Word) → SMap Word
  | none => g.keys
  | some (i, v) => smSet (fun _ => (0 : Word)) g.keys i v

theorem key_writtenKeys (g : Eng) (arb : Arb) (key : Option (Nat × Word)) (i : Nat) :
    ({ g with arb := arb, keys := writtenKeys g key } : Eng).key i = match key with
      | some (j, v) => if i = j then v else g.key i
      | none => g.key i := by
  rcases key with - | ⟨j, v⟩
  · rfl
  · dsimp only
    split
    · next same => rw [same]; exact smGet_smSet_same _ _ _ _
    · next other => exact smGet_smSet_other _ _ _ other

/-- The writeback of the unit instruction that is due first. -/
theorem writeback_of_first (flight : (s.thr a).fu = l ++ f :: m) (first : ∀ g ∈ l, f.before g = true) (last : ∀ g ∈ m, g.before f = false) :
    s.writeback a = (s.setThr a { s.thr a with fu := l ++ m, rf := smSet (fun _ => (0 : Word)) (s.thr a).rf f.rd f.val }).setEng (engOf a)
      { s.eng (engOf a) with arb := { (s.eng (engOf a)).arb with lead := none }, keys := writtenKeys (s.eng (engOf a)) f.key } := by
  unfold State.writeback
  dsimp only
  rw [flight, nextBack_append first last]
  dsimp only
  rw [erase_of_first first]
  rcases f.key with - | ⟨j, v⟩ <;> rfl

theorem fuWriteback_completes (flight : (s.thr a).fu = l ++ f :: m) (first : ∀ g ∈ l, f.before g = true)
    (last : ∀ g ∈ m, g.before f = false) : Completes (.fuWriteback a) s fun t =>
      (t.thr a).fu = l ++ m ∧ (∀ n, t.x a n = if (s.thr a).phys n = f.rd then f.val else s.x a n) ∧
      (∀ i, (t.eng (engOf a)).key i = match f.key with
        | some (j, v) => if i = j then v else (s.eng (engOf a)).key i
        | none => (s.eng (engOf a)).key i) ∧
      t.pc a = s.pc a ∧ t.flg a = s.flg a ∧ (∀ b, b ≠ a.val → t.thr b = s.thr b) ∧ t.regs = s.regs ∧ t.mem = s.mem := by
  refine ⟨_, congrArg Host.Outcome.next (writeback_of_first flight first last), ?_⟩
  have thread (u : Thr) (g : Eng) : ((s.setThr a u).setEng (engOf a) g).thr a = u := thr_setThr_same s a u
  refine ⟨congrArg Thr.fu (thread _ _), fun n => ?_, fun i => ?_, (congrArg Thr.pc (thread _ _) :), (congrArg Thr.flg (thread _ _) :),
    fun b hb => thr_setThr_other s _ _ _ hb, rfl, rfl⟩
  · rw [State.x, thread]
    split
    · next same => exact (congrArg (smGet _ _) same).trans (smGet_smSet_same _ _ _ _)
    · next other => exact smGet_smSet_other _ _ _ other
  · rw [eng_setEng_same]
    exact (key_writtenKeys _ _ _ _).trans (by rcases f.key with - | ⟨j, v⟩ <;> rfl)

end

/-- Settles O18: acceptance by the one rule of all the units, the field unit by the bits of its operands, and the writeback by what is due
first (R187, R188, R191, R193, R199; the order of writebacks is the model's reading, assumption log 41). -/
theorem fusedInstructionsAreAcceptedAndComplete : Obligations.FusedInstructionsAreAcceptedAndComplete := by
  refine ⟨?_, fun x d p _ =>
    ⟨fun i hi => getLsbD_fextVal x p hi, fun i hi => getLsbD_finsVal d x p hi⟩,
    fun s a f l m flight first last => fuWriteback_completes flight first last⟩
  intro s a rd rs1 p x y g field one two eng
  have fits (h : field) : ¬ 64 < pbits p 12 7 + pbits p 6 1 + 1 := Nat.not_lt.mpr h
  refine ⟨?fext, ?fins, ?fscn, ?hcrc, ?htoe, ?hash, ?keyWrite, ?keyRead, ?cksa, ?cksu, ?cksf⟩
  case fext =>
    exact fun can inside => fused_accepts (unit := 1) (op := 0) rfl can eng rfl (if_neg (fits inside)) (fun _ => rfl) rfl
  case fins =>
    exact fun can inside zero => fused_accepts (unit := 1) (op := 1) rfl can eng (beq_of_eq zero) (if_neg (fits inside)) (fun _ => rfl) rfl
  case fscn =>
    exact fun can zero => fused_accepts (unit := 1) (op := 2) rfl can eng (beq_of_eq zero) rfl (fun _ => rfl) rfl
  case hcrc =>
    exact fun can zero poly => fused_accepts (unit := 2) (op := 0) rfl can eng (beq_of_eq zero) (if_neg (Nat.not_le.mpr poly)) (fun _ => rfl) rfl
  case htoe =>
    exact fun can pos => fused_accepts (unit := 2) (op := 1) rfl can eng rfl (if_neg (Nat.not_lt.mpr pos)) (fun _ => rfl) rfl
  case hash =>
    intro can zero func
    have func : pbits p 7 6 = 0 := func
    exact fused_accepts (unit := 2) (op := 2) rfl can eng (beq_of_eq zero) (if_neg (by omega)) (fun _ => if_pos func) (if_pos func)
  case keyWrite =>
    intro can zero func
    have func : pbits p 7 6 = 1 := func
    exact fused_accepts (unit := 2) (op := 2) rfl can eng (beq_of_eq zero) (if_neg (by omega))
      (fun _ => (if_neg (by omega)).trans (if_pos func)) (if_neg (by omega))
  case keyRead =>
    intro can zero func
    have func : pbits p 7 6 = 2 := func
    exact fused_accepts (unit := 2) (op := 2) rfl can eng (beq_of_eq zero) (if_neg (by omega))
      (fun _ => (if_neg (by omega)).trans (if_neg (by omega))) (if_neg (by omega))
  case cksa =>
    exact fun can zero => fused_accepts (unit := 3) (op := 0) rfl can eng (beq_of_eq zero) rfl (fun _ => rfl) rfl
  case cksu =>
    exact fun can zero form => fused_accepts (unit := 3) (op := 1) rfl can eng (beq_of_eq zero) (if_neg (Nat.not_le.mpr form)) (fun _ => rfl) rfl
  case cksf =>
    exact fun can zero => fused_accepts (unit := 3) (op := 2) rfl can eng (beq_of_eq zero) rfl (fun _ => rfl) rfl

end Sys2Proof.Machine
end

section
/-! PROOFS. Every step keeps the register space and the memories in canonical form (R152, R305, R468, R575). -/

namespace Sys2Proof.Machine

/-! ### The canonical form of what a function of the model gives -/

/-- The register space and the memories of a state are in canonical form. -/
structure State.Tidy (s : State) : Prop where
  regs : smWf regDefault s.regs = true
  mem : smWf byte0 s.mem = true
  near : smWf byte0 s.near = true
  flash : smWf byteFF s.flash = true

/-- The state of a pair is in canonical form. -/
structure TidyPair {α : Type} (p : α × State) : Prop where
  snd : p.2.Tidy

/-- The state given, if one is, is in canonical form. -/
def TidyOpt (o : Option State) : Prop := ∀ t, o = some t → t.Tidy

/-- The state of the pair given, if one is, is in canonical form. -/
def TidyOptPair {α : Type} (o : Option (α × State)) : Prop := ∀ x t, o = some (x, t) → t.Tidy

/-- The next state, if there is one, is in canonical form. -/
def TidyResult (r : Result) : Prop := ∀ t, r = .next t → t.Tidy

/-! A proof about a function follows its text: `.ite` is an `if`, `.foldl` a fold, `h.f` a call of `f` on a state in canonical form, `.withF` an
update of the field `F`, and `.keep rfl` any change to what is none of the four maps; a `match` is split, and `of_eq` is the state that its
pattern names. -/

section
variable {α β : Type} {P : β → Prop}

theorem ite_of {c : Prop} {_ : Decidable c} {x y : β} (hx : P x) (hy : P y) : P (if c then x else y) := by
  split
  · exact hx
  · exact hy

theorem foldl_of {f : β → α → β} {l : List α} {b : β} (hb : P b) (hf : ∀ b x, P b → P (f b x)) : P (l.foldl f b) := by
  induction l generalizing b with
  | nil => exact hb
  | cons x l ih => exact ih (hf b x hb)

end

namespace State.Tidy
variable {α : Type} {s t : State}

theorem keep (h : s.Tidy) (maps : (t.regs, t.mem, t.near, t.flash) = (s.regs, s.mem, s.near, s.flash)) : t.Tidy := by
  obtain ⟨regs, mem, near, flash⟩ := h
  simp only [Prod.mk.injEq] at maps
  obtain ⟨sameRegs, sameMem, sameNear, sameFlash⟩ := maps
  exact ⟨sameRegs ▸ regs, sameMem ▸ mem, sameNear ▸ near, sameFlash ▸ flash⟩

/-! One rule for each field that an update of the model names. -/

theorem withPending {x : List Instr} (h : s.Tidy) : ({ s with pending := x } : State).Tidy := h.keep rfl
theorem withClkCycBase {x : Nat} {y : SMap Nat} (h : s.Tidy) : ({ s with clk := x, cycBase := y } : State).Tidy := h.keep rfl
theorem withFreeCtr {x : Nat} (h : s.Tidy) : ({ s with freeCtr := x } : State).Tidy := h.keep rfl
theorem withHoldEnd {x : SMap Nat} (h : s.Tidy) : ({ s with holdEnd := x } : State).Tidy := h.keep rfl
theorem withRdata {x : W32} (h : s.Tidy) : ({ s with rdata := x } : State).Tidy := h.keep rfl
theorem withTmouts {x : List (Nat × Nat)} (h : s.Tidy) : ({ s with tmouts := x } : State).Tidy := h.keep rfl
theorem withTephra {x : SMap Word} (h : s.Tidy) : ({ s with tephra := x } : State).Tidy := h.keep rfl
theorem withCoreWakes {x : List Nat} (h : s.Tidy) : ({ s with coreWakes := x } : State).Tidy := h.keep rfl
theorem withPkts {x : SMap Pkt} (h : s.Tidy) : ({ s with pkts := x } : State).Tidy := h.keep rfl
theorem withNextId {x : Nat} (h : s.Tidy) : ({ s with nextId := x } : State).Tidy := h.keep rfl
theorem withNextIdDmas {x : Nat} {y : SMap (Option Dma)} (h : s.Tidy) : ({ s with nextId := x, dmas := y } : State).Tidy := h.keep rfl
theorem withParsed {x : SMap Nat} (h : s.Tidy) : ({ s with parsed := x } : State).Tidy := h.keep rfl
theorem withLkps {x : SMap Lkp} (h : s.Tidy) : ({ s with lkps := x } : State).Tidy := h.keep rfl
theorem withSrcChks {x : SMap (List SrcChk)} (h : s.Tidy) : ({ s with srcChks := x } : State).Tidy := h.keep rfl
theorem withPfcSent {x : SMap Nat} (h : s.Tidy) : ({ s with pfcSent := x } : State).Tidy := h.keep rfl
theorem withPfcSentQuanta {x y : SMap Nat} (h : s.Tidy) : ({ s with pfcSent := x, quanta := y } : State).Tidy := h.keep rfl
theorem withDeepStk {x : List Nat} (h : s.Tidy) : ({ s with deepStk := x } : State).Tidy := h.keep rfl
theorem withDeepStkDeepRefsDeepOpen {x : List Nat} {y : SMap Nat} {z : SMap (Option (Nat × Nat))} (h : s.Tidy) :
    ({ s with deepStk := x, deepRefs := y, deepOpen := z } : State).Tidy := h.keep rfl
theorem withDeepStkWithdrawn {x : List Nat} {y : Bool} (h : s.Tidy) : ({ s with deepStk := x, withdrawn := y } : State).Tidy := h.keep rfl
theorem withDeepNext {x : Nat} (h : s.Tidy) : ({ s with deepNext := x } : State).Tidy := h.keep rfl
theorem withDeepRefs {x : SMap Nat} (h : s.Tidy) : ({ s with deepRefs := x } : State).Tidy := h.keep rfl
theorem withDeepRefsDeepOpen {x : SMap Nat} {y : SMap (Option (Nat × Nat))} (h : s.Tidy) :
    ({ s with deepRefs := x, deepOpen := y } : State).Tidy := h.keep rfl
theorem withAudSkip {x : SMap Bool} (h : s.Tidy) : ({ s with audSkip := x } : State).Tidy := h.keep rfl
theorem withConns {x : List (Nat × Conn)} (h : s.Tidy) : ({ s with conns := x } : State).Tidy := h.keep rfl
theorem withGpApPp {x y z : SMap Nat} (h : s.Tidy) : ({ s with gp := x, ap := y, pp := z } : State).Tidy := h.keep rfl
theorem withRoundCellT {x y : Nat} (h : s.Tidy) : ({ s with round := x, cellT := y } : State).Tidy := h.keep rfl
theorem withTxs {x : SMap (Option Tx)} (h : s.Tidy) : ({ s with txs := x } : State).Tidy := h.keep rfl
theorem withWheelOvf {x y : SMap Nat} (h : s.Tidy) : ({ s with wheel := x, ovf := y } : State).Tidy := h.keep rfl
theorem withWheelOvfSlotNow {x y : SMap Nat} {z : Nat} (h : s.Tidy) : ({ s with wheel := x, ovf := y, slotNow := z } : State).Tidy := h.keep rfl
theorem withWheelSlotNow {x : SMap Nat} {y : Nat} (h : s.Tidy) : ({ s with wheel := x, slotNow := y } : State).Tidy := h.keep rfl
theorem withQuanta {x : SMap Nat} (h : s.Tidy) : ({ s with quanta := x } : State).Tidy := h.keep rfl
theorem withStamps {x : SMap (List (Nat × Nat))} (h : s.Tidy) : ({ s with stamps := x } : State).Tidy := h.keep rfl
theorem withCycBase {x : SMap Nat} (h : s.Tidy) : ({ s with cycBase := x } : State).Tidy := h.keep rfl
theorem withPoison {x : SMap Bool} (h : s.Tidy) : ({ s with poison := x } : State).Tidy := h.keep rfl
theorem withPoisonRefilled {x y : SMap Bool} (h : s.Tidy) : ({ s with poison := x, refilled := y } : State).Tidy := h.keep rfl
theorem withHbmQ {x : SMap (List HbmReq)} (h : s.Tidy) : ({ s with hbmQ := x } : State).Tidy := h.keep rfl
theorem withHbmQHbmLast {x : SMap (List HbmReq)} {y : SMap Nat} (h : s.Tidy) : ({ s with hbmQ := x, hbmLast := y } : State).Tidy := h.keep rfl
theorem withHbmWait {x : List HbmReq} (h : s.Tidy) : ({ s with hbmWait := x } : State).Tidy := h.keep rfl
theorem withRefilledHbmFillBcache {x : SMap Bool} {y : Bool} {z : SMap (List (Nat × List Byte))} (h : s.Tidy) :
    ({ s with refilled := x, hbmFill := y, bcache := z } : State).Tidy := h.keep rfl
theorem withRasLog {x : List Nat} (h : s.Tidy) : ({ s with rasLog := x } : State).Tidy := h.keep rfl
theorem withVecOpenVecPendVecMsg {x y z : SMap Bool} (h : s.Tidy) : ({ s with vecOpen := x, vecPend := y, vecMsg := z } : State).Tidy := h.keep rfl
theorem withVecPend {x : SMap Bool} (h : s.Tidy) : ({ s with vecPend := x } : State).Tidy := h.keep rfl
theorem withVecPendVecMsg {x y : SMap Bool} (h : s.Tidy) : ({ s with vecPend := x, vecMsg := y } : State).Tidy := h.keep rfl
theorem withGoingGoCommit {x : Option Nat} {y : Bool} (h : s.Tidy) : ({ s with going := x, goCommit := y } : State).Tidy := h.keep rfl
theorem withGoingGoCommitWakePend {x : Option Nat} {y : Bool} {z : Nat} (h : s.Tidy) :
    ({ s with going := x, goCommit := y, wakePend := z } : State).Tidy := h.keep rfl
theorem withGoCommit {x : Bool} (h : s.Tidy) : ({ s with goCommit := x } : State).Tidy := h.keep rfl
theorem withLinkReps {x : List LinkRep} (h : s.Tidy) : ({ s with linkReps := x } : State).Tidy := h.keep rfl
theorem withWakePend {x : Nat} (h : s.Tidy) : ({ s with wakePend := x } : State).Tidy := h.keep rfl
theorem withWakePendReplay {x : Nat} {y : Bool} (h : s.Tidy) : ({ s with wakePend := x, replay := y } : State).Tidy := h.keep rfl
theorem withReplayHold {x : Bool} {y : List Held} (h : s.Tidy) : ({ s with replay := x, hold := y } : State).Tidy := h.keep rfl
theorem withHold {x : List Held} (h : s.Tidy) : ({ s with hold := x } : State).Tidy := h.keep rfl
theorem withDbHeld {x : List (Bool × Nat × Nat × Nat)} (h : s.Tidy) : ({ s with dbHeld := x } : State).Tidy := h.keep rfl
theorem withWdogAt {x : SMap (List Nat)} (h : s.Tidy) : ({ s with wdogAt := x } : State).Tidy := h.keep rfl
theorem withUeAt {x : SMap (List Nat)} (h : s.Tidy) : ({ s with ueAt := x } : State).Tidy := h.keep rfl
theorem withRtDue {x : SMap Bool} (h : s.Tidy) : ({ s with rtDue := x } : State).Tidy := h.keep rfl
theorem withRtFails {x : SMap Nat} (h : s.Tidy) : ({ s with rtFails := x } : State).Tidy := h.keep rfl
theorem withPins {x : Pins} (h : s.Tidy) : ({ s with pins := x } : State).Tidy := h.keep rfl
theorem withFuses {x : Fuses} (h : s.Tidy) : ({ s with fuses := x } : State).Tidy := h.keep rfl
theorem withMrs {x : SMap Nat} (h : s.Tidy) : ({ s with mrs := x } : State).Tidy := h.keep rfl
theorem withProgs {x : SMap (Option (Nat × Nat))} (h : s.Tidy) : ({ s with progs := x } : State).Tidy := h.keep rfl
theorem withEm {x : SMap EmEnt} (h : s.Tidy) : ({ s with em := x } : State).Tidy := h.keep rfl
theorem withCommitPend {x : Bool} (h : s.Tidy) : ({ s with commitPend := x } : State).Tidy := h.keep rfl
theorem withMrMoves {x : List (Nat × Nat)} (h : s.Tidy) : ({ s with mrMoves := x } : State).Tidy := h.keep rfl
theorem withMrMovesMrIns {x : List (Nat × Nat)} {y : Option (Nat × TcRow)} (h : s.Tidy) :
    ({ s with mrMoves := x, mrIns := y } : State).Tidy := h.keep rfl
theorem withMrIns {x : Option (Nat × TcRow)} (h : s.Tidy) : ({ s with mrIns := x } : State).Tidy := h.keep rfl
theorem withBcache {x : SMap (List (Nat × List Byte))} (h : s.Tidy) : ({ s with bcache := x } : State).Tidy := h.keep rfl
theorem withEmBad {x : SMap Bool} (h : s.Tidy) : ({ s with emBad := x } : State).Tidy := h.keep rfl
theorem withTcBad {x : SMap Bool} (h : s.Tidy) : ({ s with tcBad := x } : State).Tidy := h.keep rfl
theorem withCtrs {x : SMap (Nat × Nat)} (h : s.Tidy) : ({ s with ctrs := x } : State).Tidy := h.keep rfl
theorem withDirty {x : SMap Bool} (h : s.Tidy) : ({ s with dirty := x } : State).Tidy := h.keep rfl
theorem withLearnQ {x : SMap (List Learn)} (h : s.Tidy) : ({ s with learnQ := x } : State).Tidy := h.keep rfl
theorem withLrnIn {x : List (List Byte)} (h : s.Tidy) : ({ s with lrnIn := x } : State).Tidy := h.keep rfl
theorem withLrnRecs {x : List LrnRec} (h : s.Tidy) : ({ s with lrnRecs := x } : State).Tidy := h.keep rfl
theorem withLrnOpen {x : List LrnRec} (h : s.Tidy) : ({ s with lrnOpen := x } : State).Tidy := h.keep rfl
theorem withDamps {x : List (Nat × Damp)} (h : s.Tidy) : ({ s with damps := x } : State).Tidy := h.keep rfl
theorem withRfAt {x : SMap Nat} (h : s.Tidy) : ({ s with rfAt := x } : State).Tidy := h.keep rfl
theorem withLrnPos {x : Nat} (h : s.Tidy) : ({ s with lrnPos := x } : State).Tidy := h.keep rfl
theorem withDumpPos {x : Nat} (h : s.Tidy) : ({ s with dumpPos := x } : State).Tidy := h.keep rfl
theorem withVfEn {x : SMap Bool} (h : s.Tidy) : ({ s with vfEn := x } : State).Tidy := h.keep rfl
theorem withInstRes {x : SMap (Option (List W32))} (h : s.Tidy) : ({ s with instRes := x } : State).Tidy := h.keep rfl
theorem withInstResInstStg {x y : SMap (Option (List W32))} (h : s.Tidy) : ({ s with instRes := x, instStg := y } : State).Tidy := h.keep rfl
theorem withInstStg {x : SMap (Option (List W32))} (h : s.Tidy) : ({ s with instStg := x } : State).Tidy := h.keep rfl
theorem withRstHeld {x : SMap Bool} (h : s.Tidy) : ({ s with rstHeld := x } : State).Tidy := h.keep rfl
theorem withDmas {x : SMap (Option Dma)} (h : s.Tidy) : ({ s with dmas := x } : State).Tidy := h.keep rfl
theorem withDmasDmaQ {x : SMap (Option Dma)} {y : List DmaOp} (h : s.Tidy) : ({ s with dmas := x, dmaQ := y } : State).Tidy := h.keep rfl
theorem withDmaQ {x : List DmaOp} (h : s.Tidy) : ({ s with dmaQ := x } : State).Tidy := h.keep rfl
theorem withCfgReady {x : Bool} (h : s.Tidy) : ({ s with cfgReady := x } : State).Tidy := h.keep rfl
theorem withFumEntryBootSvnReleased {x y : Nat} {z : Bool} (h : s.Tidy) :
    ({ s with fumEntry := x, bootSvn := y, released := z } : State).Tidy := h.keep rfl
theorem withMbx {x : SMap Byte} (h : s.Tidy) : ({ s with mbx := x } : State).Tidy := h.keep rfl
theorem withBsr {x : List Bool} (h : s.Tidy) : ({ s with bsr := x } : State).Tidy := h.keep rfl

theorem ite {c : Prop} {_ : Decidable c} (hs : s.Tidy) (ht : t.Tidy) : State.Tidy (if c then s else t) := ite_of hs ht

theorem foldl {f : State → α → State} {l : List α} (h : s.Tidy) (hf : ∀ t x, t.Tidy → (f t x).Tidy) : (l.foldl f s).Tidy := foldl_of h hf

end State.Tidy

namespace TidyPair
variable {α : Type} {x : α} {t : State} {p q : α × State}

theorem of (h : t.Tidy) : TidyPair (x, t) := ⟨h⟩

theorem of_eq (h : TidyPair p) (eq : p = (x, t)) : t.Tidy := by
  subst eq
  exact h.snd

theorem ite {c : Prop} {_ : Decidable c} (hp : TidyPair p) (hq : TidyPair q) : TidyPair (if c then p else q) := ite_of hp hq

end TidyPair

namespace TidyOpt
variable {t : State} {o o' : Option State}

theorem some (h : t.Tidy) : TidyOpt (.some t) := fun _ eq => Option.some.inj eq ▸ h

theorem none : TidyOpt .none := fun _ eq => by cases eq

theorem of_eq (h : TidyOpt o) (eq : o = .some t) : t.Tidy := h t eq

theorem ite {c : Prop} {_ : Decidable c} (ho : TidyOpt o) (ho' : TidyOpt o') : TidyOpt (if c then o else o') := ite_of ho ho'

end TidyOpt

namespace TidyOptPair
variable {α : Type} {x : α} {t : State} {o o' : Option (α × State)}

theorem some (h : t.Tidy) : TidyOptPair (.some (x, t)) := fun _ _ eq => by
  cases eq
  exact h

theorem none : TidyOptPair (α := α) .none := fun _ _ eq => by cases eq

theorem of_eq (h : TidyOptPair o) (eq : o = .some (x, t)) : t.Tidy := h x t eq

theorem ite {c : Prop} {_ : Decidable c} (ho : TidyOptPair o) (ho' : TidyOptPair o') : TidyOptPair (if c then o else o') := ite_of ho ho'

end TidyOptPair

namespace TidyResult
variable {t : State} {r r' : Result}

theorem next (h : t.Tidy) : TidyResult (.next t) := fun _ eq => by
  cases eq
  exact h

theorem ite {c : Prop} {_ : Decidable c} (hr : TidyResult r) (hr' : TidyResult r') : TidyResult (if c then r else r') := ite_of hr hr'

end TidyResult

namespace State.Tidy

section
variable {s : State}

/-! ### The functions of Machine/State.lean -/

theorem reset : State.reset.Tidy := ⟨by decide +kernel, rfl, rfl, rfl⟩

/-! ### The functions of Machine/Ops.lean -/

theorem setReg {a : Nat} {v : W32} (h : s.Tidy) : (s.setReg a v).Tidy := ⟨smWf_smSet _ _ _ _ h.regs, h.mem, h.near, h.flash⟩

theorem setFld {a : Nat} {f : Fld} {x : Nat} (h : s.Tidy) : (s.setFld a f x).Tidy := h.setReg

theorem cnt {a : Nat} (h : s.Tidy) : (s.cnt a).Tidy := .ite h h.setReg

theorem cntN {a n : Nat} (h : s.Tidy) : (s.cntN a n).Tidy := h.setReg

theorem setReg64 {a n : Nat} (h : s.Tidy) : (s.setReg64 a n).Tidy := h.setReg.setReg

theorem cnt64 {a n : Nat} (h : s.Tidy) : (s.cnt64 a n).Tidy := h.setReg64

theorem raise {page b : Nat} (h : s.Tidy) : (s.raise page b).Tidy := h.setReg

theorem viol {page agent type seg off : Nat} (h : s.Tidy) : (s.viol page agent type seg off).Tidy := setReg (.ite h h.setReg)

theorem violAt {agent type addr : Nat} (h : s.Tidy) : (s.violAt agent type addr).Tidy := h.viol

theorem fresh (h : s.Tidy) : TidyPair s.fresh := by
  unfold State.fresh
  exact .of h.withFreeCtr

theorem emit {o : Out} (h : s.Tidy) : (s.emit o).Tidy := h.keep rfl

theorem point {a : Nat} (h : s.Tidy) : (s.point a).Tidy := h.keep rfl

theorem lateAbort {a : Nat} {f : Fld} (h : s.Tidy) : (s.lateAbort a f).Tidy := .ite h.setFld h

theorem wr8 {a : Nat} {b : Byte} (h : s.Tidy) : (s.wr8 a b).Tidy := ⟨h.regs, smWf_smSet _ _ _ _ h.mem, h.near, h.flash⟩

theorem wrBytes {a : Nat} {bs : List Byte} (h : s.Tidy) : (s.wrBytes a bs).Tidy :=
  ⟨h.regs, smWf_wrMap _ _ _ h.mem, h.near, h.flash⟩

theorem wrLE {a n v : Nat} (h : s.Tidy) : (s.wrLE a n v).Tidy := h.wrBytes

theorem setThr {a : Nat} {t : Thr} (h : s.Tidy) : (s.setThr a t).Tidy := h.keep rfl

theorem setEng {e : Nat} {g : Eng} (h : s.Tidy) : (s.setEng e g).Tidy := h.keep rfl

theorem setTask {k : Nat} {t : Tce} (h : s.Tidy) : (s.setTask k t).Tidy := h.keep rfl

theorem setLock {n : Nat} {l : Lock} (h : s.Tidy) : (s.setLock n l).Tidy := h.keep rfl

theorem setReadyL {a p : Nat} {l : List Nat} (h : s.Tidy) : (s.setReadyL a p l).Tidy := h.keep rfl

theorem setDelayL {g : Nat} {l : List (Nat × Nat)} (h : s.Tidy) : (s.setDelayL g l).Tidy := h.keep rfl

theorem setTimeAt {a ns : Nat} (h : s.Tidy) : (s.setTimeAt a ns).Tidy := h.setReg.setReg.setReg

/-! ### The functions of Machine/Irq.lean -/

theorem setSoft {n : Nat} {b : Bool} (h : s.Tidy) : (s.setSoft n b).Tidy := h.setReg

theorem setService {n : Nat} {b : Bool} (h : s.Tidy) : (s.setService n b).Tidy := h.setReg

theorem serve {n : Nat} (h : s.Tidy) : (s.serve n).Tidy := .ite h.setService.setSoft h.setService

theorem logErr {sev block inst code loc : Nat} (h : s.Tidy) : (s.logErr sev block inst code loc).Tidy := by
  unfold State.logErr
  extract_lets +onlyGivenNames s1
  have ks1 : s1.Tidy := .ite h.cnt (.ite h.cnt (.ite h.cnt h))
  refine .ite ks1 ?_
  exact .ite (cnt (.ite ks1.raise ks1)) (.ite (raise (withRasLog (.ite ks1.raise ks1))) (withRasLog (.ite ks1.raise ks1)))

/-! ### The functions of Machine/Hbm.lean -/

theorem unpoison {a : Nat} (h : s.Tidy) : (s.unpoison a).Tidy := by
  unfold State.unpoison
  dsimp only
  split
  · exact .ite h.withPoisonRefilled h.withPoison
  · exact h.withPoison

theorem hbmWrite {a : Nat} {bs : List Byte} (h : s.Tidy) : (s.hbmWrite a bs).Tidy := by
  induction bs generalizing s a with
  | nil => exact h
  | cons b bs ih =>
    refine ih ?_
    split
    · exact h.wr8.unpoison
    · exact h

theorem hbmOffer {r : HbmReq} (h : s.Tidy) : (s.hbmOffer r).Tidy := .ite h.withHbmWait h.withHbmQ

theorem hbmAsk {client : Nat} {wr : Bool} {a n : Nat} (h : s.Tidy) : (s.hbmAsk client wr a n).Tidy :=
  .ite h (.foldl h fun _ _ h1 => .ite h1.hbmOffer h1)

theorem hbmPut {client a : Nat} {bs : List Byte} (h : s.Tidy) : (s.hbmPut client a bs).Tidy := h.hbmWrite.hbmAsk

theorem hbmAdmit {k : Nat} (h : s.Tidy) : (s.hbmAdmit k).Tidy := by
  unfold State.hbmAdmit
  split
  · exact h.withHbmWait.hbmOffer
  · exact h

theorem hbmForget {pc : Nat} (h : s.Tidy) : (s.hbmForget pc).Tidy := h.keep rfl

/-! ### The functions of Machine/Sinter.lean -/

theorem setPkt {k : Nat} {q : Pkt} (h : s.Tidy) : (s.setPkt k q).Tidy := h.keep rfl

theorem delPkt {k : Nat} (h : s.Tidy) : (s.delPkt k).Tidy := h.keep rfl

theorem setPool {k : Nat} {p : Pool} (h : s.Tidy) : (s.setPool k p).Tidy := h.keep rfl

theorem setDesc {p : Nat} {d : Word} (h : s.Tidy) : (s.setDesc p d).Tidy := h.keep rfl

theorem audSkipIf {p : Nat} (h : s.Tidy) : (s.audSkipIf p).Tidy := .ite h.withAudSkip h

theorem popBuf {k : Nat} (h : s.Tidy) : TidyOptPair (s.popBuf k) := by
  unfold State.popBuf
  dsimp only
  split
  · exact .some h.setPool.cnt64.audSkipIf
  · exact .ite (.some h.setPool.cnt64.audSkipIf) .none

theorem pushBuf {ptr : Nat} (h : s.Tidy) : (s.pushBuf ptr).Tidy := .ite h.cnt64.audSkipIf.setPool h.cnt64.audSkipIf.cnt.raise

theorem setAcct {a : Nat} {c : Acct} (h : s.Tidy) : (s.setAcct a c).Tidy := h.keep rfl

theorem evalXoff {a : Nat} (h : s.Tidy) : (s.evalXoff a).Tidy := h.setAcct

theorem admission {a b : Nat} (h : s.Tidy) : TidyOpt (s.admission a b) :=
  .ite (.some h.setAcct.evalXoff) (.ite (.some h.setAcct.evalXoff) (.ite (.some h.setAcct.evalXoff) .none))

theorem charge {a b : Nat} (h : s.Tidy) : (s.charge a b).Tidy := evalXoff (.ite h.setAcct h.setAcct)

theorem uncharge {a b : Nat} (h : s.Tidy) : (s.uncharge a b).Tidy := .ite h.setAcct.evalXoff.cnt.raise h.setAcct.evalXoff

theorem alloc {k acct owner : Nat} {test : Bool} (h : s.Tidy) : TidyPair (s.alloc k acct owner test) := by
  unfold State.alloc
  refine .ite (.of h) ?_
  split
  · exact .of h
  · next eq =>
      have k1 := TidyOpt.of_eq (.ite h.admission (.some h.charge)) eq
      split
      · exact .of h
      · split
        · next eq => exact .of (k1.popBuf.of_eq eq).setDesc
        · exact .of h

theorem bufWrite {ptr off : Nat} {bs : List Byte} (h : s.Tidy) : (s.bufWrite ptr off bs).Tidy :=
  ⟨h.regs, h.mem, smWf_wrMap _ _ _ h.near, h.flash⟩

theorem bufFill {ptr : Nat} {bs : List Byte} (h : s.Tidy) : (s.bufFill ptr bs).Tidy := h.bufWrite.setDesc

theorem storeFrame {k acct owner maxfrm : Nat} {test : Bool} {bs : List Byte} (h : s.Tidy) : TidyPair (s.storeFrame k acct owner maxfrm test bs) := by
  unfold State.storeFrame
  split
  · next eq => exact .of (h.alloc.of_eq eq).cnt
  · next eq => exact .of (h.alloc.of_eq eq).cnt
  · next eq =>
      have k1 := h.alloc.of_eq eq
      refine .ite (.of k1.bufFill) ?_
      split
      · next eq => exact .of (k1.bufFill.alloc.of_eq eq).setDesc.cnt.bufFill
      · next eq => exact .of (k1.bufFill.alloc.of_eq eq).cnt

theorem chainWrite {p skip : Nat} {bs : List Byte} (h : s.Tidy) : (s.chainWrite p skip bs).Tidy := .ite (.ite h.bufWrite.bufWrite h.bufWrite) h

theorem freeChain {p owner : Nat} (h : s.Tidy) : (s.freeChain p owner).Tidy := .foldl h fun _ _ h1 => .ite h1.pushBuf.uncharge h1

theorem setCopy {n : Nat} {c : Option (Nat × Pkt)} (h : s.Tidy) : (s.setCopy n c).Tidy := h.keep rfl

theorem copyRelease {n : Nat} (h : s.Tidy) : (s.copyRelease n).Tidy := by
  unfold State.copyRelease
  split
  · exact h
  · exact .ite h.setCopy.freeChain h.setCopy

theorem releaseBufs {k : Nat} (h : s.Tidy) : (s.releaseBufs k).Tidy := by
  unfold State.releaseBufs
  dsimp only
  split
  · exact h.setPkt.copyRelease
  · exact .ite h.setPkt h.setPkt.freeChain

theorem viewAdd {v : Nat} (h : s.Tidy) : (s.viewAdd v).Tidy := h.setReg

theorem viewSub {v : Nat} (h : s.Tidy) : (s.viewSub v).Tidy := .ite h.setReg.setFld.raise.raise h.setReg

theorem endPkt {k : Nat} (h : s.Tidy) : (s.endPkt k).Tidy := by
  unfold State.endPkt
  dsimp only
  split
  · exact h.releaseBufs.delPkt.viewSub
  · exact h.releaseBufs.delPkt

theorem giveUp {k : Nat} (h : s.Tidy) : (s.giveUp k).Tidy := .ite h.endPkt h.setPkt

theorem newPkt {q : Pkt} (h : s.Tidy) : TidyPair (s.newPkt q) := by
  unfold State.newPkt
  exact .of h.setPkt.withNextId

theorem setSrc {p port : Nat} {l : List Nat} (h : s.Tidy) : (s.setSrc p port l).Tidy := h.keep rfl

theorem toParser {p : Nat} {q : Pkt} (h : s.Tidy) : (s.toParser p q).Tidy := by
  unfold State.toParser
  split
  next eq =>
    have k1 := h.newPkt.of_eq eq
    exact .ite k1.endPkt.cnt k1.setSrc

theorem evalAll (h : s.Tidy) : s.evalAll.Tidy := .foldl h fun _ _ h1 => h1.evalXoff

theorem sintCommand {who : Nat} (h : s.Tidy) : TidyPair (s.sintCommand who) := by
  unfold State.sintCommand
  refine .ite (.of h) ?_
  refine .ite ?_ ?_
  · dsimp only
    split
    · exact .of h
    · next eq =>
        have k1 := h.admission.of_eq eq
        split
        · exact .of h
        · next eq => exact .of (k1.popBuf.of_eq eq).setDesc.setReg
  · refine .ite ?_ ?_
    · refine .ite (.of h) ?_
      refine .ite (.of h.setReg.setReg) ?_
      exact .ite (.of h.viol) (.ite (.of (.ite (.foldl h fun _ _ h1 => h1.setDesc) h)) (.of h.freeChain))
    · refine .ite ?_ (.of h)
      exact .ite (.of h) (.ite (.of h) (.ite (.of h.viol) (.of (toParser (.foldl h fun _ _ h1 => h1.setDesc)))))

theorem sintGo {who : Nat} (h : s.Tidy) : (s.sintGo who).Tidy := by
  unfold State.sintGo
  split
  next eq => exact (h.sintCommand.of_eq eq).setFld.setReg.raise

theorem poolApply (h : s.Tidy) : s.poolApply.Tidy := .ite h.setFld (.ite h.setFld (setFld (.foldl h fun _ _ h1 => h1.setPool)))

theorem auditEnd (h : s.Tidy) : s.auditEnd.Tidy := by
  unfold State.auditEnd
  extract_lets +onlyGivenNames a k refs p seen inStk lost leak sw dup s1 take s3 s2
  have ks1 : s1.Tidy := h.setReg.setReg.setReg.setReg
  have ks2 : s2.Tidy := .ite (.foldl ks1.setPool fun _ _ h1 => h1.pushBuf.uncharge) ks1
  exact ks2.withAudSkip.setFld.point.raise

theorem auditStart (h : s.Tidy) : s.auditStart.Tidy := h.withAudSkip.setReg.setReg.setReg.setReg.setFld

theorem auditAbort (h : s.Tidy) : s.auditAbort.Tidy := .ite h.withAudSkip.setFld.setFld.raise h.lateAbort

/-! ### The functions of Machine/Meter.lean -/

theorem setMeter {half i : Nat} {m : Meter} (h : s.Tidy) : (s.setMeter half i m).Tidy := h.keep rfl

theorem meterPoint {p k : Nat} {egress : Bool} (h : s.Tidy) : TidyPair (s.meterPoint p k egress) := by
  unfold State.meterPoint
  refine .ite ?_ (.of h)
  dsimp only
  exact .ite (.of h.setMeter.setPkt.cnt64.cnt) (.of h.setMeter.setPkt.cnt64)

theorem mtrCommand {half : Nat} (h : s.Tidy) : TidyPair (s.mtrCommand half) := by
  unfold State.mtrCommand
  dsimp only
  split
  · exact .of h
  · exact .ite (.of h) (.of h.setMeter)
  · exact .of h.setReg.setReg.setReg.setReg.setReg.setReg.setReg
  · exact .of h.setMeter
  · exact .of h

theorem mtrGo {half : Nat} (h : s.Tidy) : (s.mtrGo half).Tidy := by
  unfold State.mtrGo
  split
  next eq => exact (h.mtrCommand.of_eq eq).setFld.setReg.raise

/-! ### The functions of Machine/Geyser.lean -/

theorem event {a ev : Nat} (h : s.Tidy) : (s.event a ev).Tidy := h.setThr

theorem wakeCore {a : Nat} (h : s.Tidy) : (s.wakeCore a).Tidy := .ite h (.ite h.withCoreWakes h)

theorem tephraPut {rec : Word} (h : s.Tidy) : (s.tephraPut rec).Tidy := by
  unfold State.tephraPut
  refine .ite h.cnt ?_
  exact .ite (raise (setFld (setReg (.ite (.ite h.wrLE h) h.withTephra)))) (setReg (.ite (.ite h.wrLE h) h.withTephra))

theorem tephraTask {k : Nat} {frm dst : TaskSt} {reason : Nat} (h : s.Tidy) : (s.tephraTask k frm dst reason).Tidy := .ite h.tephraPut h

theorem unready {k : Nat} (h : s.Tidy) : (s.unready k).Tidy := h.setReadyL

theorem untime {k : Nat} (h : s.Tidy) : (s.untime k).Tidy := by
  unfold State.untime
  exact h.setDelayL.withTmouts

theorem armTime {k arg : Nat} (h : s.Tidy) : (s.armTime k arg).Tidy := .ite h.withTmouts h.setDelayL

theorem makeReady {k reason cause : Nat} {atHead : Bool} (h : s.Tidy) : (s.makeReady k reason cause atHead).Tidy := h.setTask.setReadyL.tephraTask

theorem release {k reason : Nat} (h : s.Tidy) : (s.release k reason).Tidy := by
  unfold State.release
  dsimp only
  split
  · exact h
  · exact h.untime.makeReady
  · exact h.setTask.cnt

theorem timeUp {k : Nat} (h : s.Tidy) : (s.timeUp k).Tidy := by
  unfold State.timeUp
  split
  · exact h.makeReady
  · exact h.makeReady
  · exact h

theorem setEprio {k p : Nat} (h : s.Tidy) : (s.setEprio k p).Tidy := by
  unfold State.setEprio
  refine .ite h ?_
  dsimp only
  split
  · exact h.unready.setTask.setReadyL.tephraTask
  · exact h.setTask.tephraTask

theorem dropPrio {k : Nat} (h : s.Tidy) : (s.dropPrio k).Tidy := .ite h h.setEprio

theorem tellGrant {w : Waiter} (h : s.Tidy) : (s.tellGrant w).Tidy := wakeCore (.ite h.setThr.event h.setThr.setTask)

theorem passLock {n : Nat} (h : s.Tidy) : (s.passLock n).Tidy := by
  unfold State.passLock
  dsimp only
  split
  · exact h.setLock
  · exact h.setLock.tellGrant.cnt64

theorem lockAcquire {a n : Nat} (h : s.Tidy) : TidyPair (s.lockAcquire a n) := .ite (.ite (.of h) (.of h.cnt64)) (.of h.setLock.cnt64)

theorem inherit {n q fuel : Nat} (h : s.Tidy) : (s.inherit n q fuel).Tidy := by
  induction fuel generalizing s n q with
  | zero => exact h.cnt
  | succ fuel ih =>
    refine .ite h ?_
    split
    · exact h.setEprio
    · exact .ite (ih h.setEprio.setLock) h.setEprio

theorem lockQueue {a n : Nat} (h : s.Tidy) : (s.lockQueue a n).Tidy := .ite h.setLock.setThr.inherit h.setLock.tellGrant.cnt64

theorem lockRelease {n : Nat} (h : s.Tidy) : (s.lockRelease n).Tidy := h.setLock.passLock.dropPrio

theorem lockAbandon {n : Nat} (h : s.Tidy) : (s.lockAbandon n).Tidy := h.setLock.cnt.raise.passLock.dropPrio

theorem abandonWhere {p : Nat → Nat → Bool} (h : s.Tidy) : (s.abandonWhere p).Tidy := .foldl h fun _ _ h1 => h1.lockAbandon

theorem dropRequests {a : Nat} (h : s.Tidy) : (s.dropRequests a).Tidy := by
  unfold State.dropRequests
  split
  · exact h
  · exact h.setLock.setThr.dropPrio

theorem abandonAgent {a : Nat} (h : s.Tidy) : (s.abandonAgent a).Tidy := h.dropRequests.abandonWhere

theorem abandonTask {k : Nat} (h : s.Tidy) : (s.abandonTask k).Tidy := h.abandonWhere

theorem settle {a : Nat} (h : s.Tidy) : (s.settle a).Tidy := .ite h h.setThr.setEng

theorem saveTask {a k : Nat} (h : s.Tidy) : (s.saveTask a k).Tidy := h.setTask.wrBytes

theorem loadTask {a k reason : Nat} (h : s.Tidy) : (s.loadTask a k reason).Tidy := h.unready.setTask.setThr.tephraTask.cnt64

theorem nextTask {a : Nat} (h : s.Tidy) : (s.nextTask a).Tidy := by
  unfold State.nextTask
  dsimp only
  split
  · exact h.settle.setThr.loadTask
  · exact h.settle.setThr

theorem taskOff {k reason : Nat} (h : s.Tidy) : (s.taskOff k reason).Tidy := abandonTask (tephraTask (setTask (.ite h.unready h.untime)))

theorem abortTask {a : Nat} (h : s.Tidy) : (s.abortTask a).Tidy := by
  unfold State.abortTask
  split
  · exact h
  · exact .ite h.setThr.taskOff.cnt.raise h.setThr

theorem portCommand {a op k2 arg : Nat} (h : s.Tidy) : (s.portCommand a op k2 arg).Tidy := by
  unfold State.portCommand
  extract_lets +onlyGivenNames s t st
  split
  · exact h.settle.setThr
  · refine .ite h.settle.setThr.nextTask ?_
    refine .ite h.settle.saveTask.makeReady.setThr.nextTask ?_
    refine .ite ?_ ?_
    · refine .ite h.settle.setTask.setThr.setThr ?_
      extract_lets +onlyGivenNames s1
      have ks1 : s1.Tidy := h.settle.saveTask.setTask.tephraTask
      exact nextTask (setThr (.ite ks1 ks1.armTime))
    · refine .ite h.settle.saveTask.setTask.tephraTask.armTime.setThr.nextTask ?_
      refine .ite (.ite h.settle.setThr h.settle.release.setThr) ?_
      exact .ite h.settle.taskOff.setThr.nextTask h.settle.setThr

theorem tskCommand {op k : Nat} (h : s.Tidy) : TidyPair (s.tskCommand op k) := by
  unfold State.tskCommand
  refine .ite ?_ ?_
  · exact .ite (.of h) (.ite (.of h) (.ite (.of h) (.of h.setTask.makeReady)))
  · refine .ite (.ite (.of h) (.of h.release)) ?_
    exact .ite (.ite (.of h) (.ite (.of (.ite h.taskOff.nextTask h.taskOff.setThr)) (.of h.taskOff))) (.of h)

theorem dueDelays {g n : Nat} {l : List (Nat × Nat)} (h : s.Tidy) : (s.dueDelays g n l).Tidy := by
  induction l generalizing s n with
  | nil => exact h.setDelayL
  | cons e l ih => exact .ite (ih h.timeUp) h.setDelayL

theorem groupTicks {g n : Nat} (h : s.Tidy) : (s.groupTicks g n).Tidy := h.setReg.dueDelays

/-! ### The functions of Machine/Thread.lean -/

theorem setX {a n : Nat} {v : Word} (h : s.Tidy) : (s.setX a n v).Tidy := h.setThr

theorem setPc {a pc : Nat} (h : s.Tidy) : (s.setPc a pc).Tidy := h.setThr

theorem setFlg {a : Nat} {f : BitVec 4} (h : s.Tidy) : (s.setFlg a f).Tidy := h.setThr

theorem issued {a len : Nat} {k : Kind} (h : s.Tidy) : (s.issued a len k).Tidy := .ite h.setThr.setEng.cnt64 h.setThr.setEng

theorem joined {a len : Nat} {k : Kind} (h : s.Tidy) : (s.joined a len k).Tidy := h.setThr.setEng

theorem took {a len : Nat} {ns : List Nat} {k : Kind} (h : s.Tidy) : (s.took a len ns k).Tidy := .ite h.joined h.issued

theorem instr {a len : Nat} {ns : List Nat} {k : Kind} {f : State → State} (h : s.Tidy) (hf : ∀ u, u.Tidy → (f u).Tidy) :
    TidyResult (s.instr a len ns k f) := .ite (.next (hf _ h.took)) (.next h)

theorem segViol {a seg off typ : Nat} (h : s.Tidy) : (s.segViol a seg off typ).Tidy := .ite h.viol h.viol

theorem placeRead {a : Nat} {p : Place} {n : Nat} (h : s.Tidy) : TidyPair (s.placeRead a p n) := by
  unfold State.placeRead
  split
  · exact .of h
  · split
    exact .of (hbmAsk (.ite h.withFreeCtr h))
  · exact .of h
  · exact .of h
  · exact .of h
  · exact .of h

theorem placeWrite {a : Nat} {p : Place} {bs : List Byte} (h : s.Tidy) : (s.placeWrite a p bs).Tidy := by
  unfold State.placeWrite
  split
  · exact h.wrBytes
  · exact h.hbmPut
  · exact h.withPkts
  · exact h.setThr
  · exact h
  · exact h

theorem fetch {a hw : Nat} (h : s.Tidy) : TidyPair (s.fetch a hw) := by
  unfold State.fetch
  split
  · split
    next eq => exact .of (h.placeRead.of_eq eq)
  · exact .of h.segViol

theorem spill {a : Nat} (h : s.Tidy) : (s.spill a).Tidy := by
  unfold State.spill
  extract_lets +onlyGivenNames t bs s1
  have ks1 : s1.Tidy := by
    unfold s1
    split
    · exact h.placeWrite.setThr
    · exact h.segViol
  exact ks1.setThr

theorem cutSpill {a : Nat} (h : s.Tidy) : (s.cutSpill a).Tidy := by
  unfold State.cutSpill
  split
  · exact h
  · exact .ite h h.wrBytes.withFreeCtr

theorem fill {a : Nat} (h : s.Tidy) : (s.fill a).Tidy := by
  refine setThr ?_
  split
  · exact h.placeRead.snd
  · exact h.segViol

theorem callTo {a target : Nat} (h : s.Tidy) : (s.callTo a target).Tidy := by
  unfold State.callTo
  exact withFreeCtr (setThr (.ite h.spill h.setThr))

theorem retFrom {a : Nat} (h : s.Tidy) : (s.retFrom a).Tidy := .ite h.setThr.fill h.setThr.setThr

theorem markDiscard {k : Nat} (h : s.Tidy) : (s.markDiscard k).Tidy := h.keep rfl

theorem threadReset {a : Nat} {wdog : Bool} {n : Nat} (h : s.Tidy) : (s.threadReset a wdog n).Tidy := by
  unfold State.threadReset
  extract_lets +onlyGivenNames t e s1 s2 s3 run g
  have ks1 : s1.Tidy := h.cutSpill.abandonAgent.abortTask
  have ks2 : s2.Tidy := by
    unfold s2
    split
    · exact .ite ks1.withPkts ks1.markDiscard.cnt
    · exact ks1
  exact ks2.cntN.setEng.setThr

theorem doubleFault {a : Nat} (h : s.Tidy) : (s.doubleFault a).Tidy := .ite h.threadReset (.ite h.setThr.raise h.setThr)

theorem excp {a cause epc : Nat} {info : Word} (h : s.Tidy) : (s.excp a cause epc info).Tidy := .ite h.doubleFault h.setThr

theorem excpAt {a len cause : Nat} {info : Word} (h : s.Tidy) : (s.excpAt a len cause info).Tidy := h.excp

theorem undef {a enc : Nat} {lg : Bool} {src code : Nat} (h : s.Tidy) : (s.undef a enc lg src code).Tidy := h.excpAt

theorem eretTo {a : Nat} (h : s.Tidy) : (s.eretTo a).Tidy := h.setThr

theorem sregSet {a n : Nat} {v : Word} (h : s.Tidy) : (s.sregSet a n v).Tidy := by
  unfold State.sregSet
  dsimp only
  split
  · exact h.setThr
  · exact h.setThr
  · exact h.setThr
  · exact h.setThr
  · exact h.setThr
  · exact h.setThr
  · exact h.setThr
  · exact h.setThr
  · exact h.setThr
  · exact h.setThr
  · exact .ite h.setThr h

theorem sregViol {a n typ : Nat} (h : s.Tidy) : (s.sregViol a n typ).Tidy := h.viol

theorem sregWrite {a n : Nat} {v : Word} (h : s.Tidy) : (s.sregWrite a n v).Tidy := .ite h.sregViol (.ite h.sregViol (.ite h.sregViol h.sregSet))

/-! ### The functions of Machine/Stage.lean -/

theorem holdFrom {s0 : State} {p : Nat} (h : s.Tidy) : (s.holdFrom s0 p).Tidy := .ite h.raise h

theorem setTxq {port c : Nat} {l : List Nat} (h : s.Tidy) : (s.setTxq port c l).Tidy := h.keep rfl

theorem setVoqIn {p : Nat} {l : List Nat} (h : s.Tidy) : (s.setVoqIn p l).Tidy := h.keep rfl

theorem handOff {e k : Nat} {toTx : State → Nat → State} (h : s.Tidy) (hto : ∀ u k, u.Tidy → (toTx u k).Tidy) : (s.handOff e k toTx).Tidy :=
  .ite h.setVoqIn (.ite (hto _ _ h) h.setEng)

theorem turnEvent {e : Nat} (h : s.Tidy) : (s.turnEvent e).Tidy := by
  unfold State.turnEvent
  split
  · split
    · exact h.event
    · exact h
  · exact h

theorem leave {e k : Nat} (h : s.Tidy) : (s.leave e k).Tidy := h.setEng

theorem commitSend {e k a : Nat} {toTx : State → Nat → State} (h : s.Tidy) (hto : ∀ u k, u.Tidy → (toTx u k).Tidy) :
    (s.commitSend e k a toTx).Tidy := (h.setPkt.setThr.leave.cnt64.handOff hto).turnEvent

theorem commitDiscard {e k : Nat} {toTx : State → Nat → State} (h : s.Tidy) (hto : ∀ u k, u.Tidy → (toTx u k).Tidy) :
    (s.commitDiscard e k toTx).Tidy := ((setPkt (.ite h.cnt64 h)).leave.handOff hto).turnEvent

theorem execPacketDelivery_tidy {eng : EngN} (h : s.Tidy) : TidyResult (execPacketDelivery eng s) := by
  unfold execPacketDelivery
  dsimp only
  split
  · exact .next h
  · refine .ite (.next h) ?_
    split
    · exact .next h
    · exact .next (.ite h.setThr.setEng.event.event h.setThr.setEng.event)

theorem passDeadlock {e a : Nat} {was : Thr} (h : s.Tidy) : (s.passDeadlock e a was).Tidy := by
  unfold State.passDeadlock
  dsimp only
  split
  · exact .ite h.setFld.event h
  · exact h

theorem wdogExpire {e : Nat} (h : s.Tidy) : (s.wdogExpire e).Tidy := by
  unfold State.wdogExpire
  refine .ite ?_ h.cnt.raise
  split
  · exact h.cnt.raise
  · split
    · exact h.cnt.raise.threadReset.passDeadlock
    · exact h.cnt.raise.markDiscard.cnt

theorem execEventDeadlock_tidy {eng : EngN} (h : s.Tidy) : TidyResult (execEventDeadlock eng s) := by
  unfold execEventDeadlock
  refine .ite ?_ (.next h)
  split
  · exact .next h
  · exact .next h.event.setReg.cnt.raise

theorem resetThreads {e bits n : Nat} (h : s.Tidy) : (s.resetThreads e bits n).Tidy :=
  .foldl (.foldl h fun _ _ h1 => h1.dropRequests) fun _ _ h1 => h1.threadReset

theorem engineReset {e : Nat} (h : s.Tidy) : (s.engineReset e).Tidy := h.resetThreads

theorem engCtl {e who : Nat} {v : W32} (h : s.Tidy) : (s.engCtl e who v).Tidy := by
  unfold State.engCtl
  extract_lets +onlyGivenNames c old was nv s1
  have ks1 : s1.Tidy := .ite h.violAt.setReg h.setReg
  exact .ite (.foldl ks1 fun _ _ h1 => .ite h1.setThr h1) ks1

theorem engThrCfg {e who : Nat} {v : W32} (h : s.Tidy) : (s.engThrCfg e who v).Tidy := .ite h.violAt h.setReg.resetThreads

/-! ### The functions of Machine/Queues.lean -/

theorem setVoq {key : Nat} {l : List VEnt} (h : s.Tidy) : (s.setVoq key l).Tidy := h.keep rfl

theorem setVt {e v : Nat} (h : s.Tidy) : (s.setVt e v).Tidy := h.keep rfl

theorem whlInsert {e t : Nat} (h : s.Tidy) : (s.whlInsert e t).Tidy := .ite h.withWheelOvf (.ite h.withWheelOvf h.withWheelOvf)

theorem entWake {e : Nat} (h : s.Tidy) : (s.entWake e).Tidy := h.setVt

theorem wakes {s0 : State} {x : Nat} (h : s.Tidy) : (s0.wakes s x).Tidy := by
  unfold State.wakes
  refine .ite h ?_
  dsimp only
  split
  · exact .ite (entWake (.ite h.entWake h)) (.ite h.entWake h)
  · exact .ite h.entWake h

theorem wakeAll {s0 : State} (h : s.Tidy) : (s0.wakeAll s).Tidy := .foldl h fun _ _ h1 => h1.wakes

theorem dropEnt {v : VEnt} (h : s.Tidy) : (s.dropEnt v).Tidy := .ite (.ite h.endPkt h.setPkt) h.endPkt

theorem blockUnref {key b : Nat} (h : s.Tidy) : (s.blockUnref key b).Tidy := .ite h.withDeepStkDeepRefsDeepOpen h.withDeepRefs

theorem freeDeep {key : Nat} {v : VEnt} (h : s.Tidy) : (s.freeDeep key v).Tidy := by
  unfold State.freeDeep
  split
  · exact .foldl h fun _ _ h2 => h2.blockUnref
  · exact h

theorem popBlock (h : s.Tidy) : TidyOptPair s.popBlock := by
  unfold State.popBlock
  split
  · exact .some h.withDeepStk
  · exact .ite (.some h.withDeepNext) .none

theorem popBlocks {n : Nat} (h : s.Tidy) : TidyPair (s.popBlocks n) := by
  induction n generalizing s with
  | zero => exact .of h
  | succ n ih =>
    unfold State.popBlocks
    split
    · exact .of h
    · next eq => exact .of (ih (h.popBlock.of_eq eq)).snd

theorem deepWrite {bl : List Nat} {off i : Nat} {bs : List Byte} (h : s.Tidy) : (s.deepWrite bl off i bs).Tidy := by
  induction bs generalizing s i with
  | nil => exact h
  | cons b bs ih => exact ih h.hbmWrite

theorem deepAsk {client : Nat} {wr : Bool} {bl : List Nat} {off n : Nat} (h : s.Tidy) : (s.deepAsk client wr bl off n).Tidy :=
  .foldl h fun _ _ h1 => h1.hbmAsk

theorem setVoqU {key : Nat} {l : List VEnt} {wasDeep : Bool} (h : s.Tidy) : (s.setVoqU key l wasDeep).Tidy := h.setVoq

theorem ownEnt {key : Nat} {v : VEnt} (h : s.Tidy) : TidyPair (s.ownEnt key v) := by
  unfold State.ownEnt
  refine .ite ?_ (.of h.releaseBufs)
  extract_lets +onlyGivenNames q c
  split
  next eq =>
    have k1 := h.newPkt.of_eq eq
    extract_lets +onlyGivenNames s2
    have ks2 : s2.Tidy := by
      unfold s2
      split
      · exact k1.viewAdd
      · exact k1
    exact .of ks2.dropEnt

theorem execSpillWrite_tidy {pipe : PipeN} {port : AnyPort} {cls : ClassN} (h : s.Tidy) : TidyResult (execSpillWrite pipe port cls s) := by
  unfold execSpillWrite
  extract_lets +onlyGivenNames key l pre
  split
  · exact .next h
  · refine .ite (.next h) ?_
    refine .ite (.next h.setVoqU.dropEnt.cnt.wakeAll) ?_
    split
    next eq =>
      have k2 := h.popBlocks.of_eq eq
      extract_lets +onlyGivenNames bl s2 s3
      have ks3 : s3.Tidy := k2.deepWrite.deepAsk.withDeepRefsDeepOpen
      split
      next eq =>
        have k3 := ks3.ownEnt.of_eq eq
        exact .next (.ite k3.setVoq.cnt64.raise k3.setVoq.cnt64)

theorem execDeepRefill_tidy {pipe : PipeN} {port : AnyPort} {cls : ClassN} (h : s.Tidy) : TidyResult (execDeepRefill pipe port cls s) := by
  unfold execDeepRefill
  dsimp only
  split
  · exact .next h
  · split
    · refine .ite (.next h) ?_
      refine .ite (.next h.setVoqU.freeDeep.dropEnt.cnt.deepAsk.wakeAll) ?_
      split
      · next eq => exact .next (h.storeFrame.of_eq eq).setPkt.freeDeep.setVoqU.cnt64.deepAsk.wakeAll
      · exact .next h
    · exact .next h

theorem flushQueue {key x : Nat} (h : s.Tidy) : (s.flushQueue key x).Tidy := .foldl h.setVoqU fun _ _ h1 => h1.freeDeep.dropEnt.cnt

theorem flushPort {x : Nat} (h : s.Tidy) : (s.flushPort x).Tidy := .foldl h fun _ _ h1 => h1.flushQueue

theorem dropResidue {x : Nat} (h : s.Tidy) : (s.dropResidue x).Tidy := .foldl h fun _ _ h1 => .foldl h1.setVoqU fun _ _ h2 => h2.freeDeep.dropEnt.cnt

/-! ### The functions of Machine/Caldera.lean -/

theorem mirDrop {ses : Nat} (h : s.Tidy) : (s.mirDrop ses).Tidy := h.cnt.raise

theorem newCopy {q : Pkt} {refs : Nat} (h : s.Tidy) : TidyOptPair (s.newCopy q refs) := .ite .none (.some h.setCopy.withNextId)

theorem mirIngress {k ses input : Nat} (h : s.Tidy) : (s.mirIngress k ses input).Tidy := by
  unfold State.mirIngress
  refine .ite h.mirDrop ?_
  extract_lets +onlyGivenNames r
  have kr : TidyOptPair r := by
    unfold r
    split
    · split
      · exact .some h.setCopy
      · exact .none
    · exact h.newCopy
  clear_value r
  obtain _ | ⟨m, s1⟩ := r
  · exact h.cnt.raise.mirDrop
  · have ks1 : s1.Tidy := kr.of_eq rfl
    dsimp only
    split
    · exact ks1.setPkt.newPkt.snd.viewAdd.setVoq
    · exact ks1.setPkt.newPkt.snd.setVoq

theorem mirrorIngress {k input : Nat} (h : s.Tidy) : (s.mirrorIngress k input).Tidy := .foldl h fun _ _ h1 => .ite h1.mirIngress h1

theorem enqueue {p port c k : Nat} {marker : Bool} (h : s.Tidy) : (s.enqueue p port c k marker).Tidy := h.setVoq.wakes

theorem dropAction {p k : Nat} (h : s.Tidy) : (s.dropAction p k).Tidy := h.endPkt.cnt

theorem enqueueMc {p k : Nat} (h : s.Tidy) : (s.enqueueMc p k).Tidy := by
  unfold State.enqueueMc
  refine .ite h.cntN.endPkt.cnt ?_
  refine .ite h.cntN.endPkt ?_
  refine .ite (.foldl h.cntN.setPkt fun _ _ h1 => h1.enqueue) ?_
  extract_lets +onlyGivenNames r
  have kr : TidyOptPair r := by
    unfold r
    split
    · split
      · exact .some h.cntN.setCopy
      · exact .none
    · exact h.cntN.newCopy
  clear_value r
  obtain _ | ⟨m, s1⟩ := r
  · exact h.cntN.endPkt.cnt.raise
  · have ks1 : s1.Tidy := kr.of_eq rfl
    refine endPkt (.foldl ks1.setPkt fun _ _ h1 => ?_)
    dsimp only
    split
    · exact h1.newPkt.snd.viewAdd.enqueue
    · exact h1.newPkt.snd.enqueue

theorem execVoqEnqueue_tidy {pipe : PipeN} (h : s.Tidy) : TidyResult (execVoqEnqueue pipe s) := by
  unfold execVoqEnqueue
  extract_lets +onlyGivenNames p
  split
  · exact .next h
  · refine .ite (.next h) ?_
    refine .ite (.next h.setVoqIn.endPkt) ?_
    refine .ite (.next h.setVoqIn.endPkt.cnt) ?_
    extract_lets +onlyGivenNames s1 s2 c d
    have ks2 : s2.Tidy := h.setVoqIn.chainWrite.mirrorIngress
    refine .ite (.next ks2.dropAction) ?_
    refine .ite (.next ks2.endPkt.cnt) ?_
    split
    · next eq => exact .next (ks2.meterPoint.of_eq eq).endPkt
    · next eq =>
        have k2 := ks2.meterPoint.of_eq eq
        exact .ite (.next k2.enqueueMc) (.ite (.next k2.endPkt.cnt) (.next k2.setPkt.enqueue))

theorem connect {i key at_ : Nat} {v : VEnt} {outs : List Nat} (h : s.Tidy) : (s.connect i key v outs at_).Tidy := by
  unfold State.connect
  extract_lets +onlyGivenNames c n s1 s2
  have ks2 : s2.Tidy := .ite h.cnt64.cnt64 h.cnt64
  clear_value s2
  refine .ite ?_ ks2.setVoq.setPkt.withConns
  extract_lets +onlyGivenNames ports q s3 r
  have kr : r.1.Tidy := by
    refine foldl_of (P := fun acc : State × List Nat × List Nat => acc.1.Tidy) ks2.setPkt fun acc _ h1 => ?_
    dsimp only
    split
    · exact h1.newPkt.snd.viewAdd
    · exact h1.newPkt.snd
  clear_value r
  exact kr.withConns

theorem ageDrop {i key : Nat} {v : VEnt} {outs : List Nat} (h : s.Tidy) : (s.ageDrop i key v outs).Tidy :=
  .ite (.foldl h.cnt fun _ _ h1 => h1.setVoq.dropEnt) h.cnt.setVoq.dropEnt

theorem accept {i r n : Nat} {grants : List Nat} (h : s.Tidy) : (s.accept i r n grants).Tidy := by
  unfold State.accept
  dsimp only
  split
  · exact h
  · split
    · exact h
    · exact .ite h.withGpApPp.ageDrop h.withGpApPp.connect

theorem mirTrim (h : s.Tidy) : s.mirTrim.Tidy := by
  unfold State.mirTrim
  refine .ite ?_ h
  refine .foldl h fun _ _ h1 => ?_
  split
  · exact h1
  · exact h1.setVoq.dropEnt.mirDrop

theorem fillCopy {id : Nat} {bytes : List Byte} {first last : Bool} (h : s.Tidy) : (s.fillCopy id bytes first last).Tidy :=
  .ite h.setPkt.setEng h.setPkt

theorem txqDrop {id : Nat} (h : s.Tidy) : (s.txqDrop id).Tidy := .ite h.cnt.setTxq.giveUp h.cnt.markDiscard

theorem takeMarkers {i : Nat} {c : Conn} (h : s.Tidy) : (s.takeMarkers i c).Tidy :=
  .ite (endPkt (.foldl h fun _ _ h1 => h1.setVoqU)) (setPkt (.foldl h fun _ _ h1 => h1.setVoqU))

theorem execCellTransfer_tidy {input : Fin 18} (h : s.Tidy) : TidyResult (execCellTransfer input s) := by
  unfold execCellTransfer
  extract_lets +onlyGivenNames i
  split
  · exact .next h
  · refine .ite (.next h) ?_
    extract_lets +onlyGivenNames last bytes s1
    have ks1 : s1.Tidy := .foldl h fun _ _ h2 => h2.fillCopy
    refine .ite (.next ks1.withConns) ?_
    extract_lets +onlyGivenNames s2 s3
    have ks3 : s3.Tidy := .ite ks1.withConns.takeMarkers ks1.withConns.releaseBufs
    exact .next (wakeAll (.foldl ks3 fun _ _ h2 => .ite h2.endPkt (.ite h2.txqDrop (.ite h2.setTxq h2))))

theorem dropCrossed {x : Nat} (h : s.Tidy) : (s.dropCrossed x).Tidy := .foldl h fun _ _ h1 => h1.txqDrop

theorem takeReport {x : Nat} {up : Bool} (h : s.Tidy) : (s.takeReport x up).Tidy := by
  unfold State.takeReport
  split
  · exact h.withLinkReps
  · exact h

theorem execLinkDownReport_tidy {port : PortN} {reason : BitVec 4} (h : s.Tidy) : TidyResult (execLinkDownReport port reason s) := by
  unfold execLinkDownReport
  refine .ite (.next h.takeReport.setFld.setFld.flushPort.wakeAll) ?_
  extract_lets +onlyGivenNames ms s1 s2
  have ks2 : s2.Tidy := h.takeReport.setFld.dropResidue.dropCrossed.cnt.raise
  refine .ite (.next ks2.flushPort.raise) (.next ?_)
  have held : (s2.setFld (R.XB_PORT port) F.XB_PORT_HOLD 1).Tidy := ks2.setFld
  generalize s2.setFld (R.XB_PORT port) F.XB_PORT_HOLD 1 = u at held ⊢
  exact held.withHoldEnd

theorem fcsFail1 {k : Nat} (h : s.Tidy) : (s.fcsFail1 k).Tidy := by
  unfold State.fcsFail1
  dsimp only
  split
  · exact h.setPkt.setPkt
  · exact h.setPkt.setPkt
  · exact .ite h.setPkt.setPkt (cnt (endPkt (.foldl h.setPkt fun _ _ h1 => .ite h1.setVoqU h1)))
  · split
    · exact .ite h.setPkt.withTxs h.setPkt.setPkt
    · exact h.setPkt.setPkt
  · exact h.setPkt.setPkt

theorem fcsFail {k : Nat} (h : s.Tidy) : (s.fcsFail k).Tidy := .ite h (.foldl h fun _ _ h1 => .ite h1.fcsFail1 h1)

/-! ### The functions of Machine/Fused.lean -/

theorem fused {a unit op rd rs1 : Nat} {p : BitVec 13} (h : s.Tidy) : TidyResult (s.fused a unit op rd rs1 p) := by
  unfold State.fused
  refine h.instr fun _ h1 => ?_
  refine .ite h1.undef (.ite h1.undef (.ite h1.cnt.undef ?_))
  dsimp only
  exact h1.setThr

theorem writeback {a : Nat} (h : s.Tidy) : (s.writeback a).Tidy := by
  unfold State.writeback
  dsimp only
  split
  · exact h
  · exact h.setThr.setEng

theorem killPartner {a enc : Nat} {lg : Bool} (h : s.Tidy) : (s.killPartner a enc lg).Tidy := .ite h.cnt h

theorem undefPair {a enc : Nat} {lg : Bool} {src code : Nat} (h : s.Tidy) : (s.undefPair a enc lg src code).Tidy := h.killPartner.undef

/-! ### The functions of Machine/Parser.lean -/

theorem issueLkp {l : Lkp} (h : s.Tidy) : (s.issueLkp l).Tidy := h.keep rfl

theorem preLookups {p k q : Nat} {half : Walk} {w : Win} {kctx : SMap Byte} (h : s.Tidy) : (s.preLookups p k q half w kctx).Tidy := by
  unfold State.preLookups
  refine .foldl h fun _ _ h1 => ?_
  refine .ite ?_ h1
  dsimp only
  split
  · exact h1.setPkt.issueLkp
  · exact h1.setPkt.cnt.raise

theorem parseFrame {p k : Nat} (h : s.Tidy) : (s.parseFrame p k).Tidy := by
  unfold State.parseFrame
  extract_lets +onlyGivenNames q rc win rh whole w h0 h' i b1 view cls user f inst flen meta0 bd c0 c1 c2 c3 hash c4 c5 c6 s1 s2 s3 s4 s5 chk s6
  have ks2 : s2.Tidy := .ite h.setPkt.cnt64 h.setPkt.cnt64.viewAdd
  have ks3 : s3.Tidy := .ite ks2.cnt ks2
  have ks4 : s4.Tidy := .ite ks3.raise ks3
  have ks6 : s6.Tidy := .ite ks4.preLookups.withSrcChks ks4.preLookups
  exact ks6.setEng

theorem execParseStart_tidy {pipe : PipeN} (h : s.Tidy) : TidyResult (execParseStart pipe s) := by
  unfold execParseStart
  refine .ite (.next h) ?_
  split
  · exact .next h
  · split
    · exact .next h
    · exact .next h.setSrc.withParsed.parseFrame.holdFrom

/-! ### The functions of Machine/Time.lean -/

theorem setTime {t : TimeSt} (h : s.Tidy) : (s.setTime t).Tidy := h.keep rfl

theorem toServo {st : Nat} (h : s.Tidy) : (s.toServo st).Tidy := .ite h h.setFld.raise

theorem tick (h : s.Tidy) : s.tick.Tidy := .ite h.withClkCycBase h.withClkCycBase.setTime

theorem addSlew {n : Int} (h : s.Tidy) : (s.addSlew n).Tidy := h.setTime.setFld

theorem sample {e : Int} {hw : Bool} (h : s.Tidy) : (s.sample e hw).Tidy := by
  unfold State.sample
  extract_lets +onlyGivenNames time s1 ki time1 s2
  have ks2 : s2.Tidy := .ite h.setTime.setTime.addSlew.setReg h.setTime
  exact .ite ks2 (.ite (toServo (setTime (.ite ks2.toServo ks2))) (setTime (.ite ks2.toServo ks2)))

theorem enterHoldover (h : s.Tidy) : s.enterHoldover.Tidy := toServo (setTime (.ite h h.setReg))

theorem execPpsEdge_tidy (h : s.Tidy) : TidyResult (execPpsEdge s) := by
  unfold execPpsEdge
  refine .ite (.next h) ?_
  refine .ite (.next h.setTime.setReg) ?_
  refine .ite ?_ ?_
  · exact .ite (.next h.setTime.setReg.cnt.raise.setTime.toServo) (.next h.setTime.setReg.cnt.raise.setTime)
  · exact .next (.ite h.setTime.setReg.setTime.sample h.setTime.setReg.setTime)

theorem orderAutoset {secs at_ : Nat} (h : s.Tidy) : (s.orderAutoset secs at_).Tidy := .ite h h.setTime.setFld

theorem execTodMessage_tidy {first : Byte} {rest : List Byte} (h : s.Tidy) : TidyResult (execTodMessage first rest s) := by
  unfold execTodMessage
  extract_lets +onlyGivenNames bytes
  split
  · exact .next h.cnt.raise
  · refine .ite (.next h.cnt.raise) (.ite (.next h.setTime) ?_)
    extract_lets +onlyGivenNames secs same n time time1 s2 s3
    have ks3 : s3.Tidy := .ite h.setTime.setTime h.setTime.setTime.cnt.raise
    exact .ite (.next ks3.orderAutoset) (.next ks3)

theorem execWatermarkReached_tidy (h : s.Tidy) : TidyResult (execWatermarkReached s) := by
  unfold execWatermarkReached
  split
  · exact .next h
  · exact .ite (.next h.setTime) (.next h)

theorem trigFire {t : Nat} {batch : Bool} (h : s.Tidy) : (s.trigFire t batch).Tidy := by
  unfold State.trigFire
  extract_lets +onlyGivenNames c arg s1 s2 per
  have ks2 : s2.Tidy := .ite h.raise.emit (.ite h.raise.release h.raise)
  exact .ite ks2.setFld (.ite ks2.setFld.setTimeAt ks2.setTimeAt)

theorem trigArmed {t : Nat} {was : Bool} (h : s.Tidy) : (s.trigArmed t was).Tidy := .ite h.setFld.trigFire h

/-! ### The functions of Machine/Egress.lean -/

theorem setCred {x c : Nat} {v : Int} (h : s.Tidy) : (s.setCred x c v).Tidy := h.keep rfl

theorem setTx {x : Nat} {t : Option Tx} (h : s.Tidy) : (s.setTx x t).Tidy := h.keep rfl

theorem tickCred {x c : Nat} (h : s.Tidy) : (s.tickCred x c).Tidy := .ite h.setCred h.setCred

theorem runTxs (h : s.Tidy) : s.runTxs.Tidy := h.keep rfl

theorem tickWake (h : s.Tidy) : s.tickWake.Tidy := .ite h.setReg h

theorem pace (h : s.Tidy) : s.pace.Tidy := .ite (runTxs (.foldl h.tick.tickWake fun _ _ h1 => h1.tickCred)) h.tick.tickWake

theorem trimQueue {x c fuel : Nat} (h : s.Tidy) : (s.trimQueue x c fuel).Tidy := by
  induction fuel generalizing s with
  | zero => exact h
  | succ fuel ih =>
    unfold State.trimQueue
    split
    · exact h
    · have gone {k : Nat} {l : List Nat} : ((s.setTxq x c l).giveUp k).Tidy := h.setTxq.giveUp
      exact .ite (ih gone) (.ite (ih (.ite gone.cnt gone)) (.ite (ih gone) (.ite (ih gone.cnt.raise) h)))

theorem trimPort {x : Nat} (h : s.Tidy) : (s.trimPort x).Tidy := .foldl h fun _ _ h1 => h1.trimQueue

theorem recirculate {x k : Nat} (h : s.Tidy) : (s.recirculate x k).Tidy := .ite h.endPkt.cnt h.releaseBufs.setPkt.setVoq

theorem stampPush {x tag stamp : Nat} (h : s.Tidy) : (s.stampPush x tag stamp).Tidy := .ite h.cnt.raise h.withStamps

theorem startTx {x c k : Nat} (h : s.Tidy) : (s.startTx x c k).Tidy := by
  unfold State.startTx
  extract_lets +onlyGivenNames q s1 s2
  have ks2 : s2.Tidy := .ite h.setTxq.cnt64 h.setTxq
  exact .ite ks2.giveUp.cnt (.ite (.ite ks2.recirculate h) (.ite ks2.setTx.stampPush ks2.setTx))

theorem execTxSelect_tidy {out : AnyPort} (h : s.Tidy) : TidyResult (execTxSelect out s) := by
  unfold execTxSelect
  refine .ite (.next h) ?_
  refine .ite ?_ ?_
  · dsimp only
    split
    · exact .next h.trimPort
    · split
      · exact .next h.trimPort.startTx
      · exact .next h.trimPort
  · refine .ite (.next h) ?_
    extract_lets +onlyGivenNames s1 ok fits s2
    have ks2 : s2.Tidy := .ite h.trimPort.cnt h.trimPort
    split
    · exact .next ks2
    · split
      · exact .next ks2.startTx
      · exact .next ks2

theorem entCharge {e lw : Nat} (h : s.Tidy) : (s.entCharge e lw).Tidy := .ite h h.setVt.whlInsert

theorem mirrorEgress {x k : Nat} {frame : List Byte} (h : s.Tidy) : (s.mirrorEgress x k frame).Tidy := by
  unfold State.mirrorEgress
  refine .foldl h fun _ _ h1 => ?_
  refine .ite h1 ?_
  refine .ite h1.mirDrop ?_
  split
  · next eq =>
      have k2 := h1.storeFrame.of_eq eq
      split
      next eq =>
        have k3 := k2.newPkt.of_eq eq
        extract_lets +onlyGivenNames s3
        have ks3 : s3.Tidy := by
          unfold s3
          split
          · exact k3.viewAdd
          · exact k3
        exact ks3.setVoq
  · next eq => exact (h1.storeFrame.of_eq eq).mirDrop

theorem stage {x k : Nat} (h : s.Tidy) : TidyOpt (s.stage x k) := by
  unfold State.stage
  dsimp only
  split
  · next eq => exact .some (h.storeFrame.of_eq eq).setPkt
  · exact .none

theorem setStaged {half : Nat} {l : List Nat} (h : s.Tidy) : (s.setStaged half l).Tidy := h.keep rfl

theorem toRecirc {x k : Nat} (h : s.Tidy) : (s.toRecirc x k).Tidy := by
  unfold State.toRecirc
  refine .ite h.endPkt.cnt ?_
  split
  · next eq => exact (h.storeFrame.of_eq eq).setPkt.endPkt.toParser
  · next eq => exact (h.storeFrame.of_eq eq).endPkt.cnt
  · next eq => exact (h.storeFrame.of_eq eq).endPkt
  · next eq => exact (h.storeFrame.of_eq eq).freeChain.endPkt

theorem wheelRun {now : Nat} (h : s.Tidy) : (s.wheelRun now).Tidy := .ite h.withWheelSlotNow h.withWheelOvfSlotNow

theorem toTx {k : Nat} (h : s.Tidy) : (s.toTx k).Tidy := by
  unfold State.toTx
  refine .ite h.setTxq ?_
  split
  · next eq => exact (h.meterPoint.of_eq eq).endPkt
  · next eq => exact (h.meterPoint.of_eq eq).setTxq.wakes

theorem gclRequest {x : Nat} (h : s.Tidy) : (s.gclRequest x).Tidy := h.setFld.setTimeAt

theorem gclSwitch {x : Nat} (h : s.Tidy) : (s.gclSwitch x).Tidy := h.setTimeAt.setReg.setReg.setFld.setFld.setFld.cnt.raise.setFld.trimPort

theorem execSendCommit_tidy {eng : EngN} (h : s.Tidy) : TidyResult (execSendCommit eng s) := by
  unfold execSendCommit
  split
  · exact .ite (.next (holdFrom (h.commitSend fun _ _ h2 => h2.toTx))) (.next h)
  · exact .next h

theorem execDiscardCommit_tidy {eng : EngN} (h : s.Tidy) : TidyResult (execDiscardCommit eng s) := by
  unfold execDiscardCommit
  split
  · exact .ite (.next (holdFrom (h.commitDiscard fun _ _ h2 => h2.toTx))) (.next h)
  · exact .next h

/-! ### The functions of Machine/Ports.lean -/

theorem wakeFire {b : Nat} (h : s.Tidy) : (s.wakeFire b).Tidy := .ite h.setReg.withWakePend h

theorem kaFrame {slot x : Nat} {b : List Byte} (h : s.Tidy) : (s.kaFrame slot x b).Tidy := by
  unfold State.kaFrame
  dsimp only
  split
  · exact .ite h.cnt h.cnt.emit
  · exact .ite h.wakeFire (.ite (.ite (.ite h.withHold.wakeFire h.withHold) h.cnt.raise) h)

theorem pauseClass {x c q : Nat} (h : s.Tidy) : (s.pauseClass x c q).Tidy := by
  unfold State.pauseClass
  exact h.setFld.withQuanta

theorem macControl {x : Nat} {b : List Byte} {good : Bool} (h : s.Tidy) : (s.macControl x b good).Tidy := by
  unfold State.macControl
  refine .ite h.cnt ?_
  refine .ite (.foldl h.cnt fun _ _ h1 => h1.pauseClass) ?_
  exact .ite (.foldl h.cnt fun _ _ h1 => .ite h1.pauseClass h1) h.cnt

theorem macFrame {x : Nat} {b : List Byte} (h : s.Tidy) : (s.macFrame x b).Tidy := by
  unfold State.macFrame
  refine .ite h ?_
  refine .ite (.ite h.kaFrame h.cnt) ?_
  refine .ite h.cnt ?_
  refine .ite h.cnt ?_
  extract_lets +onlyGivenNames n maxf good s1 s2 s3 bad
  have ks2 : s2.Tidy := .ite h.cnt64.cnt64 h.cnt64.cnt64.cnt
  have ks3 : s3.Tidy := .ite ks2.cnt (.ite ks2.cnt ks2)
  refine .ite ks3.macControl ?_
  dsimp only
  split
  · next eq => exact (ks3.storeFrame.of_eq eq).toParser
  · next eq => exact (ks3.storeFrame.of_eq eq).toParser
  · next eq => exact (ks3.storeFrame.of_eq eq)
  · next eq => exact (ks3.storeFrame.of_eq eq)

theorem sendFrame {x : Nat} {frame : List Byte} (h : s.Tidy) : (s.sendFrame x frame).Tidy := by
  unfold State.sendFrame
  split
  · exact h.macFrame
  · exact h
  · exact h.emit

theorem sendSlope {x : Nat} {t : Tx} {lw : Nat} (h : s.Tidy) : (s.sendSlope x t lw).Tidy := .ite h.setCred h

theorem execFrameTxEnd_tidy {out : AnyPort} (h : s.Tidy) : TidyResult (execFrameTxEnd out s) := by
  unfold execFrameTxEnd
  extract_lets +onlyGivenNames x
  split
  · exact .next h
  · refine .ite (.next h) ?_
    refine .ite ?_ ?_
    · extract_lets +onlyGivenNames body frame lw s1 s2 s3
      have ks1 : s1.Tidy := h.setTx.sendSlope.mirrorEgress
      have ks2 : s2.Tidy := by
        unfold s2
        split
        · exact ks1.entCharge.entCharge
        · exact ks1.entCharge
      exact .next (sendFrame (.ite ks2.endPkt.cnt64.cnt64.cnt ks2.endPkt.cnt64.cnt64))
    · refine .ite ?_ ?_
      · split
        · next eq => exact .next (h.setTx.stage.of_eq eq).setStaged.mirrorEgress
        · exact .next h
      · exact .ite (.next h.setTx.toRecirc) (.next (endPkt (.ite h.setTx.withLrnIn h.setTx.emit)))

theorem lanesFrame {x : Nat} {b : List Byte} (h : s.Tidy) : (s.lanesFrame x b).Tidy := by
  unfold State.lanesFrame
  split
  · exact h
  · exact .ite h.emit h
  · exact h.macFrame

theorem fecWords {x corr unc : Nat} (h : s.Tidy) : (s.fecWords x corr unc).Tidy := .ite h (.ite h.cntN.cntN h.cntN.cntN.raise)

theorem sendFlow {x classes quanta : Nat} (h : s.Tidy) : (s.sendFlow x classes quanta).Tidy := .ite h.emit h.emit

theorem execPfcFrameSend_tidy {port : PortN} (h : s.Tidy) : TidyResult (execPfcFrameSend port s) := by
  unfold execPfcFrameSend
  refine .ite (.next h) ?_
  refine .ite (.next (.ite h.withPfcSent.sendFlow (.ite h.withPfcSent.sendFlow h.withPfcSent))) ?_
  exact .next (.ite (sendFlow (.ite h.withPfcSent.sendFlow h.withPfcSent)) (.ite h.withPfcSent.sendFlow h.withPfcSent))

theorem cutPort {x : Nat} (h : s.Tidy) : (s.cutPort x).Tidy := by
  unfold State.cutPort
  extract_lets +onlyGivenNames s1 s1
  have ks1 : s1.Tidy := by
    unfold s1
    split
    · exact h.setTx.cnt.giveUp
    · exact h
  exact .foldl ks1 fun _ _ h1 => h1.fcsFail

theorem linkGoesDown {x reason : Nat} (h : s.Tidy) : (s.linkGoesDown x reason).Tidy := by
  unfold State.linkGoesDown
  exact withLinkReps (raise (.ite h.setFld.setFld.setFld.setFld.cnt.cutPort h.setFld.setFld.setFld.setFld))

theorem portOff {x : Nat} (h : s.Tidy) : (s.portOff x).Tidy := h.linkGoesDown.withPfcSentQuanta.setFld

/-! ### The functions of Machine/Hif.lean -/

theorem msixSend {v : Nat} (h : s.Tidy) : (s.msixSend v).Tidy := .ite h.emit h.withVecPendVecMsg

theorem setIState {i x : Nat} (h : s.Tidy) : (s.setIState i x).Tidy := h.setFld

theorem setRing {r : Nat} {g : Ring} (h : s.Tidy) : (s.setRing r g).Tidy := h.keep rfl

theorem setCi {r tx rx : Nat} (h : s.Tidy) : (s.setCi r tx rx).Tidy := h.setReg

theorem dmaRead {d : Dma} {addr len : Nat} (h : s.Tidy) : (s.dmaRead d addr len).Tidy := h.keep rfl

theorem dmaWrite {i addr : Nat} {bs : List Byte} (h : s.Tidy) : (s.dmaWrite i addr bs).Tidy := h.keep rfl

theorem dmaDrop {d : Dma} (h : s.Tidy) : (s.dmaDrop d).Tidy := by
  unfold State.dmaDrop
  split
  · exact .ite h h.freeChain
  · exact h

theorem dropStale {n : Nat} (h : s.Tidy) : (s.dropStale n).Tidy := by
  induction n generalizing s with
  | zero => exact h
  | succ n ih =>
    have counted {l : List DmaOp} {r : Nat} : (({ s with dmaQ := l } : State).cnt r).Tidy := cnt h.withDmaQ
    unfold State.dropStale
    split
    · exact h
    · refine ih ?_
      split
      · exact counted.dmaDrop
      · exact counted

theorem dmaIssue {op : DmaOp} (h : s.Tidy) : (s.dmaIssue op).Tidy := by
  unfold State.dmaIssue
  split
  · exact h.emit
  · exact .ite h.withDmaQ h.withNextIdDmas.emit

theorem issueDmas (h : s.Tidy) : s.issueDmas.Tidy := .foldl h.dropStale.withDmaQ fun _ _ h1 => h1.dmaIssue

theorem txFetch {r : Nat} (h : s.Tidy) : (s.txFetch r).Tidy := .ite h.dmaRead h

theorem rxFetch {r : Nat} (h : s.Tidy) : (s.rxFetch r).Tidy := .ite h.setRing.dmaRead h

theorem ringMsg {r : Nat} {tx : Bool} (h : s.Tidy) : (s.ringMsg r tx).Tidy := .ite h (.ite (msixSend (.ite h h.setRing)) h.setRing)

theorem txBack {r st : Nat} (h : s.Tidy) : (s.txBack r st).Tidy := h.dmaWrite.setRing.setCi.ringMsg.txFetch

theorem doorbell {tx : Bool} {i n pi : Nat} (h : s.Tidy) : (s.doorbell tx i n pi).Tidy :=
  .ite h.viol.cnt (.ite h.viol.cnt (.ite h.setRing.txFetch h.setRing.rxFetch))

theorem doorbellWrite {tx : Bool} {i n pi : Nat} (h : s.Tidy) : (s.doorbellWrite tx i n pi).Tidy :=
  .ite h (.ite h.viol (.ite h.withDbHeld h.doorbell))

theorem applyHeld (h : s.Tidy) : s.applyHeld.Tidy := .foldl h.withDbHeld fun _ _ h1 => h1.doorbell

theorem idle (h : s.Tidy) : s.idle.Tidy := .ite h.pace.issueDmas h.pace

theorem execTxDescriptorProcess_tidy {ring : RingN} (h : s.Tidy) : TidyResult (execTxDescriptorProcess ring s) := by
  unfold execTxDescriptorProcess
  dsimp only
  split
  · exact .next h
  · refine .ite (.next h) ?_
    refine .ite (.next h.txBack) ?_
    refine .ite (.next h.cnt.txBack) ?_
    split
    · next eq => exact .next (h.storeFrame.of_eq eq).setRing.dmaRead
    · next eq => exact .next (h.storeFrame.of_eq eq).freeChain.txBack
    · next eq => exact .next (h.storeFrame.of_eq eq).txBack
    · next eq => exact .next (h.storeFrame.of_eq eq).txBack

theorem execDmaCompletion_tidy {id : Nat} {data : List Byte} (h : s.Tidy) : TidyResult (execDmaCompletion id data s) := by
  unfold execDmaCompletion
  split
  · exact .next h
  · refine .ite (.next h.withDmas.dmaDrop.cnt) ?_
    split
    · exact .next h.withDmas.setRing
    · exact .next h.withDmas.setRing.rxFetch
    · refine .ite (.next h.withDmas.chainWrite) ?_
      exact .ite (.next h.withDmas.chainWrite.dmaDrop.txBack) (.next h.withDmas.chainWrite.chainWrite.toParser.txBack)

theorem lose {d : Dma} (h : s.Tidy) : (s.lose d).Tidy := h.withDmasDmaQ.dmaDrop

theorem execCplTimeout_tidy {id : Nat} (h : s.Tidy) : TidyResult (execCplTimeout id s) := by
  unfold execCplTimeout
  split
  · exact .next h
  · refine .ite (.next h.withDmas.lose.cnt) ?_
    split
    · exact .next h.withDmas.lose.cnt.txBack
    · exact .next (.ite h.withDmas.lose.cnt h.withDmas.lose.cnt.txBack)
    · exact .next h.withDmas.lose.cnt.rxFetch

theorem unstage {half k : Nat} (h : s.Tidy) : (s.unstage half k).Tidy := h.setStaged.endPkt

theorem execRxDelivery_tidy {host : Fin 4} (h : s.Tidy) : TidyResult (execRxDelivery host s) := by
  unfold execRxDelivery
  dsimp only
  split
  · exact .next h
  · split
    · exact .next h
    · exact .next h.unstage.cnt
    · exact .next h.dmaWrite.dmaWrite.setRing.setCi.unstage.ringMsg

theorem execRxStagingTimeout_tidy {host : Fin 4} (h : s.Tidy) : TidyResult (execRxStagingTimeout host s) := by
  unfold execRxStagingTimeout
  dsimp only
  split
  · exact .next h
  · exact .next h.unstage.cnt

theorem mbxEnd {i res : Nat} (h : s.Tidy) : (s.mbxEnd i res).Tidy := h.setFld.setFld

theorem mbxSend {i : Nat} (h : s.Tidy) : (s.mbxSend i).Tidy := h.setFld.setFld.raise

theorem mbxDone {i : Nat} (h : s.Tidy) : (s.mbxDone i).Tidy := .ite (.ite h.mbxEnd.msixSend h.mbxEnd) h.cnt

theorem ringOff {r : Nat} (h : s.Tidy) : (s.ringOff r).Tidy := h.setReg.setRing

theorem instResetStart {i : Nat} (h : s.Tidy) : (s.instResetStart i).Tidy := by
  unfold State.instResetStart
  extract_lets +onlyGivenNames r s1 s2 s3 s4
  have ks1 : s1.Tidy := h.setFld.setFld.setFld.setIState
  have ks2 : s2.Tidy := .foldl ks1 fun _ _ h1 => .ite h1.ringOff h1
  have ks4 : s4.Tidy := .foldl ks2.abandonAgent fun _ _ h1 => .foldl h1 fun _ _ h2 => h2.unstage.cnt
  exact .ite ks4.mbxEnd ks4

theorem instReset {i : Nat} (h : s.Tidy) : (s.instReset i).Tidy := .ite h (.ite h.withRstHeld h.instResetStart)

theorem execInstResetDrainEnd_tidy {inst : InstN} (h : s.Tidy) : TidyResult (execInstResetDrainEnd inst s) := by
  unfold execInstResetDrainEnd
  refine .ite (.next h) ?_
  extract_lets +onlyGivenNames r left s1 s2
  have ks2 : s2.Tidy := .ite h.setFld.setFld.raise.setIState h.setFld.setFld.raise
  exact .next (.ite ks2.withRstHeld.instResetStart ks2)

theorem maskVecs {i : Nat} (h : s.Tidy) : (s.maskVecs i).Tidy := h.keep rfl

theorem flr1 {i : Nat} (h : s.Tidy) : (s.flr1 i).Tidy := .ite h h.maskVecs.instReset.raise

theorem execFlr_tidy {inst : InstN} (h : s.Tidy) : TidyResult (execFlr inst s) := by
  unfold execFlr
  refine .next ?_
  split
  · exact h
  · exact .ite h (.ite (.foldl h fun _ _ h2 => h2.flr1) h.flr1)

theorem activate {l : List Nat} (h : s.Tidy) : (s.activate l).Tidy := .foldl h fun _ _ h1 => .ite h1.setIState h1

theorem pcieDown {half : Nat} (h : s.Tidy) : (s.pcieDown half).Tidy := .ite h (.foldl h.setFld.setFld.setFld fun _ _ h1 => h1.instReset)

theorem applyRes {i : Nat} {l : List W32} (h : s.Tidy) : (s.applyRes i l).Tidy := h.withInstRes.setFld.setFld

theorem instCmd {op i : Nat} (h : s.Tidy) : TidyPair (s.instCmd op i) := by
  unfold State.instCmd
  refine .ite (.ite (.of h) (.ite (.of h) (.of h.applyRes.setIState.activate))) ?_
  refine .ite (.ite (.of h) (.ite (.of h) (.of ?_))) ?_
  · have cleared : ((s.setIState i iABSENT).setFld (R.HIF_INST_STAT i) F.HIF_INST_STAT_STAGED 0).Tidy := h.setIState.setFld
    generalize (s.setIState i iABSENT).setFld (R.HIF_INST_STAT i) F.HIF_INST_STAT_STAGED 0 = u at cleared ⊢
    exact cleared.withInstResInstStg
  · refine .ite (.ite (.of h) (.of h.instReset)) (.ite ?_ (.of h))
    exact .ite (.of h) (.ite (.of h) (.ite (.of h) (.ite (.of h) (.of h.withInstStg.setFld))))

theorem instGo (h : s.Tidy) : s.instGo.Tidy := by
  unfold State.instGo
  split
  next eq => exact (h.instCmd.of_eq eq).setFld.setReg

theorem applyStaged (h : s.Tidy) : s.applyStaged.Tidy := by
  unfold State.applyStaged
  refine .foldl h fun _ _ h1 => ?_
  split
  · exact h1.applyRes.setFld.withInstStg
  · exact h1

/-! ### The functions of Machine/Modes.lean -/

theorem replay1 {half : Held} (h : s.Tidy) : (s.replay1 half).Tidy := by
  unfold State.replay1
  refine .ite h.cnt ?_
  dsimp only
  split
  · next eq => exact (h.cnt.storeFrame.of_eq eq).toParser
  · next eq => exact (h.cnt.storeFrame.of_eq eq).freeChain
  · next eq => exact (h.cnt.storeFrame.of_eq eq)
  · next eq => exact (h.cnt.storeFrame.of_eq eq)

theorem replayAll (h : s.Tidy) : s.replayAll.Tidy := .foldl h.withReplayHold fun _ _ h1 => h1.replay1

theorem enterMode {t : Nat} (h : s.Tidy) : (s.enterMode t).Tidy :=
  .ite h.setFld.setFld.cnt.raise.withCfgReady.setFld.replayAll h.setFld.setFld.cnt.raise.withCfgReady.setFld

theorem setStatus {n : Nat} (h : s.Tidy) : (s.setStatus n).Tidy := h.setFld

theorem completeMode {t : Nat} (h : s.Tidy) : (s.completeMode t).Tidy := h.enterMode.withGoingGoCommit.setStatus

theorem endMode {status : Nat} (h : s.Tidy) : (s.endMode status).Tidy := h.withGoingGoCommit.setStatus.raise

theorem startMode {t : Nat} (h : s.Tidy) : (s.startMode t).Tidy :=
  .ite h.withGoingGoCommit.setStatus (.ite h.withGoingGoCommitWakePend.setStatus h.completeMode)

theorem requestMode {t : Nat} (h : s.Tidy) : (s.requestMode t).Tidy := .ite h.setStatus (.ite h.setStatus h.startMode)

theorem handover {x : Nat} (h : s.Tidy) : (s.handover x).Tidy := .ite h.cutPort h.linkGoesDown

theorem handBack (h : s.Tidy) : s.handBack.Tidy := .foldl h fun _ _ h1 => h1.handover

theorem handOver (h : s.Tidy) : s.handOver.Tidy := .foldl h fun _ _ h1 => .ite h1.handover h1.linkGoesDown

theorem watchFire {k : Nat} (h : s.Tidy) : (s.watchFire k).Tidy := h.setReg.wakeFire

theorem sampleWakes (h : s.Tidy) : s.sampleWakes.Tidy := by
  unfold State.sampleWakes
  extract_lets +onlyGivenNames irq gpio wm s1 s2
  have ks1 : s1.Tidy := by
    unfold s1 irq
    split
    · exact h.watchFire
    · exact h
  have ks2 : s2.Tidy := .ite ks1.wakeFire ks1
  exact .ite ks2.wakeFire ks2

theorem undoMode (h : s.Tidy) : s.undoMode.Tidy := by
  unfold State.undoMode
  split
  · exact h
  · exact setStatus (withGoingGoCommit (.ite (applyHeld (.ite h.handBack h)) h))

theorem orderMode {t : Nat} (h : s.Tidy) : (s.orderMode t).Tidy := .ite h.undoMode.completeMode h.undoMode

theorem allSr {b : Nat} (h : s.Tidy) : (s.allSr b).Tidy := .foldl h fun _ _ h1 => h1.setFld

theorem execSimmerCommit_tidy (h : s.Tidy) : TidyResult (execSimmerCommit s) := by
  unfold execSimmerCommit
  refine .ite (.next h) (.ite (.next h.sampleWakes.handBack.endMode.applyHeld) ?_)
  extract_lets +onlyGivenNames s2
  have ks2 : s2.Tidy := h.sampleWakes.setFld.allSr
  exact .ite (.next ks2.completeMode) (.next ks2.enterMode.withGoCommit)

theorem dueRetrains (h : s.Tidy) : s.dueRetrains.Tidy := .foldl h.withRtDue fun _ _ h1 => h1.setFld

theorem woken (h : s.Tidy) : s.woken.Tidy := h.setFld.cnt.withWakePendReplay

theorem loseMain {dev : Bool} (h : s.Tidy) : (s.loseMain dev).Tidy :=
  ⟨smWf_filter _ _ _ h.regs, smWf_filter _ _ _ h.mem, rfl, h.flash⟩

theorem execDormantEntry_tidy (h : s.Tidy) : TidyResult (execDormantEntry s) := by
  unfold execDormantEntry
  refine .ite (.next h) ?_
  extract_lets +onlyGivenNames s1 s2
  have ks1 : s1.Tidy := .foldl h fun _ _ h1 => h1.linkGoesDown
  exact .ite (.next ks1.sampleWakes.endMode) (.next ks1.sampleWakes.loseMain.withPins.completeMode)

theorem execKeepaliveFrameReceive_tidy {slot : Fin 4} {bytes : List Byte} (h : s.Tidy) : TidyResult (execKeepaliveFrameReceive slot bytes s) := by
  unfold execKeepaliveFrameReceive
  split
  · exact .next h
  · exact .next (.ite h.kaFrame h)

/-! ### The functions of Machine/Recovery.lean -/

theorem fencePipe {p : Nat} (h : s.Tidy) : (s.fencePipe p).Tidy := by
  unfold State.fencePipe
  extract_lets +onlyGivenNames s1 s2 s3
  have ks1 : s1.Tidy := .foldl h fun _ _ h1 => h1.setFld
  have ks2 : s2.Tidy := .foldl ks1 fun _ _ h1 => .ite h1.setFld.portOff h1
  have ks3 : s3.Tidy := .foldl ks2 fun _ _ h1 => .foldl h1.setVoq fun _ _ h2 => h2.freeDeep.dropEnt.cnt
  exact .foldl ks3 fun _ _ h1 => .foldl h1.setSrc fun _ _ h2 => h2.endPkt.cnt

theorem setFence {v : W32} (h : s.Tidy) : (s.setFence v).Tidy := .foldl h.setReg fun _ _ h1 => .ite h1.fencePipe h1

theorem autoAct {block inst code loc : Nat} (h : s.Tidy) : (s.autoAct block inst code loc).Tidy := h.logErr.raise

theorem abortTest (h : s.Tidy) : s.abortTest.Tidy := .ite h.setFld.setFld.setFld.raise h

theorem wdogFence {p : Nat} (h : s.Tidy) : (s.wdogFence p).Tidy := .ite h.withWdogAt.abortTest.setFence.autoAct.orderMode h.withWdogAt

theorem testReq {t v : Nat} (h : s.Tidy) : (s.testReq t v).Tidy :=
  .ite h.setFld.cnt (.ite h.setFld (.ite h.setFld.cnt h.setFld.setFld.setFld.setFld.setReg))

theorem testAbort (h : s.Tidy) : s.testAbort.Tidy := .ite h.abortTest h.lateAbort

theorem hbmFence {pc cause : Nat} (h : s.Tidy) : (s.hbmFence pc cause).Tidy := by
  unfold State.hbmFence
  refine .ite (.ite h h.raise) ?_
  extract_lets +onlyGivenNames s1 s2 t s3 s4
  have ks1 : s1.Tidy := h.hbmForget.setReg.setFld.raise
  have ks3 : s3.Tidy := .ite ks1.withRefilledHbmFillBcache.setFld.raise ks1.withRefilledHbmFillBcache
  exact .ite ks3.setFld.autoAct.orderMode ks3.setFld

theorem hbmCe {a : Nat} (h : s.Tidy) : (s.hbmCe a).Tidy := h.cnt.cnt.logErr

theorem hbmUe {a : Nat} (h : s.Tidy) : (s.hbmUe a).Tidy := by
  unfold State.hbmUe
  extract_lets +onlyGivenNames pc s1 s2 l logged s3
  have ks1 : s1.Tidy := h.withPoison
  have ks2 : s2.Tidy := ks1.cnt.cnt.raise.raise
  have klogged : logged.Tidy := ks2.logErr
  have ks3 : s3.Tidy := klogged.withUeAt
  exact .ite ks3.hbmFence ks3

theorem hbmEcc {a : Nat} {ecc : HbmEcc} (h : s.Tidy) : (s.hbmEcc a ecc).Tidy := by
  unfold State.hbmEcc
  split
  · exact h
  · exact h.hbmCe
  · exact h.hbmUe

theorem setPcStat {pc : Nat} {f : Fld} {x : Nat} (h : s.Tidy) : (s.setPcStat pc f x).Tidy := h.setFld

theorem serveBank {pc b : Nat} {ecc : HbmEcc} (h : s.Tidy) : (s.serveBank pc b ecc).Tidy := by
  unfold State.serveBank
  dsimp only
  split
  · exact h
  · exact .ite h.withHbmQHbmLast.hbmAdmit.cnt64 h.withHbmQHbmLast.hbmAdmit.cnt64.hbmEcc

theorem execHbmBankIssue_tidy {turn : BankTurn} {ecc : HbmEcc} (h : s.Tidy) : TidyResult (execHbmBankIssue turn ecc s) := by
  unfold execHbmBankIssue
  refine .next ?_
  refine .ite ?_ h
  split
  · exact h.serveBank
  · exact h

theorem execHbmSpillWithdraw_tidy (h : s.Tidy) : TidyResult (execHbmSpillWithdraw s) := by
  unfold execHbmSpillWithdraw
  refine .next ?_
  split
  · exact h.withDeepStkWithdrawn
  · exact h

theorem hbmRun (h : s.Tidy) : s.hbmRun.Tidy := by
  unfold State.hbmRun
  have run : (s.setFld R.HBM_CTL F.HBM_CTL_RUN 1).Tidy := h.setFld
  generalize s.setFld R.HBM_CTL F.HBM_CTL_RUN 1 = u at run ⊢
  exact .ite h ⟨run.regs, smWf_smClear _ _ _ _ h.mem, run.near, run.flash⟩

theorem pausePc {pc : Nat} (h : s.Tidy) : (s.pausePc pc).Tidy := .ite h.withRtDue h.setPcStat

theorem trainGo {pc : Nat} (h : s.Tidy) : (s.trainGo pc).Tidy := .ite h.setFld.setFld.setFld.setFld.raise h.setFld.setFld.setFld.pausePc

theorem trainAbort (h : s.Tidy) : s.trainAbort.Tidy := .ite h.setPcStat.withRtDue.setFld.setFld.raise h.lateAbort

theorem execHbmRetrainEnd_tidy {pc : PcN} {ok : Bool} (h : s.Tidy) : TidyResult (execHbmRetrainEnd pc ok s) := by
  unfold execHbmRetrainEnd
  refine .ite (.next h) ?_
  extract_lets +onlyGivenNames s1 s2
  have ks2 : s2.Tidy := .ite (raise (.ite h.setPcStat.setFld.point h.setPcStat.setFld)) h.setPcStat
  exact .ite (.next ks2.cnt.withRtFails) (.next (.ite ks2.cnt.raise.withRtFails.hbmFence ks2.cnt.raise.withRtFails))

/-! ### The functions of Machine/Sec.lean -/

theorem secWrite {a : Nat} {bs : List Byte} (h : s.Tidy) : (s.secWrite a bs).Tidy := .ite h.hbmPut h.wrBytes

theorem extend {k : Nat} {d : List Byte} (h : s.Tidy) : (s.extend k d).Tidy := h.keep rfl

theorem drawNonce (h : s.Tidy) : s.drawNonce.Tidy := by
  unfold State.drawNonce
  exact withFreeCtr (.foldl h fun _ _ h1 => h1.setReg)

theorem secEnd {st : Nat} (h : s.Tidy) : (s.secEnd st).Tidy := .ite h.setFld.setReg.point.raise.cnt h.setFld.setReg.point.raise

theorem secGo {op : Nat} (h : s.Tidy) : (s.secGo op).Tidy := by
  unfold State.secGo
  extract_lets +onlyGivenNames c s1
  have ks1 : s1.Tidy := h.setFld.setFld.setFld.setReg
  exact .ite ks1.secEnd (.ite ks1.secEnd ks1)

theorem pload (h : s.Tidy) : TidyPair s.pload := .ite (.of h) (.of (extend (.foldl h fun _ _ h1 => h1.wrBytes.withProgs)))

theorem attest (h : s.Tidy) : TidyPair s.attest := .ite (.of h) (.ite (.of h) (.of h.secWrite))

theorem enrol (h : s.Tidy) : TidyPair s.enrol := .ite (.of h) (.ite (.of h) (.of h.withFuses.extend))

theorem unlock {b : List Byte} (h : s.Tidy) : TidyPair (s.unlock b) := .ite (.of h.cnt) (.ite (.of h.cnt) (.of h.setFld.drawNonce.extend.raise))

theorem flashPut {a : Nat} {bs : List Byte} (h : s.Tidy) : (s.flashPut a bs).Tidy := by
  induction bs generalizing s a with
  | nil => exact h
  | cons b bs ih =>
    exact ih ⟨h.regs, h.mem, h.near, smWf_smSet _ _ _ _ h.flash⟩

theorem flashWrite (h : s.Tidy) : TidyPair s.flashWrite := .ite (.of h) (.ite (.of h) (.of h.flashPut))

theorem flashCut (h : s.Tidy) : s.flashCut.Tidy := .ite h.withFreeCtr.flashPut.flashPut h

theorem svnAdvance (h : s.Tidy) : TidyPair s.svnAdvance := .ite (.of h) (.ite (.of h) (.of h.withFuses))

theorem modexp (h : s.Tidy) : TidyPair s.modexp := by
  unfold State.modexp
  refine .ite (.of h) ?_
  extract_lets +onlyGivenNames op
  exact .ite (.of h.secWrite.withFreeCtr) (.of h.secWrite)

theorem irepair (h : s.Tidy) : TidyPair s.irepair := by
  unfold State.irepair
  dsimp only
  split
  · exact .of h
  · exact .ite (.of h) (.ite (.of h) (.of h.wrBytes))

theorem secRun {op : Nat} (h : s.Tidy) : TidyPair (s.secRun op) := by
  unfold State.secRun
  split
  · exact .of h
  · exact h.pload
  · exact .ite (.of h) (.of h.extend)
  · exact h.attest
  · exact h.svnAdvance
  · exact h.enrol
  · exact h.unlock
  · exact h.flashWrite
  · exact .ite (.of h) (.of h.secWrite)
  · exact h.modexp
  · exact h.irepair
  · exact .of h

theorem mbxRun (h : s.Tidy) : s.mbxRun.Tidy := h.unlock.snd.setReg

theorem secAbort (h : s.Tidy) : s.secAbort.Tidy := .ite h.flashCut.setFld.setFld.setReg.raise h.lateAbort

/-! ### The functions of Machine/Power.lean -/

theorem startCtx {a pc : Nat} (h : s.Tidy) : (s.startCtx a pc).Tidy := h.setThr

theorem coreReset {c : Nat} (h : s.Tidy) : (s.coreReset c).Tidy := by
  unfold State.coreReset
  extract_lets +onlyGivenNames s0 s1
  have ks0 : s0.Tidy := .foldl h fun _ _ h1 => h1.dropRequests
  have ks1 : s1.Tidy := .foldl ks0.setEng fun _ _ h1 => h1.abandonAgent.abortTask.startCtx.setThr
  exact ks1.withCoreWakes.setReg

theorem fumReset (h : s.Tidy) : s.fumReset.Tidy := h.abandonAgent.startCtx

theorem wipeRegs {lo hi : Nat} (h : s.Tidy) : (s.wipeRegs lo hi).Tidy :=
  ⟨smWf_smClear _ _ _ _ h.regs, h.mem, h.near, h.flash⟩

theorem wipeMem {lo hi : Nat} (h : s.Tidy) : (s.wipeMem lo hi).Tidy :=
  ⟨h.regs, smWf_smClear _ _ _ _ h.mem, h.near, h.flash⟩

theorem losePipe {p : Nat} (h : s.Tidy) : (s.losePipe p).Tidy := by
  unfold State.losePipe
  extract_lets +onlyGivenNames s1 ks s2 s3 s4
  have ks1 : s1.Tidy := .foldl h fun _ _ h1 => h1.abandonAgent.abortTask
  have ks2 : s2.Tidy := .foldl ks1.withLkps fun _ _ h1 => h1.endPkt
  have ks3 : s3.Tidy := ks2.wipeRegs.wipeRegs.wipeRegs.wipeRegs
  have ks4 : s4.Tidy := ks3.wipeMem.wipeMem.wipeMem.wipeMem
  clear_value s4
  exact ks4.keep rfl

theorem loseHalf {half : Nat} (h : s.Tidy) : (s.loseHalf half).Tidy := by
  unfold State.loseHalf
  extract_lets +onlyGivenNames pg own s1
  have ks1 : s1.Tidy := .foldl h fun _ _ h1 => h1.wipeRegs
  clear_value s1
  exact ks1.keep rfl

theorem loseTables (h : s.Tidy) : s.loseTables.Tidy := h.keep rfl

theorem loseDom {d : Nat} (h : s.Tidy) : (s.loseDom d).Tidy := .ite h.losePipe (.ite h.loseHalf h.pcieDown)

theorem pwrWrite {v : Nat} (h : s.Tidy) : (s.pwrWrite v).Tidy := h.setReg.setFld

theorem pwrReach {w : Nat} (h : s.Tidy) : (s.pwrReach w).Tidy := .ite h.setReg.setFld.raise h.setReg

theorem execDevPwrChangeComplete_tidy (h : s.Tidy) : TidyResult (execDevPwrChangeComplete s) := by
  unfold execDevPwrChangeComplete
  refine .ite (.next h) ?_
  extract_lets +onlyGivenNames old new back s1 s2 s3
  have ks1 : s1.Tidy := .foldl h fun _ _ h1 => h1.loseDom
  have ks2 : s2.Tidy := .ite ks1 ks1.loseTables
  have ks3 : s3.Tidy := .foldl ks2 fun _ _ h1 => h1.wipeRegs
  exact .next ks3.pwrReach

theorem loseAll (h : s.Tidy) : s.loseAll.Tidy := ⟨reset.regs, rfl, rfl, h.flash⟩

theorem railsUp (h : s.Tidy) : s.railsUp.Tidy := h.keep rfl

theorem porReset (h : s.Tidy) : s.porReset.Tidy := by
  unfold State.porReset
  exact h.flashCut.loseAll.railsUp.withPins

theorem execRailsValid_tidy (h : s.Tidy) : TidyResult (execRailsValid s) := by
  unfold execRailsValid
  exact .ite (.next (.ite h.withPins.setReg.withPins h.withPins)) (.next h)

/-! ### The functions of Machine/Debug.lean -/

theorem haltAll {l : List Nat} (h : s.Tidy) : (s.haltAll l).Tidy := .foldl (.foldl h fun _ _ h1 => h1.setThr) fun _ _ h1 => h1.holdFrom

theorem dbgStatus {n : Nat} (h : s.Tidy) : (s.dbgStatus n).Tidy := h.setFld

theorem dbgCmd {b : Nat} (h : s.Tidy) : (s.dbgCmd b).Tidy := by
  unfold State.dbgCmd
  refine .ite h.dbgStatus ?_
  split
  · exact h.dbgStatus
  · refine .ite h.dbgStatus ?_
    extract_lets +onlyGivenNames s1
    have ks1 : s1.Tidy := by
      unfold s1
      split
      · exact h.haltAll
      · exact .foldl h fun _ _ h3 => h3.setThr
      · exact .foldl h fun _ _ h3 => .ite h3.setThr h3
      · exact .foldl h fun _ _ h3 => h3.threadReset
      · exact .foldl h fun _ _ h3 => h3.event
    exact ks1.dbgStatus

theorem dbgHalt {v : W32} (h : s.Tidy) : (s.dbgHalt v).Tidy := .foldl h.setReg fun _ _ h1 => .ite h1.dbgCmd h1

theorem tregSet {v : Word} (h : s.Tidy) : (s.tregSet v).Tidy := by
  unfold State.tregSet
  split
  · exact h.dbgStatus
  · exact .ite (.ite h.dbgStatus h.sregSet.dbgStatus) (.ite h.setX.dbgStatus h.dbgStatus)

theorem accEnd {wr sz : Bool} {st : Nat} (h : s.Tidy) : (s.accEnd wr sz st).Tidy := h.setReg

theorem mbxWrite {v : W32} (h : s.Tidy) : (s.mbxWrite v).Tidy := h.withMbx.setFld

/-! ### The functions of Machine/Lookup.lean -/

theorem setCache {half b : Nat} {l : List (Nat × List Byte)} (h : s.Tidy) : (s.setCache half b l).Tidy := h.keep rfl

theorem touchCache {half b : Nat} {bs : List Byte} (h : s.Tidy) : (s.touchCache half b bs).Tidy := h.setCache

theorem uncache {half b : Nat} (h : s.Tidy) : (s.uncache half b).Tidy := h.setCache

theorem writeBucket {b o : Nat} {bs : List Byte} (h : s.Tidy) : (s.writeBucket b o bs).Tidy := by
  unfold State.writeBucket
  exact withLkps (.foldl h.hbmPut fun _ _ h1 => .ite h1.setCache h1)

theorem mendSlots {c n : Nat} (h : s.Tidy) : (s.mendSlots c n).Tidy := h.keep rfl

theorem putEnt {c : Nat} {e : EmEnt} (h : s.Tidy) : (s.putEnt c e).Tidy := .ite h.writeBucket h.withEm.mendSlots

theorem freeSlots {c n : Nat} (h : s.Tidy) : (s.freeSlots c n).Tidy := .ite h.writeBucket h.withEm.mendSlots

theorem ctrSet {half i : Nat} {v : Nat × Nat} (h : s.Tidy) : (s.ctrSet half i v).Tidy := .ite h.withCtrs h.hbmPut

theorem ctrHit {half i len : Nat} (h : s.Tidy) : (s.ctrHit half i len).Tidy := by
  unfold State.ctrHit
  refine .ite h ?_
  split
  exact ctrSet (.ite h h.hbmAsk)

theorem refresh {c : Nat} {e : EmEnt} {src : Bool} (h : s.Tidy) : (s.refresh c e src).Tidy := .ite (.ite h.cnt h.withRfAt.putEnt) h

theorem landSlot {id : Nat} {l : Lkp} {status data : Nat} (h : s.Tidy) : (s.landSlot id l status data).Tidy := by
  unfold State.landSlot
  refine .ite h.withLkps ?_
  dsimp only
  split
  · exact h.withLkps.setThr.event
  · exact h.withLkps.setPkt

theorem landExact {id : Nat} {l : Lkp} {ents : List (Nat × EmEnt)} {bad : Bool} (h : s.Tidy) : (s.landExact id l ents bad).Tidy := by
  unfold State.landExact
  dsimp only
  split
  · exact h.cnt64.cnt64.ctrHit.refresh.landSlot
  · exact .ite h.cnt64.cnt.raise.landSlot h.cnt64.landSlot

theorem landTern {id : Nat} {l : Lkp} (h : s.Tidy) : (s.landTern id l).Tidy := by
  unfold State.landTern
  refine .ite h.cnt64.cnt.raise.landSlot ?_
  split
  · exact h.cnt64.cnt64.ctrHit.landSlot
  · exact h.cnt64.landSlot

theorem landDeep {id : Nat} {l : Lkp} (h : s.Tidy) : (s.landDeep id l).Tidy := by
  unfold State.landDeep
  dsimp only
  split
  · exact h.touchCache.landExact
  · exact withLkps (.ite h.cnt64.hbmAsk h.cnt64)

theorem land {id : Nat} {l : Lkp} {ecc : LkEcc} (h : s.Tidy) : (s.land id l ecc).Tidy := by
  unfold State.land
  refine .ite h.cnt.landSlot ?_
  refine .ite ?_ ?_
  · refine .ite h.cnt.landSlot ?_
    exact .ite h.cnt64.cnt.raise.logErr.landSlot (.ite h.cnt.raise.logErr.landTern h.landTern)
  · refine .ite h.cnt.landSlot ?_
    extract_lets +onlyGivenNames b log t s1
    have ks1 : s1.Tidy := by
      unfold s1
      split
      · exact .ite h.logErr h.logErr.withEmBad
      · exact .ite h.cnt.raise.logErr (.ite h.cnt.logErr h)
    exact .ite (landDeep (.ite ks1.uncache ks1)) ks1.landExact

theorem execLookupLand_tidy {id : Nat} {ecc : LkEcc} (h : s.Tidy) : TidyResult (execLookupLand id ecc s) := by
  unfold execLookupLand
  split
  · exact .next h
  · exact .next (.ite h h.land)

theorem execDeepFillArrive_tidy {half : HalfN} {id : Nat} {bucket : BitVec 25} (h : s.Tidy) : TidyResult (execDeepFillArrive half id bucket s) := by
  unfold execDeepFillArrive
  split
  · exact .next h
  · refine .ite (.next h) ?_
    exact .ite (.next h.withLkps.hbmAsk) (.next (.foldl (.ite h.touchCache h) fun _ _ h2 => h2.landExact))

/-! ### The functions of Machine/EmCmd.lean -/

theorem raise2 {page b : Nat} (h : s.Tidy) : (s.raise2 page b).Tidy := h.raise.raise

theorem markDirty {loc : Nat} (h : s.Tidy) : (s.markDirty loc).Tidy := h.keep rfl

theorem earlyCheck (h : s.Tidy) : s.earlyCheck.Tidy := .ite h.setFld.raise2 h

theorem viewChange {loc old new : Nat} (h : s.Tidy) : (s.viewChange loc old new).Tidy := .ite h (.ite h.markDirty.earlyCheck h.markDirty)

theorem bump {a : Nat} {d : Int} (h : s.Tidy) : (s.bump a d).Tidy := h.setReg

theorem quota {inst : Nat} {d : Int} (h : s.Tidy) : (s.quota inst d).Tidy := h.bump

theorem countEnt {c : Nat} {e : EmEnt} {d : Int} (h : s.Tidy) : (s.countEnt c e d).Tidy :=
  .ite (quota (.ite h.bump.bump h.bump)) (.ite h.bump.bump h.bump)

theorem freeEnt {c : Nat} {e : EmEnt} (h : s.Tidy) : (s.freeEnt c e).Tidy := h.freeSlots.countEnt

theorem newEnt {c : Nat} {e : EmEnt} (h : s.Tidy) : (s.newEnt c e).Tidy := h.putEnt.countEnt

theorem writePage {loc : Nat} (h : s.Tidy) : TidyPair (s.writePage loc) := by
  unfold State.writePage
  refine .ite (.of h) ?_
  refine .ite (.of h) ?_
  refine .ite (.of h) ?_
  exact .of
      (.foldl
         h
         fun _ _ h1 =>
         writeBucket
           (.ite
              h1
              (.ite
                 (earlyCheck (.foldl (.foldl h1 fun _ _ h2 => h2.countEnt) fun _ _ h2 => h2.countEnt))
                 (.foldl (.foldl h1 fun _ _ h2 => h2.countEnt) fun _ _ h2 => h2.countEnt))))

theorem emRun {c : EmCmd} (h : s.Tidy) : TidyPair (s.emRun c) := by
  unfold State.emRun
  refine .ite (.of h) ?_
  refine .ite (.of h) ?_
  refine .ite (.of h) ?_
  split
  · exact .of h
  · refine .ite (.of h) ?_
    refine .ite (.of h) ?_
    split
    · exact .of h
    · exact .of h.newEnt.viewChange
  · exact .ite (.of h) (.of (.foldl h fun _ _ h2 => viewChange (.ite h2.freeEnt h2.putEnt)))
  · split <;> exact .of h
  · exact .ite (.of h) (.of (.foldl h fun _ _ h2 => putEnt (.ite h2.quota.quota h2)))
  · split
    · exact .of h
    · exact .of h.putEnt.viewChange
    · exact .of h
  · split
    · exact .of h
    · refine .ite (.of h) ?_
      split <;> exact .of h
  · exact .ite (.of h) (.ite (.of h) (.of (.ite (.ite h.ctrSet.ctrSet h.ctrSet) h)))
  · exact .of h.writePage.snd
  · exact .of h

theorem emReturn {r : EmRes} (h : s.Tidy) : (s.emReturn r).Tidy := by
  unfold State.emReturn
  extract_lets +onlyGivenNames s1 s2
  have ks1 : s1.Tidy := by
    unfold s1
    split
    · exact h.setReg
    · exact h
  have ks2 : s2.Tidy := by
    unfold s2
    split
    · exact .ite (.foldl ks1.setReg64.setReg64 fun _ _ h2 => h2.setReg) ks1.setReg64.setReg64
    · exact ks1
  split
  · exact ks2.setReg64.setReg64
  · exact ks2

theorem emGo {half : Nat} {v : W32} (h : s.Tidy) : (s.emGo half v).Tidy := by
  unfold State.emGo
  dsimp only
  exact h.setReg.emRun.snd.emReturn.setReg

theorem bulkEnd {st : Nat} (h : s.Tidy) : (s.bulkEnd st).Tidy := .ite h.setFld.raise2.point h.setFld.raise2

theorem bulkStart (h : s.Tidy) : s.bulkStart.Tidy := .ite h.setReg.setReg.bulkEnd h.setReg.setReg

theorem bulkAbort (h : s.Tidy) : s.bulkAbort.Tidy := .ite h.setFld.bulkEnd h.lateAbort

theorem bulkFail {i : Nat} (h : s.Tidy) : (s.bulkFail i).Tidy := setFld (.ite h.setFld h)

theorem execEmBulkRecord_tidy (h : s.Tidy) : TidyResult (execEmBulkRecord s) := by
  unfold execEmBulkRecord
  refine .ite (.next h) ?_
  extract_lets +onlyGivenNames i adr ok b v op c r s1 s2
  have kr : TidyPair r := .ite h.emRun (.of h)
  have ks1 : s1.Tidy := .ite kr.snd kr.snd.bulkFail
  exact .next (.ite ks1.setFld.bulkEnd ks1.setFld)

theorem tblCfg {n : Nat} {v : W32} (h : s.Tidy) : (s.tblCfg n v).Tidy := h.setReg

theorem setSeed {v : W32} (h : s.Tidy) : (s.setSeed v).Tidy := by
  unfold State.setSeed
  exact h.setReg.withBcache

/-! ### The functions of Machine/Tern.lean -/

theorem setRow {r : Nat} {e : Option TcRow} (h : s.Tidy) : (s.setRow r e).Tidy := h.keep rfl

theorem freeRow {r : Nat} {e : TcRow} (h : s.Tidy) : (s.freeRow r e).Tidy := h.setRow

theorem countRow {e : TcRow} {d : Int} (h : s.Tidy) : (s.countRow e d).Tidy := h.bump.quota

theorem setRowView {r : Nat} {e : TcRow} {v : Nat} (h : s.Tidy) : (s.setRowView r e v).Tidy := viewChange (.ite h.freeRow.countRow h.setRow)

theorem tcRun {v : W32} (h : s.Tidy) : TidyPair (s.tcRun v) := by
  unfold State.tcRun
  refine .ite (.of h) ?_
  refine .ite (.of h) ?_
  refine .ite (.of h) ?_
  split
  · refine .ite (.of h) ?_
    refine .ite (.of h) ?_
    split
    · exact .of h
    · exact .of h.withMrMovesMrIns
  · split
    · exact .of h
    · exact .of (.foldl h fun _ _ h3 => h3.setRowView)
  · split <;> exact .of h
  · split
    · exact .of h
    · exact .of (.foldl h fun _ _ h3 => h3.quota.quota.setRow)
  · split
    · exact .of h
    · exact .of h.setRowView
    · exact .of h
  · exact .ite (.of h) (.of h)
  · split <;> exact .of h
  · exact .of h

theorem putWide {reg : Nat → Nat} {n : Nat} (h : s.Tidy) : (s.putWide reg n).Tidy := .foldl h fun _ _ h1 => h1.setReg

theorem tcReturn {op : Nat} {r : TcRes} (h : s.Tidy) : (s.tcReturn op r).Tidy := by
  unfold State.tcReturn
  extract_lets +onlyGivenNames s1
  have ks1 : s1.Tidy := by
    unfold s1
    split
    · exact h.setReg
    · exact h
  split
  · exact .ite ks1.setReg64.setReg64.putWide.putWide ks1.setReg64.setReg64
  · exact ks1

theorem tcGo {v : W32} (h : s.Tidy) : (s.tcGo v).Tidy := by
  unfold State.tcGo
  dsimp only
  exact h.setReg.tcRun.snd.tcReturn.setReg

theorem execMakeRoomMove_tidy (h : s.Tidy) : TidyResult (execMakeRoomMove s) := by
  unfold execMakeRoomMove
  split
  · exact .next h
  · dsimp only
    split
    · exact .next h.withMrMoves
    · exact .next (.ite h.withMrMoves.setRow.freeRow.cnt64.cnt64.markDirty h.withMrMoves.setRow.freeRow.cnt64.cnt64)

theorem execTcCmdComplete_tidy (h : s.Tidy) : TidyResult (execTcCmdComplete s) := by
  unfold execTcCmdComplete
  refine .ite (.next h) ?_
  extract_lets +onlyGivenNames s1
  have ks1 : s1.Tidy := by
    unfold s1
    split
    · exact h.setRow.countRow.withMrIns.viewChange
    · exact h
  exact .next ks1.setFld.raise2

theorem setVs {f : Fld} {n : Nat} (h : s.Tidy) : (s.setVs f n).Tidy := h.setFld

theorem viewRefuse {reason : Nat} (h : s.Tidy) : (s.viewRefuse reason).Tidy := h.setVs.cnt

theorem viewCommit (h : s.Tidy) : s.viewCommit.Tidy := .ite h.viewRefuse.setVs.raise2 h.setVs.setVs.withCommitPend

theorem execViewFlip_tidy (h : s.Tidy) : TidyResult (execViewFlip s) := by
  unfold execViewFlip
  refine .ite (.next h) ?_
  extract_lets +onlyGivenNames old
  have set : (s.setVs F.VIEW_STAT_ACTIVE (1 - old)).Tidy := h.setVs
  generalize s.setVs F.VIEW_STAT_ACTIVE (1 - old) = u at set ⊢
  have flipped : ({ u with commitPend := false } : State).Tidy := set.withCommitPend
  generalize ({ u with commitPend := false } : State) = w at flipped ⊢
  extract_lets +onlyGivenNames s1 s2 empty s3
  have ks3 : s3.Tidy := flipped.setTimeAt.bump.setVs.setVs.setVs.applyStaged.raise2.point
  exact .next (.ite ks3.raise2 ks3)

theorem viewAbort (h : s.Tidy) : s.viewAbort.Tidy := by
  unfold State.viewAbort
  extract_lets +onlyGivenNames s1
  have ks1 : s1.Tidy := .ite h.withCommitPend.setVs.setVs.raise2 h.lateAbort
  exact .ite ks1.setVs.setVs.raise2 (.ite ks1.setVs ks1)

theorem forceDrain {v : Nat} (h : s.Tidy) : (s.forceDrain v).Tidy := by
  unfold State.forceDrain
  extract_lets +onlyGivenNames mine s s1
  have ks1 : s1.Tidy := .foldl h.cntN fun _ _ h1 => .ite h1 (.foldl h1.setVoqU fun _ _ h2 => h2.freeDeep.dropEnt)
  refine .foldl ks1 fun _ _ h1 => ?_
  split
  · exact .ite h1.markDiscard.cnt h1
  · exact .ite h1.markDiscard.cnt h1
  · exact h1

theorem syncEnd (h : s.Tidy) : s.syncEnd.Tidy := h.setVs.setVs.raise2.point

theorem viewSync (h : s.Tidy) : s.viewSync.Tidy := .ite h.viewRefuse (.ite h.viewRefuse.setVs.raise2 (.ite h.setVs.setVs.syncEnd h.setVs.setVs))

theorem syncEnt {e : Nat × EmEnt} (h : s.Tidy) : (s.syncEnt e).Tidy := .ite h (.ite h.freeEnt h.putEnt)

theorem execViewSyncLocation_tidy (h : s.Tidy) : TidyResult (execViewSyncLocation s) := by
  unfold execViewSyncLocation
  refine .ite (.next h) ?_
  split
  · exact .next h.syncEnd
  · extract_lets +onlyGivenNames s1 s2
    have ks1 : s1.Tidy := by
      unfold s1
      refine .ite ?_ (.foldl h fun _ _ h2 => h2.syncEnt)
      split
      · exact .ite h (.ite h.freeRow.countRow h.setRow)
      · exact h
    exact .next (.ite ks1.withDirty.syncEnd ks1.withDirty)

theorem viewCtl {v : W32} (h : s.Tidy) : (s.viewCtl v).Tidy := by
  unfold State.viewCtl
  extract_lets +onlyGivenNames s1 s2 s3
  have ks2 : s2.Tidy := .ite h.setReg.viewCommit h.setReg
  have ks3 : s3.Tidy := .ite ks2.viewAbort ks2
  exact .ite ks3.viewSync ks3

/-! ### The functions of Machine/Learn.lean -/

theorem ringEvent {type tbl port loc : Nat} {key : List Byte} (h : s.Tidy) : (s.ringEvent type tbl port loc key).Tidy :=
  .ite h (.ite h.cnt (setReg (.ite h.secWrite h)))

theorem lrnEvent {type port loc : Nat} {key : List Byte} (h : s.Tidy) : (s.lrnEvent type port loc key).Tidy := h.ringEvent

theorem learnEvent {c : SrcChk} (h : s.Tidy) : (s.learnEvent c).Tidy :=
  .ite h (.ite (.ite h.lrnEvent.cnt (cnt (.ite h.lrnEvent.markDiscard h.lrnEvent))) (.ite h.cnt h.withLearnQ))

theorem sourceCheck {half : Nat} {c : SrcChk} (h : s.Tidy) : (s.sourceCheck half c).Tidy := by
  unfold State.sourceCheck
  refine .ite h ?_
  refine .ite h.cnt ?_
  dsimp only
  split
  · exact .ite h h.learnEvent
  · exact .ite h.refresh (.ite h.cnt (.ite h.cnt (.ite h h.learnEvent)))

theorem execSourceCheck_tidy {half : HalfN} (h : s.Tidy) : TidyResult (execSourceCheck half s) := by
  unfold execSourceCheck
  dsimp only
  split
  · exact .next h
  · exact .ite (.next h) (.next h.withSrcChks.sourceCheck)

theorem sendRec {r : LrnRec} (h : s.Tidy) : (s.sendRec r).Tidy := .ite h.withLrnOpen h

theorem sendLearn {n : Nat} (h : s.Tidy) : (s.sendLearn n).Tidy := by
  unfold State.sendLearn
  dsimp only
  split
  · next eq => exact (h.withLrnOpen.setReg.storeFrame.of_eq eq).toParser
  · next eq => exact (h.withLrnOpen.setReg.storeFrame.of_eq eq).freeChain
  · next eq => exact (h.withLrnOpen.setReg.storeFrame.of_eq eq)
  · next eq => exact (h.withLrnOpen.setReg.storeFrame.of_eq eq)

theorem trackMove {half p : Nat} {e : EmEnt} (h : s.Tidy) : (s.trackMove half p e).Tidy := by
  unfold State.trackMove
  dsimp only
  split
  · exact h.cnt
  · exact .ite h.withDamps.putEnt.raise.lrnEvent h.withDamps

theorem applyLearn {bd mac dev port ts inst : Nat} {loc : Bool} (h : s.Tidy) : TidyPair (s.applyLearn bd mac dev port ts inst loc) := by
  unfold State.applyLearn
  dsimp only
  split
  · split
    · exact .of h.cnt
    · exact .of h.newEnt
  · exact .ite (.of h) (.ite (.ite (.of h.putEnt) (.of h.putEnt.cnt.lrnEvent.trackMove)) (.of h.cnt))

theorem applyLocal {l : Learn} (h : s.Tidy) : (s.applyLocal l).Tidy := by
  unfold State.applyLocal
  dsimp only
  split
  · next eq => exact (h.applyLearn.of_eq eq)
  · next eq => exact (h.applyLearn.of_eq eq).cnt64.lrnEvent.sendRec

theorem execLearnApply_tidy {half : HalfN} (h : s.Tidy) : TidyResult (execLearnApply half s) := by
  unfold execLearnApply
  dsimp only
  split
  · exact .next h
  · exact .ite (.next h) (.next (.ite h.withLearnQ.applyLocal h.withLearnQ))

theorem execFreezeExpire_tidy {half : HalfN} (h : s.Tidy) : TidyResult (execFreezeExpire half s) := by
  unfold execFreezeExpire
  dsimp only
  split
  · exact .next h
  · refine .ite (.next h) ?_
    split
    · exact .next h.withDamps.putEnt.lrnEvent
    · exact .next h.withDamps

theorem setPeer {d : Nat} {p : Peer} (h : s.Tidy) : (s.setPeer d p).Tidy := h.keep rfl

theorem sequence {dev seq n : Nat} (h : s.Tidy) : (s.sequence dev seq n).Tidy :=
  .ite h.setPeer (.ite h.setPeer (.ite h.setPeer.cnt.raise.lrnEvent h.setPeer.cnt))

theorem learnFrame {b : List Byte} (h : s.Tidy) : (s.learnFrame b).Tidy := .ite h.cnt (.ite h.cnt h.sequence.withLrnRecs.cntN)

theorem execLearnFrameReceive_tidy (h : s.Tidy) : TidyResult (execLearnFrameReceive s) := by
  unfold execLearnFrameReceive
  split
  · exact .next h
  · exact .next (.ite h.withLrnIn.learnFrame h)

theorem withRec {op : Nat} {f : State → LrnRec → State} (h : s.Tidy) (hf : ∀ u r, u.Tidy → (f u r).Tidy) : (s.withRec op f).Tidy := by
  unfold State.withRec
  split
  · exact h
  · exact .ite (.ite (hf _ _ h.withLrnRecs) h.withLrnRecs) h

theorem execLearnRecordLearn_tidy (h : s.Tidy) : TidyResult (execLearnRecordLearn s) := by
  unfold execLearnRecordLearn
  refine .next ?_
  refine h.withRec fun _ _ h1 => ?_
  refine .ite h1.cnt ?_
  split
  · next eq => exact (h1.applyLearn.of_eq eq).cnt64
  · next eq => exact (h1.applyLearn.of_eq eq)

theorem execLearnRecordWithdraw_tidy (h : s.Tidy) : TidyResult (execLearnRecordWithdraw s) := by
  unfold execLearnRecordWithdraw
  refine .next ?_
  refine h.withRec fun _ _ h1 => ?_
  split
  · exact .ite h1.freeEnt.cnt64 h1
  · exact h1

theorem execLearnRecordReplay_tidy (h : s.Tidy) : TidyResult (execLearnRecordReplay s) := by
  unfold execLearnRecordReplay
  refine .next ?_
  refine h.withRec fun _ _ h1 => ?_
  refine .ite h1 ?_
  split
  · next eq => exact (h1.applyLearn.of_eq eq).cnt64
  · next eq => exact (h1.applyLearn.of_eq eq)

theorem ageOut {half p : Nat} {e : EmEnt} (h : s.Tidy) : (s.ageOut half p e).Tidy := .ite h.freeEnt.cnt64.ringEvent.sendRec h.freeEnt.cnt64.ringEvent

theorem flushStart {v : W32} (h : s.Tidy) : (s.flushStart v).Tidy := h.withLrnPos.setReg

theorem dumpStart (h : s.Tidy) : s.dumpStart.Tidy := h.withDumpPos.setReg

theorem lrnAbort {dump : Bool} (h : s.Tidy) : (s.lrnAbort dump).Tidy := .ite h.setFld.setFld.raise h.lateAbort

theorem bulkBucket {dump : Bool} (h : s.Tidy) : (s.bulkBucket dump).Tidy := by
  unfold State.bulkBucket
  extract_lets +onlyGivenNames pos fin
  split
  · exact h.setFld.point.raise
  · refine .ite h ?_
    extract_lets +onlyGivenNames here s1 s2
    have ks1 : s1.Tidy := .foldl h fun _ _ h2 => .ite (.ite h2.sendRec h2) (.ite (.ite h2.freeEnt.sendRec h2.freeEnt) h2)
    have ks2 : s2.Tidy := .ite ks1.withDumpPos ks1.withLrnPos
    exact .ite ks2 ks2.setFld.point.raise

/-! ### The functions of Machine/VelkorControl.lean -/

theorem branchTo {a len : Nat} {off : Int} (h : s.Tidy) : (s.branchTo a len off).Tidy := h.setPc

theorem squash {a : Nat} {w : WrongPath} (h : s.Tidy) : (s.squash a w).Tidy := by
  unfold State.squash
  refine .ite h ?_
  split
  · exact h
  · exact h.cnt64
  · exact h.cnt64.cnt

theorem branchIf {a : Nat} {lg half : Bool} {off : Int} {taken : Bool} {w : WrongPath} (h : s.Tidy) : (s.branchIf a lg half off taken w).Tidy :=
  .ite (branchTo (.ite h h.squash)) (.ite h h.squash)

theorem instrAll {a len : Nat} {k : Kind} {f : State → State} (h : s.Tidy) (hf : ∀ u, u.Tidy → (f u).Tidy) :
    TidyResult (s.instrAll a len k f) := .ite (h.instr hf) (.next h)

theorem execSig_tidy {a : Agent} {lg : Bool} {rs1 : Reg} (h : s.Tidy) : TidyResult (execSig a lg rs1 s) := by
  unfold execSig
  refine h.instr fun _ h1 => ?_
  split
  exact .foldl h1 fun _ _ h3 => .ite h3.event h3

theorem slpRes {a r : Nat} (h : s.Tidy) : (s.slpRes a r).Tidy := .ite h.setFld h

theorem execMfs_tidy {a : Agent} {rd : Reg} {sreg : BitVec 12} (h : s.Tidy) : TidyResult (execMfs a rd sreg s) := by
  unfold execMfs
  refine h.instr fun _ h1 => ?_
  split
  · exact h1.setX
  · exact h1.sregViol.setX

theorem execUndefinedInstruction_tidy {a : Agent} (h : s.Tidy) : TidyResult (execUndefinedInstruction a s) := by
  unfold execUndefinedInstruction
  refine .ite (.next h) ?_
  split
  next eq =>
    have k1 := h.fetch.of_eq eq
    refine .ite (.ite (.next h) (.next k1.issued.undefPair)) ?_
    split
    next eq =>
      have k2 := k1.fetch.of_eq eq
      split
      · exact .next h
      · exact .next (undefPair (issued (.ite k2.cnt k2)))

theorem execWfeWake_tidy {a : Agent} (h : s.Tidy) : TidyResult (execWfeWake a s) := by
  unfold execWfeWake
  dsimp only
  split
  · exact .ite (.next h) (.next h.setThr)
  · exact .next h

theorem execThreadTimerExpire_tidy {a : Agent} (h : s.Tidy) : TidyResult (execThreadTimerExpire a s) := by
  unfold execThreadTimerExpire
  split
  · exact .next h
  · exact .next h.setThr.event

/-! ### The functions of Machine/Sched.lean -/

theorem execTaskDispatch_tidy {a : Agent} (h : s.Tidy) : TidyResult (execTaskDispatch a s) := by
  unfold execTaskDispatch
  split
  · exact .ite (.next h.settle.loadTask.event) (.next h)
  · exact .next h

theorem execTaskPreempt_tidy {a : Agent} (h : s.Tidy) : TidyResult (execTaskPreempt a s) := by
  unfold execTaskPreempt
  dsimp only
  split
  · exact .next h
  · refine .ite (.next h) ?_
    refine .ite (.next h.cnt64.nextTask) ?_
    split
    · exact .next h
    · exact .next h.settle.saveTask.makeReady.loadTask.cnt64

theorem execTimeoutExpire_tidy {task : TaskN} (h : s.Tidy) : TidyResult (execTimeoutExpire task s) := by
  unfold execTimeoutExpire
  split
  · exact .next h
  · exact .ite (.next h) (.next h.withTmouts.timeUp)

theorem lockViol {a n base type : Nat} (h : s.Tidy) : (Machine.lockViol s a n base type).Tidy := h.viol

theorem execLka_tidy {a : Agent} {rd rs1 : Reg} (h : s.Tidy) : TidyResult (execLka a rd rs1 s) := by
  unfold execLka
  refine h.instr fun _ h1 => ?_
  split
  next eq => exact (h1.lockAcquire.of_eq eq).setX

theorem lkup {a k rd rs1 p : Nat} (h : s.Tidy) : (s.lkup a k rd rs1 p).Tidy :=
  .ite h.setX.cnt (.ite h.setThr.setX.cnt (.ite h.setThr.setX h.setThr.setX.issueLkp.setPkt))

theorem execLkup_tidy {a : Agent} {rd rs1 rs2 : Reg} (h : s.Tidy) : TidyResult (execLkup a rd rs1 rs2 s) := by
  unfold execLkup
  refine h.instr fun _ h1 => ?_
  refine .ite h1.undef ?_
  split
  · exact h1.killPartner.excpAt
  · exact h1.lkup

theorem msixSource {n : Nat} (h : s.Tidy) : (s.msixSource n).Tidy := .ite h (.ite h.emit.serve.cnt64 h.withVecPend.cnt)

/-! ### The functions of Machine/TimeStep.lean -/

theorem geyserSkip {old new : Nat} (h : s.Tidy) : (s.geyserSkip old new).Tidy :=
  .foldl (withTmouts (.foldl h fun _ _ h1 => .ite h1.setReg.setDelayL h1)) fun _ _ h1 => h1.timeUp

theorem stepDone (h : s.Tidy) : s.stepDone.Tidy := h.setTime.setFld.raise

theorem gclSkip (h : s.Tidy) : s.gclSkip.Tidy := .ite (.foldl h fun _ _ h1 => .ite h1.gclSwitch h1) h

theorem fireDue (h : s.Tidy) : s.fireDue.Tidy := by
  unfold State.fireDue
  extract_lets +onlyGivenNames s1
  have ks1 : s1.Tidy := .foldl h fun _ _ h1 => h1.trigFire
  exact .ite (.foldl ks1.wheelRun.gclSkip.withTmouts fun _ _ h1 => h1.timeUp) ks1

theorem execForcedStep_tidy (h : s.Tidy) : TidyResult (execForcedStep s) := by
  unfold execForcedStep
  refine .ite (.next h) ?_
  extract_lets +onlyGivenNames s old d w time t s1
  have ks1 : s1.Tidy := h.fireDue.setTime.cnt.setFld.setFld
  refine .ite (.next ks1.stepDone) ?_
  exact .ite (.next ks1.gclSkip.setTime) (.next (.ite ks1.gclSkip.geyserSkip.stepDone ks1.gclSkip.stepDone))

theorem execSkippedEventRelease_tidy (h : s.Tidy) : TidyResult (execSkippedEventRelease s) := by
  unfold execSkippedEventRelease
  split
  · exact .next h
  · extract_lets +onlyGivenNames s1
    have ks1 : s1.Tidy := .foldl h fun _ _ h2 => h2.trigFire
    exact .next (.ite ks1.wheelRun.geyserSkip.stepDone ks1.stepDone)

/-! ### The functions of Machine/BusRead.lean -/

theorem setLatch {who a : Nat} {v : Option W32} (h : s.Tidy) : (s.setLatch who a v).Tidy := h.keep rfl

theorem latchGroup {who : Nat} {hit : Hit} (h : s.Tidy) : (s.latchGroup who hit).Tidy := by
  unfold State.latchGroup
  split
  · exact h
  · exact .ite h (.foldl h fun _ _ h2 => h2.setLatch)

theorem clearRead {hit : Hit} (h : s.Tidy) : (s.clearRead hit).Tidy := by
  unfold State.clearRead
  split
  · exact h
  · exact .ite h (.ite h (.ite h.setReg.setReg h.setReg))

theorem clearViol {hit : Hit} (h : s.Tidy) : (s.clearViol hit).Tidy := .ite h h.setReg.setReg

theorem plainRead {who : Nat} {hit : Hit} (h : s.Tidy) : TidyPair (s.plainRead who hit) := by
  unfold State.plainRead
  split
  · exact .of h.setLatch
  · exact .of h.latchGroup.clearRead

theorem claim {who t : Nat} {hit : Hit} (h : s.Tidy) : TidyPair (s.claim who t hit) := by
  unfold State.claim
  refine .ite (.of h.violAt) ?_
  split
  · exact .of h.serve
  · exact .of h.cnt

theorem hkeyNext {e : Nat} (h : s.Tidy) : (s.hkeyNext e).Tidy := h.setFld

theorem cluNext {c o : Nat} (h : s.Tidy) : (s.cluNext c o).Tidy := .ite h.setFld (.ite h.setFld h)

theorem readHit {who : Nat} {hit : Hit} (h : s.Tidy) : TidyPair (s.readHit who hit) := by
  unfold State.readHit
  refine .ite (.of h.clearViol) ?_
  refine .ite (.of h) ?_
  refine .ite (.of h.violAt) ?_
  split
  · exact .ite h.claim h.plainRead
  · exact .ite (.of h.lockAcquire.snd) h.plainRead
  · exact .ite (.ite (.of h) h.plainRead) (.ite (.of (.ite h.plainRead.snd.withStamps h.plainRead.snd)) h.plainRead)
  · exact .ite (.of h.plainRead.snd.hkeyNext) h.plainRead
  · exact .of h.plainRead.snd.cluNext
  · exact .ite (.of h.violAt) h.plainRead
  · refine .ite (.of h.violAt) ?_
    refine .ite ?_ h.plainRead
    split
    · exact .of h.dbgStatus
    · exact .of h.plainRead.snd.dbgStatus
  · exact h.plainRead

theorem bellRead {who i o : Nat} (h : s.Tidy) : TidyPair (s.bellRead who i o) := by
  unfold State.bellRead
  refine .ite (.of h) ?_
  exact .ite (.of h) (.ite (.of h) (.ite (.of h) (.ite (.of h.clearViol) (.ite (.of h) (.of h.viol)))))

theorem busRead {who a : Nat} (h : s.Tidy) : TidyPair (s.busRead who a) := by
  unfold State.busRead
  split
  · exact .of h
  · exact .of h.viol
  · exact .ite (.of h.viol) h.bellRead
  · exact .ite (.of h.violAt) h.readHit

/-! ### The functions of Machine/BusWrite.lean -/

theorem putW {hit : Hit} {v : W32} (h : s.Tidy) : (s.putW hit v).Tidy := h.setReg

theorem refuse {who : Nat} {hit : Hit} (h : s.Tidy) : (s.refuse who hit).Tidy := h.violAt

theorem putF {who : Nat} {hit : Hit} {v : W32} {bad : List Fld} (h : s.Tidy) : (s.putF who hit v bad).Tidy := .ite h.putW h.putW.refuse

theorem putIf {who : Nat} {hit : Hit} {v : W32} {ok : Bool} (h : s.Tidy) : (s.putIf who hit v ok).Tidy := .ite h.putW h.refuse

theorem putBits {who : Nat} {hit : Hit} {v m : W32} {ok : Bool} (h : s.Tidy) : (s.putBits who hit v m ok).Tidy := h.putIf

theorem writeHdr {who : Nat} {hit : Hit} {v : W32} {k : PageKind} {i : Nat} (h : s.Tidy) : (s.writeHdr who hit v k i).Tidy := by
  unfold State.writeHdr
  dsimp only
  split
  · exact .ite (.ite h.setReg.engineReset.point h.refuse) h.setReg
  · exact h.setReg
  · exact .ite h.violAt h.setReg
  · exact .ite h.violAt h.setReg
  · exact h.violAt

theorem writeDev {who : Nat} {hit : Hit} {v : W32} (h : s.Tidy) : (s.writeDev who hit v).Tidy := by
  unfold State.writeDev
  split
  · exact .ite h.putW (.ite h.violAt (.ite h.refuse h.putW.requestMode))
  · exact h.setFence
  · exact .ite h.pwrWrite h.refuse
  · extract_lets +onlyGivenNames l s0 s1
    have ks0 : s0.Tidy := .foldl h fun _ _ h2 => .foldl h2 fun _ _ h3 => h3.dropRequests
    have ks1 : s1.Tidy := .foldl ks0 fun _ _ h2 => h2.coreReset
    exact .ite ks1.fumReset ks1
  · exact .ite h.wakeFire h
  · exact h.putW

theorem writeAon {who : Nat} {hit : Hit} {v : W32} (h : s.Tidy) : (s.writeAon who hit v).Tidy := .ite h.putF h.putW

theorem timeCtl {who : Nat} {hit : Hit} {v : W32} (h : s.Tidy) : (s.timeCtl who hit v).Tidy := by
  unfold State.timeCtl
  refine .ite h.refuse ?_
  extract_lets +onlyGivenNames free s1 s2 time s3
  have ks2 : s2.Tidy := .ite h.putF h.putF.setFld
  have ks3 : s3.Tidy := .ite ks2 ks2.setTime
  exact .ite ks3.toServo (.ite ks3.enterHoldover ks3)

theorem writeTime {who : Nat} {hit : Hit} {v : W32} (h : s.Tidy) : (s.writeTime who hit v).Tidy := by
  unfold State.writeTime
  refine .ite (.ite h.putIf (.ite h.refuse h.putW.trigArmed)) ?_
  split
  · exact h.timeCtl
  · exact .ite h.refuse h.setReg
  · exact .ite h.refuse (.ite h.addSlew.sample h.addSlew)
  · exact .ite h.putW h
  · exact .ite h (.ite h.refuse h.setTime.setFld)
  · exact h.putW

theorem irqSoft {who : Nat} {hit : Hit} {v : W32} (h : s.Tidy) : (s.irqSoft who hit v).Tidy := .ite h.setSoft (.ite h.refuse h.setSoft)

theorem irqHeoi {who : Nat} {hit : Hit} {n : Nat} (h : s.Tidy) : (s.irqHeoi who hit n).Tidy := .ite h (.ite h.setService h.refuse)

theorem writeIrq {who : Nat} {hit : Hit} {v : W32} (h : s.Tidy) : (s.writeIrq who hit v).Tidy :=
  .ite (.ite h (.ite h.setService h.refuse)) (.ite h.irqHeoi (.ite h.irqSoft h.putW))

theorem writeSrc {who : Nat} {hit : Hit} {v : W32} {k : Nat} (h : s.Tidy) : (s.writeSrc who hit v k).Tidy := .ite h.violAt (.ite h.refuse h.putF)

theorem writeTce {who : Nat} {hit : Hit} {v : W32} {o : Nat} (h : s.Tidy) : (s.writeTce who hit v o).Tidy := by
  unfold State.writeTce
  refine .ite h.refuse ?_
  split <;> exact h.setTask

theorem tskCmd {hit : Hit} {v : W32} (h : s.Tidy) : (s.tskCmd hit v).Tidy := .ite h.putW.tskCommand.snd.setReg.raise h.putW

theorem writeTsk {who : Nat} {hit : Hit} {v : W32} (h : s.Tidy) : (s.writeTsk who hit v).Tidy := by
  unfold State.writeTsk
  refine .ite h.writeTce ?_
  refine .ite h.tskCmd ?_
  refine .ite (.ite h.putW.setReg.setFld h.putW) ?_
  exact .ite h.putIf (.ite h.putF (.ite (.ite h.violAt h.portCommand) h.putW))

theorem writeLck {who : Nat} {hit : Hit} {k : Nat} (h : s.Tidy) : (s.writeLck who hit k).Tidy := .ite h.lockRelease h.violAt

theorem writePort {who : Nat} {hit : Hit} {v : W32} {x : Nat} (h : s.Tidy) : (s.writePort who hit v x).Tidy := by
  unfold State.writePort
  dsimp only
  split
  · exact h.putIf
  · exact .ite h.putF.portOff h.putF
  · exact h.putIf
  · exact h.putW

theorem writeSds {who : Nat} {hit : Hit} {v : W32} {m : Nat} (h : s.Tidy) : (s.writeSds who hit v m).Tidy := h.putIf

theorem writeParse {who : Nat} {hit : Hit} {v : W32} (h : s.Tidy) : (s.writeParse who hit v).Tidy := .ite h.putF (.ite (.ite h.putF h.refuse) h.putW)

theorem setHkey {e : Nat} {v : W32} (h : s.Tidy) : (s.setHkey e v).Tidy := h.setEng

theorem writeEng {who : Nat} {hit : Hit} {v : W32} {e : Nat} (h : s.Tidy) : (s.writeEng who hit v e).Tidy := by
  unfold State.writeEng
  split
  · exact .ite h.refuse h.engCtl
  · exact h.engThrCfg
  · exact h.putIf
  · exact h.putF
  · exact h.resetThreads
  · exact h.putIf
  · exact .ite h.refuse h.setHkey.hkeyNext
  · exact h.putW

theorem writeClu {who : Nat} {hit : Hit} {v : W32} {c : Nat} (h : s.Tidy) : (s.writeClu who hit v c).Tidy := by
  unfold State.writeClu
  refine .ite (.ite h.refuse h.wrLE.cluNext) ?_
  exact .ite h.wrLE.cluNext (.ite (.ite h.refuse h.wrLE.cluNext) (.ite h.putIf h.putW))

theorem writeEm {who : Nat} {hit : Hit} {v : W32} {half : Nat} (h : s.Tidy) : (s.writeEm who hit v half).Tidy := by
  unfold State.writeEm
  refine .ite (.ite h.setSeed h.refuse) ?_
  refine .ite (.ite h.refuse (.ite h.putW (.ite h.refuse h.emGo))) ?_
  refine .ite h.putBits ?_
  exact .ite h.putIf (.ite (.ite h.refuse (.ite (bulkAbort (.ite h.bulkStart h)) (.ite h.bulkStart h))) h.putW)

theorem writeDesc {who : Nat} {hit : Hit} {v : W32} {k : Nat} (h : s.Tidy) : (s.writeDesc who hit v k).Tidy := .ite h.tblCfg h.refuse

theorem writeTc {who : Nat} {hit : Hit} {v : W32} (h : s.Tidy) : (s.writeTc who hit v).Tidy := by
  unfold State.writeTc
  refine .ite (.ite h.refuse (.ite h.putW (.ite h.refuse h.tcGo))) ?_
  exact .ite h.putBits (.ite h.putBits (.ite h.putIf (.ite h.putIf (.ite h.putIf h.putW))))

theorem writeView {hit : Hit} {v : W32} (h : s.Tidy) : (s.writeView hit v).Tidy := .ite h.viewCtl h.putW

theorem lrnBulk {who : Nat} {hit : Hit} {v : W32} {dump : Bool} (h : s.Tidy) : (s.lrnBulk who hit v dump).Tidy := by
  unfold State.lrnBulk
  refine .ite h.refuse ?_
  extract_lets +onlyGivenNames s1
  have ks1 : s1.Tidy := .ite (.ite h.dumpStart h.flushStart) (.ite h h.putW)
  exact .ite ks1.lrnAbort ks1

theorem writeLrn {who : Nat} {hit : Hit} {v : W32} (h : s.Tidy) : (s.writeLrn who hit v).Tidy := by
  unfold State.writeLrn
  dsimp only
  split
  · exact h.putF
  · exact h.putIf
  · exact .ite h.refuse h.putF
  · exact h.putIf
  · exact h.lrnBulk
  · exact h.lrnBulk
  · exact .ite h.setPeer h
  · exact h.putW

theorem writeAge {who : Nat} {hit : Hit} {v : W32} (h : s.Tidy) : (s.writeAge who hit v).Tidy := h.putIf

theorem auditCtl {who : Nat} {hit : Hit} {v : W32} (h : s.Tidy) : (s.auditCtl who hit v).Tidy := by
  unfold State.auditCtl
  refine .ite h.refuse ?_
  extract_lets +onlyGivenNames s1 s2
  have ks1 : s1.Tidy := .ite h h.putW
  have ks2 : s2.Tidy := .ite ks1.auditStart ks1
  exact .ite ks2.auditAbort ks2

theorem writeSint {who : Nat} {hit : Hit} {v : W32} (h : s.Tidy) : (s.writeSint who hit v).Tidy := by
  unfold State.writeSint
  refine .ite (.ite h (.ite h.refuse h.poolApply)) ?_
  refine .ite h.putF ?_
  refine .ite (.ite h.putW.sintGo h.putW) ?_
  refine .ite h.auditCtl ?_
  refine .ite ?_ h.putW
  split
  · exact h.bufWrite
  · exact h.refuse

theorem writeAcct {who : Nat} {hit : Hit} {v : W32} (h : s.Tidy) : (s.writeAcct who hit v).Tidy := .ite h.putW h.refuse

theorem mcgLoad {g : Nat} (h : s.Tidy) : (s.mcgLoad g).Tidy := .foldl h fun _ _ h1 => h1.setReg

theorem mcgStore {g : Nat} (h : s.Tidy) : (s.mcgStore g).Tidy := .foldl h fun _ _ h1 => h1.setReg

theorem writeXbar {who : Nat} {hit : Hit} {v : W32} (h : s.Tidy) : (s.writeXbar who hit v).Tidy := by
  unfold State.writeXbar
  refine .ite h.putW.mcgLoad ?_
  exact .ite h.putW.mcgStore (.ite h.putIf (.ite h.putF (.ite (.ite h.flushPort h) h.putW)))

theorem writeTm {who : Nat} {hit : Hit} {v : W32} (h : s.Tidy) : (s.writeTm who hit v).Tidy := .ite h.putIf h.putW

theorem gclCtl {who : Nat} {hit : Hit} {v : W32} {x : Nat} (h : s.Tidy) : (s.gclCtl who hit v x).Tidy :=
  .ite h.refuse (.ite (.ite h.putF.gclRequest h.putF) (setFld (.ite h.putF.gclRequest h.putF)))

theorem writeTmPort {who : Nat} {hit : Hit} {v : W32} {x : Nat} (h : s.Tidy) : (s.writeTmPort who hit v x).Tidy := by
  unfold State.writeTmPort
  refine .ite h.putIf ?_
  refine .ite h.putW.wakes ?_
  exact .ite (.ite h.putIf.setCred h.putIf) (.ite h.gclCtl (.ite h.putIf (.ite h.putIf h.putW)))

theorem writeMtr {hit : Hit} {v : W32} {half : Nat} (h : s.Tidy) : (s.writeMtr hit v half).Tidy := .ite h.putW.mtrGo h.putW

theorem writeRing {who : Nat} {hit : Hit} {v : W32} (h : s.Tidy) : (s.writeRing who hit v).Tidy := .ite h.putIf h.putW.ringOff

theorem writeHif {who : Nat} {hit : Hit} {v : W32} (h : s.Tidy) : (s.writeHif who hit v).Tidy := by
  unfold State.writeHif
  refine .ite h.putF ?_
  refine .ite (.ite h.putW h.refuse) ?_
  exact .ite (.ite h.putW h.refuse) (.ite (.ite h.putW.instGo h.putW) (.ite h.writeRing (.ite h.putIf h.putW)))

theorem writeInst {who : Nat} {hit : Hit} {v : W32} {i : Nat} (h : s.Tidy) : (s.writeInst who hit v i).Tidy := by
  unfold State.writeInst
  refine .ite (.ite h.violAt (.ite h.instReset h)) ?_
  refine .ite ?_ ?_
  · exact .ite (.ite h.putW.mbxDone h.putW) (.ite h.putW (.ite h.refuse h.putW.mbxSend))
  · exact .ite (.ite h.violAt h.putW) (.ite (.ite h.violAt h.putIf) (.ite (.ite h.violAt h.putW) h.putW))

theorem hbmCtlW {who : Nat} {hit : Hit} {v : W32} (h : s.Tidy) : (s.hbmCtlW who hit v).Tidy := .ite h.putF.hbmRun h.putF.setFld

theorem hbmTrain {who : Nat} {hit : Hit} {v : W32} (h : s.Tidy) : (s.hbmTrain who hit v).Tidy :=
  .ite h.refuse (.ite (trainAbort (.ite h.trainGo (.ite h h.putW))) (.ite h.trainGo (.ite h h.putW)))

theorem writeHbm {who : Nat} {hit : Hit} {v : W32} (h : s.Tidy) : (s.writeHbm who hit v).Tidy := by
  unfold State.writeHbm
  split
  · exact h.hbmCtlW
  · exact h.putIf
  · exact h.hbmTrain
  · exact h.putW

theorem writeHbmCh {hit : Hit} {v : W32} {ch : Nat} (h : s.Tidy) : (s.writeHbmCh hit v ch).Tidy := .ite (.ite h.hbmFence h) h.putW

theorem secCtl {who : Nat} {hit : Hit} {v : W32} (h : s.Tidy) : (s.secCtl who hit v).Tidy :=
  .ite h.violAt (.ite h.secAbort (.ite h.refuse (.ite h.secGo h.putW)))

theorem writeSec {who : Nat} {hit : Hit} {v : W32} (h : s.Tidy) : (s.writeSec who hit v).Tidy := by
  unfold State.writeSec
  split
  · exact h.secCtl
  · exact .ite h.setFld h
  · exact h.putW

theorem testCtl {hit : Hit} {v : W32} (h : s.Tidy) : (s.testCtl hit v).Tidy :=
  .ite (testAbort (.ite h.testReq (.ite h h.putW))) (.ite h.testReq (.ite h h.putW))

theorem writeRas {who : Nat} {hit : Hit} {v : W32} (h : s.Tidy) : (s.writeRas who hit v).Tidy := by
  unfold State.writeRas
  split
  · exact h.putF
  · exact .ite h.withRasLog.setReg h
  · exact h.testCtl
  · exact h.putW

theorem writeDbg {who : Nat} {hit : Hit} {v : W32} (h : s.Tidy) : (s.writeDbg who hit v).Tidy := by
  unfold State.writeDbg
  refine .ite (.ite (.ite h.dbgStatus h.setFld) h.violAt) ?_
  refine .ite h.dbgHalt ?_
  exact .ite h.tregSet (.ite h.refuse (.ite h.mbxWrite (.ite (.ite h.setReg h) (.ite h.putF h.putW))))

theorem writeReg {who : Nat} {hit : Hit} {v : W32} (h : s.Tidy) : (s.writeReg who hit v).Tidy := by
  unfold State.writeReg
  split
  · exact h.writeDev
  · exact h.writeAon
  · exact h.writeTime
  · exact h.writeIrq
  · exact h.writeSrc
  · exact h.writeTsk
  · exact h.writeLck
  · exact h.writePort
  · exact h.writeSds
  · exact h.writeParse
  · exact h.writeEng
  · exact h.writeClu
  · exact h.writeEm
  · exact h.writeDesc
  · exact h.writeTc
  · exact h.writeView
  · exact h.writeLrn
  · exact h.writeAge
  · exact h.writeSint
  · exact h.writeAcct
  · exact h.writeXbar
  · exact h.writeTm
  · exact h.writeTmPort
  · exact h.writeMtr
  · exact h.writeHif
  · exact h.writeInst
  · exact h.writeHbm
  · exact h.writeHbmCh
  · exact h.writeSec
  · exact h.writeRas
  · exact h.writeDbg
  · exact h.putW
  · exact h.putW
  · exact h.putW
  · exact h.putW
  · exact h

theorem writeHit {who : Nat} {hit : Hit} {v : W32} (h : s.Tidy) : (s.writeHit who hit v).Tidy := by
  unfold State.writeHit
  refine .ite h ?_
  refine .ite h.violAt ?_
  refine .ite ?_ ?_
  · split
    · exact h.writeHdr
    · exact h
  · split
    · exact h.violAt
    · exact .ite h.violAt h.writeReg

theorem bellWrite {who i o : Nat} {v : W32} (h : s.Tidy) : (s.bellWrite who i o v).Tidy := .ite h.viol (.ite h.doorbellWrite h.viol)

theorem busWrite0 {who a : Nat} {v : W32} (h : s.Tidy) : (s.busWrite0 who a v).Tidy := by
  unfold State.busWrite0
  split
  · exact h
  · exact h.viol
  · exact h.bellWrite
  · exact h.writeHit

theorem accGo {wr sz : Bool} (h : s.Tidy) : (s.accGo wr sz).Tidy := by
  unfold State.accGo
  extract_lets +onlyGivenNames n
  split
  · exact h.accEnd
  · extract_lets +onlyGivenNames s1
    have ks1 : s1.Tidy := by
      unfold s1
      split
      · exact h.busWrite0
      · exact h.busRead.snd.setReg.setReg
      · exact h.placeWrite
      · exact h.placeRead.snd.setReg64
    exact ks1.accEnd

theorem busWrite {who a : Nat} {v : W32} (h : s.Tidy) : (s.busWrite who a v).Tidy := by
  unfold State.busWrite
  split
  · exact .ite h.accGo h.writeHit
  · exact h.busWrite0

/-! ### The functions of Machine/Boot.lean -/

theorem startCore {c pc : Nat} (h : s.Tidy) : (s.startCore c pc).Tidy := .foldl h fun _ _ h1 => .ite h1.startCtx h1.startCtx.setThr

theorem install {slot : Nat} {b : List Byte} (h : s.Tidy) : (s.install slot b).Tidy := by
  unfold State.install
  extract_lets +onlyGivenNames p fum ctl cfg entry s1 s2 s3 s4 s5 s6
  have ks1 : s1.Tidy := .foldl h fun _ _ h1 => h1.busWrite
  have ks4 : s4.Tidy := ks1.wrBytes.wrBytes.extend.extend.extend.extend.setFld.setReg.setReg
  clear_value s4
  have ks5 : s5.Tidy := ks4.withFumEntryBootSvnReleased
  have ks6 : s6.Tidy := .foldl ks5.startCtx fun _ _ h1 => h1.startCore
  exact ks6.enterMode

theorem bootTry (h : s.Tidy) : s.bootTry.Tidy := by
  unfold State.bootTry
  extract_lets +onlyGivenNames a ra s1
  have ks1 : s1.Tidy := h.setFld
  exact .ite ks1.install (.ite ks1.setFld.install ks1.setFld.setFld.emit)

/-! ### The functions of Machine/Memory.lean -/

theorem loadBytes {a seg off n : Nat} (h : s.Tidy) : TidyPair (s.loadBytes a seg off n) := by
  unfold State.loadBytes
  split
  · exact .of h.segViol
  · exact .of h
  · exact .of h.busRead.snd
  · exact h.placeRead

theorem storeBytes {a seg off : Nat} {bs : List Byte} (h : s.Tidy) : (s.storeBytes a seg off bs).Tidy := by
  unfold State.storeBytes
  split
  · exact h.segViol
  · exact h.portCommand
  · exact h.busWrite
  · exact h.placeWrite

theorem load {a : Nat} {rd : Reg} {seg off n : Nat} {f : List Byte → Word} (h : s.Tidy) : (s.load a rd seg off n f).Tidy := h.loadBytes.snd.setX

theorem loadLong {a : Agent} {rd : Reg} {seg : SegN} {rb : Reg} {disp : BitVec 11} {n : Nat} {f : List Byte → Word} (h : s.Tidy) : TidyResult
    (s.loadLong a rd seg rb disp n f) :=
  h.instr fun _ h1 => h1.load

theorem loadForm {a : Agent} {form : MemForm} {rd rb : Reg} {n : Nat} {f : List Byte → Word} (h : s.Tidy) : TidyResult (s.loadForm a form rd rb n
    f) :=
  h.instr fun _ h1 => h1.load

theorem storeLong {a : Agent} {rt : Reg} {seg : SegN} {rb : Reg} {disp : BitVec 11} {n : Nat} {net : Bool} (h : s.Tidy) : TidyResult (s.storeLong a
    rt seg rb disp n net) :=
  h.instr fun _ h1 => h1.storeBytes

theorem storeForm {a : Agent} {form : MemForm} {rt rb : Reg} {n : Nat} (h : s.Tidy) : TidyResult (s.storeForm a form rt rb n) :=
  h.instr fun _ h1 => h1.storeBytes

theorem atomic {a : Agent} {rd : Reg} {seg : SegN} {rb rs : Reg} {sz : Bool} {f : Nat → Nat → Nat → Nat} (h : s.Tidy) : TidyResult (s.atomic a rd
    seg rb rs sz f) := by
  unfold State.atomic
  refine h.instr fun _ h1 => ?_
  split
  · exact h1.segViol.setX
  · exact h1.wrLE.setX
  · exact h1.setX

/-! ### The functions of Machine/RegCmds.lean -/

theorem regRead {who : Req} {a : Nat} (h : s.Tidy) : TidyResult (s.regRead who a) := .next h.busRead.snd.withRdata

theorem regWrite {who : Req} {a : Nat} {v : W32} (h : s.Tidy) : TidyResult (s.regWrite who a v) := .next h.busWrite

theorem regAcc {who : Req} {a : Nat} {acc : RegAcc} (h : s.Tidy) : TidyResult (s.regAcc who a acc) := by
  unfold State.regAcc
  split
  · exact h.regRead
  · exact h.regWrite

/-! ### The functions of Machine/VelkorAlu.lean -/

theorem alu3 {a len rd rs1 rs2 : Nat} {f : Word → Word → Word} {slow : Bool} (h : s.Tidy) : TidyResult (s.alu3 a len rd rs1 rs2 f slow) :=
  h.instr fun _ h1 => h1.setX

theorem alu2 {a len rd rs : Nat} {f : Word → Word} (h : s.Tidy) : TidyResult (s.alu2 a len rd rs f) := h.instr fun _ h1 => h1.setX

theorem cmp2 {a len rs1 rs2 : Nat} {f : Word → Word → BitVec 4} (h : s.Tidy) : TidyResult (s.cmp2 a len rs1 rs2 f) := h.instr fun _ h1 => h1.setFlg

theorem execMov_tidy {a : Agent} {form : MovForm} {rd : Reg} (h : s.Tidy) : TidyResult (execMov a form rd s) := by
  unfold execMov
  split
  · exact .ite (h.instr fun _ h2 => h2.undefPair) h.alu2
  · exact h.alu2
  · exact h.instr fun _ h2 => h2.setX

/-- Every command keeps the canonical form: a register access by the bus, an instruction by its issue, an event by the parts of its meaning. -/
theorem exec_result (h : s.Tidy) (c : Instr) : TidyResult (exec c s) := by
  unfold exec
  cases c with
  | portModeWrite | portDisable | sdsLaneMapWrite | xbPortFlush | gclSwitchRequest | mtrNop | mtrWrite | mtrRead | mtrFill | timeAdjNsWrite
  | timeStepGo | timeCtlWrite | threadReset | engineReset | engCtlWrite | engThrCfgWrite | cluIramFixDataWrite | emNop | emInsert | emDelete
  | emSearch | emModify | emViewAdd | emReadAt | emCtrRead | emWritePage | emBulkStart | emBulkAbort | emSeedWrite | emTblCfgWrite | tcNop
  | tcInsert | tcDelete | tcSearch | tcModify | tcViewAdd | tcReadAt | tcMatch | viewCommit | viewAbort | viewSync | lrnFlush | lrnDump | sintNop
  | sintAlloc | sintHandover | sintFree | sintInject | sintRead | sintPoolApply | sintAuditStart | sintAuditAbort | xbMcgSelWrite
  | xbMcgMap2Write | tskStart | tskRelease | tskStop | lckRelWrite | irqEoi | irqHeoi | irqSoftSet | irqSoftClear | instCreate | instDestroy
  | instStage | mbxSend | hbmTrainGo | hbmTrainAbort | hbmPcFenceWrite | hbmRun | devModeReq | devWakeWrite | controlCoreReset | fumaroleReset
  | devPwrWrite | devFenceWrite | secVerify | secPload | secExtend | secAttest | secSvnAdvance | secOwnEnrol | secDbgUnlock | secFlashWrite
  | secSha384 | secModexp | secIrepair | secAbort | secReqSignedWrite | rasTestEmSlice | rasTestTcSlice | rasTestBucketCache | rasTestMeterCtr
  | rasTestEngineMem | rasTestSinterMem | rasTestSerdesRecal | rasTestEyeScan | rasTestFull | rasTestAbort | rasLogClr | dbgHalt | dbgResume
  | dbgStep | dbgRst | dbgEv14 | dbgAccRead | dbgAccWrite | dbgMbxDataWrite | dbgMbxSubmit | registerWrite => exact h.regWrite
  | add | sub | and | or | xor | andnot | ornot | sll | srl | sra | ror | mul | mulhi | quo | rem | min | max | minu | maxu => exact h.alu3
  | neg | not | clz | ctz | popc | addi | andi | ori | xori | slli | srli | srai => exact h.alu2
  | fext | fins | fscn | hcrc | htoe | hvndHash | hvndKeyWrite | hvndKeyRead | cksa | cksu | cksf => exact h.fused
  | portTsTagRead | portTsSecHiRead | timeNowFracRead | engHkeyLoRead | lckAcqRead | irqClaim | dbgTrLoRead | violCapRead | lowWordLatchRead
  | rcRegisterRead => exact h.regRead
  | ldb | ldh | ldw | ldsb | ldsh | ldsw | ldnd => exact h.loadLong
  | stb | sth | stw | stnh | stnw | stnd => exact h.storeLong
  | cluIramDataAccess | cluShrDataAccess | engHkeyHiAccess | sintWinAccess | dbgTregAccess => exact h.regAcc
  | pick | bool | bswap | zext | sext => exact h.instr fun _ h1 => .ite h1.undefPair h1.setX
  | taskYield | taskWait | taskDelay | taskRelease | taskExit => exact .next (.ite h.portCommand h)
  | vddAonUp | pgMainUp | pgTimeout | pwrSeqRetry => exact .next (.ite h.withPins h)
  | ldiz | ldik | ldis => exact h.instr fun _ h1 => h1.setX
  | ldd | ldnh | ldnw => exact h.loadForm
  | aadd | asadd | acas => exact h.atomic
  | learnFrameSend | learnFlushTimerExpire | learnHelloExpire => exact .next (.ite h.sendLearn h)
  | jtagIdcode | jtagBypass | jtagExtest => exact .next (.ite h h.emit)
  | eligibilityVectorPublish | timePllLock => exact .ite (.next h) (.next h.setFld)
  | gateChange | slewEnd => exact .ite (.next h.setFld) (.next h)
  | addf | subf => exact h.instr fun _ h1 => h1.setX.setFlg
  | cmp | tst => exact h.cmp2
  | brz | brnz => exact h.instr fun _ h1 => h1.branchIf
  | call | callr => exact h.instrAll fun _ h1 => h1.callTo
  | nop | fence => exact h.instr fun _ h1 => h1
  | rget | rput => exact h.instrAll fun _ h1 => h1.setX
  | txDoorbell | rxDoorbell => exact .next h.doorbellWrite
  | hbmRemapFillDone => exact .next h.withRefilledHbmFillBcache
  | strapChange => exact .next h.withPins
  | keepaliveServiceSend | configurationRequest => exact .next (.ite h.emit h)
  | frameReceive => exact .next h.fecWords.lanesFrame
  | fcsFailure => exact .next (.ite h.fcsFail.wakeAll h)
  | macControlFrameReceive => exact .next (.ite h.lanesFrame h)
  | pauseQuantaExpire => exact .next (.ite h.pauseClass h)
  | sintXoffEval => exact .next h.evalAll
  | pfcFrameSend => exact h.execPfcFrameSend_tidy
  | pfcRepeatExpire => exact .next (.ite h.sendFlow h)
  | linkDown => exact .ite (.next h) (.next (.ite h.linkGoesDown.raise.wakeFire h.linkGoesDown))
  | linkUp => exact .ite (.next h) (.next (withLinkReps (.ite h.setFld.setFld.setFld.raise.raise h.setFld.setFld.setFld.raise)))
  | ltRestart => exact .next (.ite h.cnt h)
  | linkDownReport => exact h.execLinkDownReport_tidy
  | linkUpReport => exact .next h.takeReport.setFld.setFld.wakes
  | holdTimerExpire => exact .ite (.next h.setFld.flushPort.raise) (.next h)
  | parseStart => exact h.execParseStart_tidy
  | packetDelivery => exact h.execPacketDelivery_tidy
  | sendCommit => exact h.execSendCommit_tidy
  | discardCommit => exact h.execDiscardCommit_tidy
  | voqEnqueue => exact h.execVoqEnqueue_tidy
  | spillWrite => exact h.execSpillWrite_tidy
  | deepRefill => exact h.execDeepRefill_tidy
  | xbarMatchingRound => exact .ite (.next h) (.next (withRoundCellT (wakeAll (.foldl (.ite h.mirTrim h) fun _ _ h1 => .ite h1 h1.accept))))
  | cellTransfer => exact h.execCellTransfer_tidy
  | txSelect => exact h.execTxSelect_tidy
  | frameTxEnd => exact h.execFrameTxEnd_tidy
  | wheelSlotRelease => exact .ite (.next h.wheelRun) (.next h)
  | gclSwitch => exact .ite (.next h.gclSwitch) (.next h)
  | ppsEdge => exact h.execPpsEdge_tidy
  | todMessage => exact h.execTodMessage_tidy
  | holdoverTimeout => exact .ite (.next h) (.next h.enterHoldover)
  | forcedStep => exact h.execForcedStep_tidy
  | skippedEventRelease => exact h.execSkippedEventRelease_tidy
  | watermarkReached => exact h.execWatermarkReached_tidy
  | timeTriggerFire => exact .ite (.next h.trigFire) (.next h)
  | timeDistBroadcast => exact .ite (.next h.cnt.raise.logErr) (.next h)
  | ppsOutEdge => exact .ite (.next h.emit) (.next h)
  | todOutSend => exact .ite (.next h.fresh.snd.emit) (.next h)
  | wfeWake => exact h.execWfeWake_tidy
  | threadTimerExpire => exact h.execThreadTimerExpire_tidy
  | stageWatchdogExpire => exact .ite (.next h) (.next (.ite h.wdogExpire.wdogFence h.wdogExpire))
  | eventDeadlock => exact h.execEventDeadlock_tidy
  | fuWriteback => exact .next h.writeback
  | interruptTake => exact .ite (.next h.setThr.excp) (.next h)
  | mov => exact h.execMov_tidy
  | cmpi => exact h.instr fun _ h1 => h1.setFlg
  | std => exact h.storeForm
  | lkup => exact h.execLkup_tidy
  | lka => exact h.execLka_tidy
  | lkq => exact h.instr fun _ h1 => .ite h1.lockViol (.ite h1.lockViol h1.lockQueue)
  | lkr => exact h.instr fun _ h1 => .ite h1.lockRelease h1.lockViol
  | bc => exact h.instr fun _ h1 => .ite h1.undef h1.branchIf
  | j => exact h.instr fun _ h1 => h1.branchTo
  | jr => exact h.instr fun _ h1 => h1.setPc
  | ret => exact h.instrAll fun _ h1 => h1.retFrom
  | eret => exact h.instr fun _ h1 => .ite h1.eretTo h1.excpAt
  | send => exact h.instr fun _ h1 => .ite h1.undef (.ite h1.excpAt h1.setThr)
  | wfe => exact h.instr fun _ h1 => .ite h1.setThr h1.setThr
  | sig => exact h.execSig_tidy
  | tmr => exact h.instr fun _ h1 => h1.setThr
  | sleep => exact h.instr fun _ h1 => .ite h1.undef (.ite h1.excpAt (.ite h1.slpRes h1.setThr.slpRes))
  | brk => exact h.instr fun _ h1 => .ite (.ite h1.setThr.raise.holdFrom h1.setThr.raise) h1.excpAt
  | trap => exact h.instr fun _ h1 => h1.excp
  | mfs => exact h.execMfs_tidy
  | mts => exact h.instr fun _ h1 => .ite h1.excpAt h1.sregWrite
  | xchs => exact h.instr fun _ h1 => .ite h1.excpAt h1.sregWrite.setX
  | lookupLand => exact h.execLookupLand_tidy
  | deepFillArrive => exact h.execDeepFillArrive_tidy
  | emCmdComplete => exact .next (.ite h.setFld.raise2 h)
  | emBulkRecord => exact h.execEmBulkRecord_tidy
  | makeRoomMove => exact h.execMakeRoomMove_tidy
  | tcCmdComplete => exact h.execTcCmdComplete_tidy
  | tcSweepVisit => exact .next (.ite (.ite h.cnt.logErr h.cnt.logErr.withTcBad) h)
  | viewFlip => exact h.execViewFlip_tidy
  | viewDrainLimitExpire => exact .ite (.next h) (.next (.ite h.setVs.raise2.forceDrain h.setVs.raise2))
  | viewSyncLocation => exact h.execViewSyncLocation_tidy
  | sourceCheck => exact h.execSourceCheck_tidy
  | learnApply => exact h.execLearnApply_tidy
  | freezeExpire => exact h.execFreezeExpire_tidy
  | learnFrameReceive => exact h.execLearnFrameReceive_tidy
  | learnRecordLearn => exact h.execLearnRecordLearn_tidy
  | learnRecordWithdraw => exact h.execLearnRecordWithdraw_tidy
  | learnRecordReplay => exact h.execLearnRecordReplay_tidy
  | peerLost => exact .ite (.next h) (.next (lrnEvent (raise (.foldl h.setPeer fun _ _ h1 => h1.freeEnt))))
  | stampSweepVisit => exact .ite (.next (.foldl h fun _ _ h1 => .ite h1.putEnt h1)) (.next h)
  | lrnBulkAbort => exact .ite h.regWrite h.regWrite
  | lrnBulkBucket => exact .next (.ite h (.ite h.bulkBucket (.ite h.bulkBucket h)))
  | agerVisit => exact .ite (.next (.foldl h fun _ _ h1 => .ite h1 (.ite h1.ageOut h1))) (.next h)
  | sintAuditComplete => exact .next (.ite h.auditEnd h)
  | taskDispatch => exact h.execTaskDispatch_tidy
  | taskPreempt => exact h.execTaskPreempt_tidy
  | groupTick => exact .next (.ite h.groupTicks h)
  | timeoutExpire => exact h.execTimeoutExpire_tidy
  | irqSourceAssert => exact .next (.ite h.wakeCore h)
  | msixSend => exact .next (.ite h.msixSource h)
  | msixVectorUnmask =>
    exact .ite (.next h) (.next (.foldl (.ite h.withVecOpenVecPendVecMsg.emit h.withVecOpenVecPendVecMsg) fun _ _ h1 => h1.msixSource))
  | coreWake => exact .ite (.next (.foldl h.withCoreWakes fun _ _ h1 => .ite h1.setThr h1)) (.next h)
  | wakeWatcherTrigger => exact .next (.ite h.watchFire h)
  | instReset => exact .ite h.regWrite h.busWrite.regWrite
  | instResetDrainEnd => exact h.execInstResetDrainEnd_tidy
  | flr => exact h.execFlr_tidy
  | vfEnableClear => exact .ite (.next h) (.next (.foldl h.withVfEn fun _ _ h1 => h1.flr1))
  | pcieLinkDown => exact .next h.pcieDown
  | perst => exact .next (.ite h.pcieDown.withVfEn h)
  | mbxDone => exact h.busWrite.regWrite
  | mbxTimeout => exact .next (.ite h.mbxEnd h)
  | txDescriptorProcess => exact h.execTxDescriptorProcess_tidy
  | dmaCompletion => exact h.execDmaCompletion_tidy
  | cplTimeout => exact h.execCplTimeout_tidy
  | rxDelivery => exact h.execRxDelivery_tidy
  | rxStagingTimeout => exact h.execRxStagingTimeout_tidy
  | ringModExpire => exact .ite (.next (.ite h.setRing.msixSend h.setRing)) (.next h.setRing)
  | hbmBankIssue => exact h.execHbmBankIssue_tidy
  | hbmPromote => exact .next (.ite h.withHbmWait.cnt h)
  | hbmRetrainDue => exact .next (.ite h.pausePc h)
  | hbmRetrainEnd => exact h.execHbmRetrainEnd_tidy
  | hbmSrEntry => exact .next (.ite h.setPcStat.setPcStat h)
  | hbmSrExit => exact .ite (.next h) (.next (.foldl h.setPcStat.setPcStat fun _ _ h1 => .ite h1.withRtDue.setPcStat h1))
  | hbmScrubRead => exact .next (.ite h.cnt64.hbmEcc h)
  | hbmFence => exact .next (.ite h.hbmFence h)
  | hbmSpillWithdraw => exact h.execHbmSpillWithdraw_tidy
  | hbmTrained => exact .next (.ite h.setFld h)
  | maintainEntry => exact .next (.ite h.completeMode h)
  | maintainDrainTimeout => exact .next (.ite (completeMode (.foldl h fun _ _ h1 => .ite h1.flushPort h1)) h)
  | simmerEntry => exact .next (.ite h.handOver.withGoCommit h)
  | sleepDrainTimeout => exact .next (.ite h.endMode.applyHeld h)
  | simmerCommit => exact h.execSimmerCommit_tidy
  | dormantEntry => exact h.execDormantEntry_tidy
  | dormantAutoExpire => exact .next (.ite h.withGoingGoCommit.setStatus h)
  | simmerWake => exact .ite (.next h) (.next h.woken.allSr.dueRetrains.handBack.enterMode.raise.applyHeld)
  | dormantWake => exact .ite (.next h) (.ite (.next h.woken.loseMain.setFld.enterMode) (.ite (.next h) (.next h.withPins)))
  | wakeTimerExpire => exact .next (.ite h.setReg.wakeFire h)
  | gpioInputChange => exact .ite (.next h) (.next (.ite (wakeFire (.ite h.setReg.setReg h.setReg)) (.ite h.setReg.setReg h.setReg)))
  | keepaliveFrameReceive => exact h.execKeepaliveFrameReceive_tidy
  | lkpHalfCopyDone => exact .next (.ite h.pwrReach h)
  | railsValid => exact h.execRailsValid_tidy
  | porReset => exact .next (.ite h h.porReset)
  | sysReset => exact .next (.ite h h.flashCut.loseMain.railsUp.withCycBase)
  | resetRelease => exact .ite (.next h) (.next (.ite (enterMode (.ite h.withPins h)) (.ite h.withPins h)))
  | thermtrip => exact .next (.ite h h.porReset.withPins)
  | bootSequence => exact .next (.ite h.withMrs.drawNonce.bootTry h)
  | bootRetry => exact .next (.ite h.bootTry h)
  | identityDerive => exact .next (.ite h.setFld.raise h)
  | secCmdComplete => exact .ite (.next h.secRun.snd.secEnd) (.ite (.next h.mbxRun) (.next h))
  | rasTestComplete => exact .ite (.next h) (.next h.setFld.setReg.point.setReg.raise)
  | breakpointHit => exact .ite (.next h) (.next h.cnt.raise.haltAll)
  | jtagSamplePreload => exact .next (.ite h h.emit.withBsr)
  | jtagDbgreg => exact .ite (.next h) h.regAcc
  | undefinedInstruction => exact h.execUndefinedInstruction_tidy
  | timePllLockLost => exact .next h.setFld
  | shaperCreditRecovery => exact .ite (.next h.setCred) (.next h)
  | devPwrChangeComplete => exact h.execDevPwrChangeComplete_tidy
  | powerLoss => exact .next h.flashCut.loseAll.withPins.setReg
  | vfEnableSet => exact .ite (.next h) (.next (.foldl h.withVfEn.activate fun _ _ h1 => .ite h1 h1.raise))
  | pcieLinkUp => exact .ite (.next h) (.next h.setFld.setFld.setFld.activate)

end

end State.Tidy

/-- Settles O58: nothing writes the register space or a memory but through the operations of sparse maps, which keep the canonical form
(R152, R305, R468, R575). -/
theorem everyStepKeepsMemoryCanonical : Obligations.EveryStepKeepsMemoryCanonical := by
  rintro s t ⟨regs, mem, near, flash⟩ stepped
  have h : s.Tidy := ⟨regs, mem, near, flash⟩
  have kept : TidyResult (step s) := by
    unfold step
    split
    · exact .next h.idle
    · exact State.Tidy.exec_result h.withPending _
  obtain ⟨regs, mem, near, flash⟩ := kept t stepped
  exact ⟨regs, mem, near, flash⟩

end Sys2Proof.Machine
end

section
/-! PROOFS. Accesses of a control context to the exact-match pages (R209, R226, R230, R237): the registers are device-wide, so that the pages of
both halves reach one storage (assumption log 25). -/

namespace Sys2Proof.Machine

/-! ### Where an access lands -/

/-- A register of the exact-match pages at the address `a`, with its storage at `b`. -/
structure EmRegAt (a b : Nat) (k : PageKind) (i : Nat) : Prop where
  page : pageOf a = some (k, i)
  kind : k ≠ .eng
  desc : ∃ r, descOf a = some r ∧ r.writable = true ∧ r.wide = false
  past : 0x40 ≤ a % 0x1000
  whole : a % 4 = 0
  below : a < 0xB00000
  store : aliasOf a = b

section
variable {a b : Nat} {k : PageKind} {i : Nat} (h : EmRegAt a b k i)
include h

/-- A control context reaches the storage behind the page of either half. -/
theorem EmRegAt.reach {s : State} {who : Req} (ho : s.open who a) (wr : Bool) :
    s.reach who.toNat a wr = .reg { at_ := b, cap := a } := by
  obtain ⟨⟨h800, h810⟩, off, rst, simmer, dormant, on⟩ := ho
  have below := h.below
  have control : 0x800 ≤ who.toNat ∧ who.toNat ≤ 0x810 := ⟨h800, Nat.le_of_lt h810⟩
  have noInst : a / 0x1000 ≠ 0xB01 := by omega
  have noRing : ¬ (0xB00084 ≤ a ∧ a < 0xB000A4) := by omega
  simp [State.reach, off, rst, control, State.wholeMap, noInst, State.landReg, State.sleepMap, simmer, dormant, State.selected, noRing, h.store,
    h.page, on]

/-- A write of such a register is carried out by the rules of its page. -/
theorem EmRegAt.regWrite {s : State} {who : Req} (ho : s.open who a) (v : W32) :
    s.regWrite who a v = .next (s.writeReg who.toNat { at_ := b, cap := a } v) := by
  obtain ⟨r, desc, writable, narrow⟩ := h.desc
  have below := h.below
  have notAcc : ¬ a = R.DBG_ACC_CTL := by unfold R.DBG_ACC_CTL; omega
  have high : isHigh a = false := by simp [isHigh, desc, narrow]
  have soft : s.softNow a = false := by
    unfold State.softNow
    rw [h.page]
    split
    · next e => exact absurd (congrArg Prod.fst (Option.some.inj e)) h.kind
    · rfl
  simp [State.regWrite, State.busWrite, h.reach ho, notAcc, State.writeHit, soft, h.whole, Nat.not_lt.mpr h.past, desc, writable, high]

end

/-- The addresses of the pages of the exact-match command registers (R575). -/
theorem pageOf_em {a o i : Nat} (ha : a = 0x400000 + i * 0x100000 + o) (ho : o < 0x1000) (hi : i < 2) : pageOf a = some (.em, i) := by
  obtain rfl | rfl : i = 0 ∨ i = 1 := by omega
  · have hn : a / 0x1000 = 0x400 := by omega
    simp [pageOf, hn]
  · have hn : a / 0x1000 = 0x500 := by omega
    simp [pageOf, hn]

/-- A command or configuration register of a half, ahead of the half's own counters, is stored in the page of half 0. -/
theorem emRegAt {a b o i : Nat} {r : RegD} (ha : a = 0x400000 + i * 0x100000 + o) (hb : b = 0x400000 + o) (hi : i < 2) (hpast : 0x40 ≤ o)
    (hlow : o < 0x140) (ho : o % 4 = 0) (hd : regs_em.find? (fun r => r.covers o) = some r) (hr : r.writable = true ∧ r.wide = false) :
    EmRegAt a b .em i := by
  have page := pageOf_em ha (by omega) hi
  have off : a % 0x1000 = o := by omega
  refine ⟨page, by decide, ⟨r, ?_, hr⟩, by omega, by omega, by omega, ?_⟩
  · simp [descOf, page, off, beyond, hd, PageKind.regs]
  · unfold aliasOf
    dsimp only
    rw [off]
    split_ifs <;> omega

/-- The addresses of the table descriptor pages (R575). -/
theorem pageOf_emDesc {a o i p : Nat} (ha : a = 0x401000 + i * 0x100000 + p * 0x1000 + o) (ho : o < 0x1000) (hi : i < 2) (hp : p < 2) :
    pageOf a = some (.emDesc, i * 2 + p) := by
  have hn : a / 0x1000 = 0x401 + i * 0x100 + p := by omega
  obtain ⟨rfl | rfl, rfl | rfl⟩ : (i = 0 ∨ i = 1) ∧ (p = 0 ∨ p = 1) := by omega
  all_goals simp [pageOf, hn]

theorem beyond_emDesc (i o : Nat) : beyond .emDesc i o = false := rfl

/-- The descriptor of a table covers every sixteenth byte of its page. -/
theorem find_emDesc {m : Nat} (hm : m < 128) : regs_emDesc.find? (fun r => r.covers (0x40 + m * 0x10)) = some regs_emDesc[0] := by
  refine List.find?_cons_of_pos ?_
  simp [RegD.covers, onGrid, hm]

/-- The descriptor of table `n`, through the page of a half. -/
theorem emRegAt_tblCfg {a b i n : Nat} (ha : a = R.EM_TBL_CFG i n) (hb : b = R.EM_TBL_CFG 0 n) (hi : i < 2) (hn : n < 256) :
    EmRegAt a b .emDesc (i * 2 + n / 128) ∧ a % 0x1000 = 0x40 + n % 128 * 0x10 := by
  unfold R.EM_TBL_CFG at ha hb
  have off : a % 0x1000 = 0x40 + n % 128 * 0x10 := by omega
  have page : pageOf a = some (.emDesc, i * 2 + n / 128) := pageOf_emDesc (o := 0x40 + n % 128 * 0x10) (by omega) (by omega) hi (by omega)
  have found := find_emDesc (Nat.mod_lt n (by decide : 128 > 0))
  refine ⟨⟨page, by decide, ⟨regs_emDesc[0], ?_, by decide, rfl⟩, by omega, by omega, by omega, ?_⟩, off⟩
  · simp [descOf, page, off, beyond_emDesc, PageKind.regs, found]
  · unfold aliasOf
    dsimp only
    rw [off]
    split_ifs <;> omega

/-! ### Writes by the rules of the pages (R209, R226, R230, R235, R237) -/

section
variable {s : State} {who half : Nat} {hit : Hit} {v : W32}

/-- EM_CMD_CTL orders a command, stores its fields, or is refused (R226). -/
theorem writeEm_cmdCtl (off : hit.cap % 0x1000 = 0x44) : s.writeEm who hit v half =
    if s.emBusy then s.refuse who hit
    else if ¬ v.getLsbD 31 then s.putW hit v
    else if s.bulkRuns || s.commitPend then s.refuse who hit
    else s.emGo half v := by
  unfold State.writeEm
  rw [off]
  rfl

/-- EM_BULK_CTL starts or aborts a load, and is refused where START meets a load that runs (R230, R231). -/
theorem writeEm_bulkCtl (off : hit.cap % 0x1000 = 0x10C) : s.writeEm who hit v half =
    if v.getLsbD 31 && s.bulkRuns then s.refuse who hit
    else if v.getLsbD 30 then (if v.getLsbD 31 then s.bulkStart else s).bulkAbort else if v.getLsbD 31 then s.bulkStart else s := by
  unfold State.writeEm
  rw [off]
  rfl

/-- EM_SEED is taken while every table is empty, and refused otherwise (R237). -/
theorem writeEm_seed (off : hit.cap % 0x1000 = 0x40) : s.writeEm who hit v half = if s.seedOk then s.setSeed v else s.refuse who hit := by
  unfold State.writeEm
  rw [off]
  rfl

/-- EM_TBL_CFG_n is taken while its table is empty and its lengths fit, and refused otherwise (R209). -/
theorem writeDesc_tblCfg {k n : Nat} (table : k % 2 * 128 + (hit.cap % 0x1000 - 0x40) / 16 = n) :
    s.writeDesc who hit v k = if s.tblCfgOk n v then s.tblCfg n v else s.refuse who hit := by
  unfold State.writeDesc
  rw [table]

end

section
variable {s : State} {who : Req} {h : HalfN} {v : W32}

/-- A write of a register of the command page, by the rules of the page. -/
theorem regWrite_em {a b o : Nat} {r : RegD} (ha : a = 0x400000 + h * 0x100000 + o) (hb : b = 0x400000 + o) (hpast : 0x40 ≤ o)
    (hlow : o < 0x140) (hmod : o % 4 = 0) (hd : regs_em.find? (fun r => r.covers o) = some r) (hr : r.writable = true ∧ r.wide = false)
    (ho : s.open who a) : s.regWrite who a v = .next (s.writeEm who.toNat { at_ := b, cap := a } v h) := by
  have lands := emRegAt ha hb h.isLt hpast hlow hmod hd hr
  rw [lands.regWrite ho, State.writeReg, lands.page]

/-- A write of EM_CMD_CTL orders a command, stores its fields, or is refused (R226). -/
theorem regWrite_emCmdCtl (ho : s.open who (R.EM_CMD_CTL h)) : s.regWrite who (R.EM_CMD_CTL h) v = .next
    (if s.emBusy then s.violAt who.toNat 3 (R.EM_CMD_CTL h)
     else if ¬ v.getLsbD 31 then s.putW { at_ := R.EM_CMD_CTL 0, cap := R.EM_CMD_CTL h } v
     else if s.bulkRuns || s.commitPend then s.violAt who.toNat 3 (R.EM_CMD_CTL h)
     else s.emGo h v) := by
  have off : R.EM_CMD_CTL h % 0x1000 = 0x44 := by unfold R.EM_CMD_CTL; omega
  have addr : R.EM_CMD_CTL h = 0x400000 + h * 0x100000 + 0x44 := by unfold R.EM_CMD_CTL; omega
  exact (regWrite_em (b := R.EM_CMD_CTL 0) (r := regs_em[1]) addr rfl (by decide) (by decide) (by decide) rfl (by decide) ho).trans
    (congrArg Host.Outcome.next (writeEm_cmdCtl off))

/-- A write of EM_BULK_CTL starts or aborts a load, or is refused (R230, R231). -/
theorem regWrite_emBulkCtl (ho : s.open who (R.EM_BULK_CTL h)) : s.regWrite who (R.EM_BULK_CTL h) v = .next
    (if v.getLsbD 31 && s.bulkRuns then s.violAt who.toNat 3 (R.EM_BULK_CTL h)
     else if v.getLsbD 30 then (if v.getLsbD 31 then s.bulkStart else s).bulkAbort else if v.getLsbD 31 then s.bulkStart else s) := by
  have off : R.EM_BULK_CTL h % 0x1000 = 0x10C := by unfold R.EM_BULK_CTL; omega
  have addr : R.EM_BULK_CTL h = 0x400000 + h * 0x100000 + 0x10C := by unfold R.EM_BULK_CTL; omega
  exact (regWrite_em (r := regs_em[16]) addr rfl (by decide) (by decide) (by decide) rfl (by decide) ho).trans
    (congrArg Host.Outcome.next (writeEm_bulkCtl off))

/-- A write of EM_SEED is taken or refused (R237). -/
theorem regWrite_emSeed (ho : s.open who (R.EM_SEED h)) : s.regWrite who (R.EM_SEED h) v = .next
    (if s.seedOk then s.setSeed v else s.violAt who.toNat 3 (R.EM_SEED h)) := by
  have off : R.EM_SEED h % 0x1000 = 0x40 := by unfold R.EM_SEED; omega
  have addr : R.EM_SEED h = 0x400000 + h * 0x100000 + 0x40 := by unfold R.EM_SEED; omega
  exact (regWrite_em (r := regs_em[0]) addr rfl (by decide) (by decide) (by decide) rfl (by decide) ho).trans
    (congrArg Host.Outcome.next (writeEm_seed off))

/-- A write of the descriptor of a table is taken or refused (R209). -/
theorem regWrite_emDesc {a n : Nat} (ha : a = R.EM_TBL_CFG h n) (hn : n < 256) (ho : s.open who a) :
    s.regWrite who a v = .next (if s.tblCfgOk n v then s.tblCfg n v else s.violAt who.toNat 3 a) := by
  obtain ⟨lands, off⟩ := emRegAt_tblCfg ha rfl h.isLt hn
  have table : (h.val * 2 + n / 128) % 2 * 128 + (a % 0x1000 - 0x40) / 16 = n := by omega
  rw [lands.regWrite ho, State.writeReg, lands.page]
  exact congrArg Host.Outcome.next (writeDesc_tblCfg table)

end

end Sys2Proof.Machine
end

section
/-! PROOFS. What the operations of the exact-match stores change (R214, R218, R221, R253, R259, R447). -/

namespace Sys2Proof.Machine

/-! ### Counts and the dirty map -/

/-- Nothing but registers and the dirty map has changed. -/
def State.counted (s t : State) : Prop := ∃ r d, t = { s with regs := r, dirty := d }

namespace State.counted
variable {s t u : State} {a b x loc old new inst c : Nat} {v : W32} {f : Fld} {d : Int} {e : EmEnt}

theorem refl : s.counted s := ⟨_, _, rfl⟩

theorem trans (h : s.counted t) (h' : t.counted u) : s.counted u := by
  obtain ⟨r, d, rfl⟩ := h
  obtain ⟨r', d', rfl⟩ := h'
  exact ⟨r', d', rfl⟩

theorem ite {p : Prop} [Decidable p] (h : s.counted t) (h' : s.counted u) : s.counted (if p then t else u) := by
  split
  exacts [h, h']

theorem setReg (h : s.counted t) : s.counted (t.setReg a v) := h.trans ⟨_, _, rfl⟩

theorem earlyCheck (h : s.counted t) : s.counted t.earlyCheck := .ite h.setReg.setReg.setReg h

theorem markDirty (h : s.counted t) : s.counted (t.markDirty loc) := h.trans ⟨_, _, rfl⟩

theorem viewChange (h : s.counted t) : s.counted (t.viewChange loc old new) := .ite h (.ite h.markDirty.earlyCheck h.markDirty)

theorem quota (h : s.counted t) : s.counted (t.quota inst d) := h.setReg

theorem countEnt (h : s.counted t) : s.counted (t.countEnt c e d) := .ite (quota (.ite h.setReg.setReg h.setReg)) (.ite h.setReg.setReg h.setReg)

theorem em (h : s.counted t) : t.em = s.em := by obtain ⟨r, d, rfl⟩ := h; rfl
theorem mem (h : s.counted t) : t.mem = s.mem := by obtain ⟨r, d, rfl⟩ := h; rfl

end State.counted

/-! ### The deep store -/

/-- What of a state a write of the deep store keeps: all but memory, what stands before it, and the lookups that wait for it. -/
def State.pastDeep (s : State) : State :=
  { s with mem := [], poison := [], refilled := [], hbmQ := [], hbmWait := [], bcache := [], lkps := [] }

theorem pastDeep_hbmWrite (s : State) (a : Nat) (bs : List Byte) : (s.hbmWrite a bs).pastDeep = s.pastDeep := by
  have unpoison : ∀ (t : State) (a : Nat), (t.unpoison a).pastDeep = t.pastDeep := fun t a => by
    unfold State.unpoison
    dsimp only
    split
    · split <;> rfl
    · rfl
  induction bs generalizing s a with
  | nil => rfl
  | cons b bs ih =>
    unfold State.hbmWrite
    rw [ih]
    split
    · exact unpoison _ _
    · rfl

theorem pastDeep_hbmPut (s : State) (client a : Nat) (bs : List Byte) : (s.hbmPut client a bs).pastDeep = s.pastDeep :=
  (congrArg State.pastDeep (pastAsk_hbmAsk (s.hbmWrite a bs) client true a bs.length) :).trans (pastDeep_hbmWrite s a bs)

theorem pastDeep_lkps (s : State) (l : SMap Lkp) : ({ s with lkps := l } : State).pastDeep = s.pastDeep := rfl

theorem pastDeep_setCache (s : State) (half b : Nat) (l : List (Nat × List Byte)) : (s.setCache half b l).pastDeep = s.pastDeep := rfl

theorem pastDeep_writeBucket (s : State) (b o : Nat) (bs : List Byte) : (s.writeBucket b o bs).pastDeep = s.pastDeep := by
  unfold State.writeBucket
  extract_lets s1 s2
  have stored : s1.pastDeep = s.pastDeep := pastDeep_hbmPut _ _ _ _
  have caches : s2.pastDeep = s1.pastDeep := foldl_keeps (fun t h => by split; exacts [pastDeep_setCache _ _ _ _, rfl]) _ s1
  exact (pastDeep_lkps s2 _).trans (caches.trans stored)

theorem em_writeBucket (s : State) (b o : Nat) (bs : List Byte) : (s.writeBucket b o bs).em = s.em :=
  (congrArg State.em (pastDeep_writeBucket s b o bs) :)

/-! ### Registers of the command unit -/

/-- The registers of commands and bulk loads, which lie below the counts of the stores, are as before. -/
def State.orderRegsKept (s t : State) : Prop := ∀ r, r < R.EM_DEEP_USED 0 → t.reg r = s.reg r

namespace State.orderRegsKept
variable {s t u : State} {a n b loc old new inst c half i : Nat} {v : W32} {d : Int} {e : EmEnt} {bs : List Byte}

theorem refl : s.orderRegsKept s := fun _ _ => rfl

theorem trans (h : s.orderRegsKept t) (h' : t.orderRegsKept u) : s.orderRegsKept u := fun r hr => (h' r hr).trans (h r hr)

theorem of_regs (h : s.orderRegsKept t) (hr : u.regs = t.regs) : s.orderRegsKept u :=
  h.trans fun r _ => congrArg (smGet regDefault · r) hr

theorem ite {p : Prop} [Decidable p] (h : s.orderRegsKept t) (h' : s.orderRegsKept u) : s.orderRegsKept (if p then t else u) := by
  split
  exacts [h, h']

theorem foldl {α : Type} {f : State → α → State} {l : List α} (h : s.orderRegsKept t)
    (hf : ∀ u x, s.orderRegsKept u → s.orderRegsKept (f u x)) :
    s.orderRegsKept (l.foldl f t) := List.foldlRecOn l f h fun u hu x _ => hf u x hu

theorem setReg (h : s.orderRegsKept t) (ha : R.EM_DEEP_USED 0 ≤ a) : s.orderRegsKept (t.setReg a v) := fun r hr =>
  (reg_setReg_other t a r v (by omega)).trans (h r hr)

theorem bump (h : s.orderRegsKept t) (ha : R.EM_DEEP_USED 0 ≤ a) : s.orderRegsKept (t.bump a d) := h.setReg ha

theorem earlyCheck (h : s.orderRegsKept t) : s.orderRegsKept t.earlyCheck :=
  .ite (((h.setReg (by decide)).setReg (by decide)).setReg (by decide)) h

theorem viewChange (h : s.orderRegsKept t) : s.orderRegsKept (t.viewChange loc old new) :=
  .ite h (.ite (earlyCheck (h.of_regs rfl)) (h.of_regs rfl))

theorem quota (h : s.orderRegsKept t) : s.orderRegsKept (t.quota inst d) :=
  h.bump (by unfold R.HIF_INST_TCNT R.EM_DEEP_USED; omega)

theorem countEnt (h : s.orderRegsKept t) : s.orderRegsKept (t.countEnt c e d) := by
  have table : s.orderRegsKept (t.bump (R.EM_TBL_CNT 0 e.tbl) d) := h.bump (by unfold R.EM_TBL_CNT R.EM_DEEP_USED; omega)
  have both : s.orderRegsKept (if deep0 ≤ c then (t.bump (R.EM_TBL_CNT 0 e.tbl) d).bump (R.EM_DEEP_USED 0) (d * e.slots)
      else t.bump (R.EM_TBL_CNT 0 e.tbl) d) := .ite (table.bump (Nat.le_refl _)) table
  exact .ite both.quota both

theorem writeBucket (h : s.orderRegsKept t) : s.orderRegsKept (t.writeBucket b n bs) :=
  h.of_regs (congrArg State.regs (pastDeep_writeBucket t b n bs) :)

theorem putEnt (h : s.orderRegsKept t) : s.orderRegsKept (t.putEnt c e) := .ite h.writeBucket (h.of_regs rfl)

theorem newEnt (h : s.orderRegsKept t) : s.orderRegsKept (t.newEnt c e) := h.putEnt.countEnt

theorem freeEnt (h : s.orderRegsKept t) : s.orderRegsKept (t.freeEnt c e) := countEnt (.ite h.writeBucket (h.of_regs rfl))

theorem pair_ite {α : Type} {p : Prop} [Decidable p] {x y : α × State} (h : s.orderRegsKept x.2) (h' : s.orderRegsKept y.2) :
    s.orderRegsKept (if p then x else y).2 := by
  split
  exacts [h, h']

/-- A command that a record of a bulk load can run leaves them. -/
theorem emRun {c : EmCmd} (op : c.op = 1 ∨ c.op = 2 ∨ c.op = 4 ∨ c.op = 5) (h : s.orderRegsKept t) : s.orderRegsKept (t.emRun c).2 := by
  unfold State.emRun
  refine pair_ite h (pair_ite h (pair_ite h ?_))
  split
  case h_2 =>
    refine pair_ite h (pair_ite h ?_)
    split
    · exact h
    · exact h.newEnt.viewChange
  case h_3 => exact pair_ite h (h.foldl fun u e hu => viewChange (.ite hu.freeEnt hu.putEnt))
  case h_5 => exact pair_ite h (h.foldl fun u e hu => putEnt (.ite hu.quota.quota hu))
  case h_6 =>
    split
    · exact h
    · exact h.putEnt.viewChange
    · exact h
  all_goals omega

end State.orderRegsKept

/-! ### An entry at its place -/

/-- One place of the on-die and overflow stores holds `x`, every other place what it held, and memory is as before. -/
abbrev State.placed (s t : State) (p : Nat) (x : Option EmEnt) : Prop :=
  smFind t.em p = x ∧ (∀ q, q ≠ p → smFind t.em q = smFind s.em q) ∧ t.mem = s.mem

section
variable {s t u : State} {p : Nat} {e : EmEnt} {x : Option EmEnt}

theorem placed_putEnt (near : p < deep0) : s.placed (s.putEnt p e) p (some e) := by
  have put : s.putEnt p e = ({ s with em := smPut s.em p e } : State).mendSlots p e.slots := if_neg (Nat.not_le.mpr near)
  rw [put]
  exact ⟨smFind_smPut_same _ _ _, fun q other => smFind_smPut_other _ _ other, rfl⟩

theorem placed_freeSlots {n : Nat} (near : p < deep0) : s.placed (s.freeSlots p n) p none := by
  have erased : s.freeSlots p n = ({ s with em := smErase s.em p } : State).mendSlots p n := if_neg (Nat.not_le.mpr near)
  rw [erased]
  exact ⟨smFind_smErase_same _ _, fun q other => smFind_smErase_other _ other, rfl⟩

/-- Counts and the dirty map after it leave an entry placed. -/
theorem State.placed.counted (h : s.placed t p x) (h' : t.counted u) : s.placed u p x := by
  obtain ⟨r, d, rfl⟩ := h'
  exact h

/-- Counts and the dirty map before it, too. -/
theorem State.counted.placed (h : s.counted t) (h' : t.placed u p x) : s.placed u p x := by
  obtain ⟨r, d, rfl⟩ := h
  exact h'

end

/-! ### A page of the deep store (R227) -/

theorem em_writePage (s : State) (loc : Nat) : (s.writePage loc).2.em = s.em := by
  unfold State.writePage
  extract_lets i adr im page ents
  split_ifs
  · rfl
  · rfl
  · rfl
  · refine foldl_keeps (g := State.em) (fun t j => ?_) _ s
    refine (em_writeBucket _ _ _ _).trans ?_
    have count (d : Int) (l : List (Nat × EmEnt)) (u : State) : (l.foldl (fun s e => s.countEnt e.1 e.2 d) u).em = u.em :=
      foldl_keeps (fun _ _ => State.counted.refl.countEnt.em) _ u
    split
    · rfl
    · extract_lets c was now inact t1 u
      have counted : u.em = t.em := (count 1 now t1).trans (count (-1) was t)
      split
      · exact State.counted.refl.earlyCheck.em.trans counted
      · exact counted

end Sys2Proof.Machine
end

section
/-! PROOFS. The exact-match commands (R214, R216, R218, R226–R228, R237): an order through the page of either half, and what each returns. -/

namespace Sys2Proof.Machine

/-! ### The order word -/

section
variable (op : Nat) (v : W32)

/-- The fields below OP are those of the word given. -/
theorem getF_goOp_below {f : Fld} (hf : f.hi < 24) : getF (goOp op v) f = getF v f := by
  have low : (goOp op v).toNat % 2 ^ 24 = v.toNat % 2 ^ 24 := by
    have order : (w32 (2 ^ 31 + op * 2 ^ 24)).toNat % 2 ^ 24 = 0 := by simp [w32]
    rw [goOp, BitVec.toNat_or, BitVec.toNat_and, Nat.or_mod_two_pow, Nat.and_mod_two_pow, order, Nat.or_zero]
    exact (Nat.and_two_pow_sub_one_eq_mod _ 24).trans (Nat.mod_mod _ _)
  unfold getF
  rw [← bits_mod_two_pow hf (goOp op v).toNat, low, bits_mod_two_pow hf]

theorem getF_goOp_op (hop : op < 16) : getF (goOp op v) F.EM_CMD_CTL_OP = op := by
  have order : (w32 (2 ^ 31 + op * 2 ^ 24)).toNat = (128 + op) * 2 ^ 24 := by simp [w32]; omega
  have above : (goOp op v).toNat / 2 ^ 24 = v.toNat / 2 ^ 24 &&& 0x40 ||| (128 + op) := by
    rw [goOp, BitVec.toNat_or, BitVec.toNat_and, Nat.or_div_two_pow, Nat.and_div_two_pow, order, Nat.mul_div_cancel _ (Nat.two_pow_pos 24)]
    rfl
  show (goOp op v).toNat / 2 ^ 24 % 2 ^ 4 = op
  rw [above, Nat.or_mod_two_pow, Nat.and_mod_two_pow, show 0x40 % 2 ^ 4 = 0 from rfl, Nat.and_zero, Nat.zero_or]
  omega

theorem getLsbD_goOp_go (hop : op < 16) : (goOp op v).getLsbD 31 = true := by
  have order : (w32 (2 ^ 31 + op * 2 ^ 24)).getLsbD 31 = true := by
    rw [w32, BitVec.getLsbD_ofNat, Nat.testBit_eq_decide_div_mod_eq]
    simp; omega
  rw [goOp, BitVec.getLsbD_or, order, Bool.or_true]

end

theorem getF_bit (v : W32) (i : Nat) : decide (getF v ⟨i, i⟩ ≠ 0) = v.getLsbD i := by
  rw [BitVec.getLsbD, Nat.testBit_eq_decide_div_mod_eq]
  unfold getF bits
  rw [show i + 1 - i = 1 by omega, Nat.pow_one]
  exact decide_eq_decide.mpr Nat.mod_two_ne_zero

/-! ### An order -/

/-- The state in which EM_CMD_CTL has taken an order. -/
def State.ordered (s : State) (op : Nat) (v : W32) : State := s.setReg (R.EM_CMD_CTL 0) (goOp op v &&& 0x0FE0FF00)

/-- The command of an order, with its operands in the registers. -/
def State.order (s : State) (half op : Nat) (v : W32) : EmCmd :=
  { op := op, views := bits v.toNat 23 22, tbl := bits v.toNat 15 8, clr := v.getLsbD 21, hdr := s.reg64 (R.EM_CMD_HDR_LO 0),
    data := s.reg64 (R.EM_CMD_DATA_LO 0), key := s.keyRegs, loc := (s.reg (R.EM_CMD_LOC 0)).toNat, half := half }

/-- The state in which a command has returned its results, with its status and BUSY. -/
def State.reported (r : EmRes × State) : State := (r.2.emReturn r.1).setReg (R.EM_CMD_STAT 0) (BitVec.ofNat 32 (2 ^ 31 + r.1.st))

/-- The command unit takes an order of a control context through the page of a half. -/
abbrev State.takesOrder (s : State) (who : Req) (h : HalfN) : Prop :=
  s.open who (R.EM_CMD_CTL h) ∧ s.emBusy = false ∧ s.bulkRuns = false ∧ s.commitPend = false

theorem emGo_goOp (s : State) (half op : Nat) (v : W32) (hop : op < 16) :
    s.emGo half (goOp op v) = State.reported ((s.ordered op v).emRun (s.order half op v)) := by
  have clr : decide (getF (goOp op v) F.EM_CMD_CTL_CLR ≠ 0) = v.getLsbD 21 :=
    (congrArg (fun n => decide (n ≠ 0)) (getF_goOp_below op v (by decide))).trans (getF_bit v 21)
  have views : getF (goOp op v) F.EM_CMD_CTL_VIEWS = bits v.toNat 23 22 := getF_goOp_below op v (by decide)
  have tbl : getF (goOp op v) F.EM_CMD_CTL_TABLE_ID = bits v.toNat 15 8 := getF_goOp_below op v (by decide)
  unfold State.emGo
  rw [clr, views, tbl, getF_goOp_op op v hop]
  rfl

section
variable {s : State} {who : Req} {h : HalfN} {op : Nat} {v : W32}

theorem order_runs (ok : s.takesOrder who h) (hop : op < 16) :
    s.regWrite who (R.EM_CMD_CTL h) (goOp op v) = .next (State.reported ((s.ordered op v).emRun (s.order h op v))) := by
  obtain ⟨ho, idle, noBulk, noCommit⟩ := ok
  rw [regWrite_emCmdCtl ho, idle, noBulk, noCommit, getLsbD_goOp_go op v hop, ← emGo_goOp s h op v hop]
  simp

/-- A command whose run is known completes as it reports. -/
theorem order_completes {c : Instr} {r : EmRes × State} {P : State → Prop} (hc : exec c s = s.regWrite who (R.EM_CMD_CTL h) (goOp op v))
    (ok : s.takesOrder who h) (hop : op < 16) (run : (s.ordered op v).emRun (s.order h op v) = r) (hP : P (State.reported r)) : Completes c s P :=
  ⟨_, hc.trans (run ▸ order_runs ok hop), hP⟩

/-- While a command is busy, a bulk load runs or a commit is pending, an order is refused (R226). -/
theorem order_refused (ho : s.open who (R.EM_CMD_CTL h)) (taken : s.emBusy = true ∨ s.bulkRuns = true ∨ s.commitPend = true) (hop : op < 16) :
    s.regWrite who (R.EM_CMD_CTL h) (goOp op v) = .next (s.violAt who.toNat 3 (R.EM_CMD_CTL h)) := by
  rw [regWrite_emCmdCtl ho, getLsbD_goOp_go op v hop]
  refine congrArg Host.Outcome.next ?_
  by_cases busy : s.emBusy = true
  · rw [if_pos busy]
  · have waits : (s.bulkRuns || s.commitPend) = true := by simpa [busy] using taken
    rw [if_neg busy, if_neg (by simp), if_pos waits]

end

/-! ### The state that an order leaves -/

section
variable (s : State) (op : Nat) (v : W32) (n : Nat)

theorem fld_tblCfg_ordered (f : Fld) : (s.ordered op v).fld (R.EM_TBL_CFG 0 n) f = s.fld (R.EM_TBL_CFG 0 n) f :=
  fld_setReg_other (by unfold R.EM_TBL_CFG R.EM_CMD_CTL; omega)

@[simp] theorem emEn_ordered : (s.ordered op v).emEn n = s.emEn n := congrArg (fun n => decide (n ≠ 0)) (fld_tblCfg_ordered s op v n _)
@[simp] theorem emDeep_ordered : (s.ordered op v).emDeep n = s.emDeep n := congrArg (fun n => decide (n ≠ 0)) (fld_tblCfg_ordered s op v n _)
@[simp] theorem keyB_ordered : (s.ordered op v).keyB n = s.keyB n := fld_tblCfg_ordered s op v n _
@[simp] theorem dataB_ordered : (s.ordered op v).dataB n = s.dataB n := fld_tblCfg_ordered s op v n _

end

/-! ### What a command returns (R228, R237) -/

theorem regsOnly_emReturn (s : State) (r : EmRes) : s.regsOnly (s.emReturn r) := by
  unfold State.emReturn
  extract_lets s1 s2
  have location : s.regsOnly s1 := by
    unfold s1
    split
    · exact State.regsOnly.refl.setReg
    · exact .refl
  have entry : s.regsOnly s2 := by
    unfold s2
    split
    · next e _ =>
      extract_lets k t
      have header : s.regsOnly t := location.setReg.setReg.setReg.setReg
      split_ifs
      · exact List.foldlRecOn _ _ header fun u hu n _ => hu.setReg
      · exact header
    · exact location
  split
  · exact entry.setReg.setReg.setReg.setReg
  · exact entry

theorem regsOnly_reported (r : EmRes × State) : r.2.regsOnly (State.reported r) := (regsOnly_emReturn _ _).setReg

theorem stat_reported (r : EmRes × State) : (State.reported r).reg (R.EM_CMD_STAT 0) = BitVec.ofNat 32 (2 ^ 31 + r.1.st) := reg_setReg_same _ _ _

theorem counted_reported (r : EmRes × State) : r.2.counted (State.reported r) := by
  obtain ⟨g, h⟩ := regsOnly_reported r
  exact ⟨g, _, h⟩

end Sys2Proof.Machine
end

section
/-! PROOFS. What each exact-match command gives (R214, R216, R218, R227, R228). -/

namespace Sys2Proof.Machine

/-! ### Flow counters (R218) -/

section
variable {u : State} {half i : Nat} (near : i < 0x100000)
include near

/-- The counter pair of an index ahead of the counters in HBM. -/
theorem ctrGet_near : u.ctrGet half i = smGet (fun _ => (0, 0)) u.ctrs (half * 2 ^ 20 + i) := if_pos near

theorem ctrSet_near (x : Nat × Nat) : u.ctrSet half i x =
    { u with ctrs := smSet (fun _ => (0, 0)) u.ctrs (half * 2 ^ 20 + i) (x.1 % 2 ^ 64, x.2 % 2 ^ 64) } := if_pos near

theorem ctrGet_ctrSet_zero : (u.ctrSet half i (0, 0)).ctrGet half i = (0, 0) := by
  rw [ctrGet_near near, ctrSet_near near]
  exact smGet_smSet_same _ _ _ (0, 0)

theorem ctrGet_ctrSet_other {other : Nat} (x : Nat × Nat) (h : other ≠ half) : (u.ctrSet half i x).ctrGet other i = u.ctrGet other i := by
  rw [ctrGet_near near, ctrSet_near near, ctrGet_near near]
  exact smGet_smSet_other _ _ _ (by omega)

end

/-- The counters of an index cleared in both halves, where an order says so. -/
def State.ctrCleared (u : State) (clr : Bool) (i : Nat) : State := if clr then (u.ctrSet 0 i (0, 0)).ctrSet 1 i (0, 0) else u

theorem ctrCleared_eq {u : State} {i : Nat} (clr : Bool) (near : i < 0x100000) : ∃ m, u.ctrCleared clr i = { u with ctrs := m } := by
  unfold State.ctrCleared
  rw [ctrSet_near near, ctrSet_near near]
  split
  exacts [⟨_, rfl⟩, ⟨_, rfl⟩]

theorem ctrGet_ctrCleared {u : State} {i : Nat} (near : i < 0x100000) :
    (u.ctrCleared true i).ctrGet 0 i = (0, 0) ∧ (u.ctrCleared true i).ctrGet 1 i = (0, 0) := by
  rw [State.ctrCleared, if_pos rfl, ctrGet_ctrSet_other near _ (by decide)]
  exact ⟨ctrGet_ctrSet_zero near, ctrGet_ctrSet_zero near⟩

/-! ### The runs of commands -/

/-- The key of a command, cut to the length of its table. -/
abbrev State.cmdKey (s : State) (c : EmCmd) : List Byte := c.key.take (s.keyB c.tbl)

/-- The entries of a command's table with its key. -/
abbrev State.cmdEnts (s : State) (c : EmCmd) : List (Nat × EmEnt) := s.keyEnts c.tbl (s.cmdKey c)

/-- Those of them in the views of the command. -/
abbrev State.cmdHits (s : State) (c : EmCmd) : List (Nat × EmEnt) := (s.cmdEnts c).filter fun e => e.2.view &&& c.views != 0

/-- A command names entries: its table is enabled, it gives a view, and the buckets of its key can be read. -/
structure State.names (s : State) (c : EmCmd) : Prop where
  table : s.emEn c.tbl = true
  views : c.views ≠ 0
  whole : s.cmdBad c.tbl (s.cmdKey c) = false

section
variable {u : State} {c : EmCmd}

theorem emRun_nop (op : c.op = 0) : u.emRun c = ({ st := eOK }, u) := by
  simp [State.emRun, op]

section
variable (n : u.names c)
include n

theorem emRun_insert {p : Nat} (op : c.op = 1) (free : u.cmdHits c = []) (room : u.quotaFull (u.cmdEnt c (u.cmdKey c)).inst = false)
    (place : u.placeEnt (u.emDeep c.tbl) (u.bucketOf c.tbl (u.cmdKey c) (u.emDeep c.tbl)) (u.cmdEnt c (u.cmdKey c)).slots = some p) :
    u.emRun c = ({ st := eOK, loc := some p }, (u.newEnt p (u.cmdEnt c (u.cmdKey c))).viewChange (dirtyOf p) 0 c.views) := by
  simp only [State.emRun, op, n.table, n.views, n.whole, free, room, place]
  simp

theorem emRun_insert_exists (op : c.op = 1) (found : u.cmdHits c ≠ []) : u.emRun c = ({ st := eEXISTS }, u) := by
  have full := List.isEmpty_eq_false_iff.mpr found
  simp only [State.emRun, op, n.table, n.views, n.whole, full]
  simp

theorem emRun_delete {p : Nat} {e : EmEnt} (op : c.op = 2) (found : u.cmdHits c = [(p, e)]) : u.emRun c = ({ st := eOK },
    (if e.view &&& (3 ^^^ c.views) = 0 then u.freeEnt p e else u.putEnt p { e with view := e.view &&& (3 ^^^ c.views) }).viewChange
      (dirtyOf p) e.view (e.view &&& (3 ^^^ c.views))) := by
  simp only [State.emRun, op, n.table, n.views, n.whole, found]
  simp

theorem emRun_search {p : Nat} {e : EmEnt} {l : List (Nat × EmEnt)} (op : c.op = 3) (one : c.views ≠ 3) (found : u.cmdHits c = (p, e) :: l) :
    u.emRun c = ({ st := eOK, loc := some p, ent := some e }, u) := by
  simp only [State.emRun, op, n.table, n.views, n.whole, found, one]
  simp

theorem emRun_search_missing (op : c.op = 3) (one : c.views ≠ 3) (missing : u.cmdHits c = []) : u.emRun c = ({ st := eNOT_FOUND }, u) := by
  simp only [State.emRun, op, n.table, n.views, n.whole, missing, one]
  simp

theorem emRun_modify {p : Nat} {e : EmEnt} (op : c.op = 4) (found : u.cmdHits c = [(p, e)]) : u.emRun c = ({ st := eOK },
    (if e.sw then (u.quota e.inst (-1)).quota (u.cmdEnt c (u.cmdKey c)).inst 1 else u).putEnt p
      { u.cmdEnt c (u.cmdKey c) with view := e.view, sw := e.sw }) := by
  simp only [State.emRun, op, n.table, n.views, n.whole, found]
  simp

theorem emRun_viewAdd {p : Nat} {e : EmEnt} (op : c.op = 5) (found : u.cmdEnts c = [(p, e)]) : u.emRun c = ({ st := eOK },
    (u.putEnt p { e with view := e.view ||| c.views }).viewChange (dirtyOf p) e.view (e.view ||| c.views)) := by
  simp only [State.emRun, op, n.table, n.views, n.whole, found]
  simp

end

theorem emRun_readAt {p : Nat} {e : EmEnt} (op : c.op = 6) (place : locPlace c.loc = some p) (near : p < deep0) (whole : u.emBad = [])
    (found : smFind u.em p = some e) : u.emRun c = ({ st := eOK, ent := some e, keys := true }, u) := by
  have good : ∀ b, u.odieBad b = false := fun b => by unfold State.odieBad; rw [whole]; rfl
  have start : u.entAt p = some e := (if_neg (Nat.not_le.mpr near)).trans found
  simp [State.emRun, op, place, Nat.not_le.mpr near, good, start]

theorem emRun_readAt_nowhere (op : c.op = 6) (place : locPlace c.loc = none) : u.emRun c = ({ st := eBAD_ARG }, u) := by
  simp [State.emRun, op, place]

theorem emRun_ctrRead_none (op : c.op = 7) (index : c.hdr % 2 ^ 24 = 0) : u.emRun c = ({ st := eBAD_ARG }, u) := by
  simp only [State.emRun, op, index]
  simp

theorem emRun_ctrRead {i : Nat} (op : c.op = 7) (index : c.hdr % 2 ^ 24 = i) (counts : i ≠ 0) (near : i < 0x100000) : u.emRun c =
    ({ st := eOK, ctr := some ((u.ctrGet 0 i).1 + (u.ctrGet 1 i).1, (u.ctrGet 0 i).2 + (u.ctrGet 1 i).2) },
      u.ctrCleared c.clr i) := by
  have onDie : ¬ 0x100000 ≤ i := by omega
  simp only [State.emRun, op, index, counts, near, onDie, State.ctrCleared]
  simp

theorem emRun_writePage (op : c.op = 8) : u.emRun c = ({ st := (u.writePage c.loc).1 }, (u.writePage c.loc).2) := by
  simp [State.emRun, op]

theorem writePage_elsewhere {loc : Nat} (store : bits loc 31 30 ≠ 2) : u.writePage loc = (eBAD_ARG, u) := by
  unfold State.writePage
  exact if_pos (.inl store)

end

end Sys2Proof.Machine
end

section
/-! PROOFS. Each exact-match command from its order to its report (R214, R216, R218, R226–R229, R237). -/

namespace Sys2Proof.Machine

/-- The entry that the command registers give, for the table and views of an order. -/
def State.newEntry (s : State) (v : W32) : EmEnt :=
  { emOf (s.reg64 (R.EM_CMD_HDR_LO 0)) 0 0 [] with
    tbl := bits v.toNat 15 8, view := bits v.toNat 23 22, key := s.keyRegs.take (s.keyB (bits v.toNat 15 8)),
    data := bytesBE (s.dataB (bits v.toNat 15 8)) (s.reg64 (R.EM_CMD_DATA_LO 0)) }

/-- The entries that an order names by its key. -/
abbrev State.orderEnts (s : State) (op : Nat) (v : W32) : List (Nat × EmEnt) :=
  (s.ordered op v).keyEnts (bits v.toNat 15 8) (s.keyRegs.take (s.keyB (bits v.toNat 15 8)))

/-- Those of them in the views of the order. -/
abbrev State.orderHits (s : State) (op : Nat) (v : W32) : List (Nat × EmEnt) :=
  (s.orderEnts op v).filter fun e => e.2.view &&& bits v.toNat 23 22 != 0

/-- An order is taken and names entries. -/
abbrev State.namesBy (s : State) (who : Req) (h : HalfN) (op : Nat) (v : W32) : Prop :=
  s.takesOrder who h ∧ s.emEn (bits v.toNat 15 8) = true ∧ bits v.toNat 23 22 ≠ 0 ∧
    (s.ordered op v).cmdBad (bits v.toNat 15 8) (s.keyRegs.take (s.keyB (bits v.toNat 15 8))) = false

/-- Entries, memory and the dirty map are as before. -/
abbrev State.entriesLeft (s t : State) : Prop := t.em = s.em ∧ t.mem = s.mem ∧ t.dirty = s.dirty

/-- A command has ended with a status. -/
abbrev State.ended (t : State) (st : Nat) : Prop := t.reg (R.EM_CMD_STAT 0) = BitVec.ofNat 32 (2 ^ 31 + st)

section
variable {s : State} {who : Req} {h : HalfN} {v : W32} {op : Nat}

theorem cmdKey_order : (s.ordered op v).cmdKey (s.order h op v) = s.keyRegs.take (s.keyB (bits v.toNat 15 8)) :=
  congrArg s.keyRegs.take (keyB_ordered s op v _)

theorem cmdEnts_order : (s.ordered op v).cmdEnts (s.order h op v) = s.orderEnts op v :=
  congrArg ((s.ordered op v).keyEnts _) cmdKey_order

theorem cmdHits_order : (s.ordered op v).cmdHits (s.order h op v) = s.orderHits op v :=
  congrArg (List.filter _) cmdEnts_order

theorem cmdEnt_order : (s.ordered op v).cmdEnt (s.order h op v) ((s.ordered op v).cmdKey (s.order h op v)) = s.newEntry v := by
  unfold State.cmdEnt
  rw [cmdKey_order, dataB_ordered]
  rfl

theorem names_order (n : s.namesBy who h op v) : (s.ordered op v).names (s.order h op v) := by
  obtain ⟨-, table, views, whole⟩ := n
  exact ⟨(emEn_ordered s op v _).trans table, views, (congrArg _ cmdKey_order).trans whole⟩

theorem entriesLeft_reported {r : EmRes × State} (left : s.entriesLeft r.2) : s.entriesLeft (State.reported r) := by
  obtain ⟨g, e⟩ := regsOnly_reported r
  rw [e]
  exact left

/-- A register that a command does not return in. -/
theorem reg_reported {u : State} {r : EmRes} {a : Nat} (other : a ≠ R.EM_CMD_STAT 0) : (State.reported (r, u)).reg a = (u.emReturn r).reg a :=
  reg_setReg_other _ _ _ _ other

/-! ### NOP -/

theorem emNop_ends (ok : s.takesOrder who h) : Completes (.emNop who h) s fun t =>
    t.ended 0 ∧ s.onlyRegs t [R.EM_CMD_CTL 0, R.EM_CMD_STAT 0] := by
  refine order_completes (op := 0) (v := 0) rfl ok (by decide) (emRun_nop rfl) ⟨stat_reported _, ?_⟩
  exact State.regsOnly.refl.setReg.setReg.onlyRegs ((State.regsKept.refl.setReg (by simp)).setReg (by simp))

/-! ### INSERT (R214) -/

theorem emInsert_places {p : Nat} (n : s.namesBy who h 1 v) (free : s.orderHits 1 v = [])
    (room : (s.ordered 1 v).quotaFull (s.newEntry v).inst = false)
    (place : (s.ordered 1 v).placeEnt (s.emDeep (bits v.toNat 15 8)) ((s.ordered 1 v).bucketOf (bits v.toNat 15 8)
      (s.keyRegs.take (s.keyB (bits v.toNat 15 8))) (s.emDeep (bits v.toNat 15 8))) (s.newEntry v).slots = some p) :
    Completes (.emInsert who h v) s fun t => t.ended 0 ∧ t.reg (R.EM_CMD_LOC 0) = BitVec.ofNat 32 (locReg p) ∧
      t.em = ((s.ordered 1 v).putEnt p (s.newEntry v)).em ∧ t.mem = ((s.ordered 1 v).putEnt p (s.newEntry v)).mem ∧
      (p < deep0 → s.placed t p (some (s.newEntry v))) := by
  have run := emRun_insert (p := p) (names_order n) rfl (cmdHits_order.trans free) (by rw [cmdEnt_order]; exact room)
    (by rw [cmdEnt_order, cmdKey_order, emDeep_ordered]; exact place)
  rw [cmdEnt_order] at run
  have counted : ((s.ordered 1 v).putEnt p (s.newEntry v)).counted (State.reported ({ st := eOK, loc := some p },
      ((s.ordered 1 v).newEnt p (s.newEntry v)).viewChange (dirtyOf p) 0 (s.order h 1 v).views)) :=
    State.counted.refl.countEnt.viewChange.trans (counted_reported _)
  refine order_completes rfl n.1 (by decide) run ⟨stat_reported _, ?_, counted.em, counted.mem, 
    fun near => (placed_putEnt (s := s.ordered 1 v) near).counted counted⟩
  exact (reg_reported (by decide)).trans (reg_setReg_same _ _ _)

theorem emInsert_exists (n : s.namesBy who h 1 v) (found : s.orderHits 1 v ≠ []) : Completes (.emInsert who h v) s fun t =>
    t.ended 1 ∧ s.entriesLeft t :=
  order_completes rfl n.1 (by decide) (emRun_insert_exists (names_order n) rfl (cmdHits_order ▸ found))
    ⟨stat_reported _, entriesLeft_reported ⟨rfl, rfl, rfl⟩⟩

/-! ### DELETE, MODIFY and VIEW_ADD -/

theorem emDelete_removes {p : Nat} {e : EmEnt} (n : s.namesBy who h 2 v) (found : s.orderHits 2 v = [(p, e)]) (near : p < deep0) :
    Completes (.emDelete who h v) s fun t => t.ended 0 ∧ s.placed t p
      (if e.view &&& (3 ^^^ bits v.toNat 23 22) = 0 then none else some { e with view := e.view &&& (3 ^^^ bits v.toNat 23 22) }) := by
  have run := emRun_delete (names_order n) rfl (cmdHits_order.trans found)
  refine order_completes rfl n.1 (by decide) run ⟨stat_reported _, ?_⟩
  refine State.placed.counted (State.placed.counted ?_ State.counted.refl.viewChange) (counted_reported _)
  show s.placed (if e.view &&& (3 ^^^ bits v.toNat 23 22) = 0 then _ else _) _ _
  split
  · exact (placed_freeSlots (s := s.ordered 2 v) near).counted State.counted.refl.countEnt
  · exact placed_putEnt (s := s.ordered 2 v) near

theorem emModify_rewrites {p : Nat} {e : EmEnt} (n : s.namesBy who h 4 v) (found : s.orderHits 4 v = [(p, e)]) (near : p < deep0) :
    Completes (.emModify who h v) s fun t => t.ended 0 ∧ s.placed t p (some { s.newEntry v with view := e.view, sw := e.sw }) := by
  have run := emRun_modify (names_order n) rfl (cmdHits_order.trans found)
  rw [cmdEnt_order] at run
  refine order_completes rfl n.1 (by decide) run ⟨stat_reported _, ?_⟩
  refine State.placed.counted ?_ (counted_reported _)
  exact State.counted.placed (s := s.ordered 4 v) (.ite State.counted.refl.quota.quota .refl) (placed_putEnt near)

theorem emViewAdd_adds {p : Nat} {e : EmEnt} (n : s.namesBy who h 5 v) (found : s.orderEnts 5 v = [(p, e)]) (near : p < deep0) :
    Completes (.emViewAdd who h v) s fun t => t.ended 0 ∧ s.placed t p (some { e with view := e.view ||| bits v.toNat 23 22 }) := by
  have run := emRun_viewAdd (names_order n) rfl (cmdEnts_order.trans found)
  refine order_completes rfl n.1 (by decide) run ⟨stat_reported _, ?_⟩
  exact State.placed.counted (State.placed.counted (placed_putEnt (s := s.ordered 5 v) near) State.counted.refl.viewChange) (counted_reported _)

/-! ### SEARCH and READ_AT (R216) -/

theorem reg_setReg64_low (u : State) (a n : Nat) : (u.setReg64 a n).reg a = BitVec.ofNat 32 n :=
  (reg_setReg_other _ _ _ _ (by omega)).trans (reg_setReg_same _ _ _)

theorem reg_setReg64_other (u : State) {a b : Nat} (n : Nat) (low : b ≠ a) (high : b ≠ a + 4) : (u.setReg64 a n).reg b = u.reg b :=
  (reg_setReg_other _ _ _ _ high).trans (reg_setReg_other _ _ _ _ low)

/-- The registers ahead of the key registers stand, where those take a key. -/
theorem reg_keysReturned (u : State) (keys : Bool) (w : Nat → W32) {r : Nat} (below : r < R.EM_CMD_KEY 0 0) :
    (if keys then (List.range 30).foldl (fun s n => s.setReg (R.EM_CMD_KEY 0 n) (w n)) u else u).reg r = u.reg r := by
  have ahead (n : Nat) : r ≠ R.EM_CMD_KEY 0 n := by unfold R.EM_CMD_KEY at *; omega
  split
  · exact foldl_keeps (g := fun u => u.reg r) (fun u n => reg_setReg_other u _ r _ (ahead n)) _ u
  · rfl

/-- An entry that a command returns stands in the header and data registers. -/
theorem reg_reported_entry (u : State) (keys : Bool) (l : Option Nat) (e : EmEnt) :
    (State.reported ({ st := eOK, keys := keys, loc := l, ent := some e }, u)).reg (R.EM_CMD_HDR_LO 0) = BitVec.ofNat 32 e.hdr ∧
    (State.reported ({ st := eOK, keys := keys, loc := l, ent := some e }, u)).reg (R.EM_CMD_DATA_LO 0) = BitVec.ofNat 32 (valBE e.data) := by
  have shown (t : State) : ((t.setReg64 (R.EM_CMD_HDR_LO 0) e.hdr).setReg64 (R.EM_CMD_DATA_LO 0) (valBE e.data)).reg (R.EM_CMD_HDR_LO 0) =
      BitVec.ofNat 32 e.hdr := (reg_setReg64_other _ _ (by decide) (by decide)).trans (reg_setReg64_low _ _ _)
  rw [reg_reported (by decide), reg_reported (by decide)]
  unfold State.emReturn
  dsimp only
  exact ⟨(reg_keysReturned _ _ _ (by decide)).trans (shown _), (reg_keysReturned _ _ _ (by decide)).trans (reg_setReg64_low _ _ _)⟩

/-- The registers in which SEARCH returns, with those of its order. -/
def searchRegs : List Nat :=
  [R.EM_CMD_CTL 0, R.EM_CMD_LOC 0, R.EM_CMD_HDR_LO 0, R.EM_CMD_HDR_LO 0 + 4, R.EM_CMD_DATA_LO 0, R.EM_CMD_DATA_LO 0 + 4, R.EM_CMD_STAT 0]

theorem emSearch_returns {p : Nat} {e : EmEnt} {l : List (Nat × EmEnt)} (n : s.namesBy who h 3 v) (one : bits v.toNat 23 22 ≠ 3)
    (found : s.orderHits 3 v = (p, e) :: l) : Completes (.emSearch who h v) s fun t =>
      t.ended 0 ∧ t.reg (R.EM_CMD_LOC 0) = BitVec.ofNat 32 (locReg p) ∧ t.reg (R.EM_CMD_DATA_LO 0) = BitVec.ofNat 32 (valBE e.data) ∧
      t.reg (R.EM_CMD_HDR_LO 0) = BitVec.ofNat 32 e.hdr ∧ s.entriesLeft t ∧
      ∀ n, n < 30 → t.reg (R.EM_CMD_KEY 0 n) = s.reg (R.EM_CMD_KEY 0 n) := by
  have run := emRun_search (names_order n) rfl one (cmdHits_order.trans found)
  obtain ⟨header, data⟩ := reg_reported_entry (s.ordered 3 v) false (some p) e
  refine order_completes rfl n.1 (by decide) run ⟨stat_reported _, ?_, data, header, entriesLeft_reported ⟨rfl, rfl, rfl⟩, fun i hi => ?_⟩
  · refine (reg_reported (by decide)).trans ?_
    exact (reg_setReg64_other _ _ (by decide) (by decide)).trans ((reg_setReg64_other _ _ (by decide) (by decide)).trans (reg_setReg_same _ _ _))
  · have kept : s.regsKept (State.reported ({ st := eOK, loc := some p, ent := some e }, s.ordered 3 v)) searchRegs :=
      ((((((State.regsKept.refl.setReg (by decide)).setReg (by decide)).setReg (by decide)).setReg (by decide)).setReg (by decide)).setReg
        (by decide)).setReg (by decide)
    refine kept _ ?_
    simp [searchRegs, R.EM_CMD_KEY, R.EM_CMD_CTL, R.EM_CMD_LOC, R.EM_CMD_HDR_LO, R.EM_CMD_DATA_LO, R.EM_CMD_STAT]
    omega

theorem emSearch_misses (n : s.namesBy who h 3 v) (one : bits v.toNat 23 22 ≠ 3) (missing : s.orderHits 3 v = []) :
    Completes (.emSearch who h v) s fun t => t.ended 2 ∧ s.entriesLeft t :=
  order_completes rfl n.1 (by decide) (emRun_search_missing (names_order n) rfl one (cmdHits_order.trans missing))
    ⟨stat_reported _, entriesLeft_reported ⟨rfl, rfl, rfl⟩⟩

theorem emReadAt_returns {p : Nat} {e : EmEnt} (ok : s.takesOrder who h) (place : locPlace (s.reg (R.EM_CMD_LOC 0)).toNat = some p)
    (near : p < deep0) (whole : s.emBad = []) (found : smFind s.em p = some e) : Completes (.emReadAt who h v) s fun t =>
      t.ended 0 ∧ t.reg (R.EM_CMD_HDR_LO 0) = BitVec.ofNat 32 e.hdr ∧ t.reg (R.EM_CMD_DATA_LO 0) = BitVec.ofNat 32 (valBE e.data) ∧
      s.entriesLeft t := by
  have run := emRun_readAt (u := s.ordered 6 v) (c := s.order h 6 v) rfl place near whole found
  obtain ⟨header, data⟩ := reg_reported_entry (s.ordered 6 v) true none e
  exact order_completes rfl ok (by decide) run ⟨stat_reported _, header, data, entriesLeft_reported ⟨rfl, rfl, rfl⟩⟩

theorem emReadAt_nowhere (ok : s.takesOrder who h) (place : locPlace (s.reg (R.EM_CMD_LOC 0)).toNat = none) :
    Completes (.emReadAt who h v) s fun t => t.ended 5 ∧ s.entriesLeft t :=
  order_completes rfl ok (by decide) (emRun_readAt_nowhere rfl place) ⟨stat_reported _, entriesLeft_reported ⟨rfl, rfl, rfl⟩⟩

/-! ### COUNTER_READ (R218) -/

theorem emCtrRead_none (ok : s.takesOrder who h) (index : s.reg64 (R.EM_CMD_HDR_LO 0) % 2 ^ 24 = 0) :
    Completes (.emCtrRead who h v) s fun t => t.ended 5 ∧ s.entriesLeft t ∧ t.ctrs = s.ctrs :=
  order_completes rfl ok (by decide) (emRun_ctrRead_none rfl index) ⟨stat_reported _, entriesLeft_reported ⟨rfl, rfl, rfl⟩, rfl⟩

theorem ofNat_mod_two_pow_64 (n : Nat) : BitVec.ofNat 32 (n % 2 ^ 64) = BitVec.ofNat 32 n :=
  BitVec.eq_of_toNat_eq (by rw [BitVec.toNat_ofNat, BitVec.toNat_ofNat]; exact Nat.mod_mod_of_dvd _ (Nat.pow_dvd_pow 2 (by decide)))

/-- Counters that a command returns stand in their registers. -/
theorem reg_reported_counters (u : State) (p b : Nat) :
    (State.reported ({ st := eOK, ctr := some (p, b) }, u)).reg (R.EM_CMD_CTR_PKT_LO 0) = BitVec.ofNat 32 p ∧
    (State.reported ({ st := eOK, ctr := some (p, b) }, u)).reg (R.EM_CMD_CTR_BYTE_LO 0) = BitVec.ofNat 32 b := by
  rw [reg_reported (by decide), reg_reported (by decide), ← ofNat_mod_two_pow_64 p, ← ofNat_mod_two_pow_64 b]
  exact ⟨(reg_setReg64_other _ _ (by decide) (by decide)).trans (reg_setReg64_low _ _ _), reg_setReg64_low _ _ _⟩

theorem ctrs_reported (r : EmRes × State) : (State.reported r).ctrs = r.2.ctrs := by
  obtain ⟨g, e⟩ := regsOnly_reported r
  rw [e]

theorem emCtrRead_adds {i : Nat} (ok : s.takesOrder who h) (index : s.reg64 (R.EM_CMD_HDR_LO 0) % 2 ^ 24 = i) (counts : i ≠ 0)
    (near : i < 0x100000) : Completes (.emCtrRead who h v) s fun t => t.ended 0 ∧ s.entriesLeft t ∧
      t.reg (R.EM_CMD_CTR_PKT_LO 0) = BitVec.ofNat 32 ((s.ctrGet 0 i).1 + (s.ctrGet 1 i).1) ∧
      t.reg (R.EM_CMD_CTR_BYTE_LO 0) = BitVec.ofNat 32 ((s.ctrGet 0 i).2 + (s.ctrGet 1 i).2) ∧
      (v.getLsbD 21 = true → t.ctrGet 0 i = (0, 0) ∧ t.ctrGet 1 i = (0, 0)) ∧ (v.getLsbD 21 = false → t.ctrs = s.ctrs) := by
  have same (half : Nat) : (s.ordered 7 v).ctrGet half i = s.ctrGet half i := by
    rw [ctrGet_near near, ctrGet_near near]
    rfl
  have run : (s.ordered 7 v).emRun (s.order h 7 v) =
      ({ st := eOK, ctr := some ((s.ctrGet 0 i).1 + (s.ctrGet 1 i).1, (s.ctrGet 0 i).2 + (s.ctrGet 1 i).2) },
        (s.ordered 7 v).ctrCleared (v.getLsbD 21) i) := by
    rw [emRun_ctrRead rfl index counts near, same, same]
    rfl
  obtain ⟨packets, bytes⟩ := reg_reported_counters ((s.ordered 7 v).ctrCleared (v.getLsbD 21) i) ((s.ctrGet 0 i).1 + (s.ctrGet 1 i).1)
    ((s.ctrGet 0 i).2 + (s.ctrGet 1 i).2)
  obtain ⟨m, cleared⟩ := ctrCleared_eq (u := s.ordered 7 v) (v.getLsbD 21) near
  have left : s.entriesLeft ((s.ordered 7 v).ctrCleared (v.getLsbD 21) i) := by rw [cleared]; exact ⟨rfl, rfl, rfl⟩
  have reads (r : EmRes) (half : Nat) : (State.reported (r, (s.ordered 7 v).ctrCleared (v.getLsbD 21) i)).ctrGet half i =
      ((s.ordered 7 v).ctrCleared (v.getLsbD 21) i).ctrGet half i := by
    rw [ctrGet_near near, ctrGet_near near, ctrs_reported]
  refine order_completes rfl ok (by decide) run ⟨stat_reported _, entriesLeft_reported left, packets, bytes, fun clear => ?_, fun keep => ?_⟩
  · have both := ctrGet_ctrCleared (u := s.ordered 7 v) near
    rw [← clear] at both
    exact ⟨(reads _ 0).trans both.1, (reads _ 1).trans both.2⟩
  · refine (ctrs_reported _).trans ?_
    rw [keep]
    rfl

/-! ### WRITE_PAGE (R227) -/

theorem emWritePage_writes (ok : s.takesOrder who h) : Completes (.emWritePage who h v) s fun t =>
    t.ended ((s.ordered 8 v).writePage (s.reg (R.EM_CMD_LOC 0)).toNat).1 ∧
      t.mem = ((s.ordered 8 v).writePage (s.reg (R.EM_CMD_LOC 0)).toNat).2.mem ∧ t.em = s.em :=
  order_completes rfl ok (by decide) (emRun_writePage rfl) ⟨stat_reported _, rfl, em_writePage (s.ordered 8 v) _⟩

theorem emWritePage_elsewhere (ok : s.takesOrder who h) (store : bits (s.reg (R.EM_CMD_LOC 0)).toNat 31 30 ≠ 2) :
    Completes (.emWritePage who h v) s fun t => t.ended 5 ∧ s.entriesLeft t := by
  have run := emRun_writePage (u := s.ordered 8 v) (c := s.order h 8 v) rfl
  rw [writePage_elsewhere (loc := (s.order h 8 v).loc) store] at run
  exact order_completes rfl ok (by decide) run ⟨stat_reported _, entriesLeft_reported ⟨rfl, rfl, rfl⟩⟩

/-! ### Refusal and completion (R226, R229) -/

theorem emCommands_refused (ho : s.open who (R.EM_CMD_CTL h)) (taken : s.emBusy = true ∨ s.bulkRuns = true ∨ s.commitPend = true) :
    ∀ c ∈ [Instr.emNop who h, .emInsert who h v, .emDelete who h v, .emSearch who h v, .emModify who h v, .emViewAdd who h v, .emReadAt who h v,
      .emCtrRead who h v, .emWritePage who h v], exec c s = .next (s.violAt who.toNat 3 (R.EM_CMD_CTL h)) := by
  have refused (op : Nat) (w : W32) (hop : op < 16) := order_refused (op := op) (v := w) ho taken hop
  simp only [List.forall_mem_cons]
  exact ⟨refused 0 0 (by decide), refused 1 v (by decide), refused 2 v (by decide), refused 3 v (by decide), refused 4 v (by decide),
    refused 5 v (by decide), refused 6 v (by decide), refused 7 v (by decide), refused 8 v (by decide), fun _ h => absurd h List.not_mem_nil⟩

theorem emCmdComplete_ends (busy : s.emBusy = true) : Completes .emCmdComplete s fun t => t.emBusy = false ∧ (t.reg 0x400010).getLsbD 0 = true ∧
    (t.reg 0x500010).getLsbD 0 = true ∧ s.onlyRegs t [R.EM_CMD_STAT 0, 0x400010, 0x500010] := by
  have runs : exec .emCmdComplete s = .next ((s.setFld (R.EM_CMD_STAT 0) F.EM_CMD_STAT_BUSY 0).raise2 0x400000 0) :=
    congrArg Host.Outcome.next (if_pos busy)
  refine ⟨_, runs, ?_, ?_, getLsbD_raise _ _ (by decide), State.regsOnly.refl.setFld.raise.raise.onlyRegs ?_⟩
  · have kept : (s.setFld (R.EM_CMD_STAT 0) F.EM_CMD_STAT_BUSY 0).regsKept
        ((s.setFld (R.EM_CMD_STAT 0) F.EM_CMD_STAT_BUSY 0).raise2 0x400000 0) [0x400010, 0x500010] :=
      (State.regsKept.refl.raise (by simp)).raise (by simp)
    have shown := kept.fld (a := R.EM_CMD_STAT 0) (f := F.EM_CMD_STAT_BUSY) (by decide)
    exact (congrArg (fun n => decide (n ≠ 0)) shown).trans (flag_setFld_same (by decide) (by decide))
  · exact (congrArg (BitVec.getLsbD · 0) (reg_raise_other _ _ _ _ (by decide))).trans (getLsbD_raise _ _ (by decide))
  · exact ((State.regsKept.refl.setFld (by simp)).raise (by simp)).raise (by simp)

end

end Sys2Proof.Machine
end

section
/-! PROOFS. Bulk loads and the configuration of the exact-match tables (R209, R230, R231, R235, R237). -/

namespace Sys2Proof.Machine

theorem fld_setFld_below {s : State} {a x : Nat} {f g : Fld} (order : f.lo ≤ f.hi) (fits : f.hi < 32) (below : g.hi < f.lo) :
    (s.setFld a f x).fld a g = s.fld a g := by
  rw [State.fld, State.setFld, reg_setReg_same, getF_setF_below _ f g x order fits below]
  rfl

/-! ### The end of a load (R230, R231) -/

section
variable (s : State) {n : Nat}

theorem reg_point (a b : Nat) : (s.point a).reg b = s.reg b := rfl

theorem reg_bulkEnd (a : Nat) : (s.bulkEnd n).reg a = ((s.setFld (R.EM_BULK_CTL 0) F.EM_BULK_CTL_STATE n).raise2 0x400000 1).reg a := by
  unfold State.bulkEnd
  extract_lets t
  split
  · exact reg_point t _ a
  · rfl

theorem reg_bulkEnd_ctl : (s.bulkEnd n).reg (R.EM_BULK_CTL 0) = (s.setFld (R.EM_BULK_CTL 0) F.EM_BULK_CTL_STATE n).reg (R.EM_BULK_CTL 0) := by
  rw [reg_bulkEnd, State.raise2, reg_raise_other _ _ _ _ (by decide), reg_raise_other _ _ _ _ (by decide)]

theorem state_bulkEnd (hn : n < 16) : (s.bulkEnd n).fld (R.EM_BULK_CTL 0) F.EM_BULK_CTL_STATE = n :=
  (congrArg (getF · _) (reg_bulkEnd_ctl s)).trans ((fld_setFld_same _ _ _ _ (by decide) (by decide)).trans (Nat.mod_eq_of_lt hn))

theorem abortSt_bulkEnd : (s.bulkEnd n).fld (R.EM_BULK_CTL 0) F.EM_BULK_CTL_ABORT_ST = s.fld (R.EM_BULK_CTL 0) F.EM_BULK_CTL_ABORT_ST :=
  (congrArg (getF · _) (reg_bulkEnd_ctl s)).trans (fld_setFld_above (by decide) (by decide) (by decide))

theorem cause_bulkEnd : ((s.bulkEnd n).reg 0x400010).getLsbD 1 = true := by
  rw [reg_bulkEnd, State.raise2, reg_raise_other _ _ _ _ (by decide)]
  exact getLsbD_raise _ _ (by decide)

theorem stores_bulkEnd : (s.bulkEnd n).em = s.em ∧ (s.bulkEnd n).mem = s.mem := by
  unfold State.bulkEnd
  extract_lets t
  obtain ⟨r, e⟩ : s.regsOnly t := State.regsOnly.refl.setFld.raise.raise
  rw [e]
  split
  exacts [⟨rfl, rfl⟩, ⟨rfl, rfl⟩]

end

/-! ### START and ABORT -/

section
variable {s : State} {who : Req} {h : HalfN} {v : W32}

theorem emBulkStart_refused (ho : s.open who (R.EM_BULK_CTL h)) (runs : s.bulkRuns = true) :
    exec (.emBulkStart who h) s = .next (s.violAt who.toNat 3 (R.EM_BULK_CTL h)) := by
  have order : ((bitW 31).getLsbD 31 && s.bulkRuns) = true := by rw [runs]; rfl
  exact (regWrite_emBulkCtl ho).trans (congrArg Host.Outcome.next (if_pos order))

theorem emBulkStart_starts (ho : s.open who (R.EM_BULK_CTL h)) (idle : s.bulkRuns = false)
    (records : s.fld (R.EM_BULK_CNT 0) F.EM_BULK_CNT_CNT ≠ 0) : Completes (.emBulkStart who h) s fun t =>
      t.bulkRuns = true ∧ t.fld (R.EM_BULK_CTL 0) F.EM_BULK_CTL_DONE = 0 ∧ s.onlyRegs t [R.EM_BULK_CTL 0, R.EM_BULK_FAIL 0] := by
  have runs : exec (.emBulkStart who h) s = .next ((s.setReg (R.EM_BULK_CTL 0) 0x01000000).setReg (R.EM_BULK_FAIL 0) 0) := by
    refine (regWrite_emBulkCtl ho).trans (congrArg Host.Outcome.next ?_)
    rw [idle]
    exact if_neg records
  have ctl : ((s.setReg (R.EM_BULK_CTL 0) 0x01000000).setReg (R.EM_BULK_FAIL 0) 0).reg (R.EM_BULK_CTL 0) = 0x01000000 :=
    (reg_setReg_other _ _ _ _ (by decide)).trans (reg_setReg_same _ _ _)
  refine ⟨_, runs, ?_, congrArg (getF · F.EM_BULK_CTL_DONE) ctl, State.regsOnly.refl.setReg.setReg.onlyRegs ?_⟩
  · exact congrArg (fun w => getF w F.EM_BULK_CTL_STATE == 1) ctl
  · exact (State.regsKept.refl.setReg (by simp)).setReg (by simp)

/-- ABORT is an order of its own. -/
theorem exec_emBulkAbort (ho : s.open who (R.EM_BULK_CTL h)) : exec (.emBulkAbort who h) s = .next s.bulkAbort := by
  have start : (bitW 30).getLsbD 31 = false := by decide
  have abort : (bitW 30).getLsbD 30 = true := by decide
  refine (regWrite_emBulkCtl ho).trans (congrArg Host.Outcome.next ?_)
  rw [start, abort]
  rfl

theorem emBulkAbort_ends (ho : s.open who (R.EM_BULK_CTL h)) (runs : s.bulkRuns = true) : Completes (.emBulkAbort who h) s fun t =>
    t.fld (R.EM_BULK_CTL 0) F.EM_BULK_CTL_STATE = 3 ∧ t.fld (R.EM_BULK_CTL 0) F.EM_BULK_CTL_ABORT_ST = 1 ∧ (t.reg 0x400010).getLsbD 1 = true ∧
      t.em = s.em ∧ t.mem = s.mem := by
  have ends : s.bulkAbort = (s.setFld (R.EM_BULK_CTL 0) F.EM_BULK_CTL_ABORT_ST 1).bulkEnd 3 := by
    unfold State.bulkAbort
    rw [if_pos runs]
  obtain ⟨em, mem⟩ := stores_bulkEnd (n := 3) (s.setFld (R.EM_BULK_CTL 0) F.EM_BULK_CTL_ABORT_ST 1)
  refine ⟨_, (exec_emBulkAbort ho).trans (congrArg Host.Outcome.next ends), state_bulkEnd _ (by decide), ?_, cause_bulkEnd _,
    em.trans (State.setReg_em _ _ _), mem.trans (State.setReg_mem _ _ _)⟩
  exact (abortSt_bulkEnd _).trans (fld_setFld_same _ _ _ _ (by decide) (by decide))

theorem emBulkAbort_late (ho : s.open who (R.EM_BULK_CTL h)) (idle : s.bulkRuns = false) (point : s.atPoint (R.EM_BULK_CTL 0) = true) :
    Completes (.emBulkAbort who h) s fun t =>
      t.fld (R.EM_BULK_CTL 0) F.EM_BULK_CTL_STATE = s.fld (R.EM_BULK_CTL 0) F.EM_BULK_CTL_STATE ∧
      t.fld (R.EM_BULK_CTL 0) F.EM_BULK_CTL_ABORT_ST = 2 ∧ t.em = s.em ∧ t.mem = s.mem := by
  have late : s.bulkAbort = s.setFld (R.EM_BULK_CTL 0) F.EM_BULK_CTL_ABORT_ST 2 := by
    unfold State.bulkAbort State.lateAbort
    rw [if_neg (ne_true_of_eq_false idle), if_pos point]
  refine ⟨_, (exec_emBulkAbort ho).trans (congrArg Host.Outcome.next late), ?_, fld_setFld_same _ _ _ _ (by decide) (by decide),
    State.setReg_em _ _ _, State.setReg_mem _ _ _⟩
  exact fld_setFld_below (by decide) (by decide) (by decide)

end

/-! ### A record (R230) -/

section
variable {s : State}

/-- A record has been counted: the fields of the load but DONE are as before. -/
def State.recorded (s t : State) : Prop :=
  ∃ u : State, u.reg (R.EM_BULK_CTL 0) = s.reg (R.EM_BULK_CTL 0) ∧
    t = u.setFld (R.EM_BULK_CTL 0) F.EM_BULK_CTL_DONE (s.fld (R.EM_BULK_CTL 0) F.EM_BULK_CTL_DONE + 1)

theorem regsKept_bulkFail (s : State) (i : Nat) : s.regsKept (s.bulkFail i) [R.EM_BULK_FAIL 0] := by
  unfold State.bulkFail
  extract_lets r n
  have first : s.regsKept (if n = 0 then s.setFld r F.EM_BULK_FAIL_FIRST i else s) [R.EM_BULK_FAIL 0] := by
    split
    · exact State.regsKept.refl.setFld List.mem_cons_self
    · exact .refl
  exact first.setFld List.mem_cons_self

theorem emBulkRecord_idle (idle : s.bulkRuns = false) : exec .emBulkRecord s = .next s := by
  have stands : ¬ s.bulkRuns = true := ne_true_of_eq_false idle
  exact if_pos stands

/-- A record that gives a command runs it, and any other record leaves the state. -/
theorem orderRegsKept_recordRun {p : Prop} [Decidable p] {c : EmCmd} (ordered : p → c.op = 1 ∨ c.op = 2 ∨ c.op = 4 ∨ c.op = 5) :
    s.orderRegsKept (if p then s.emRun c else ({ st := eBAD_ARG }, s)).2 := by
  split
  · next h => exact State.orderRegsKept.refl.emRun (ordered h)
  · exact .refl

/-- The failure of a record is counted apart from the state of the load. -/
theorem reg_recordEnd {r : EmRes × State} (ran : s.orderRegsKept r.2) (i : Nat) :
    (if r.1.st = eOK then r.2 else r.2.bulkFail i).reg (R.EM_BULK_CTL 0) = s.reg (R.EM_BULK_CTL 0) := by
  have kept := ran (R.EM_BULK_CTL 0) (by decide)
  split
  · exact kept
  · exact (regsKept_bulkFail r.2 i _ (by decide)).trans kept

/-- The record that is due runs as its command, and the load ends with its last. -/
theorem exec_emBulkRecord (runs : s.bulkRuns = true) : ∃ t, s.recorded t ∧ exec .emBulkRecord s = .next
    (if s.fld (R.EM_BULK_CTL 0) F.EM_BULK_CTL_DONE + 1 = s.fld (R.EM_BULK_CNT 0) F.EM_BULK_CNT_CNT then t.bulkEnd 2 else t) := by
  show ∃ t, s.recorded t ∧ execEmBulkRecord s = _
  unfold execEmBulkRecord
  rw [if_neg (not_not_intro runs)]
  dsimp only
  exact ⟨_, ⟨_, reg_recordEnd (orderRegsKept_recordRun fun gives => gives.2) _, rfl⟩, rfl⟩

theorem State.recorded.fields {t : State} (r : s.recorded t) (runs : s.bulkRuns = true)
    (fits : s.fld (R.EM_BULK_CTL 0) F.EM_BULK_CTL_DONE + 1 < 2 ^ 16) :
    t.fld (R.EM_BULK_CTL 0) F.EM_BULK_CTL_DONE = s.fld (R.EM_BULK_CTL 0) F.EM_BULK_CTL_DONE + 1 ∧
      t.fld (R.EM_BULK_CTL 0) F.EM_BULK_CTL_STATE = 1 := by
  obtain ⟨u, ctl, rfl⟩ := r
  refine ⟨(fld_setFld_same _ _ _ _ (by decide) (by decide)).trans (Nat.mod_eq_of_lt fits), ?_⟩
  refine (fld_setFld_above (by decide) (by decide) (by decide)).trans ((congrArg (getF · _) ctl).trans ?_)
  exact beq_iff_eq.mp runs

theorem emBulkRecord_continues (runs : s.bulkRuns = true)
    (more : s.fld (R.EM_BULK_CTL 0) F.EM_BULK_CTL_DONE + 1 < s.fld (R.EM_BULK_CNT 0) F.EM_BULK_CNT_CNT) : Completes .emBulkRecord s fun t =>
      t.fld (R.EM_BULK_CTL 0) F.EM_BULK_CTL_DONE = s.fld (R.EM_BULK_CTL 0) F.EM_BULK_CTL_DONE + 1 ∧
      t.fld (R.EM_BULK_CTL 0) F.EM_BULK_CTL_STATE = 1 := by
  obtain ⟨t, recorded, hexec⟩ := exec_emBulkRecord runs
  exact ⟨t, hexec.trans (congrArg Host.Outcome.next (if_neg (Nat.ne_of_lt more))), recorded.fields runs (Nat.lt_trans more fld_lt)⟩

theorem emBulkRecord_ends (runs : s.bulkRuns = true)
    (last : s.fld (R.EM_BULK_CTL 0) F.EM_BULK_CTL_DONE + 1 = s.fld (R.EM_BULK_CNT 0) F.EM_BULK_CNT_CNT) : Completes .emBulkRecord s fun t =>
      t.fld (R.EM_BULK_CTL 0) F.EM_BULK_CTL_STATE = 2 ∧ (t.reg 0x400010).getLsbD 1 = true := by
  obtain ⟨t, -, hexec⟩ := exec_emBulkRecord runs
  exact ⟨_, hexec.trans (congrArg Host.Outcome.next (if_pos last)), state_bulkEnd t (by decide), cause_bulkEnd t⟩

end

/-! ### EM_SEED and EM_TBL_CFG_n (R209, R237) -/

section
variable {s : State} {who : Req} {h : HalfN} {n : Fin 256} {v : W32}

theorem emSeedWrite_stores (ho : s.open who (R.EM_SEED h)) (empty : s.seedOk = true) : Completes (.emSeedWrite who h v) s fun t =>
    t.reg (R.EM_SEED 0) = v ∧ t.bcache = [] ∧ s.regsKept t [R.EM_SEED 0] :=
  ⟨s.setSeed v, (regWrite_emSeed ho).trans (congrArg Host.Outcome.next (if_pos empty)), reg_setReg_same s _ v, rfl,
    State.regsKept.refl.setReg (s := s) (t := s) List.mem_cons_self⟩

theorem emSeedWrite_refused (ho : s.open who (R.EM_SEED h)) (used : s.seedOk = false) :
    exec (.emSeedWrite who h v) s = .next (s.violAt who.toNat 3 (R.EM_SEED h)) :=
  (regWrite_emSeed ho).trans (congrArg Host.Outcome.next (if_neg (ne_true_of_eq_false used)))

/-- A descriptor that EM_TBL_CFG_n takes: its table is empty, and its key and data fit an entry (R209). -/
abbrev State.cfgFits (s : State) (n : Nat) (v : W32) : Prop :=
  s.reg (R.EM_TBL_CNT 0 n) = 0 ∧ 1 ≤ bits v.toNat 27 21 ∧ bits v.toNat 20 18 ≤ 6 ∧ bits v.toNat 27 21 + bits v.toNat 20 18 ≤ 120

theorem tblCfgOk_iff : s.tblCfgOk n v = true ↔ s.cfgFits n v := by
  simp only [State.tblCfgOk, Bool.and_eq_true, beq_iff_eq, decide_eq_true_eq, and_assoc]
  rfl

/-- The word of a descriptor keeps the bits from KEY_B and DATA_B up of the word written, but for WIDTH. -/
theorem bits_cfgWord (v : W32) {hi lo : Nat} (low : 18 ≤ lo) (high : hi < 32) :
    bits (v &&& 0xFFFC0000).toNat hi lo = bits v.toNat hi lo := by
  have mask : ∀ j < 32, 18 ≤ j → Nat.testBit 0xFFFC0000 j = true := by decide
  refine Nat.eq_of_testBit_eq fun i => ?_
  unfold bits
  rw [Nat.testBit_mod_two_pow, Nat.testBit_mod_two_pow, Nat.testBit_div_two_pow, Nat.testBit_div_two_pow, BitVec.toNat_and, Nat.testBit_and]
  by_cases inside : i < hi + 1 - lo
  · rw [show (0xFFFC0000 : W32).toNat = 0xFFFC0000 from rfl, mask (i + lo) (by omega) (by omega), Bool.and_true]
  · simp [inside]

theorem emTblCfgWrite_stores (ho : s.open who (R.EM_TBL_CFG h n)) (fits : s.cfgFits n v) : Completes (.emTblCfgWrite who h n v) s fun t =>
    s.onlyRegs t [R.EM_TBL_CFG 0 n] ∧ bits (t.reg (R.EM_TBL_CFG 0 n)).toNat 27 18 = bits v.toNat 27 18 ∧
      bits (t.reg (R.EM_TBL_CFG 0 n)).toNat 31 30 = bits v.toNat 31 30 ∧
      t.fld (R.EM_TBL_CFG 0 n) F.EM_TBL_CFG_WIDTH = wCode (bits v.toNat 27 21 + bits v.toNat 20 18) := by
  have code (m : Nat) : wCode m < 4 := by unfold wCode; split_ifs <;> decide
  refine ⟨s.tblCfg n v, (regWrite_emDesc rfl n.isLt ho).trans (congrArg Host.Outcome.next (if_pos (tblCfgOk_iff.mpr fits))),
    State.regsOnly.refl.setReg.onlyRegs (State.regsKept.refl.setReg List.mem_cons_self), ?_, ?_, ?_⟩
  · rw [State.tblCfg, reg_setReg_same]
    exact (getF_setF_below _ F.EM_TBL_CFG_WIDTH ⟨27, 18⟩ _ (by decide) (by decide) (by decide)).trans (bits_cfgWord v (by decide) (by decide))
  · rw [State.tblCfg, reg_setReg_same]
    exact (getF_setF_above _ F.EM_TBL_CFG_WIDTH ⟨31, 30⟩ _ (by decide) (by decide) (by decide)).trans (bits_cfgWord v (by decide) (by decide))
  · rw [State.tblCfg, State.fld, reg_setReg_same]
    exact (getF_setF _ _ _ (by decide) (by decide)).trans (Nat.mod_eq_of_lt (code _))

theorem emTblCfgWrite_refused (ho : s.open who (R.EM_TBL_CFG h n)) (unfit : ¬ s.cfgFits n v) :
    exec (.emTblCfgWrite who h n v) s = .next (s.violAt who.toNat 3 (R.EM_TBL_CFG h n)) :=
  (regWrite_emDesc rfl n.isLt ho).trans (congrArg Host.Outcome.next (if_neg fun ok => unfit (tblCfgOk_iff.mp ok)))

end

/-- Settles O35: each command by its run on the state that its order leaves, the load by its record, and the configuration registers by the
rules of their pages (R209, R214, R216, R218, R226–R231, R235, R237; assumption log 20, 25, 102, 103 and 124). -/
theorem exactMatchCommandsAndBulkLoadsAct : Obligations.ExactMatchCommandsAndBulkLoadsAct := by
  refine ⟨fun s who h v => ?_, fun s who h v n => ?_⟩
  · exact ⟨emNop_ends, fun p => emInsert_places, emInsert_exists, fun p e => emDelete_removes, fun p e l => emSearch_returns, emSearch_misses,
      fun p e => emModify_rewrites, fun p e => emViewAdd_adds, fun p e => emReadAt_returns, emReadAt_nowhere,
      ⟨emCtrRead_none, fun ok => emCtrRead_adds ok rfl⟩, emWritePage_writes, emWritePage_elsewhere, emCommands_refused, emCmdComplete_ends⟩
  · exact ⟨emBulkStart_refused, emBulkStart_starts, emBulkAbort_ends, emBulkAbort_late, emBulkRecord_idle, emBulkRecord_continues,
      emBulkRecord_ends, emSeedWrite_stores, emSeedWrite_refused, emTblCfgWrite_stores, emTblCfgWrite_refused⟩

end Sys2Proof.Machine
end
